-- ==== Sys2Proof/Word.lean ====
section
/-! DEFINITION. The word and byte types and their plainest arithmetic (R7: registers are 32 bits wide). -/

namespace Sys2Proof

/-- A 32-bit register word (R7). -/
abbrev Word := BitVec 32

/-- One byte. -/
abbrev Byte := BitVec 8

/-- A word from a natural number, modulo 2^32. -/
abbrev w32 (n : Nat) : Word := BitVec.ofNat 32 n

/-- A word from an integer, modulo 2^32 (two's complement). -/
def w32i (n : Int) : Word := BitVec.ofInt 32 n

end Sys2Proof
end

