-- ==== Sys2Proof/Machine/Names.lean ====
section
/-! DEFINITION. The named codes of the device: modes (R94), axis states (R99), pair states (R296), slot states,
port states, journal modes, fault codes (R180), with their register codes. -/

namespace Sys2Proof

/-- The twelve device modes (R94). -/
inductive Mode where
  | dormant | selftest | configure | standby | armed | run | transport | calibrate | service | degraded | safe | lockout
  deriving DecidableEq, Repr

/-- The code of a mode in SYS_MODE.MODE (R94). -/
def Mode.code : Mode → Nat
  | .dormant => 0 | .selftest => 1 | .configure => 2 | .standby => 3 | .armed => 4 | .run => 5
  | .transport => 6 | .calibrate => 7 | .service => 8 | .degraded => 9 | .safe => 10 | .lockout => 11

/-- The mode of a code; codes 12 to 15 name none (R94). -/
def Mode.ofCode : Nat → Option Mode
  | 0 => some .dormant | 1 => some .selftest | 2 => some .configure | 3 => some .standby | 4 => some .armed
  | 5 => some .run | 6 => some .transport | 7 => some .calibrate | 8 => some .service | 9 => some .degraded
  | 10 => some .safe | 11 => some .lockout | _ => none

/-- The fourteen axis states (R99). -/
inductive AxState where
  | off | probe | hiz | catch_ | align | ramp | sixstep | handover | dtc | decel | test | recover | fault | absent
  deriving DecidableEq, Repr

/-- The code of an axis state in CU_STATE.STATE and SYS_AXST (R99). -/
def AxState.code : AxState → Nat
  | .off => 0 | .probe => 1 | .hiz => 2 | .catch_ => 3 | .align => 4 | .ramp => 5 | .sixstep => 6 | .handover => 7
  | .dtc => 8 | .decel => 9 | .test => 10 | .recover => 11 | .fault => 12 | .absent => 13

/-- The axis state of a code; the register holds codes 0 to 13 only, and 14 and 15 are read as ABSENT (R99). -/
def AxState.ofCode : Nat → AxState
  | 0 => .off | 1 => .probe | 2 => .hiz | 3 => .catch_ | 4 => .align | 5 => .ramp | 6 => .sixstep | 7 => .handover
  | 8 => .dtc | 9 => .decel | 10 => .test | 11 => .recover | 12 => .fault | _ => .absent

/-- OFF, FAULT or ABSENT: at rest for mode changes, resets and the journal (R95, R98, R106). -/
def AxState.atRest : AxState → Bool
  | .off | .fault | .absent => true
  | _ => false

/-- The states that drive the bridge (R98, R178): every state but OFF, HIZ, FAULT and ABSENT. -/
def AxState.driving : AxState → Bool
  | .off | .hiz | .fault | .absent => false
  | _ => true

/-- The states a restart set is made of (R305). -/
def AxState.restartable : AxState → Bool
  | .recover | .catch_ | .align | .ramp | .sixstep | .handover | .dtc => true
  | _ => false

/-- The states in which the split dead-time delays are in force (R119). -/
def AxState.split : AxState → Bool
  | .probe | .catch_ | .align | .ramp | .test | .recover => true
  | _ => false

/-- The modes that permit an axis state (R99). DECEL is also permitted during a stop under R98, which the caller says. -/
def AxState.permitted (st : AxState) (m : Mode) : Bool :=
  match st with
  | .off => true
  | .probe => m = .armed || m = .run || m = .calibrate || m = .service || m = .degraded
  | .hiz => !(m = .dormant || m = .selftest)
  | .catch_ | .align | .ramp | .sixstep | .handover | .dtc | .decel | .recover =>
    m = .run || m = .service || m = .degraded
  | .test => m = .calibrate || m = .service
  | .fault | .absent => !(m = .dormant)

/-- The modes in which the power domain runs (R94). -/
def Mode.power : Mode → Bool
  | .armed | .run | .calibrate | .service | .degraded => true
  | _ => false

/-- The states of a lock-step pair in LSS_PAIRST (R296). -/
inductive PairState where
  | active | spare | failed | split | reset
  deriving DecidableEq, Repr

/-- The code of a pair state (R296). -/
def PairState.code : PairState → Nat
  | .active => 0 | .spare => 1 | .failed => 2 | .split => 3 | .reset => 4

/-- The pair state of a code; the register holds codes 0 to 4 only. -/
def PairState.ofCode : Nat → PairState
  | 0 => .active | 1 => .spare | 2 => .failed | 3 => .split | _ => .reset

/-- Who issues an access to the fabric (R23). -/
inductive Master where
  | pair (p : Fin 5)
  | engine (e : Fin 8)
  | scu
  | debug
  deriving DecidableEq, Repr

/-- The four CU commands of R178 and REVERSE, with their CMD codes. -/
inductive CuCmd where
  | start | stop | coast | clear | reverse
  deriving DecidableEq, Repr

/-- Where a sample frame's result belongs: a sequence entry, or a half of an urgent request (R138). -/
inductive SampleDest where
  | seq (x : Fin 2) (n : Fin 32)
  | urgent (p : Fin 4) (k : Fin 6)
  deriving DecidableEq, Repr

/-- The identity memory of a cartridge (R49, R50, R137, R156, R338): whether its record checks pass and its calibration
record is there, step letter (A = 1) and digit, serial number, the trims of both converters and of every channel (raw
fields: OFS and GAIN of A and of B, SKEW of B, CHCAL words), the calibration temperature, and the wear counters. -/
structure Ident where
  crcOk : Bool := true
  calOk : Bool := true
  letter : Nat := 2
  digit : Nat := 2
  serial : Nat := 0
  ofsA : Nat := 0
  gainA : Nat := 0
  ofsB : Nat := 0
  gainB : Nat := 0
  skewB : Nat := 0
  chcal : List Nat := []
  calt : Nat := 0
  hours : List Nat := [0, 0, 0, 0]
  insertions : Nat := 0
  fuseStress : Nat := 0
  deriving DecidableEq, Repr

/-- What the PSE measures (R65, R72, R74): link and terminal voltages in 2 mV, the LOGIC voltage in mV, input currents in
10 mA, base-plate temperature in 0.1 °C, and per axis (in axis order) link-side and rms phase current in 10 mA. -/
structure PseMeas where
  vlink : Fin 65536
  vdca : Fin 65536
  vdcb : Fin 65536
  vlogic : Fin 65536
  ia : Int
  ib : Int
  tbase : Int
  link : List Int
  rms : List Nat
  deriving DecidableEq, Repr

/-- What SELFTEST finds (R104, R105): the sequencer cross-check, the pairs whose comparator and RAM tests passed, shared
SRAM and coefficient memory, capture RAM, and the milliseconds it took. -/
structure SelfTest where
  ssqOk : Bool
  pairOk : Fin 32
  ramOk : Bool
  capOk : Bool
  ms : Nat
  deriving DecidableEq, Repr

/-- How an attempt to send a CAN frame ends (R395): sent, lost arbitration, not acknowledged, or with another error by its
CAN_STAT.LEC code. -/
inductive TxEnd where
  | sent | lostArb | ackError
  | error (lec : Fin 8)
  deriving DecidableEq, Repr

/-- A logic source (R60). -/
inductive Supply where
  | none_ | main | backup
  deriving DecidableEq, Repr

/-- The PSE_STAT.SRC code of a source (R60). -/
def Supply.code : Supply → Nat
  | .none_ => 0 | .main => 1 | .backup => 2

/-- What becomes of a transport session (R370, R375): requested with its size, by ETP or TP, broadcast or not, for a PGN, as
an IMAGESEG message or not; received whole; aborted or timed out. -/
inductive TpEvent where
  | request (size : Nat) (etp bam imageSeg : Bool) (pgn : Fin 262144)
  | done
  | abort
  deriving DecidableEq, Repr

/-- The check of a control message (R387): the CRC-16 a short form carries, or the verdict on the CRC-32C of a long form. -/
inductive Check where
  | short (crc : Fin 65536)
  | long (ok : Bool)
  deriving DecidableEq, Repr

/-- What every control message has (R387): the link it came by (0 ISOBUS, 1 PL0, 2 PL1), the sender's address or node, SEQ
and the check. -/
structure Ctl where
  link : Fin 3
  src : Fin 256
  seq : Fin 256
  chk : Check
  deriving DecidableEq, Repr

end Sys2Proof
end

