-- ==== Sys2Proof/Syntax.lean ====
section
/-! DEFINITION. The commands the block takes: one constructor per row of the opcode table, the pairs' instructions
first (Lean compiles values of the first 244 constructors of a type only), each with the row's
operands. What the environment decides (a measured value, an outcome of a transfer, a check of a frame) is an operand too
(DESIGN CHOICE, log 2). -/

namespace Sys2Proof

/-- A command. -/
inductive Instr where
  /-- ADD (R259): Integer add, modulo 2^32. -/
  | add (p : Fin 5) (gd ga gb : Fin 32)
  /-- SUB (R259): Integer subtract, modulo 2^32. -/
  | sub (p : Fin 5) (gd ga gb : Fin 32)
  /-- AND (R259): Bitwise and. -/
  | and (p : Fin 5) (gd ga gb : Fin 32)
  /-- OR (R259): Bitwise or. -/
  | or (p : Fin 5) (gd ga gb : Fin 32)
  /-- XOR (R259): Bitwise exclusive or. -/
  | xor (p : Fin 5) (gd ga gb : Fin 32)
  /-- NOR (R259): Bitwise not-or. -/
  | nor (p : Fin 5) (gd ga gb : Fin 32)
  /-- SLT (R259): Signed set-less-than. -/
  | slt (p : Fin 5) (gd ga gb : Fin 32)
  /-- SLTU (R259): Unsigned set-less-than. -/
  | sltu (p : Fin 5) (gd ga gb : Fin 32)
  /-- SLL (R259): Shift left by a register amount. -/
  | sll (p : Fin 5) (gd ga gb : Fin 32)
  /-- SRL (R259): Logical shift right by a register amount. -/
  | srl (p : Fin 5) (gd ga gb : Fin 32)
  /-- SRA (R259): Arithmetic shift right by a register amount. -/
  | sra (p : Fin 5) (gd ga gb : Fin 32)
  /-- SLLI (R259): Shift left by an immediate amount. -/
  | slli (p : Fin 5) (gd ga sh : Fin 32)
  /-- SRLI (R259): Logical shift right by an immediate amount. -/
  | srli (p : Fin 5) (gd ga sh : Fin 32)
  /-- SRAI (R259): Arithmetic shift right by an immediate amount. -/
  | srai (p : Fin 5) (gd ga sh : Fin 32)
  /-- MUL (R259): Low 32 bits of a product. -/
  | mul (p : Fin 5) (gd ga gb : Fin 32)
  /-- MULH (R259): High 32 bits of a signed product. -/
  | mulh (p : Fin 5) (gd ga gb : Fin 32)
  /-- MULHU (R259): High 32 bits of an unsigned product. -/
  | mulhu (p : Fin 5) (gd ga gb : Fin 32)
  /-- DIV (R259): Signed division with defined results for a zero divisor and overflow. -/
  | div (p : Fin 5) (gd ga gb : Fin 32)
  /-- DIVU (R259): Unsigned division. -/
  | divu (p : Fin 5) (gd ga gb : Fin 32)
  /-- REM (R259): Signed remainder. -/
  | rem (p : Fin 5) (gd ga gb : Fin 32)
  /-- REMU (R259): Unsigned remainder. -/
  | remu (p : Fin 5) (gd ga gb : Fin 32)
  /-- MIN (R259): Signed minimum. -/
  | min (p : Fin 5) (gd ga gb : Fin 32)
  /-- MAX (R259): Signed maximum. -/
  | max (p : Fin 5) (gd ga gb : Fin 32)
  /-- CLZ (R259): Count of leading zeros. -/
  | clz (p : Fin 5) (gd ga : Fin 32)
  /-- ADDI (R259): Add a sign-extended immediate. -/
  | addi (p : Fin 5) (gd ga : Fin 32) (imm : BitVec 16)
  /-- SLTI (R259): Signed set-less-than against an immediate. -/
  | slti (p : Fin 5) (gd ga : Fin 32) (imm : BitVec 16)
  /-- SLTIU (R259): Unsigned set-less-than against an immediate. -/
  | sltiu (p : Fin 5) (gd ga : Fin 32) (imm : BitVec 16)
  /-- ANDI (R259): And with a zero-extended immediate. -/
  | andi (p : Fin 5) (gd ga : Fin 32) (imm : BitVec 16)
  /-- ORI (R259): Or with a zero-extended immediate. -/
  | ori (p : Fin 5) (gd ga : Fin 32) (imm : BitVec 16)
  /-- XORI (R259): Exclusive or with a zero-extended immediate. -/
  | xori (p : Fin 5) (gd ga : Fin 32) (imm : BitVec 16)
  /-- LUI (R259): Load an immediate into the upper half. -/
  | lui (p : Fin 5) (gd : Fin 32) (imm : BitVec 16)
  /-- LW (R260): Load a word, subject to alignment, privilege and bus checks. -/
  | lw (p : Fin 5) (gd ga : Fin 32) (imm : BitVec 16) (ecc : Bool)
  /-- LH (R260): Load a sign-extended halfword. -/
  | lh (p : Fin 5) (gd ga : Fin 32) (imm : BitVec 16) (ecc : Bool)
  /-- LHU (R260): Load a zero-extended halfword. -/
  | lhu (p : Fin 5) (gd ga : Fin 32) (imm : BitVec 16) (ecc : Bool)
  /-- LB (R260): Load a sign-extended byte. -/
  | lb (p : Fin 5) (gd ga : Fin 32) (imm : BitVec 16) (ecc : Bool)
  /-- LBU (R260): Load a zero-extended byte. -/
  | lbu (p : Fin 5) (gd ga : Fin 32) (imm : BitVec 16) (ecc : Bool)
  /-- SW (R260): Store a word, subject to alignment, privilege and write-rights checks. -/
  | sw (p : Fin 5) (gs ga : Fin 32) (imm : BitVec 16)
  /-- SH (R260): Store a halfword. -/
  | sh (p : Fin 5) (gs ga : Fin 32) (imm : BitVec 16)
  /-- SB (R260): Store a byte. -/
  | sb (p : Fin 5) (gs ga : Fin 32) (imm : BitVec 16)
  /-- BEQ (R261): Branch if equal. -/
  | beq (p : Fin 5) (ga gb : Fin 32) (off : BitVec 16)
  /-- BNE (R261): Branch if not equal. -/
  | bne (p : Fin 5) (ga gb : Fin 32) (off : BitVec 16)
  /-- BLT (R261): Branch if less, signed. -/
  | blt (p : Fin 5) (ga gb : Fin 32) (off : BitVec 16)
  /-- BGE (R261): Branch if greater or equal, signed. -/
  | bge (p : Fin 5) (ga gb : Fin 32) (off : BitVec 16)
  /-- BLTU (R261): Branch if less, unsigned. -/
  | bltu (p : Fin 5) (ga gb : Fin 32) (off : BitVec 16)
  /-- BGEU (R261): Branch if greater or equal, unsigned. -/
  | bgeu (p : Fin 5) (ga gb : Fin 32) (off : BitVec 16)
  /-- J (R261): Jump relative. -/
  | j (p : Fin 5) (off : BitVec 26)
  /-- JAL (R261): Jump relative and link into g31. -/
  | jal (p : Fin 5) (off : BitVec 26)
  /-- JALR (R261): Jump to a register target and link. -/
  | jalr (p : Fin 5) (gd ga : Fin 32) (imm : BitVec 16)
  /-- MULA (R262): Load an accumulator with a signed product. -/
  | mula (p : Fin 5) (acd : Fin 4) (ga gb : Fin 32)
  /-- MAC (R262): Saturating multiply-accumulate. -/
  | mac (p : Fin 5) (acd : Fin 4) (ga gb : Fin 32)
  /-- MSU (R262): Saturating multiply-subtract. -/
  | msu (p : Fin 5) (acd : Fin 4) (ga gb : Fin 32)
  /-- MACU (R262): Unsigned wrapping multiply-accumulate. -/
  | macu (p : Fin 5) (acd : Fin 4) (ga gb : Fin 32)
  /-- FMAC (R262): Fixed-point shifted multiply-accumulate with rounding and saturation. -/
  | fmac (p : Fin 5) (acd : Fin 4) (ga gb : Fin 32) (k : Fin 64)
  /-- BMAC (R262): Block-float mantissa multiply-accumulate with alignment shift. -/
  | bmac (p : Fin 5) (acd : Fin 4) (ga gb : Fin 32) (k : Fin 64)
  /-- ACRD (R262): Round, shift and saturate an accumulator into a register. -/
  | acrd (p : Fin 5) (gd : Fin 32) (acs : Fin 4) (k : Fin 64)
  /-- ACLO (R262): Read the low word of an accumulator. -/
  | aclo (p : Fin 5) (gd : Fin 32) (acs : Fin 4)
  /-- ACHI (R262): Read the high word of an accumulator. -/
  | achi (p : Fin 5) (gd : Fin 32) (acs : Fin 4)
  /-- ACLD (R262): Load an accumulator from two registers. -/
  | acld (p : Fin 5) (acd : Fin 4) (ga gb : Fin 32)
  /-- ACMOV (R262): Copy one accumulator to another. -/
  | acmov (p : Fin 5) (acd acs : Fin 4)
  /-- BEXP (R262): Compute the block-float renormalising shift of an accumulator. -/
  | bexp (p : Fin 5) (gd : Fin 32) (acs : Fin 4)
  /-- BMANT (R262): Form a saturated 24-bit mantissa from an accumulator and a shift. -/
  | bmant (p : Fin 5) (gd : Fin 32) (acs : Fin 4) (gb : Fin 32)
  /-- ASWAP (R264): Atomic swap. -/
  | aswap (p : Fin 5) (gd ga gb : Fin 32) (ecc : Bool)
  /-- AADD (R264): Atomic add. -/
  | aadd (p : Fin 5) (gd ga gb : Fin 32) (ecc : Bool)
  /-- AAND (R264): Atomic and. -/
  | aand (p : Fin 5) (gd ga gb : Fin 32) (ecc : Bool)
  /-- AOR (R264): Atomic or. -/
  | aor (p : Fin 5) (gd ga gb : Fin 32) (ecc : Bool)
  /-- ACAS (R264): Atomic compare-and-swap. -/
  | acas (p : Fin 5) (gd ga gb : Fin 32) (ecc : Bool)
  /-- CWR (R265): Read a control word, subject to privilege. -/
  | cwr (p : Fin 5) (g : Fin 32) (index : Fin 4096)
  /-- CWW (R265): Write a control word, subject to privilege. -/
  | cww (p : Fin 5) (g : Fin 32) (index : Fin 4096)
  /-- SYSC (R266): Raise a system-call exception with a code. -/
  | sysc (p : Fin 5) (code : Fin 1048576)
  /-- ERET (R266): Return from an exception, restoring PSW and PC. -/
  | eret (p : Fin 5)
  /-- BRK (R266): Halt the pair for debug if armed and permitted, splitting it; otherwise raise a breakpoint
    exception. -/
  | brk (p : Fin 5) (code : Fin 1048576)
  /-- WEV (R267): Begin waiting for a wait-delivered event or a deadline, retiring at once if one is present. -/
  | wev (p : Fin 5) (gd ga : Fin 32) (t : Bool)
  /-- WEV_RETIRE (R267): A waiting WEV retires with an event number or with the deadline code. -/
  | wevRetire (p : Fin 5)
  /-- PEAL (R268): The PEAL instruction casts this pair's vote in the running peal and returns a code. -/
  | peal (p : Fin 5) (gd ga : Fin 32) (w : Bool)
  /-- PEAL_WAIT_END (R268): A PEAL with W = 1 stops waiting at PEAL_DONE and returns the result. -/
  | pealWaitEnd (p : Fin 5)
  /-- LEL_REFGO (R269): The LEL REFGO command commits the staged references of the loops named. -/
  | lelRefgo (p : Fin 5) (ga gb : Fin 32)
  /-- LEL_COMMIT (R269): The LEL COMMIT command commits the loops named. -/
  | lelCommit (p : Fin 5) (ga gb : Fin 32)
  /-- LEL_PROOF (R269): The LEL PROOF command starts a proof of a loop. -/
  | lelProof (p : Fin 5) (ga gb : Fin 32)
  /-- LEL_SCHCMT (R269): The LEL SCHCMT command commits the galley schedule. -/
  | lelSchcmt (p : Fin 5) (ga gb : Fin 32)
  /-- INTERRUPT (R273): A presented interrupt-delivered event is taken at an instruction boundary. -/
  | interrupt (p : Fin 5)
  /-- ILLEGAL_INSTRUCTION (R258): A pair executes a word with an undefined opcode or function, a nonzero zero field,
    0x0000_0000 or 0xFFFF_FFFF, and raises an illegal-instruction exception. -/
  | illegalInstruction (p : Fin 5) (w : Word)
  /-- FETCH_FAULT (R270): An instruction fetch from a non-executable region, or with an uncorrectable ECC error,
    raises a bus-error exception with F = 1 before any instruction word is known. -/
  | fetchFault (p : Fin 5) (ecc : Bool)
  /-- REGISTER_WRITE (R8): A write to a register that has no row of its own, checked against the block's allowed
    writers, performed or refused with a bus error, and ordered by R23 when several arrive in one cycle. -/
  | registerWrite (m : Master) (addr w : Word)
  /-- SAMPLE_FRAME (R16): A sample frame arrives from a cartridge; it is CRC-checked and either updates its result
    register with value and sampling instant or is discarded. -/
  | sampleFrame (q : Fin 16) (dest : SampleDest) (raw : Fin 16384) (crcOk : Bool)
  /-- GATE_FRAME (R16): A gate frame arrives at a cartridge; if its CRC holds, its gate states take effect, otherwise
    the last valid states are kept. -/
  | gateFrame (q : Fin 16) (crcOk : Bool)
  /-- STATUS_FRAME (R16): A status frame with desaturation, over-current, fuse, gate-supply and temperature flags
    arrives from a cartridge and is CRC-checked. -/
  | statusFrame (q desat oc gsuv : Fin 16) (fuse hot crcOk : Bool)
  /-- GATE_REFRESH (R16): With no gate change due within 40 ns, the core sends an idle gate frame to each present
    cartridge. -/
  | gateRefresh (q : Fin 16)
  /-- LINK_WATCHDOG (R16): A cartridge receives no valid gate frame for 100 ns and puts all its gates into high
    impedance, latching LINK. -/
  | linkWatchdog (q : Fin 16)
  /-- LINK_ERROR_RATE (R16): The 16th CRC failure within 1 ms faults the whole quad and raises QUAD_FAULT. -/
  | linkErrorRate (q : Fin 16)
  /-- ID_POLARITY_REVERSE (R416): At every multiple of 100,000 counts, pin 5 of every port reverses its polarity. -/
  | idPolarityReverse
  /-- ID_DECODE (R33): At the end of each negative half, each port is decoded into a coding-resistor code and a motor
    temperature. -/
  | idDecode (a : Fin 64) (ohms : ℕ) (temp : Option ℤ)
  /-- PORT_PLUG (R34): A third consecutive agreeing decoding changes the port status and raises PORT_PLUG. -/
  | portPlug (a : Fin 64)
  /-- PROBE_START (R36): An OFF axis whose port is IDENTIFIED enters PROBE, with the bridge in high impedance, once
    the power domain is up. -/
  | probeStart (a : Fin 64)
  /-- PROBE_MEASURE_END (R37): The 1 ms induced-voltage measurement of PROBE ends and is judged for turning and
    missing phases. -/
  | probeMeasureEnd (a : Fin 64) (e du dv dw : Fin 16384)
  /-- PROBE_PULSE (R37): A PROBE test current pulse (U to V, V to W or W to U) is applied 200 µs after the previous
    one. -/
  | probePulse (a : Fin 64) (iu iw : ℤ)
  /-- PROBE_VERDICT (R37): The PROBE verdict takes the axis to OFF, reports PROBE_FAILED, or raises MISSING_PHASE and
    goes to FAULT. -/
  | probeVerdict (a : Fin 64)
  /-- FAULT_CLEAR_NO_MOTOR (R39): After three agreeing NO_MOTOR decodings made since it entered FAULT, an axis leaves
    FAULT for OFF. -/
  | faultClearNoMotor (a : Fin 64)
  /-- HALL_OVERLOAD (R35): An overloaded Hall supply switches off and reports the overload, or raises MISSING_PHASE
    when Hall commutation is in use. -/
  | hallOverload (a : Fin 64)
  /-- HALL_RETRY (R35): Every 100 ms, a Hall supply that was switched off by overload retries. -/
  | hallRetry (a : Fin 64)
  /-- HALL_EDGE (R175): A filtered Hall input edge is timestamped and mapped to a step, and may drive a commutation.
    -/
  | hallEdge (a : Fin 64) (code : Fin 8)
  /-- HALL_INVALID (R175): An invalid Hall code held for 10 µs faults the axis with HALL_INVALID. -/
  | hallInvalid (a : Fin 64)
  /-- AUX_OUT_WRITE (R40): A write of AUX_OUT requests outputs on or off and switches the group high sides. -/
  | auxOutWrite (m : Master) (w : Word)
  /-- AUX_HIGHSIDE_OFF (R40): 1 ms after the last output of a group turns off, the group's high side turns off. -/
  | auxHighsideOff (g : Fin 4)
  /-- AUX_PULLIN_END (R41): An output's pull-in time expires and it passes to 1 kHz hold switching. -/
  | auxPullinEnd (n : Fin 16)
  /-- AUX_DIAG_RUN (R42): Every 100 ms, an idle group starts its open-load and short diagnostic run. -/
  | auxDiagRun (g : Fin 4)
  /-- AUX_DIAG_DONE (R42): A 2 ms diagnostic run completes and its open-load results are reported. -/
  | auxDiagDone (g : Fin 4) (found : Fin 16)
  /-- AUX_SHORT_TRIP (R43): A short on an output or common trips that group's high side within 20 µs and raises event
    1013. -/
  | auxShortTrip (g : Fin 4)
  /-- AUX_TRIPCLR (R43): A write of AUX_TRIPCLR clears TRIPg and re-enables the group's high side. -/
  | auxTripclr (m : Master) (w : Word)
  /-- GSP_EDGE (R44): A filtered rising edge on GSP updates GSP_PERIOD. -/
  | gspEdge
  /-- GSP_TIMEOUT (R44): When no GSP edge has come for 2 s, GSP_PERIOD is set to 0xFFFF_FFFF. -/
  | gspTimeout
  /-- SYNC_IN_EDGE (R85): A rising edge on SYNC IN is timestamped and counted towards qualification and the phase
    error. -/
  | syncInEdge (ns : ℕ)
  /-- SYNC_OUT_EDGE (R91): SYNC OUT gives a rising edge at each device time that satisfies its offset and period. -/
  | syncOutEdge
  /-- FAULT_LINE_ASSERT (R46): FAULT_N reads asserted and every bridge is released within 200 ns, with LINE latched.
    -/
  | faultLineAssert
  /-- FAULT_LINE_RELEASE (R305): FAULT_N is released, which allows re-arming and the restart set. -/
  | faultLineRelease
  /-- JTAG_BYPASS (R47): The BYPASS instruction on the test access port. -/
  | jtagBypass
  /-- JTAG_IDCODE (R47): The IDCODE instruction returns 0x0644_8D63. -/
  | jtagIdcode
  /-- JTAG_SAMPLE_PRELOAD (R47): The SAMPLE/PRELOAD instruction on the boundary chain. -/
  | jtagSamplePreload (w : ℕ)
  /-- JTAG_EXTEST (R47): The EXTEST instruction, performed only in SERVICE with every axis OFF or ABSENT, and
    otherwise behaving as BYPASS. -/
  | jtagExtest
  /-- DEBUG_ACCESS (R47): An access to the memory map by the SERVICE debug protocol, possible only in SERVICE mode. -/
  | debugAccess (write : Bool) (addr w : Word)
  /-- DEBUG_HALT_REQUEST (R311): A debug request to halt a pair, performed under the halt conditions or refused. -/
  | debugHaltRequest (p : Fin 5)
  /-- UNLOCK (R107): The console command unlock with the serial-number digits clears the LOCKOUT latch and performs a
    warm reset, or is refused. -/
  | unlock (digits : Fin 1000000) (jnlOk : Bool)
  /-- CARTCAL (R337): The console command cartcal writes the live TRIM record of a cartridge into its identity memory.
    -/
  | cartcal (q : Fin 16)
  /-- CONSOLE_MODE_REQUEST (R95): The SERVICE console requests SERVICE or STANDBY. -/
  | consoleModeRequest (service : Bool)
  /-- CONSOLE_WARM_RESET (R106): The SERVICE console requests a warm reset. -/
  | consoleWarmReset (jnlOk : Bool)
  /-- KEY_SELECT (R52): A SELECT press steps the slot selection to the next occupied slot. -/
  | keySelect (keys : Fin 8)
  /-- SELECTION_LAPSE (R52): The slot selection lapses 10 s after the last key press. -/
  | selectionLapse
  /-- RELEASE_HOLD (R52): RELEASE held for 2 s requests release of the selected slot, refused under R53 or journalled
    with event 1009. -/
  | releaseHold (keys : Fin 8)
  /-- KEY_ACK (R52): An ACK press on a selected SAFE slot within 30 s opens the lock, and the slot becomes UNLOCKED.
    -/
  | keyAck (keys : Fin 8)
  /-- CSL_REL (R52): A write of CSL_REL with GO starts a release of the named slot, or the request is refused. -/
  | cslRel (m : Master) (w : Word)
  /-- SEGMENT_OPEN (R52): With every axis at rest and back-EMF below 2 V for 100 ms, the cartridge opens its segment
    switch and bleeds the segment. -/
  | segmentOpen (q : Fin 16)
  /-- QUAD_SAFE (R52): The segment falls below 5 V; the slot becomes SAFE and the lamp turns amber steady. -/
  | quadSafe (q : Fin 16)
  /-- RELEASE_TIMEOUT (R53): The release is not complete within CSL_RTO and is abandoned; the segment is precharged
    again and the slot returns to ACCEPTED. -/
  | releaseTimeout (q : Fin 16)
  /-- ACK_TIMEOUT (R53): No ACK comes within 30 s of SAFE; the lock closes and the slot is taken through acceptance
    again. -/
  | ackTimeout (q : Fin 16)
  /-- WITHDRAW_TIMEOUT (R53): The cartridge is not withdrawn within 60 s of unlocking; the lock closes and acceptance
    runs again. -/
  | withdrawTimeout (q : Fin 16)
  /-- PRESENCE_MAKE (R50): The presence contacts of a slot make on insertion. -/
  | presenceMake (q : Fin 16) (i : Ident)
  /-- CARTRIDGE_CHECK_START (R50): Presence has been stable for 10 ms; the slot enters CHECKING and raises event 1010.
    -/
  | cartridgeCheckStart (q : Fin 16)
  /-- IDENTITY_READ (R50): The identity memory has been read and its CRCs and step checked. -/
  | identityRead (q : Fin 16)
  /-- SEGMENT_PRECHARGE_DONE (R50): The cartridge's DC segment precharge completes, the segment switch closes and the
    fuse is checked. -/
  | segmentPrechargeDone (q : Fin 16) (ok fuse : Bool)
  /-- ACCEPTANCE_RESUME (R104): An acceptance waiting in CHECKING resumes once PSE_VLINK reaches 32.0 V. -/
  | acceptanceResume (q : Fin 16) (v : Fin 65536)
  /-- CARTRIDGE_ACCEPT (R50): Gate supplies are up and the link is in service; the cartridge is accepted, locked, its
    trims loaded, and its axes go from ABSENT to OFF. -/
  | cartridgeAccept (q : Fin 16) (linkOk : Bool)
  /-- CARTRIDGE_REMOVED (R17): The cartridge leaves its slot; its axes become ABSENT, its ports NO_MOTOR, and claims
    on them end. -/
  | cartridgeRemoved (q : Fin 16)
  /-- INPUT_PRECHARGE_START (R55): An input at 20 V or more begins precharging the internal link at no more than 4 A.
    -/
  | inputPrechargeStart (x : Fin 2) (v : Fin 65536)
  /-- INPUT_CONNECT (R55): The link is within 1.0 V of the input and its main switch closes. -/
  | inputConnect (x : Fin 2) (v link : Fin 65536)
  /-- PRECHARGE_TIMEOUT (R55): Precharge has not completed within 250 ms; the input opens, sets OCx and raises
    INPUT_TRIP. -/
  | prechargeTimeout (x : Fin 2)
  /-- INPUT_RETRY (R57): 5 s after opening, an input reconnects through precharge. -/
  | inputRetry (x : Fin 2) (v : Fin 65536)
  /-- INPUT_OVERCURRENT (R57): Input current above 250 A for 50 µs opens that input's main switch and raises
    INPUT_TRIP. -/
  | inputOvercurrent (x : Fin 2)
  /-- REVERSE_CURRENT_BLOCK (R56): Reverse current above 50 A makes the main switch block reverse current until the
    link is no longer above the terminal. -/
  | reverseCurrentBlock (x : Fin 2)
  /-- SEGMENT_TRIP (R58): Segment current above 180 A for 10 µs opens the segment switch and faults the quad, raising
    SEGMENT. -/
  | segmentTrip (q : Fin 16)
  /-- SEGMENT_RECLOSE (R58): A write of PSE_SEGRC requests precharge and reclosure of a segment switch; it is ignored
    unless the quad is at rest. -/
  | segmentReclose (m : Master) (w : Word)
  /-- FUSE_OPEN (R59): The segment voltage falls below 5 V while the link stays above it; FUSEOK clears and the quad
    faults. -/
  | fuseOpen (q : Fin 16)
  /-- SUPPLY_SWITCH (R61): The logic source changes between LOGIC main and backup within 20 µs, without reset. -/
  | supplySwitch (main : Bool) (vlogic va vb : Fin 65536)
  /-- HOLDUP (R62): With no logic source for 10 µs, hold-up is confirmed: knell to all axes, the journal is sealed,
    and shutdown begins. -/
  | holdup
  /-- HOLDUP_END (R63): At 12 ms of hold-up the logic domain goes off, or a power-on reset follows from a source
    present. -/
  | holdupEnd (src : Supply) (jnlOk : Bool)
  /-- ALWAYS_ON_LOSS (R81): Both domains lose power and device time is lost. -/
  | alwaysOnLoss
  /-- LINK_UV (R66): The link below 28.0 V for 100 µs raises LINK_UV and faults every energised axis. -/
  | linkUv (v : Fin 65536)
  /-- LINK_OV (R66): The link above 65.0 V for 10 µs raises LINK_OV, releases every bridge and faults the energised
    axes. -/
  | linkOv (v : Fin 65536)
  /-- LINK_CONDITION_CLEAR (R66): The link between 32.0 and 60.0 V for 100 ms clears UV or OV, and the faulted axes go
    to OFF. -/
  | linkConditionClear (v : Fin 65536)
  /-- VDECEL (R67): The link rises through V_DECEL and decelerating axes scale their rate. -/
  | vdecel (v : Fin 65536)
  /-- REGEN0_CROSS (R67): The link crosses V_REGEN0, and regenerative torque is set to zero or restored. -/
  | regen0Cross (v : Fin 65536)
  /-- CLAMP_ON (R67): The link reaches V_CLAMP_ON with CLMPEN set and the CLAMP switch turns on. -/
  | clampOn (v : Fin 65536)
  /-- CLAMP_OFF (R67): The link falls below V_CLAMP_OFF and CLAMP turns off. -/
  | clampOff (v : Fin 65536)
  /-- THRESHOLD_WRITE (R68): A write of PSE_VTHR0 or PSE_VTHR1 is checked against the threshold order and performed,
    or refused with THRERR. -/
  | thresholdWrite (m : Master) (one : Bool) (w : Word)
  /-- CLAMP_FAULT (R69): The CLAMP credit is exhausted; the switch is pulsed at 1 kHz and every axis coasts. -/
  | clampFault
  /-- CLAMP_CREDIT_RESTORED (R69): The CLAMP credit returns above 50 %; pulsing and coasting end and CLAMPLIM clears.
    -/
  | clampCreditRestored
  /-- THERMAL (R71): The base plate rises above 60 °C; derating begins and THERMAL is raised. -/
  | thermal (t : ℤ)
  /-- OVTEMP (R71): The base plate reaches 90 °C; every turning axis is decelerated and the device enters SAFE. -/
  | ovtemp (t : ℤ)
  /-- OVTEMP_CLEAR (R71): The base plate falls below 80 °C and OVTEMP clears. -/
  | ovtempClear (t : ℤ)
  /-- POWER_CREDIT_EXHAUSTED (R71): The module power credit runs out and the power limit falls from P_PEAK to P_CONT.
    -/
  | powerCreditExhausted
  /-- INPUT_CREDIT_EXHAUSTED (R72): An input's current credit runs out and its limit falls from 200 A to 125 A. -/
  | inputCreditExhausted (x : Fin 2)
  /-- PEAK_CREDIT_EXHAUSTED (R74): A drive's peak credit runs out and RATED becomes its continuous current, with
    PEAKOUT set. -/
  | peakCreditExhausted (a : Fin 64)
  /-- RIPPLE (R73): The 100 ms average of bank ripple exceeds 150 A and RSCALE is lowered. -/
  | ripple (irip avg : Fin 65536)
  /-- ARBITRATION (R74): Every 10 µs the arbiter computes and distributes the link-side current ceilings of all
    drives. -/
  | arbitration (v : PseMeas)
  /-- PLL_LOCK (R79): PLL-A and PLL-B lock from the RC oscillator. -/
  | pllLock
  /-- DEVICE_TIME_START (R81): At the first crystal tick after lock, device time starts at 0 or resumes from the
    accumulator, and the pairs are released. -/
  | deviceTimeStart (add : ℕ)
  /-- PLL_LOSS (R83): A PLL out of lock for 1 µs raises TIME_FAULT, knells all axes and enters SAFE. -/
  | pllLoss (a b : Bool)
  /-- CRYSTAL_FAIL (R83): No crystal edge for 1 ms sets XTALFAIL and disqualifies the internal reference. -/
  | crystalFail
  /-- TRU_NOW_LO_READ (R82): A read of TRU_NOW_LO or TRU_SITS_LO returns the low half and latches the high half for
    that reader. -/
  | truNowLoRead (m : Master) (sits : Bool)
  /-- TRU_CFG_WRITE (R86): A write of TRU_CFG changing SIMODE or PLROLE disqualifies the reference concerned at once.
    -/
  | truCfgWrite (m : Master) (w : Word)
  /-- REF_QUAL (R85): A reference gains or loses qualification. -/
  | refQual (r : Fin 3)
  /-- REF_LOSS_TIMEOUT (R85): No reference edge or sync pair arrives within its loss time, and the reference is lost.
    -/
  | refLossTimeout (si : Bool)
  /-- F_UPDATE (R88): Every 1 ms the TRU updates the correction F towards its target. -/
  | fUpdate (fref : ℤ)
  /-- REF_LOCKED (R89): The lock conditions have held for 1 s; the reference becomes LOCKED. -/
  | refLocked
  /-- SYNC_SEND (R87): Every 10 ms the timing master sends SYNC on PL0 and PL1. -/
  | syncSend
  /-- FOLLOW_UP_SEND (R87): After a SYNC is transmitted, the master sends FOLLOW_UP with the SYNC's start-of-frame
    time. -/
  | followUpSend (l : Fin 2) (sof : ℕ)
  /-- SYNC_RX (R383): A SYNC frame's start of frame is timestamped for the TRU; a master receiving one sets MCONF. -/
  | syncRx (l : Fin 2) (node : Fin 32) (n : Fin 256)
  /-- FOLLOW_UP_RX (R383): A FOLLOW_UP is paired with its SYNC to form a valid sync pair. -/
  | followUpRx (l : Fin 2) (node : Fin 32) (n : Fin 256) (tm ns : ℕ)
  /-- MODE_REQUEST (R95): A write of SYS_MODEREQ requests a mode and is refused with a reason, or starts the
    transition. -/
  | modeRequest (m : Master) (w : Word) (r : Fin 65536)
  /-- MODE_CHANGE_COMPLETE (R98): Once every axis is OFF, FAULT or ABSENT, the pending target mode is entered and
    MODE_CHANGE is raised. -/
  | modeChangeComplete (r : Fin 65536)
  /-- STOP_TIMEOUT (R98): The axes are not at rest within SYS_STOPTO; the change is abandoned with reason 6. -/
  | stopTimeout
  /-- HIZ_TIMEOUT (R100): An axis in HIZ with back-EMF below 0.5 V for 10 ms enters OFF. -/
  | hizTimeout (a : Fin 64)
  /-- DORMANT_AUTO (R102): After SYS_DLY seconds in STANDBY, TRANSPORT or SAFE without LOGIC main, the device begins
    DORMANT entry. -/
  | dormantAuto
  /-- DORMANT_ENTRY_DONE (R102): DORMANT entry completes: journal sealed, PLLs stopped, logic domain off. -/
  | dormantEntryDone (jnlOk : Bool)
  /-- MOTOR_WAKE_TEST (R103): Every 250 ms in DORMANT the always-on domain tests pin 5 of each previously accepted
    port. -/
  | motorWakeTest (a : Fin 64) (loaded jnlOk : Bool)
  /-- WAKE (R103): An enabled wake source acts; the logic domain powers up and SELFTEST begins. -/
  | wake (srcs : Fin 256) (jnlOk : Bool)
  /-- POWER_ON_RESET (R104): A logic source qualifies and the power-on reset runs the boot sequence. -/
  | powerOnReset (main jnlOk : Bool)
  /-- SELFTEST_END (R105): SELFTEST ends with the outcome decided from the test results. -/
  | selftestEnd (t : SelfTest)
  /-- WARM_RESET (R106): A write of SYS_RESET with KEY 0xC5 and GO requests a warm reset, performed or refused. -/
  | warmReset (m : Master) (w : Word) (jnlOk : Bool)
  /-- SSQ_XCHK (R302): The two sequencer copies disagree: FAULT_N is asserted, all bridges released, and LOCKOUT
    entered. -/
  | ssqXchk
  /-- PEAL_START (R108): A write of SYS_PEAL_CTL with GO starts a peal vote, or refuses it outright. -/
  | pealStart (m : Master) (w : Word)
  /-- PEAL_TIMEOUT (R110): 100 µs pass without every vote and the peal aborts with ABORTED_TIMEOUT. -/
  | pealTimeout
  /-- PEAL_COMMIT (R111): At T_c every axis in the mask starts its action, and PEAL_DONE is raised with COMMITTED or
    MIXED. -/
  | pealCommit
  /-- PERIOD_START (R114): At an axis's period start, armed loads, bridging periods, refreshes, migrations and peal
    actions take effect. -/
  | periodStart (a : Fin 64)
  /-- LOAD_ALL (R123): A write of PWM_LDALL_LO/HI arms a load for each permitted axis at its first period start at
    least 8 counts ahead. -/
  | loadAll (m : Master) (high : Bool) (mask : Word)
  /-- LOAD_CAPTURE (R123): At the capture instant T − 8, the shadow registers are copied for the armed load. -/
  | loadCapture (a : Fin 64)
  /-- BOOTSTRAP_REFRESH (R121): A high gate on for MAXON without a break gets a refresh inserted at the next period
    start. -/
  | bootstrapRefresh (a : Fin 64)
  /-- TRIGGER_ANNOUNCE (R128): At cnt = POS − ANN a PWM trigger pre-announces its urgent request. -/
  | triggerAnnounce (a : Fin 64) (n : Fin 2)
  /-- TRIGGER_FIRE (R128): At cnt = POS a PWM trigger issues its urgent request to the cluster. -/
  | triggerFire (a : Fin 64) (n : Fin 2)
  /-- DESATURATION (R130): The cartridge driver detects desaturation and releases the bridge within 200 ns, latching
    DESAT. -/
  | desaturation (a : Fin 64)
  /-- OVERCURRENT (R130): A phase current passes PWM_OCTRIP and the bridge is released within 200 ns, latching OC. -/
  | overcurrent (a : Fin 64) (iu iw : ℤ)
  /-- GATE_SUPPLY_FAULT (R130): A bootstrap or driver supply undervoltage releases the bridge, latching GSUV. -/
  | gateSupplyFault (a : Fin 64)
  /-- PWM_FLT_CLEAR (R131): A W1C write of PWM_FLT clears latched release bits whose sources are no longer asserted.
    -/
  | pwmFltClear (m : Master) (a : Fin 64) (w : Word)
  /-- PASS_START (R140): A converter starts a sequence pass, latching SEQ, SEQCTL, HKDIV and interleaving changes. -/
  | passStart (q : Fin 16) (x : Fin 2)
  /-- HOUSEKEEPING_SLOT (R142): A housekeeping slot converts the next channel of the fixed cycle, and its monitors are
    checked. -/
  | housekeepingSlot (q : Fin 16) (x : Fin 2) (raw : Fin 16384) (crcOk : Bool)
  /-- URGENT_ANNOUNCE (R144): An urgent request is announced, and the hold-off applies to the named converters. -/
  | urgentAnnounce (a : Fin 64) (tick : Bool)
  /-- URGENT_REQUEST (R145): At t_r an urgent request is served by opening its sampling window, or it is dropped with
    a cause. -/
  | urgentRequest (q : Fin 16)
  /-- ADC_DROP (R146): Drops in a 1 ms window reach DROPTH and ADC_DROP is raised. -/
  | adcDrop (q : Fin 16)
  /-- REF_READY (R147): 400 µs after REFEN is set, REFRDY sets. -/
  | refReady (q : Fin 16)
  /-- ADC_REF (R148): Three consecutive REFMON readings out of window set REFBAD and fault the quad's driving axes. -/
  | adcRef (q : Fin 16)
  /-- REFBAD_CLEAR (R148): Both converters count 64 consecutive good REFMON readings, and REFBAD clears. -/
  | refbadClear (q : Fin 16)
  /-- RECALIBRATE (R155): A write of CAL with GO starts a recalibration, or is refused with ERR. -/
  | recalibrate (m : Master) (q : Fin 16) (conv : Fin 2) (skew : Bool)
  /-- CAL_LEAVE (R155): At the partner's next pass start the leaving converter stops serving and the partner covers.
    -/
  | calLeave (q : Fin 16)
  /-- CAL_OFFSET_DONE (R155): The 4,096 GND conversions of the offset phase complete. -/
  | calOffsetDone (q : Fin 16) (sum : ℕ)
  /-- CAL_GAIN_DONE (R155): The 4,096 REFMON conversions complete and new trims are computed. -/
  | calGainDone (q : Fin 16) (sum : ℕ)
  /-- CAL_SKEW_DONE (R155): The 12.8 µs skew phase completes, the new SKEW is computed and the trims are accepted or
    discarded. -/
  | calSkewDone (q : Fin 16) (skew : ℤ)
  /-- CAL_REJOIN (R155): At the partner's next pass start the leaver rejoins, CALT is updated and ADC_CAL is raised.
    -/
  | calRejoin (q : Fin 16)
  /-- COMMUTATION (R160): At the computed instant the commutation unit changes the phase modes to the next step. -/
  | commutation (a : Fin 64)
  /-- EXPECTED_CROSSING (R166): At t_exp with no crossing observed, the unit waits for the class, then predicts or
    opens the late window. -/
  | expectedCrossing (a : Fin 64)
  /-- BLIND (R167): The eighth consecutive prediction faults the axis with BLIND. -/
  | blind (a : Fin 64)
  /-- LATE_WINDOW_EXPIRY (R166): No crossing by t_exp + T_pred/2 after a VALID sample starts the phase test. -/
  | lateWindowExpiry (a : Fin 64)
  /-- PHASE_TEST_DONE (R177): The phase test completes with MISSING_PHASE, STALL or START_FAILED, and the axis is in
    FAULT. -/
  | phaseTestDone (a : Fin 64) (uv vw wu : Bool)
  /-- CATCH_WINDOW_END (R170): The CATCH measurement window ends: it is extended, or the motor is judged turning or at
    rest, and CATCH_DONE is raised. -/
  | catchWindowEnd (a : Fin 64) (e : Fin 16384) (th : Fin 65536) (dth : ℤ) (dt : ℕ)
  /-- CATCH_JOIN (R171): After the bootstrap recharge, at the next period start, the axis enters SIXSTEP in the caught
    direction. -/
  | catchJoin (a : Fin 64)
  /-- RECOVER_DONE (R172): The RECOVER bootstrap recharge completes and the axis enters CATCH. -/
  | recoverDone (a : Fin 64)
  /-- ALIGN_END (R173): ALIGN.T elapses and the axis enters RAMP. -/
  | alignEnd (a : Fin 64)
  /-- ALIGN_NO_CURRENT (R173): The compare at maximum with current below I_set/4 for 10 ms starts the phase test. -/
  | alignNoCurrent (a : Fin 64)
  /-- RAMP_LOCK (R174): RAMPN consecutive steps with centred crossings lock, and the axis enters SIXSTEP. -/
  | rampLock (a : Fin 64)
  /-- RAMP_TIMEOUT (R174): RAMPT elapses without lock and the axis faults with START_FAILED. -/
  | rampTimeout (a : Fin 64)
  /-- MISSING_PHASE (R176): Two consecutive revolutions with one phase peak below one eighth of the largest fault the
    axis. -/
  | missingPhase (a : Fin 64)
  /-- START (R178): CU_CMD START takes an OFF axis to CATCH, or a HIZ or FAULT axis to RECOVER, or is refused. -/
  | start (m : Master) (a : Fin 64) (dir : Fin 2)
  /-- STOP (R178): CU_CMD STOP takes the axis to DECEL, HIZ or OFF according to its state. -/
  | stop (m : Master) (a : Fin 64)
  /-- COAST (R178): CU_CMD COAST releases the bridge, leaving the axis in HIZ if turning and OFF otherwise. -/
  | coast (m : Master) (a : Fin 64)
  /-- CLEAR (R178): CU_CMD CLEAR takes a FAULT axis to HIZ or OFF. -/
  | clear (m : Master) (a : Fin 64)
  /-- REVERSE (R209): CU_CMD REVERSE starts a reversal through DECEL and CATCH, or a bonded quad refuses it. -/
  | reverse (m : Master) (a : Fin 64)
  /-- DTC_TICK (R186): A DTC tick estimates flux and torque, runs the comparators and the switching table, and
    delivers a vector. -/
  | dtcTick (a : Fin 64)
  /-- FLUX_LOST (R189): The flux stays out of range, or cannot be integrated, for 64 ticks and the axis faults with
    FLUX_LOST. -/
  | fluxLost (a : Fin 64)
  /-- HANDOVER_TIMEOUT (R198): 4 × T_pred pass without two passed checks, and HANDOVER is abandoned. -/
  | handoverTimeout (a : Fin 64)
  /-- BOND_WRITE (R200): A write of CU_BOND sets the bonding of a quad in CONFIGURE, or is refused with BONDERR. -/
  | bondWrite (m : Master) (a : Fin 64) (w : Word)
  /-- BOND_SHARE (R203): Member shares out of tolerance for SHN revolutions fault the bonded drive. -/
  | bondShare (a : Fin 64)
  /-- REVERSAL_WAIT_END (R209): After back-EMF below BEMFMIN for WAIT ms, the axis restarts through CATCH with the
    direction inverted. -/
  | reversalWaitEnd (a : Fin 64)
  /-- FRAME_START (R222): A loop-engine frame starts, taking schedule commits and changes of LEN or OFS into effect.
    -/
  | frameStart (e : Fin 8)
  /-- LOOP_RUN (R214): A schedule entry runs its loop: it reads the inputs, selects a region, computes and delivers
    the outputs, and updates the state. -/
  | loopRun (e : Fin 8) (i : Fin 64) (ecc : Option (Fin 65536))
  /-- IMPLAUSIBLE (R230): A residual beyond its threshold for RN runs makes the loop implausible and applies its
    reaction. -/
  | implausible (e : Fin 8) (k : Fin 24)
  /-- INVALID_TOO_LONG (R231): A measurement invalid for more than INVN runs makes the loop implausible with subcause
    INVALID. -/
  | invalidTooLong (e : Fin 8) (k : Fin 24)
  /-- SHARE_TRIM_UPDATE (R234): In reserved cycles after a share update, the engine updates and loads the bond sharing
    trims. -/
  | shareTrimUpdate (e : Fin 8)
  /-- ENGINE_ENABLE (R224): Setting LE_CTL.EN checks the schedule and starts the engine, or records SCHERR. -/
  | engineEnable (m : Master) (e : Fin 8) (on : Bool)
  /-- SCHEDULE_COMMIT (R237): A write of LE_SCHCMT checks the galley schedule for commit at the next frame start. -/
  | scheduleCommit (m : Master) (e : Fin 8) (go : Bool)
  /-- LOOP_COMMIT (R237): A write of LE_COMMIT switches proved loops to their galley at their next run, or sets
    CMTERR. -/
  | loopCommit (m : Master) (e : Fin 8) (loops : Fin 16777216)
  /-- PROOF_START (R236): A write of LE_PROOF with GO starts a proof run of a loop, or is refused with a cause. -/
  | proofStart (m : Master) (e : Fin 8) (go : Bool) (n : Fin 65536) (k : Fin 32)
  /-- PROOF_END (R236): After N runs, or on a failure, the proof ends, setting PROVED on a pass and raising LE_BANK.
    -/
  | proofEnd (e : Fin 8)
  /-- REFGO (R216): A write of LE_LCTL.REFGO commits the staged references at the loop's next run. -/
  | refgo (m : Master) (e : Fin 8) (k : Fin 24)
  /-- REF_STAGE (R216): A write of LE_REF stages a reference and sets STAGED. -/
  | refStage (m : Master) (e : Fin 8) (k : Fin 24) (i : Fin 2) (w : Word)
  /-- AUTO_MANUAL (R229): A write of LE_LCTL.AUTO transfers the loop between manual and automatic mode at its next
    run. -/
  | autoManual (m : Master) (e : Fin 8) (k : Fin 24) (auto : Bool)
  /-- GALLEY_WRITE (R235): A write to a loop's galley clears its PROVED bit and ends its proof; a write to an enabled
    forme is refused. -/
  | galleyWrite (m : Master) (e : Fin 8) (b : Fin 2) (i : Fin 7168) (w : Word)
  /-- ENGINE_EVENT_HOLD (R292): An event routed to ENGINE puts the named loop into HOLD at its next run and
    acknowledges the event. -/
  | engineEventHold (n : Fin 1024)
  /-- SESSION_START (R242): A write of SCU_SCTL with GO starts a strike/capture session, or refuses it with a cause.
    -/
  | sessionStart (m : Master) (s : Fin 4) (ring : Bool) (own : Fin 8)
  /-- SESSION_ABORT (R252): A write of SCU_SCTL.ABORT ends the session, DONE in RING mode and ABORTED otherwise. -/
  | sessionAbort (m : Master) (s : Fin 4) (go ring : Bool) (own : Fin 8)
  /-- SAMPLE_CLOCK (R246): A session clock applies the strike sample and captures every enabled channel. -/
  | sampleClock (i : Fin 4)
  /-- SESSION_FAULT_ABORT (R252): A target state change, fault, mode change or removal aborts the session. -/
  | sessionFaultAbort (s : Fin 4)
  /-- SOFTWARE_RAISE (R285): A write of EVC_RAISE raises an event; a raise of a safety event is refused with SWREF. -/
  | softwareRaise (m : Master) (n : Fin 1024)
  /-- EVENT_ACK (R291): A write of EVC_ACK acknowledges a pending event, clearing PEND and EFF, or is refused with
    ACKREJ. -/
  | eventAck (m : Master) (n : Fin 1024)
  /-- AGEING_STEP (R290): Once AGE 1 µs boundaries have been counted, a pending event's effective priority rises by
    one level. -/
  | ageingStep (n : Fin 1024)
  /-- EVENT_CONFIG_WRITE (R295): A write of EVC_CFGn reroutes or reprioritises an event, subject to write rights. -/
  | eventConfigWrite (m : Master) (n : Fin 1024) (w : Word)
  /-- PAIR_MISMATCH (R297): The halves of a pair disagree: the pair fails, its axes are knelled and FAULT_N is pulsed.
    -/
  | pairMismatch (p : Fin 5)
  /-- PAIR_WATCHDOG (R298): A pair that has not kicked for LSS_WDG.US fails with cause WATCHDOG. -/
  | pairWatchdog (p : Fin 5)
  /-- WATCHDOG_KICK (R298): A write of LSS_KICK restarts the writer's watchdog. -/
  | watchdogKick (m : Master)
  /-- KNELL_REQUEST (R299): A write of SSQ_KNELL_LO/HI by the supervising pair knells the named axes. -/
  | knellRequest (m : Master) (high : Bool) (w : Word)
  /-- HOLD_SAFE (R311): A write of SSQ_HOLD_LO/HI knells the named axes and sets their SYS_AXSAFE bits, keeping their
    host. -/
  | holdSafe (m : Master) (high : Bool) (w : Word)
  /-- LINE_ASSERT_WRITE (R301): A write of SSQ_LINE.ASSERT drives FAULT_N low or releases it. -/
  | lineAssertWrite (m : Master) (on : Bool)
  /-- FAULT_PULSE_END (R301): The FLTW mismatch pulse on FAULT_N ends. -/
  | faultPulseEnd
  /-- REHOST (R304): A write of LSS_REHOST names the destination for a failed pair's axes, or for held-safe axes. -/
  | rehost (m : Master) (from_ dest : Fin 8)
  /-- REHOST_TIMEOUT (R304): RHTO ms pass without a valid LSS_REHOST write, and the sequencer re-hosts onto the spare.
    -/
  | rehostTimeout
  /-- RESTART (R305): Once its conditions hold, the sequencer restarts each axis of the restart set through RECOVER.
    -/
  | restart (a : Fin 64)
  /-- PAIR_RESET (R306): A write of LSS_PRST with key 0x3A starts the reset of a FAILED pair, or of a SPARE pair with
    UPDATE. -/
  | pairReset (m : Master) (key : Fin 256) (p : Fin 8) (update : Bool)
  /-- PAIR_RESET_DONE (R306): The pair reset ends; the pair becomes SPARE on PASS or FAILED on FAIL. -/
  | pairResetDone (p : Fin 5) (ok : Bool)
  /-- MIGRATE (R307): A write of LSS_MIGCTL with GO starts a migration of the masked axes, or refuses it. -/
  | migrate (m : Master) (dest : Fin 8) (lead : Fin 1024)
  /-- SUP_MOVED (R310): A write of LSS_SUPMV hands supervision to another pair, or is refused. -/
  | supMoved (m : Master) (dest : Fin 8)
  /-- SUBMIT (R320): A write of JNL_SUBMIT queues a staged record, or refuses it with a code. -/
  | submit (m : Master) (addr : Fin 1073741824) (ecc : Bool)
  /-- RECORD_APPEND (R317): An append of a record completes with write and read-back, and the submission result is
    reported. -/
  | recordAppend (bad : Bool)
  /-- COMPACTION (R325): Free log blocks fall below LOW; live records of the tail block are copied and TAILMOVE frees
    it. -/
  | compaction
  /-- METADATA_WRITE (R326): After 4,096 allocations a metadata copy with map and wear counts is written. -/
  | metadataWrite (bad : Option (Fin 8))
  /-- IMAGE_WRITE (R331): A write of JNL_IMGWR with GO starts writing an image into a slot, or refuses it with ERR. -/
  | imageWrite (m : Master) (s : Fin 8)
  /-- IMAGE_WRITE_DONE (R331): The image copy and recheck end, IMAGE is appended if valid, and JNL_IMAGE is raised. -/
  | imageWriteDone (good : Bool) (bad : Option (Fin 68))
  /-- FIRMWARE_SELECT (R332): A write of JNL_FWCUR or JNL_FWPREV is checked against VALID slots and journalled as
    IMGSEL. -/
  | firmwareSelect (m : Master) (prev : Bool) (w : Word)
  /-- MAP_QUERY (R316): A write of JNL_MAPQ.LOG translates a logical block into its physical block. -/
  | mapQuery (m : Master) (l : Fin 4096)
  /-- WEAR_HOUR (R338): At each whole hour of energised time the cartridge's operating-hour counter is updated. -/
  | wearHour (a : Fin 64)
  /-- QUEUE_PUSH (R346): A write of SP0_QCTL pushes a queue entry, or refuses it with ERR. -/
  | queuePush (m : Master) (w : Word)
  /-- SP0_FRAME_DONE (R347): An SP0 word frame or entry completes, and the entry count advances. -/
  | sp0FrameDone (data : List (Fin 256)) (ecc : Bool)
  /-- READY_TIMEOUT (R348): A ready stretch longer than RDYTO is an error that ends the entry or line read. -/
  | readyTimeout (xip : Bool)
  /-- QUEUE_RESUME (R349): SP0_CTL.RESUME restarts a halted queue at the next entry. -/
  | queueResume (m : Master)
  /-- QUEUE_FLUSH (R349): SP0_CTL.FLUSH discards every queued entry. -/
  | queueFlush (m : Master)
  /-- XIP_LINE_READ (R350): A missed window read fetches a 32-byte line at the next queue boundary and serves the
    access. -/
  | xipLineRead (m : Master) (o : Fin 67108864) (data : List (Fin 256))
  /-- XIP_INVALIDATE (R350): A write of SP0_XIPINV empties the line buffer. -/
  | xipInvalidate (m : Master)
  /-- CROSS_CONNECT (R357): A write of SP0_XCON joins or separates SP0 and SP1 internally when both are idle, or is
    refused. -/
  | crossConnect (m : Master) (w : Word)
  /-- CS_FALL (R353): CS_N falls and an SP1 transaction begins. -/
  | csFall
  /-- SP1_WORD_RECEIVED (R354): A word received on SP1 enters the RX FIFO, or is lost if the FIFO is full. -/
  | sp1WordReceived (w : Word)
  /-- CS_RISE (R356): CS_N rises: partial words are handled, TCNT advances and SP1_CSEND is raised. -/
  | csRise (n : Fin 32) (w : Word) (cut : Bool)
  /-- SP1_POP (R354): A read of SP1_RX removes and returns the head word. -/
  | sp1Pop (m : Master)
  /-- SP1_PUSH (R354): A write of SP1_TX appends a word to the TX FIFO. -/
  | sp1Push (m : Master) (w : Word)
  /-- FLUSHTX (R363): SP1_CTL.FLUSHTX empties the TX FIFO. -/
  | flushtx (m : Master) (w : Word)
  /-- FLUSHRX (R354): SP1_CTL.FLUSHRX empties the RX FIFO. -/
  | flushrx (m : Master) (w : Word)
  /-- SEGMENT_OWNERSHIP (R359): A write of SWC_SEGn changes a segment's owner by a permitted transition, or sets
    OWNERR. -/
  | segmentOwnership (m : Master) (n : Fin 64) (w : Word)
  /-- WINDOW_READ (R360): The window-protocol READ returns NW words from OFS. -/
  | windowRead (seq : Fin 256) (ofs : Word) (nw : Fin 65536) (crc : Word)
  /-- WINDOW_WRITE (R360): The window-protocol WRITE writes NW words at OFS in a HOST segment. -/
  | windowWrite (seq : Fin 256) (ofs : Word) (nw : Fin 65536) (crc : Word) (data : List Word)
  /-- WINDOW_CLAIM (R360): The window-protocol CLAIM takes a FREE segment to HOST. -/
  | windowClaim (seq : Fin 256) (ofs : Word) (nw : Fin 65536) (crc : Word)
  /-- WINDOW_RELEASE (R360): The window-protocol RELEASE returns a HOST segment to FREE. -/
  | windowRelease (seq : Fin 256) (ofs : Word) (nw : Fin 65536) (crc : Word)
  /-- WINDOW_STATUS (R360): The window-protocol STATUS returns the 64 segment ownership words. -/
  | windowStatus (seq : Fin 256) (ofs : Word) (nw : Fin 65536) (crc : Word)
  /-- WINDOW_SYNC (R360): The window-protocol SYNC sets the expected SEQ. -/
  | windowSync (seq : Fin 256) (ofs : Word) (nw : Fin 65536) (crc : Word)
  /-- WINDOW_RESPONSE (R361): The host reads the response transaction for its last command. -/
  | windowResponse
  /-- ADDRESS_CLAIM_START (R373): The device transmits Address claimed with its last or preferred address. -/
  | addressClaimStart
  /-- ADDRESS_CLAIM_TIMEOUT (R373): 250 ms without a contending claim, and the address is taken into use. -/
  | addressClaimTimeout
  /-- ADDRESS_CLAIMED_RX (R373): A contending Address claimed is received; the device defends its address or moves to
    the next. -/
  | addressClaimedRx (src : Fin 256) (name : BitVec 64)
  /-- CLAIM_RETRY (R373): Every 10 s after Cannot claim, the whole claim procedure repeats. -/
  | claimRetry
  /-- REQUEST_RX (R375): A received Request is answered, or negatively acknowledged. -/
  | requestRx (src dst : Fin 256) (pgn : Fin 262144)
  /-- BUS_ALONE (R374): Acknowledgement errors make the ISO controller error-passive; BUS_ALONE sets and ISOBUS slots
    enter loss. -/
  | busAlone
  /-- BUS_ALONE_CLEAR (R374): A frame is acknowledged or received; BUS_ALONE clears and the address claim runs afresh.
    -/
  | busAloneClear
  /-- TP_SESSION (R375): A TP or ETP multi-frame message is received whole, or aborted and discarded. -/
  | tpSession (src : Fin 256) (e : TpEvent)
  /-- SPEED_MESSAGE (R376): A wheel, ground or machine-selected speed message is received. -/
  | speedMessage (kind : Fin 3) (speed : Option ℤ)
  /-- SPEED_SELECT (R376): Every 10 ms firmware selects the speed source and publishes the speed in shared SRAM. -/
  | speedSelect
  /-- TC_CONNECT (R378): On a task controller's status message, the client connects, uploads its DDOP, and takes a
    slot and claims. -/
  | tcConnect (src : Fin 256)
  /-- TC_LOSS (R378): The task controller's status message is absent for 6 s, and its slot enters loss. -/
  | tcLoss
  /-- TECHNICAL_CAPABILITIES (R378): The process-data technical capabilities command. -/
  | technicalCapabilities (src : Fin 256)
  /-- DEVICE_DESCRIPTOR (R378): The process-data device descriptor command. -/
  | deviceDescriptor (src : Fin 256)
  /-- REQUEST_VALUE (R378): The process-data request value command, answered with the value. -/
  | requestValue (src : Fin 256) (elem ddi : Fin 65536)
  /-- VALUE (R378): The process-data value command. -/
  | value (src : Fin 256) (elem ddi : Fin 65536) (v : Word)
  /-- MEASUREMENT_TIME_INTERVAL (R378): Sets up a time-interval measurement trigger. -/
  | measurementTimeInterval (src : Fin 256) (elem ddi : Fin 65536) (ms : Word)
  /-- MEASUREMENT_DISTANCE_INTERVAL (R378): Sets up a distance-interval measurement trigger. -/
  | measurementDistanceInterval (src : Fin 256) (elem ddi : Fin 65536) (mm : Word)
  /-- MEASUREMENT_MINIMUM_THRESHOLD (R378): Sets up a minimum-threshold measurement trigger. -/
  | measurementMinimumThreshold (src : Fin 256) (elem ddi : Fin 65536) (v : Word)
  /-- MEASUREMENT_MAXIMUM_THRESHOLD (R378): Sets up a maximum-threshold measurement trigger. -/
  | measurementMaximumThreshold (src : Fin 256) (elem ddi : Fin 65536) (v : Word)
  /-- MEASUREMENT_CHANGE_THRESHOLD (R378): Sets up a change-threshold measurement trigger. -/
  | measurementChangeThreshold (src : Fin 256) (elem ddi : Fin 65536) (v : Word)
  /-- SET_VALUE (R379): A process-data set value stages a setpoint into the mapped loop and commits it with REFGO, or
    is negatively acknowledged. -/
  | setValue (src : Fin 256) (elem ddi : Fin 65536) (v : Word)
  /-- PROCESS_DATA_ACKNOWLEDGE (R378): The process-data acknowledge command. -/
  | processDataAcknowledge (src : Fin 256) (elem ddi : Fin 65536)
  /-- TASK_STATUS (R378): The process-data task status command. -/
  | taskStatus (src : Fin 256) (status : Word)
  /-- MEASUREMENT_TRIGGER (R378): An active measurement trigger fires and its value is sent. -/
  | measurementTrigger (i : Fin 128)
  /-- DM1_TRANSMIT (R380): DM1 with the active DTCs is transmitted once per second and on each change. -/
  | dm1Transmit
  /-- HELLO_TX (R382): Every 100 ms the module sends HELLO on each private link. -/
  | helloTx (l : Fin 2)
  /-- HELLO_RX (R384): A received HELLO marks a node present or detects a NODE conflict. -/
  | helloRx (l : Fin 2) (node : Fin 32) (name : BitVec 64)
  /-- NODE_ABSENT (R384): A node sends no HELLO for 300 ms and is no longer present. -/
  | nodeAbsent (l : Fin 2) (node : Fin 32)
  /-- OPEN (R390): The OPEN control message opens a client slot or resumes one in loss. -/
  | openSlot (h : Ctl) (axis : Fin 256) (arg : Fin 16777216)
  /-- CLOSE (R386): The CLOSE control message ends every claim with STOP and frees the slot. -/
  | closeSlot (h : Ctl) (axis : Fin 256) (arg : Fin 16777216)
  /-- BEAT (R390): The BEAT control message refreshes the heartbeat. -/
  | beat (h : Ctl) (axis : Fin 256) (arg : Fin 16777216)
  /-- READ (R390): The READ control message returns the axis state and fault code, or the device mode. -/
  | read (h : Ctl) (axis : Fin 256) (arg : Fin 16777216)
  /-- CLAIM (R30): The CLAIM control message claims an axis, a set of axes whole, or the device claim. -/
  | claim (h : Ctl) (axis : Fin 256) (arg : Fin 16777216) (mask : Option (BitVec 64))
  /-- RELEASE (R390): The RELEASE control message releases an axis or the device claim, stopping a driving axis if
    STOP is set. -/
  | release (h : Ctl) (axis : Fin 256) (arg : Fin 16777216) (mask : Option (BitVec 64))
  /-- AXCMD (R390): The AXCMD control message writes CU_CMD for a held axis. -/
  | axcmd (h : Ctl) (axis : Fin 256) (arg : Fin 16777216)
  /-- SETREF (R390): The SETREF control message writes a loop reference and commits it, unless staged. -/
  | setref (h : Ctl) (axis : Fin 256) (arg : Fin 16777216) (long : Option (Word × Bool))
  /-- POLICY (R390): The POLICY control message sets the loss-of-command hold and end action of an axis. -/
  | policy (h : Ctl) (axis : Fin 256) (hold : Fin 65536) (endAct : Fin 256)
  /-- PEAL_OP (R390): The PEAL control message starts a coordinated mode change and answers after PEAL_DONE. -/
  | pealOp (h : Ctl) (mask : BitVec 64) (action lead : Fin 1024)
  /-- MODE (R390): The MODE control message requests a device mode. -/
  | mode (h : Ctl) (axis : Fin 256) (arg : Fin 16777216) (r : Fin 65536)
  /-- CARTREL (R390): The CARTREL control message requests a cartridge release. -/
  | cartrel (h : Ctl) (axis : Fin 256) (arg : Fin 16777216)
  /-- AUX (R390): The AUX control message sets the auxiliary output requests. -/
  | aux (h : Ctl) (axis : Fin 256) (arg : Fin 16777216)
  /-- CFGITEM (R334): The CFGITEM control message stages one configuration item of a transaction. -/
  | cfgitem (h : Ctl) (txn : Fin 65536) (key : Word) (payload : List Word)
  /-- CFGCOMMIT (R334): The CFGCOMMIT control message proves, applies and commits a configuration transaction. -/
  | cfgcommit (h : Ctl) (txn : Fin 65536) (proved : Bool)
  /-- CAPTURE (R390): The CAPTURE control message sets up and starts a strike/capture session within the quota. -/
  | capture (h : Ctl) (axis : Fin 256) (i : Fin 4) (ring : Bool) (regs : List (Fin 32 × Word))
  /-- IMAGESEG (R390): The IMAGESEG control message writes image bytes into the host staging area. -/
  | imageseg (h : Ctl) (ofs : Word) (data : List (Fin 256))
  /-- IMAGEWR (R390): The IMAGEWR control message writes the staged image into a slot. -/
  | imagewr (h : Ctl) (slot : Fin 8)
  /-- LOOPSET (R333): The LOOPSET control message loads, proves and commits a loop-program image. -/
  | loopset (h : Ctl) (slot : Fin 8) (passed : Bool)
  /-- SLOT_LOSS (R386): A slot's heartbeat, address or link fails and the slot enters loss. -/
  | slotLoss (s : Fin 64)
  /-- LOSS_HOLD_EXPIRY (R393): An axis's HOLD time in loss expires and it receives STOP or COAST, ending its claim. -/
  | lossHoldExpiry (a : Fin 64)
  /-- TX_REQUEST (R395): A write of CAN_TXREQ requests transmission of the named mailboxes. -/
  | txRequest (m : Master) (c : Fin 3) (w : Word)
  /-- FRAME_TRANSMITTED (R395): A mailbox frame completes or fails, and its result and timestamp are written. -/
  | frameTransmitted (c : Fin 3) (ago : ℕ) (e : TxEnd)
  /-- TX_ABORT (R396): A write of CAN_TXABORT withdraws or aborts pending mailboxes according to timing. -/
  | txAbort (m : Master) (c : Fin 3) (w : Word) (busy : Option (Fin 8))
  /-- FRAME_RECEIVED (R397): A received frame passing a filter enters the RX FIFO with its timestamp, or is lost to a
    full FIFO. -/
  | frameReceived (c : Fin 3) (id : Fin 536870912) (ide fdf brs esi rtr : Bool) (dlc : Fin 16) (data : List (Fin 256))
    (ago : ℕ)
  /-- RX_POP (R397): A write of CAN_RXPOP removes the head frame. -/
  | rxPop (m : Master) (c : Fin 3)
  /-- BUS_OFF (R395): A controller goes bus-off, ending pending frames with BUSOFF. -/
  | busOff (c : Fin 3)
  /-- BUS_OFF_RECOVERY (R395): After the recessive sequence the controller recovers from bus-off and ISO reclaims its
    address. -/
  | busOffRecovery (c : Fin 3)
  /-- TBC_SWITCH (R368): A write of CAN_TBC.EN switches the terminating bias circuit within 1 ms. -/
  | tbcSwitch (m : Master) (on : Bool)
  /-- SP1_WORD_SENT (R353): On the host's SCK falling edge, SP1 takes the next word from the TX FIFO, or sends the
    busy pattern, and TXCNT may fall to TXTH, raising SP1_TX. -/
  | sp1WordSent
  /-- READY_STRETCH_END (R348): SP0_RDY is sampled high during a ready stretch, and SCK resumes half a cycle later,
    continuing the frame or line read. -/
  | readyStretchEnd
  deriving DecidableEq, Repr

end Sys2Proof
end

