-- ==== Sys2Proof/Decode.lean ====
section
/-! DEFINITION. The command a table word spells (the table gives no row any bits, so none), and the words of the pairs'
instructions: their encoder and decoder (R258 to R269). -/

namespace Sys2Proof

/-- The command a word spells by the table's bits: the table gives none of its rows bits. -/
def decodeTableWord (_nbits _w : Nat) : Option Instr := none

/-! The formats of R258. -/

/-- TR: op, gd, ga, gb, sh, fn. -/
def wordTR (op gd ga gb sh fn : Nat) : Word :=
  w32 (op * 2 ^ 26 + gd * 2 ^ 21 + ga * 2 ^ 16 + gb * 2 ^ 11 + sh * 2 ^ 6 + fn)

/-- IM and BR: op, two registers, 16 bits. -/
def wordIM (op g ga imm : Nat) : Word := w32 (op * 2 ^ 26 + g * 2 ^ 21 + ga * 2 ^ 16 + imm)

/-- JP: op, 26 bits. -/
def wordJP (op off : Nat) : Word := w32 (op * 2 ^ 26 + off)

/-- AC: opcode 0x30, register, gb, acd, acs, k, fn. -/
def wordAC (g gb acd acs k fn : Nat) : Word :=
  w32 (0x30 * 2 ^ 26 + g * 2 ^ 21 + gb * 2 ^ 16 + acd * 2 ^ 14 + acs * 2 ^ 12 + k * 2 ^ 6 + fn)

/-- CW: opcode 0x38, register, fn, index. -/
def wordCW (g fn index : Nat) : Word := w32 (0x38 * 2 ^ 26 + g * 2 ^ 21 + fn * 2 ^ 12 + index)

/-- System instructions with a 20-bit code (R266). -/
def wordSY (code fn : Nat) : Word := w32 (0x3C * 2 ^ 26 + code * 2 ^ 6 + fn)

/-- The word of a Litos instruction; 0, an illegal word, for every command that is none. -/
def litosWord : Instr → Word
  | .add _ gd ga gb => wordTR 0x00 gd ga gb 0 0x01
  | .sub _ gd ga gb => wordTR 0x00 gd ga gb 0 0x02
  | .and _ gd ga gb => wordTR 0x00 gd ga gb 0 0x03
  | .or _ gd ga gb => wordTR 0x00 gd ga gb 0 0x04
  | .xor _ gd ga gb => wordTR 0x00 gd ga gb 0 0x05
  | .nor _ gd ga gb => wordTR 0x00 gd ga gb 0 0x06
  | .slt _ gd ga gb => wordTR 0x00 gd ga gb 0 0x07
  | .sltu _ gd ga gb => wordTR 0x00 gd ga gb 0 0x08
  | .sll _ gd ga gb => wordTR 0x00 gd ga gb 0 0x09
  | .srl _ gd ga gb => wordTR 0x00 gd ga gb 0 0x0A
  | .sra _ gd ga gb => wordTR 0x00 gd ga gb 0 0x0B
  | .mul _ gd ga gb => wordTR 0x00 gd ga gb 0 0x10
  | .mulh _ gd ga gb => wordTR 0x00 gd ga gb 0 0x11
  | .mulhu _ gd ga gb => wordTR 0x00 gd ga gb 0 0x12
  | .div _ gd ga gb => wordTR 0x00 gd ga gb 0 0x14
  | .divu _ gd ga gb => wordTR 0x00 gd ga gb 0 0x15
  | .rem _ gd ga gb => wordTR 0x00 gd ga gb 0 0x16
  | .remu _ gd ga gb => wordTR 0x00 gd ga gb 0 0x17
  | .min _ gd ga gb => wordTR 0x00 gd ga gb 0 0x18
  | .max _ gd ga gb => wordTR 0x00 gd ga gb 0 0x19
  | .slli _ gd ga sh => wordTR 0x00 gd ga 0 sh 0x0C
  | .srli _ gd ga sh => wordTR 0x00 gd ga 0 sh 0x0D
  | .srai _ gd ga sh => wordTR 0x00 gd ga 0 sh 0x0E
  | .clz _ gd ga => wordTR 0x00 gd ga 0 0 0x1A
  | .addi _ gd ga imm => wordIM 0x01 gd ga imm.toNat
  | .slti _ gd ga imm => wordIM 0x02 gd ga imm.toNat
  | .sltiu _ gd ga imm => wordIM 0x03 gd ga imm.toNat
  | .andi _ gd ga imm => wordIM 0x04 gd ga imm.toNat
  | .ori _ gd ga imm => wordIM 0x05 gd ga imm.toNat
  | .xori _ gd ga imm => wordIM 0x06 gd ga imm.toNat
  | .lui _ gd imm => wordIM 0x07 gd 0 imm.toNat
  | .lw _ gd ga imm _ => wordIM 0x10 gd ga imm.toNat
  | .lh _ gd ga imm _ => wordIM 0x11 gd ga imm.toNat
  | .lhu _ gd ga imm _ => wordIM 0x12 gd ga imm.toNat
  | .lb _ gd ga imm _ => wordIM 0x13 gd ga imm.toNat
  | .lbu _ gd ga imm _ => wordIM 0x14 gd ga imm.toNat
  | .sw _ gs ga imm => wordIM 0x18 gs ga imm.toNat
  | .sh _ gs ga imm => wordIM 0x19 gs ga imm.toNat
  | .sb _ gs ga imm => wordIM 0x1A gs ga imm.toNat
  | .beq _ ga gb off => wordIM 0x20 ga gb off.toNat
  | .bne _ ga gb off => wordIM 0x21 ga gb off.toNat
  | .blt _ ga gb off => wordIM 0x22 ga gb off.toNat
  | .bge _ ga gb off => wordIM 0x23 ga gb off.toNat
  | .bltu _ ga gb off => wordIM 0x24 ga gb off.toNat
  | .bgeu _ ga gb off => wordIM 0x25 ga gb off.toNat
  | .j _ off => wordJP 0x28 off.toNat
  | .jal _ off => wordJP 0x29 off.toNat
  | .jalr _ gd ga imm => wordIM 0x2A gd ga imm.toNat
  | .mula _ acd ga gb => wordAC ga gb acd 0 0 0x01
  | .mac _ acd ga gb => wordAC ga gb acd 0 0 0x02
  | .msu _ acd ga gb => wordAC ga gb acd 0 0 0x03
  | .macu _ acd ga gb => wordAC ga gb acd 0 0 0x04
  | .fmac _ acd ga gb k => wordAC ga gb acd 0 k 0x08
  | .bmac _ acd ga gb k => wordAC ga gb acd 0 k 0x09
  | .acrd _ gd acs k => wordAC gd 0 0 acs k 0x0C
  | .aclo _ gd acs => wordAC gd 0 0 acs 0 0x0D
  | .achi _ gd acs => wordAC gd 0 0 acs 0 0x0E
  | .acld _ acd ga gb => wordAC ga gb acd 0 0 0x0F
  | .acmov _ acd acs => wordAC 0 0 acd acs 0 0x11
  | .bexp _ gd acs => wordAC gd 0 0 acs 0 0x14
  | .bmant _ gd acs gb => wordAC gd gb 0 acs 0 0x15
  | .aswap _ gd ga gb _ => wordTR 0x34 gd ga gb 0 0x00
  | .aadd _ gd ga gb _ => wordTR 0x34 gd ga gb 0 0x01
  | .aand _ gd ga gb _ => wordTR 0x34 gd ga gb 0 0x02
  | .aor _ gd ga gb _ => wordTR 0x34 gd ga gb 0 0x03
  | .acas _ gd ga gb _ => wordTR 0x34 gd ga gb 0 0x04
  | .cwr _ g index => wordCW g 0 index
  | .cww _ g index => wordCW g 1 index
  | .sysc _ code => wordSY code 0x00
  | .eret _ => wordSY 0 0x01
  | .brk _ code => wordSY code 0x02
  | .wev _ gd ga t => wordTR 0x3C gd ga 0 t.toNat 0x03
  | .peal _ gd ga w => wordTR 0x3C gd ga 0 w.toNat 0x04
  | .lelRefgo _ ga gb => wordTR 0x3C 0 ga gb 0 0x05
  | .lelCommit _ ga gb => wordTR 0x3C 0 ga gb 0 0x05
  | .lelProof _ ga gb => wordTR 0x3C 0 ga gb 0 0x05
  | .lelSchcmt _ ga gb => wordTR 0x3C 0 ga gb 0 0x05
  | _ => 0

/-- A field of a word. -/
def bitsOf (w lo width : Nat) : Nat := w / 2 ^ lo % 2 ^ width

/-- A register number of a word. -/
def regOf (w lo : Nat) : Fin 32 := Fin.ofNat 32 (w / 2 ^ lo)

/-- An accumulator number of a word. -/
def accOf (w lo : Nat) : Fin 4 := Fin.ofNat 4 (w / 2 ^ lo)

/-- An instruction when a field that must be 0 is 0 (R258). -/
def zeroed (z : Bool) (i : Instr) : Option Instr := if z then some i else none

/-- Opcode 0x00: integer register operations (R259). -/
def decodeInt (p : Fin 5) (w : Nat) : Option Instr :=
  let gd := regOf w 21
  let ga := regOf w 16
  let gb := regOf w 11
  let sh := regOf w 6
  let s := bitsOf w 6 5 = 0
  let b := bitsOf w 11 5 = 0
  match bitsOf w 0 6 with
  | 0x01 => zeroed s (.add p gd ga gb)
  | 0x02 => zeroed s (.sub p gd ga gb)
  | 0x03 => zeroed s (.and p gd ga gb)
  | 0x04 => zeroed s (.or p gd ga gb)
  | 0x05 => zeroed s (.xor p gd ga gb)
  | 0x06 => zeroed s (.nor p gd ga gb)
  | 0x07 => zeroed s (.slt p gd ga gb)
  | 0x08 => zeroed s (.sltu p gd ga gb)
  | 0x09 => zeroed s (.sll p gd ga gb)
  | 0x0A => zeroed s (.srl p gd ga gb)
  | 0x0B => zeroed s (.sra p gd ga gb)
  | 0x10 => zeroed s (.mul p gd ga gb)
  | 0x11 => zeroed s (.mulh p gd ga gb)
  | 0x12 => zeroed s (.mulhu p gd ga gb)
  | 0x14 => zeroed s (.div p gd ga gb)
  | 0x15 => zeroed s (.divu p gd ga gb)
  | 0x16 => zeroed s (.rem p gd ga gb)
  | 0x17 => zeroed s (.remu p gd ga gb)
  | 0x18 => zeroed s (.min p gd ga gb)
  | 0x19 => zeroed s (.max p gd ga gb)
  | 0x0C => zeroed b (.slli p gd ga sh)
  | 0x0D => zeroed b (.srli p gd ga sh)
  | 0x0E => zeroed b (.srai p gd ga sh)
  | 0x1A => zeroed (s && b) (.clz p gd ga)
  | _ => none

/-- Opcode 0x30: accumulators (R262). Fields an instruction does not name must be 0. -/
def decodeAcc (p : Fin 5) (w : Nat) : Option Instr :=
  let g := regOf w 21
  let gb := regOf w 16
  let acd := accOf w 14
  let acs := accOf w 12
  let k : Fin 64 := Fin.ofNat 64 (w / 2 ^ 6)
  let z0 := bitsOf w 21 5 = 0
  let zb := bitsOf w 16 5 = 0
  let zd := bitsOf w 14 2 = 0
  let zs := bitsOf w 12 2 = 0
  let zk := bitsOf w 6 6 = 0
  match bitsOf w 0 6 with
  | 0x01 => zeroed (zs && zk) (.mula p acd g gb)
  | 0x02 => zeroed (zs && zk) (.mac p acd g gb)
  | 0x03 => zeroed (zs && zk) (.msu p acd g gb)
  | 0x04 => zeroed (zs && zk) (.macu p acd g gb)
  | 0x08 => zeroed zs (.fmac p acd g gb k)
  | 0x09 => zeroed zs (.bmac p acd g gb k)
  | 0x0C => zeroed (zb && zd) (.acrd p g acs k)
  | 0x0D => zeroed (zb && zd && zk) (.aclo p g acs)
  | 0x0E => zeroed (zb && zd && zk) (.achi p g acs)
  | 0x0F => zeroed (zs && zk) (.acld p acd g gb)
  | 0x11 => zeroed (z0 && zb && zk) (.acmov p acd acs)
  | 0x14 => zeroed (zb && zd && zk) (.bexp p g acs)
  | 0x15 => zeroed (zd && zk) (.bmant p g acs gb)
  | _ => none

/-- Opcode 0x34: atomics (R264). -/
def decodeAtomic (p : Fin 5) (w : Nat) : Option Instr :=
  let gd := regOf w 21
  let ga := regOf w 16
  let gb := regOf w 11
  let s := bitsOf w 6 5 = 0
  match bitsOf w 0 6 with
  | 0x00 => zeroed s (.aswap p gd ga gb false)
  | 0x01 => zeroed s (.aadd p gd ga gb false)
  | 0x02 => zeroed s (.aand p gd ga gb false)
  | 0x03 => zeroed s (.aor p gd ga gb false)
  | 0x04 => zeroed s (.acas p gd ga gb false)
  | _ => none

/-- Opcode 0x38: control words (R265). -/
def decodeCw (p : Fin 5) (w : Nat) : Option Instr :=
  let index : Fin 4096 := Fin.ofNat 4096 w
  let z := bitsOf w 16 5 = 0
  match bitsOf w 12 4 with
  | 0 => zeroed z (.cwr p (regOf w 21) index)
  | 1 => zeroed z (.cww p (regOf w 21) index)
  | _ => none

/-- Opcode 0x3C: system instructions (R266). LEL's row depends on its register's kind (R269), which the caller reads. -/
def decodeSystem (p : Fin 5) (kind : Fin 4) (w : Nat) : Option Instr :=
  let gd := regOf w 21
  let ga := regOf w 16
  let gb := regOf w 11
  let zd := bitsOf w 21 5 = 0
  let zb := bitsOf w 11 5 = 0
  let code : Fin 1048576 := Fin.ofNat 1048576 (w / 2 ^ 6)
  match bitsOf w 0 6 with
  | 0x00 => some (.sysc p code)
  | 0x01 => zeroed (bitsOf w 6 20 = 0) (.eret p)
  | 0x02 => some (.brk p code)
  | 0x03 => zeroed (zb && bitsOf w 7 4 = 0) (.wev p gd ga (bitsOf w 6 1 = 1))
  | 0x04 => zeroed (zb && bitsOf w 7 4 = 0) (.peal p gd ga (bitsOf w 6 1 = 1))
  | 0x05 => zeroed (zd && bitsOf w 6 5 = 0)
      (match kind with
        | 0 => .lelRefgo p ga gb
        | 1 => .lelCommit p ga gb
        | 2 => .lelProof p ga gb
        | 3 => .lelSchcmt p ga gb)
  | _ => none

/-- The command a Litos word of a pair stands for; none for an illegal word (R258). -/
def decodeLitos (p : Fin 5) (kind : Fin 4) (word : Word) : Option Instr :=
  let w := word.toNat
  let d := regOf w 21
  let a := regOf w 16
  let imm := BitVec.ofNat 16 w
  let off := BitVec.ofNat 26 w
  match bitsOf w 26 6 with
  | 0x00 => decodeInt p w
  | 0x01 => some (.addi p d a imm)
  | 0x02 => some (.slti p d a imm)
  | 0x03 => some (.sltiu p d a imm)
  | 0x04 => some (.andi p d a imm)
  | 0x05 => some (.ori p d a imm)
  | 0x06 => some (.xori p d a imm)
  | 0x07 => zeroed (bitsOf w 16 5 = 0) (.lui p d imm)
  | 0x10 => some (.lw p d a imm false)
  | 0x11 => some (.lh p d a imm false)
  | 0x12 => some (.lhu p d a imm false)
  | 0x13 => some (.lb p d a imm false)
  | 0x14 => some (.lbu p d a imm false)
  | 0x18 => some (.sw p d a imm)
  | 0x19 => some (.sh p d a imm)
  | 0x1A => some (.sb p d a imm)
  | 0x20 => some (.beq p d a imm)
  | 0x21 => some (.bne p d a imm)
  | 0x22 => some (.blt p d a imm)
  | 0x23 => some (.bge p d a imm)
  | 0x24 => some (.bltu p d a imm)
  | 0x25 => some (.bgeu p d a imm)
  | 0x28 => some (.j p off)
  | 0x29 => some (.jal p off)
  | 0x2A => some (.jalr p d a imm)
  | 0x30 => decodeAcc p w
  | 0x34 => decodeAtomic p w
  | 0x38 => decodeCw p w
  | 0x3C => decodeSystem p kind w
  | _ => none

end Sys2Proof
end

