-- ==== Sys2Proof/Config.lean ====
section
/-! DEFINITION. What an implementation fixes and the spec leaves open: free values. Every constant here is opaque, so no
statement can rest on a value of it; each is named in the assumption log. -/

namespace Sys2Proof.Config

/-- A result the spec leaves open, by the running count of open results (DESIGN CHOICE, log 3). -/
opaque freeWord : Nat → Word

/-- An open integer result, by the running count of open results (DESIGN CHOICE, log 3). -/
opaque freeInt : Nat → Int

/-- The serial number of the module (R107): each module has its own. -/
opaque serialNumber : Nat

/-- The manufacturer code assigned to Mladcia (R372): the spec gives no number. -/
opaque manufacturerCode : Nat

/-- Whether the TBC_PWR pin carries its supply at a device time (R368). -/
opaque tbcPower : Nat → Bool

end Sys2Proof.Config
end

