-- ==== Sys2Proof/Machine/RegMap.lean ====
section
/-! DEFINITION. The register map: the address of every register, the place of every named field, and, per register,
its reset word and the bits each access code of R10 covers, as the field tables of spec/02 to spec/17 give them
(R5, R25 for the block bases; R414, R415 for the completeness of the list). -/

namespace Sys2Proof

/-- A field of a register: the register's address, the field's lowest bit and its width in bits. -/
structure Fld where
  addr : Nat
  lo : Nat
  width : Nat
  deriving DecidableEq, Repr

/-- One register (or a run of equal registers `stride` apart) of a block: its offset, its reset word (R12) and the
bits that carry the access codes RW, W1C, W1S, RC and WO of R10. The other bits are RO or reserved (R9). -/
structure RegRow where
  off : Nat
  stride : Nat
  count : Nat
  reset : Nat
  rw : Nat
  w1c : Nat
  w1s : Nat
  rc : Nat
  wo : Nat
  deriving DecidableEq, Repr

/-- A kind of block of R25: the first base, the distance between instances, their number, the size of one. -/
structure BlockRow where
  base : Nat
  stride : Nat
  count : Nat
  size : Nat
  rows : List RegRow
  deriving DecidableEq, Repr

namespace Reg

def AUX_OUT : Nat := 0x40510000 + 0x0
def AUX_TMASK : Nat := 0x40510000 + 0x4
def AUX_GCFG (g : Nat) : Nat := 0x40510000 + 0x10 + 0x4 * g
def AUX_GSTAT : Nat := 0x40510000 + 0x20
def AUX_OLOAD : Nat := 0x40510000 + 0x24
def AUX_TRIPCLR : Nat := 0x40510000 + 0x28
def GSP_CFG : Nat := 0x40510000 + 0x40
def GSP_PERIOD : Nat := 0x40510000 + 0x44
def FLT_STAT : Nat := 0x40510000 + 0x60
def CSL_STAT (i : Nat) : Nat := 0x40520000 + 0x0 + 0x20 * i
def CSL_PORT (i : Nat) : Nat := 0x40520000 + 0x4 + 0x20 * i
def CSL_NTC (i : Nat) : Nat := 0x40520000 + 0x8 + 0x20 * i
def CSL_REL : Nat := 0x40520000 + 0x400
def CSL_RTO : Nat := 0x40520000 + 0x404
def CSL_PANEL : Nat := 0x40520000 + 0x408
def PSE_STAT : Nat := 0x40500000 + 0x0
def PSE_VLINK : Nat := 0x40500000 + 0x4
def PSE_VIN : Nat := 0x40500000 + 0x8
def PSE_IIN : Nat := 0x40500000 + 0xc
def PSE_LOGIC : Nat := 0x40500000 + 0x10
def PSE_TBASE : Nat := 0x40500000 + 0x14
def PSE_PLIM : Nat := 0x40500000 + 0x18
def PSE_CREDIT : Nat := 0x40500000 + 0x1c
def PSE_CFG : Nat := 0x40500000 + 0x20
def PSE_PUSER : Nat := 0x40500000 + 0x24
def PSE_VTHR0 : Nat := 0x40500000 + 0x28
def PSE_VTHR1 : Nat := 0x40500000 + 0x2c
def PSE_RIPPLE : Nat := 0x40500000 + 0x30
def PSE_CLAMP : Nat := 0x40500000 + 0x34
def PSE_SEG : Nat := 0x40500000 + 0x38
def PSE_EVT : Nat := 0x40500000 + 0x3c
def PSE_SEGRC : Nat := 0x40500000 + 0x40
def PSE_AXPRIO (k : Nat) : Nat := 0x40500000 + 0x100 + 0x4 * k
def PSE_AXLIM (i : Nat) : Nat := 0x40500000 + 0x200 + 0x4 * i
def PSE_AXCEIL (i : Nat) : Nat := 0x40500000 + 0x300 + 0x4 * i
def TRU_NOW_LO : Nat := 0x40040000 + 0x0
def TRU_NOW_HI : Nat := 0x40040000 + 0x4
def TRU_STAT : Nat := 0x40040000 + 0x8
def TRU_CFG : Nat := 0x40040000 + 0xc
def TRU_FCORR : Nat := 0x40040000 + 0x10
def TRU_FREF : Nat := 0x40040000 + 0x14
def TRU_PHERR : Nat := 0x40040000 + 0x18
def TRU_GAIN : Nat := 0x40040000 + 0x1c
def TRU_SIOFS : Nat := 0x40040000 + 0x20
def TRU_PLOFS : Nat := 0x40040000 + 0x24
def TRU_SOCFG : Nat := 0x40040000 + 0x28
def TRU_SOOFS : Nat := 0x40040000 + 0x2c
def TRU_SITS_LO : Nat := 0x40040000 + 0x30
def TRU_SITS_HI : Nat := 0x40040000 + 0x34
def TRU_RCERR : Nat := 0x40040000 + 0x38
def TRU_EVT : Nat := 0x40040000 + 0x3c
def SYS_ID : Nat := 0x40000000 + 0x0
def SYS_MODE : Nat := 0x40000000 + 0x4
def SYS_MODEREQ : Nat := 0x40000000 + 0x8
def SYS_RCAUSE : Nat := 0x40000000 + 0xc
def SYS_RESET : Nat := 0x40000000 + 0x10
def SYS_WAKEEN : Nat := 0x40000000 + 0x14
def SYS_WAKESRC : Nat := 0x40000000 + 0x18
def SYS_DLY : Nat := 0x40000000 + 0x1c
def SYS_STOPTO : Nat := 0x40000000 + 0x20
def SYS_BOOT : Nat := 0x40000000 + 0x24
def SYS_LOCK : Nat := 0x40000000 + 0x28
def SYS_AXSAFE_LO : Nat := 0x40000000 + 0x30
def SYS_AXSAFE_HI : Nat := 0x40000000 + 0x34
def SYS_PEAL_CTL : Nat := 0x40000000 + 0x40
def SYS_PEAL_MLO : Nat := 0x40000000 + 0x44
def SYS_PEAL_MHI : Nat := 0x40000000 + 0x48
def SYS_PEAL_RES : Nat := 0x40000000 + 0x4c
def SYS_PEAL_FLO : Nat := 0x40000000 + 0x50
def SYS_PEAL_FHI : Nat := 0x40000000 + 0x54
def SYS_PEAL_XLO : Nat := 0x40000000 + 0x58
def SYS_PEAL_XHI : Nat := 0x40000000 + 0x5c
def SYS_PEAL_TC : Nat := 0x40000000 + 0x60
def SYS_EVT : Nat := 0x40000000 + 0x70
def SYS_AXST (k : Nat) : Nat := 0x40000000 + 0x100 + 0x4 * k
def PWM_STAT (a : Nat) : Nat := 0x40200000 + 0x400 * a + 0x0
def PWM_FLT (a : Nat) : Nat := 0x40200000 + 0x400 * a + 0x4
def PWM_PAT (a : Nat) : Nat := 0x40200000 + 0x400 * a + 0x8
def PWM_TPAT (a : Nat) : Nat := 0x40200000 + 0x400 * a + 0xc
def PWM_PER (a : Nat) : Nat := 0x40200000 + 0x400 * a + 0x10
def PWM_OFS (a : Nat) : Nat := 0x40200000 + 0x400 * a + 0x14
def PWM_CMPU (a : Nat) : Nat := 0x40200000 + 0x400 * a + 0x18
def PWM_CMPV (a : Nat) : Nat := 0x40200000 + 0x400 * a + 0x1c
def PWM_CMPW (a : Nat) : Nat := 0x40200000 + 0x400 * a + 0x20
def PWM_CMPD (a : Nat) : Nat := 0x40200000 + 0x400 * a + 0x24
def PWM_BTRIM (a : Nat) : Nat := 0x40200000 + 0x400 * a + 0x28
def PWM_TRIG0 (a : Nat) : Nat := 0x40200000 + 0x400 * a + 0x2c
def PWM_TRIG1 (a : Nat) : Nat := 0x40200000 + 0x400 * a + 0x30
def PWM_APO (a : Nat) : Nat := 0x40200000 + 0x400 * a + 0x40
def PWM_ACMPUV (a : Nat) : Nat := 0x40200000 + 0x400 * a + 0x44
def PWM_ACMPWD (a : Nat) : Nat := 0x40200000 + 0x400 * a + 0x48
def PWM_ATRIM (a : Nat) : Nat := 0x40200000 + 0x400 * a + 0x4c
def PWM_VEC (a : Nat) : Nat := 0x40200000 + 0x400 * a + 0x50
def PWM_DT (a : Nat) : Nat := 0x40200000 + 0x400 * a + 0x60
def PWM_DTS (a : Nat) : Nat := 0x40200000 + 0x400 * a + 0x64
def PWM_OCTRIP (a : Nat) : Nat := 0x40200000 + 0x400 * a + 0x80
def PWM_BSR (a : Nat) : Nat := 0x40200000 + 0x400 * a + 0x84
def PWM_CNT (a : Nat) : Nat := 0x40200000 + 0x400 * a + 0xa0
def PWM_LASTLD (a : Nat) : Nat := 0x40200000 + 0x400 * a + 0xa4
def PWM_LDALL_LO : Nat := 0x4020ff00
def PWM_LDALL_HI : Nat := 0x4020ff04
def PWM_LDPEND_LO : Nat := 0x4020ff08
def PWM_LDPEND_HI : Nat := 0x4020ff0c
def PWM_FLTSUM_LO : Nat := 0x4020ff10
def PWM_FLTSUM_HI : Nat := 0x4020ff14
def AC_CTL (q : Nat) : Nat := 0x40100000 + 0x1000 * q + 0x0
def AC_STAT (q : Nat) : Nat := 0x40100000 + 0x1000 * q + 0x4
def AC_CAL (q : Nat) : Nat := 0x40100000 + 0x1000 * q + 0x8
def AC_CUCFG (q : Nat) : Nat := 0x40100000 + 0x1000 * q + 0xc
def AC_DROPTH (q : Nat) : Nat := 0x40100000 + 0x1000 * q + 0x10
def AC_CALT (q : Nat) : Nat := 0x40100000 + 0x1000 * q + 0x14
def AC_EVT (q : Nat) : Nat := 0x40100000 + 0x1000 * q + 0x18
def AC_UCFG (q p : Nat) : Nat := 0x40100000 + 0x1000 * q + 0x20 + 0x4 * p
def AC_SEQCTL (q x : Nat) : Nat := 0x40100100 + 0x1000 * q + 0x200 * x + 0x0
def AC_DROPCNT (q x : Nat) : Nat := 0x40100100 + 0x1000 * q + 0x200 * x + 0x4
def AC_DROPINFO (q x : Nat) : Nat := 0x40100100 + 0x1000 * q + 0x200 * x + 0x8
def AC_OFS (q x : Nat) : Nat := 0x40100100 + 0x1000 * q + 0x200 * x + 0xc
def AC_GAIN (q x : Nat) : Nat := 0x40100100 + 0x1000 * q + 0x200 * x + 0x10
def AC_SKEW (q x : Nat) : Nat := 0x40100100 + 0x1000 * q + 0x200 * x + 0x14
def AC_HK (q x k : Nat) : Nat := 0x40100100 + 0x1000 * q + 0x200 * x + 0x20 + 0x4 * k
def AC_RSLT (q x i : Nat) : Nat := 0x40100100 + 0x1000 * q + 0x200 * x + 0xc0 + 0x4 * i
def AC_SEQ (q x i : Nat) : Nat := 0x40100100 + 0x1000 * q + 0x200 * x + 0x40 + 0x4 * i
def AC_RTS (q x i : Nat) : Nat := 0x40100100 + 0x1000 * q + 0x200 * x + 0x140 + 0x4 * i
def AC_UR (q p k : Nat) : Nat := 0x40100000 + 0x1000 * q + 0x500 + 0x20 * p + 0x4 * k
def AC_UTS (q p s : Nat) : Nat := 0x40100000 + 0x1000 * q + 0x580 + 0x10 * p + 0x4 * s
def AC_CHCAL (q c : Nat) : Nat := 0x40100000 + 0x1000 * q + 0x600 + 0x4 * c
def CU_STATE (a : Nat) : Nat := 0x40300000 + 0x800 * a + 0x0
def CU_CMD (a : Nat) : Nat := 0x40300000 + 0x800 * a + 0x4
def CU_STAT (a : Nat) : Nat := 0x40300000 + 0x800 * a + 0x8
def CU_FLT (a : Nat) : Nat := 0x40300000 + 0x800 * a + 0xc
def CU_SSCFG (a : Nat) : Nat := 0x40300000 + 0x800 * a + 0x10
def CU_SAMP (a : Nat) : Nat := 0x40300000 + 0x800 * a + 0x14
def CU_ZCOFS (a : Nat) : Nat := 0x40300000 + 0x800 * a + 0x18
def CU_MP (a : Nat) : Nat := 0x40300000 + 0x800 * a + 0x1c
def CU_ALIGN (a : Nat) : Nat := 0x40300000 + 0x800 * a + 0x20
def CU_RAMP0 (a : Nat) : Nat := 0x40300000 + 0x800 * a + 0x24
def CU_RAMP1 (a : Nat) : Nat := 0x40300000 + 0x800 * a + 0x28
def CU_REG (a : Nat) : Nat := 0x40300000 + 0x800 * a + 0x2c
def CU_CATCH (a : Nat) : Nat := 0x40300000 + 0x800 * a + 0x30
def CU_HALL (a : Nat) : Nat := 0x40300000 + 0x800 * a + 0x34
def CU_HALLMAP (a : Nat) : Nat := 0x40300000 + 0x800 * a + 0x38
def CU_SPEED (a : Nat) : Nat := 0x40300000 + 0x800 * a + 0x40
def CU_T1 (a : Nat) : Nat := 0x40300000 + 0x800 * a + 0x44
def CU_T2 (a : Nat) : Nat := 0x40300000 + 0x800 * a + 0x48
def CU_TPRED (a : Nat) : Nat := 0x40300000 + 0x800 * a + 0x4c
def CU_ZCT (a : Nat) : Nat := 0x40300000 + 0x800 * a + 0x50
def CU_ZCGAP (a : Nat) : Nat := 0x40300000 + 0x800 * a + 0x54
def CU_PREDB (a : Nat) : Nat := 0x40300000 + 0x800 * a + 0x58
def CU_NEXTC (a : Nat) : Nat := 0x40300000 + 0x800 * a + 0x5c
def CU_CATCHRES (a : Nat) : Nat := 0x40300000 + 0x800 * a + 0x60
def CU_CATCHSPD (a : Nat) : Nat := 0x40300000 + 0x800 * a + 0x64
def CU_CMPX (a : Nat) : Nat := 0x40300000 + 0x800 * a + 0x68
def CU_HALLST (a : Nat) : Nat := 0x40300000 + 0x800 * a + 0x6c
def CU_MPPEAK (a : Nat) : Nat := 0x40300000 + 0x800 * a + 0x70
def CU_CNT (a : Nat) : Nat := 0x40300000 + 0x800 * a + 0x74
def CU_SKIPCNT (a : Nat) : Nat := 0x40300000 + 0x800 * a + 0x78
def CU_DTCCFG (a : Nat) : Nat := 0x40300000 + 0x800 * a + 0x100
def CU_TICK (a : Nat) : Nat := 0x40300000 + 0x800 * a + 0x104
def CU_TREF (a : Nat) : Nat := 0x40300000 + 0x800 * a + 0x108
def CU_PSIREF (a : Nat) : Nat := 0x40300000 + 0x800 * a + 0x10c
def CU_BAND (a : Nat) : Nat := 0x40300000 + 0x800 * a + 0x110
def CU_MOTOR (a : Nat) : Nat := 0x40300000 + 0x800 * a + 0x114
def CU_PSI0 (a : Nat) : Nat := 0x40300000 + 0x800 * a + 0x118
def CU_IPK (a : Nat) : Nat := 0x40300000 + 0x800 * a + 0x11c
def CU_HO (a : Nat) : Nat := 0x40300000 + 0x800 * a + 0x120
def CU_HOCFG (a : Nat) : Nat := 0x40300000 + 0x800 * a + 0x124
def CU_FW (a : Nat) : Nat := 0x40300000 + 0x800 * a + 0x128
def CU_DWELL (a : Nat) : Nat := 0x40300000 + 0x800 * a + 0x12c
def CU_STAB (a s : Nat) : Nat := 0x40300000 + 0x800 * a + 0x130 + 0x4 * s
def CU_DEC (a : Nat) : Nat := 0x40300000 + 0x800 * a + 0x150
def CU_DECLAG (a : Nat) : Nat := 0x40300000 + 0x800 * a + 0x154
def CU_REV (a : Nat) : Nat := 0x40300000 + 0x800 * a + 0x158
def CU_RATED (a : Nat) : Nat := 0x40300000 + 0x800 * a + 0x15c
def CU_QRLIM (a : Nat) : Nat := 0x40300000 + 0x800 * a + 0x160
def CU_BOND (a : Nat) : Nat := 0x40300000 + 0x800 * a + 0x170
def CU_BSHARE (a : Nat) : Nat := 0x40300000 + 0x800 * a + 0x174
def CU_BTOL (a : Nat) : Nat := 0x40300000 + 0x800 * a + 0x178
def CU_PSIA (a : Nat) : Nat := 0x40300000 + 0x800 * a + 0x180
def CU_PSIB (a : Nat) : Nat := 0x40300000 + 0x800 * a + 0x184
def CU_TEST (a : Nat) : Nat := 0x40300000 + 0x800 * a + 0x188
def CU_IDC (a : Nat) : Nat := 0x40300000 + 0x800 * a + 0x18c
def CU_DTCSTAT (a : Nat) : Nat := 0x40300000 + 0x800 * a + 0x190
def CU_DECREF (a : Nat) : Nat := 0x40300000 + 0x800 * a + 0x194
def LE_CTL (e : Nat) : Nat := 0x40400000 + 0x10000 * e + 0x0
def LE_STAT (e : Nat) : Nat := 0x40400000 + 0x10000 * e + 0x4
def LE_FRAME (e : Nat) : Nat := 0x40400000 + 0x10000 * e + 0x8
def LE_FOFS (e : Nat) : Nat := 0x40400000 + 0x10000 * e + 0xc
def LE_SCHCMT (e : Nat) : Nat := 0x40400000 + 0x10000 * e + 0x10
def LE_COMMIT (e : Nat) : Nat := 0x40400000 + 0x10000 * e + 0x14
def LE_BANK (e : Nat) : Nat := 0x40400000 + 0x10000 * e + 0x18
def LE_PROOF (e : Nat) : Nat := 0x40400000 + 0x10000 * e + 0x1c
def LE_PROOFRES (e : Nat) : Nat := 0x40400000 + 0x10000 * e + 0x20
def LE_PDIFF (e : Nat) : Nat := 0x40400000 + 0x10000 * e + 0x24
def LE_PROVED (e : Nat) : Nat := 0x40400000 + 0x10000 * e + 0x28
def LE_PLOWN0 (e : Nat) : Nat := 0x40400000 + 0x10000 * e + 0x30
def LE_PLOWN1 (e : Nat) : Nat := 0x40400000 + 0x10000 * e + 0x34
def LE_RECOWN (e k : Nat) : Nat := 0x40400000 + 0x10000 * e + 0x40 + 0x4 * k
def LE_BOND (e : Nat) : Nat := 0x40400000 + 0x10000 * e + 0x60
def LE_EVT (e : Nat) : Nat := 0x40400000 + 0x10000 * e + 0x70
def LE_LCTL (e k : Nat) : Nat := 0x40400000 + 0x10000 * e + 0x100 + 0x20 * k
def LE_LSTAT (e k : Nat) : Nat := 0x40400000 + 0x10000 * e + 0x104 + 0x20 * k
def LE_MAN0 (e k : Nat) : Nat := 0x40400000 + 0x10000 * e + 0x108 + 0x20 * k
def LE_MAN1 (e k : Nat) : Nat := 0x40400000 + 0x10000 * e + 0x10c + 0x20 * k
def LE_REF0 (e k : Nat) : Nat := 0x40400000 + 0x10000 * e + 0x110 + 0x20 * k
def LE_REF1 (e k : Nat) : Nat := 0x40400000 + 0x10000 * e + 0x114 + 0x20 * k
def LE_OUTTS (e k : Nat) : Nat := 0x40400000 + 0x10000 * e + 0x118 + 0x20 * k
def LE_LAT (e k : Nat) : Nat := 0x40400000 + 0x10000 * e + 0x11c + 0x20 * k
def SCU_EVT : Nat := 0x40600000 + 0x0
def SCU_SCTL (s : Nat) : Nat := 0x40600100 + 0x80 * s + 0x0
def SCU_STGT (s : Nat) : Nat := 0x40600100 + 0x80 * s + 0x4
def SCU_SSIG (s : Nat) : Nat := 0x40600100 + 0x80 * s + 0x8
def SCU_SAMP (s : Nat) : Nat := 0x40600100 + 0x80 * s + 0xc
def SCU_SBIAS (s : Nat) : Nat := 0x40600100 + 0x80 * s + 0x10
def SCU_SPINC0 (s : Nat) : Nat := 0x40600100 + 0x80 * s + 0x14
def SCU_SPINC1 (s : Nat) : Nat := 0x40600100 + 0x80 * s + 0x18
def SCU_SLEN (s : Nat) : Nat := 0x40600100 + 0x80 * s + 0x1c
def SCU_SCLK (s : Nat) : Nat := 0x40600100 + 0x80 * s + 0x20
def SCU_CSRC (s c : Nat) : Nat := 0x40600100 + 0x80 * s + 0x24 + 0x4 * c
def SCU_CCFG (s c : Nat) : Nat := 0x40600100 + 0x80 * s + 0x34 + 0x4 * c
def SCU_CBUF (s : Nat) : Nat := 0x40600100 + 0x80 * s + 0x44
def SCU_CNCAP (s : Nat) : Nat := 0x40600100 + 0x80 * s + 0x48
def SCU_CBW (s : Nat) : Nat := 0x40600100 + 0x80 * s + 0x4c
def SCU_CWPTR (s : Nat) : Nat := 0x40600100 + 0x80 * s + 0x50
def SCU_SSTAT (s : Nat) : Nat := 0x40600100 + 0x80 * s + 0x54
def SCU_CDROP (s : Nat) : Nat := 0x40600100 + 0x80 * s + 0x58
def EVC_AGE : Nat := 0x40010000 + 0x0
def EVC_STAT : Nat := 0x40010000 + 0x4
def EVC_RAISE : Nat := 0x40010000 + 0x8
def EVC_ACK : Nat := 0x40010000 + 0xc
def EVC_THR (m : Nat) : Nat := 0x40010000 + 0x20 + 0x4 * m
def EVC_TOP (m : Nat) : Nat := 0x40010000 + 0x40 + 0x4 * m
def EVC_WTOP (m : Nat) : Nat := 0x40010000 + 0x60 + 0x4 * m
def EVC_PEND (k : Nat) : Nat := 0x40010000 + 0x400 + 0x4 * k
def EVC_RERAISE (k : Nat) : Nat := 0x40010000 + 0x480 + 0x4 * k
def EVC_CFG (i : Nat) : Nat := 0x40010000 + 0x1000 + 0x4 * i
def LSS_HOST (k : Nat) : Nat := 0x40020000 + 0x0 + 0x4 * k
def LSS_PAIRST : Nat := 0x40020000 + 0x20
def LSS_FREC : Nat := 0x40020000 + 0x24
def LSS_FTS : Nat := 0x40020000 + 0x28
def LSS_WDG : Nat := 0x40020000 + 0x30
def LSS_KICK : Nat := 0x40020000 + 0x34
def LSS_CFG : Nat := 0x40020000 + 0x38
def LSS_MIGCTL : Nat := 0x40020000 + 0x40
def LSS_MIGMLO : Nat := 0x40020000 + 0x44
def LSS_MIGMHI : Nat := 0x40020000 + 0x48
def LSS_MIGRES : Nat := 0x40020000 + 0x4c
def LSS_MIGTS : Nat := 0x40020000 + 0x50
def LSS_REHOST : Nat := 0x40020000 + 0x60
def LSS_SUPMV : Nat := 0x40020000 + 0x64
def LSS_PRST : Nat := 0x40020000 + 0x68
def LSS_SPLIT : Nat := 0x40020000 + 0x6c
def LSS_EVT : Nat := 0x40020000 + 0xf0
def SSQ_STAT : Nat := 0x40020000 + 0x800
def SSQ_KNELL_LO : Nat := 0x40020000 + 0x804
def SSQ_KNELL_HI : Nat := 0x40020000 + 0x808
def SSQ_HOLD_LO : Nat := 0x40020000 + 0x80c
def SSQ_HOLD_HI : Nat := 0x40020000 + 0x810
def SSQ_KMASK_LO : Nat := 0x40020000 + 0x814
def SSQ_KMASK_HI : Nat := 0x40020000 + 0x818
def SSQ_LINE : Nat := 0x40020000 + 0x81c
def SSQ_KTS : Nat := 0x40020000 + 0x820
def JNL_STAT : Nat := 0x40030000 + 0x0
def JNL_SUBMIT : Nat := 0x40030000 + 0x4
def JNL_RES (m : Nat) : Nat := 0x40030000 + 0x10 + 0x4 * m
def JNL_SEQ (m : Nat) : Nat := 0x40030000 + 0x24 + 0x4 * m
def JNL_RING : Nat := 0x40030000 + 0x40
def JNL_NEXTSEQ : Nat := 0x40030000 + 0x44
def JNL_SPARE : Nat := 0x40030000 + 0x48
def JNL_WEAR : Nat := 0x40030000 + 0x4c
def JNL_CCFG : Nat := 0x40030000 + 0x50
def JNL_QUOTA : Nat := 0x40030000 + 0x54
def JNL_CONS : Nat := 0x40030000 + 0x58
def JNL_FWCUR : Nat := 0x40030000 + 0x60
def JNL_FWPREV : Nat := 0x40030000 + 0x64
def JNL_IMGSRC : Nat := 0x40030000 + 0x68
def JNL_IMGWR : Nat := 0x40030000 + 0x6c
def JNL_IMGST : Nat := 0x40030000 + 0x70
def JNL_MAPQ : Nat := 0x40030000 + 0x74
def JNL_EVT : Nat := 0x40030000 + 0x7c
def SP0_CFG : Nat := 0x40050000 + 0x0
def SP0_TIM : Nat := 0x40050000 + 0x4
def SP0_CTL : Nat := 0x40050000 + 0x8
def SP0_STAT : Nat := 0x40050000 + 0xc
def SP0_OWN : Nat := 0x40050000 + 0x10
def SP0_EVT : Nat := 0x40050000 + 0x14
def SP0_QBUF : Nat := 0x40050000 + 0x20
def SP0_QADDR : Nat := 0x40050000 + 0x24
def SP0_QCTL : Nat := 0x40050000 + 0x28
def SP0_QRES : Nat := 0x40050000 + 0x2c
def SP0_XIPCFG : Nat := 0x40050000 + 0x40
def SP0_XIPINV : Nat := 0x40050000 + 0x44
def SP0_XCON : Nat := 0x40050000 + 0x48
def SP0_FDC (i : Nat) : Nat := 0x40050000 + 0x100 + 0x8 * i
def SP0_FDP (i : Nat) : Nat := 0x40050000 + 0x104 + 0x8 * i
def SP1_CFG : Nat := 0x40051000 + 0x0
def SP1_CTL : Nat := 0x40051000 + 0x4
def SP1_STAT : Nat := 0x40051000 + 0x8
def SP1_BUSY : Nat := 0x40051000 + 0xc
def SP1_RXHEAD : Nat := 0x40051000 + 0x10
def SP1_RX : Nat := 0x40051000 + 0x14
def SP1_TX : Nat := 0x40051000 + 0x18
def SP1_TCNT : Nat := 0x40051000 + 0x1c
def SP1_OVFCNT : Nat := 0x40051000 + 0x20
def SP1_EVT : Nat := 0x40051000 + 0x24
def SWC_CFG : Nat := 0x40080000 + 0x0
def SWC_STAT : Nat := 0x40080000 + 0x4
def SWC_VADDR : Nat := 0x40080000 + 0x8
def SWC_EVT : Nat := 0x40080000 + 0xc
def SWC_SEG (i : Nat) : Nat := 0x40080000 + 0x100 + 0x4 * i
def SWC_HSUM_LO : Nat := 0x40080000 + 0x200
def SWC_HSUM_HI : Nat := 0x40080000 + 0x204
def CAN_CFG (n : Nat) : Nat := 0x40060000 + 0x1000 * n + 0x0
def CAN_NBT (n : Nat) : Nat := 0x40060000 + 0x1000 * n + 0x4
def CAN_DBT (n : Nat) : Nat := 0x40060000 + 0x1000 * n + 0x8
def CAN_STAT (n : Nat) : Nat := 0x40060000 + 0x1000 * n + 0xc
def CAN_ERRC (n : Nat) : Nat := 0x40060000 + 0x1000 * n + 0x10
def CAN_TXREQ (n : Nat) : Nat := 0x40060000 + 0x1000 * n + 0x14
def CAN_TXABORT (n : Nat) : Nat := 0x40060000 + 0x1000 * n + 0x18
def CAN_TXPEND (n : Nat) : Nat := 0x40060000 + 0x1000 * n + 0x1c
def CAN_RXPOP (n : Nat) : Nat := 0x40060000 + 0x1000 * n + 0x20
def CAN_RXSTAT (n : Nat) : Nat := 0x40060000 + 0x1000 * n + 0x24
def CAN_TBC (n : Nat) : Nat := 0x40060000 + 0x1000 * n + 0x28
def CAN_EVT (n : Nat) : Nat := 0x40060000 + 0x1000 * n + 0x2c
def CAN_OWN (n : Nat) : Nat := 0x40060000 + 0x1000 * n + 0x30
def CAN_TXRES (n m : Nat) : Nat := 0x40060000 + 0x1000 * n + 0x40 + 0x4 * m
def CAN_FLTID (n f : Nat) : Nat := 0x40060000 + 0x1000 * n + 0x80 + 0x8 * f
def CAN_FLTMSK (n f : Nat) : Nat := 0x40060000 + 0x1000 * n + 0x84 + 0x8 * f
def CAN_TXID (n m : Nat) : Nat := 0x40060000 + 0x1000 * n + 0x100 + 0x50 * m
def CAN_TXCTL (n m : Nat) : Nat := 0x40060000 + 0x1000 * n + 0x104 + 0x50 * m
def CAN_TXTS (n m : Nat) : Nat := 0x40060000 + 0x1000 * n + 0x108 + 0x50 * m
def CAN_TXDATA (n m k : Nat) : Nat := 0x40060000 + 0x1000 * n + 0x10c + 0x50 * m + 0x4 * k
def CAN_RXID (n : Nat) : Nat := 0x40060000 + 0x1000 * n + 0x400
def CAN_RXCTL (n : Nat) : Nat := 0x40060000 + 0x1000 * n + 0x404
def CAN_RXTS (n : Nat) : Nat := 0x40060000 + 0x1000 * n + 0x408
def CAN_RXDATA (n k : Nat) : Nat := 0x40060000 + 0x1000 * n + 0x40c + 0x4 * k

def AUX_OUT_ON : Fld := ⟨AUX_OUT, 0, 16⟩
def AUX_TMASK_HOLD : Fld := ⟨AUX_TMASK, 0, 16⟩
def AUX_GCFG_PULLIN (g : Nat) : Fld := ⟨(AUX_GCFG g), 16, 16⟩
def AUX_GCFG_HOLD (g : Nat) : Fld := ⟨(AUX_GCFG g), 0, 8⟩
def AUX_GSTAT_DIAGAGE (g : Nat) : Fld := ⟨AUX_GSTAT, 8 * g + 3, 1⟩
def AUX_GSTAT_DEFER (g : Nat) : Fld := ⟨AUX_GSTAT, 8 * g + 2, 1⟩
def AUX_GSTAT_TRIP (g : Nat) : Fld := ⟨AUX_GSTAT, 8 * g + 1, 1⟩
def AUX_GSTAT_HSON (g : Nat) : Fld := ⟨AUX_GSTAT, 8 * g, 1⟩
def AUX_OLOAD_OPEN : Fld := ⟨AUX_OLOAD, 0, 16⟩
def AUX_TRIPCLR_CLR : Fld := ⟨AUX_TRIPCLR, 0, 4⟩
def GSP_CFG_PULLUP : Fld := ⟨GSP_CFG, 8, 1⟩
def GSP_CFG_FILT : Fld := ⟨GSP_CFG, 0, 8⟩
def GSP_PERIOD_PERIOD : Fld := ⟨GSP_PERIOD, 0, 32⟩
def FLT_STAT_EXTSEEN : Fld := ⟨FLT_STAT, 2, 1⟩
def FLT_STAT_DRIVE : Fld := ⟨FLT_STAT, 1, 1⟩
def FLT_STAT_LEVEL : Fld := ⟨FLT_STAT, 0, 1⟩
def CSL_STAT_STEPL (i : Nat) : Fld := ⟨(CSL_STAT i), 28, 4⟩
def CSL_STAT_STEPD (i : Nat) : Fld := ⟨(CSL_STAT i), 24, 4⟩
def CSL_STAT_REASON (i : Nat) : Fld := ⟨(CSL_STAT i), 8, 4⟩
def CSL_STAT_SEGSW (i : Nat) : Fld := ⟨(CSL_STAT i), 7, 1⟩
def CSL_STAT_LOCK (i : Nat) : Fld := ⟨(CSL_STAT i), 6, 1⟩
def CSL_STAT_PRES (i : Nat) : Fld := ⟨(CSL_STAT i), 5, 1⟩
def CSL_STAT_STATE (i : Nat) : Fld := ⟨(CSL_STAT i), 0, 4⟩
def CSL_PORT_HALLOV (i p : Nat) : Fld := ⟨(CSL_PORT i), 8 * p + 7, 1⟩
def CSL_PORT_ST (i p : Nat) : Fld := ⟨(CSL_PORT i), 8 * p + 4, 3⟩
def CSL_PORT_CODE (i p : Nat) : Fld := ⟨(CSL_PORT i), 8 * p, 4⟩
def CSL_NTC_TEMP (i p : Nat) : Fld := ⟨(CSL_NTC i), 8 * p, 8⟩
def CSL_REL_GO : Fld := ⟨CSL_REL, 31, 1⟩
def CSL_REL_SLOT : Fld := ⟨CSL_REL, 0, 4⟩
def CSL_RTO_SEC : Fld := ⟨CSL_RTO, 0, 8⟩
def CSL_PANEL_RELREF : Fld := ⟨CSL_PANEL, 8, 1⟩
def CSL_PANEL_SELVALID : Fld := ⟨CSL_PANEL, 7, 1⟩
def CSL_PANEL_KEYS : Fld := ⟨CSL_PANEL, 4, 3⟩
def CSL_PANEL_SEL : Fld := ⟨CSL_PANEL, 0, 4⟩
def PSE_STAT_OVTEMP : Fld := ⟨PSE_STAT, 27, 1⟩
def PSE_STAT_DERATE : Fld := ⟨PSE_STAT, 26, 1⟩
def PSE_STAT_RIPPLE : Fld := ⟨PSE_STAT, 25, 1⟩
def PSE_STAT_BUDGET : Fld := ⟨PSE_STAT, 24, 1⟩
def PSE_STAT_CLAMPLIM : Fld := ⟨PSE_STAT, 23, 1⟩
def PSE_STAT_CLAMPON : Fld := ⟨PSE_STAT, 22, 1⟩
def PSE_STAT_REGEN0 : Fld := ⟨PSE_STAT, 21, 1⟩
def PSE_STAT_VDECEL : Fld := ⟨PSE_STAT, 20, 1⟩
def PSE_STAT_LINKOV : Fld := ⟨PSE_STAT, 19, 1⟩
def PSE_STAT_LINKUV : Fld := ⟨PSE_STAT, 18, 1⟩
def PSE_STAT_PRECH : Fld := ⟨PSE_STAT, 17, 1⟩
def PSE_STAT_THRERR : Fld := ⟨PSE_STAT, 16, 1⟩
def PSE_STAT_REVB : Fld := ⟨PSE_STAT, 11, 1⟩
def PSE_STAT_REVA : Fld := ⟨PSE_STAT, 10, 1⟩
def PSE_STAT_OCB : Fld := ⟨PSE_STAT, 9, 1⟩
def PSE_STAT_OCA : Fld := ⟨PSE_STAT, 8, 1⟩
def PSE_STAT_INB : Fld := ⟨PSE_STAT, 7, 1⟩
def PSE_STAT_INA : Fld := ⟨PSE_STAT, 6, 1⟩
def PSE_STAT_HOLDUP : Fld := ⟨PSE_STAT, 3, 1⟩
def PSE_STAT_BKAVAIL : Fld := ⟨PSE_STAT, 2, 1⟩
def PSE_STAT_SRC : Fld := ⟨PSE_STAT, 0, 2⟩
def PSE_VLINK_VLINK : Fld := ⟨PSE_VLINK, 0, 16⟩
def PSE_VIN_VDCB : Fld := ⟨PSE_VIN, 16, 16⟩
def PSE_VIN_VDCA : Fld := ⟨PSE_VIN, 0, 16⟩
def PSE_IIN_IDCB : Fld := ⟨PSE_IIN, 16, 16⟩
def PSE_IIN_IDCA : Fld := ⟨PSE_IIN, 0, 16⟩
def PSE_LOGIC_VLOGIC : Fld := ⟨PSE_LOGIC, 0, 16⟩
def PSE_TBASE_TBASE : Fld := ⟨PSE_TBASE, 0, 16⟩
def PSE_PLIM_PPEAK : Fld := ⟨PSE_PLIM, 16, 16⟩
def PSE_PLIM_PCONT : Fld := ⟨PSE_PLIM, 0, 16⟩
def PSE_CREDIT_CRA : Fld := ⟨PSE_CREDIT, 24, 8⟩
def PSE_CREDIT_CRB : Fld := ⟨PSE_CREDIT, 16, 8⟩
def PSE_CREDIT_CRP : Fld := ⟨PSE_CREDIT, 0, 16⟩
def PSE_CFG_CLMPEN : Fld := ⟨PSE_CFG, 2, 1⟩
def PSE_CFG_REVB : Fld := ⟨PSE_CFG, 1, 1⟩
def PSE_CFG_REVA : Fld := ⟨PSE_CFG, 0, 1⟩
def PSE_PUSER_PUSER : Fld := ⟨PSE_PUSER, 0, 16⟩
def PSE_VTHR0_VREGEN0 : Fld := ⟨PSE_VTHR0, 16, 16⟩
def PSE_VTHR0_VDECEL : Fld := ⟨PSE_VTHR0, 0, 16⟩
def PSE_VTHR1_VCLON : Fld := ⟨PSE_VTHR1, 16, 16⟩
def PSE_VTHR1_VCLOFF : Fld := ⟨PSE_VTHR1, 0, 16⟩
def PSE_RIPPLE_RSCALE : Fld := ⟨PSE_RIPPLE, 24, 8⟩
def PSE_RIPPLE_IRIP : Fld := ⟨PSE_RIPPLE, 0, 16⟩
def PSE_CLAMP_CRCL : Fld := ⟨PSE_CLAMP, 24, 8⟩
def PSE_CLAMP_RCLMP : Fld := ⟨PSE_CLAMP, 0, 16⟩
def PSE_SEG_FUSEOK : Fld := ⟨PSE_SEG, 16, 16⟩
def PSE_SEG_SEGSW : Fld := ⟨PSE_SEG, 0, 16⟩
def PSE_EVT_FLAG : Fld := ⟨PSE_EVT, 0, 12⟩
def PSE_SEGRC_RECL : Fld := ⟨PSE_SEGRC, 0, 16⟩
def PSE_AXPRIO_PRIO (k j : Nat) : Fld := ⟨(PSE_AXPRIO k), 4 * j, 3⟩
def PSE_AXLIM_UCEIL (i : Nat) : Fld := ⟨(PSE_AXLIM i), 16, 16⟩
def PSE_AXLIM_FLOOR (i : Nat) : Fld := ⟨(PSE_AXLIM i), 0, 16⟩
def PSE_AXCEIL_CEIL (i : Nat) : Fld := ⟨(PSE_AXCEIL i), 16, 16⟩
def PSE_AXCEIL_PKCR (i : Nat) : Fld := ⟨(PSE_AXCEIL i), 8, 8⟩
def PSE_AXCEIL_PEAKOUT (i : Nat) : Fld := ⟨(PSE_AXCEIL i), 1, 1⟩
def PSE_AXCEIL_LIMITED (i : Nat) : Fld := ⟨(PSE_AXCEIL i), 0, 1⟩
def TRU_NOW_LO_NOWL : Fld := ⟨TRU_NOW_LO, 0, 32⟩
def TRU_NOW_HI_NOWH : Fld := ⟨TRU_NOW_HI, 0, 32⟩
def TRU_STAT_FCLAMP : Fld := ⟨TRU_STAT, 15, 1⟩
def TRU_STAT_TIMEJUMP : Fld := ⟨TRU_STAT, 14, 1⟩
def TRU_STAT_MCONF : Fld := ⟨TRU_STAT, 13, 1⟩
def TRU_STAT_XTALFAIL : Fld := ⟨TRU_STAT, 12, 1⟩
def TRU_STAT_PLLBLK : Fld := ⟨TRU_STAT, 11, 1⟩
def TRU_STAT_PLLALK : Fld := ⟨TRU_STAT, 10, 1⟩
def TRU_STAT_PLLINK : Fld := ⟨TRU_STAT, 9, 1⟩
def TRU_STAT_SIQ : Fld := ⟨TRU_STAT, 7, 1⟩
def TRU_STAT_PLQ : Fld := ⟨TRU_STAT, 6, 1⟩
def TRU_STAT_XQ : Fld := ⟨TRU_STAT, 5, 1⟩
def TRU_STAT_STATE : Fld := ⟨TRU_STAT, 4, 1⟩
def TRU_STAT_SEL : Fld := ⟨TRU_STAT, 0, 2⟩
def TRU_CFG_SIWAKE : Fld := ⟨TRU_CFG, 7, 1⟩
def TRU_CFG_PLROLE : Fld := ⟨TRU_CFG, 4, 2⟩
def TRU_CFG_SIMODE : Fld := ⟨TRU_CFG, 0, 2⟩
def TRU_FCORR_F : Fld := ⟨TRU_FCORR, 0, 32⟩
def TRU_FREF_FREF : Fld := ⟨TRU_FREF, 0, 32⟩
def TRU_PHERR_E : Fld := ⟨TRU_PHERR, 0, 32⟩
def TRU_GAIN_KP : Fld := ⟨TRU_GAIN, 0, 13⟩
def TRU_SIOFS_OFS : Fld := ⟨TRU_SIOFS, 0, 18⟩
def TRU_PLOFS_OFS : Fld := ⟨TRU_PLOFS, 0, 18⟩
def TRU_SOCFG_QUALONLY : Fld := ⟨TRU_SOCFG, 2, 1⟩
def TRU_SOCFG_MODE : Fld := ⟨TRU_SOCFG, 1, 1⟩
def TRU_SOCFG_EN : Fld := ⟨TRU_SOCFG, 0, 1⟩
def TRU_SOOFS_OFS : Fld := ⟨TRU_SOOFS, 0, 28⟩
def TRU_SITS_LO_TSL : Fld := ⟨TRU_SITS_LO, 0, 32⟩
def TRU_SITS_HI_TSH : Fld := ⟨TRU_SITS_HI, 0, 32⟩
def TRU_RCERR_RCE : Fld := ⟨TRU_RCERR, 0, 32⟩
def TRU_EVT_FLAG : Fld := ⟨TRU_EVT, 0, 4⟩
def SYS_ID_PART : Fld := ⟨SYS_ID, 16, 16⟩
def SYS_ID_STEPL : Fld := ⟨SYS_ID, 12, 4⟩
def SYS_ID_STEPD : Fld := ⟨SYS_ID, 8, 4⟩
def SYS_MODE_REFUSE : Fld := ⟨SYS_MODE, 24, 4⟩
def SYS_MODE_TARGET : Fld := ⟨SYS_MODE, 16, 4⟩
def SYS_MODE_PEND : Fld := ⟨SYS_MODE, 15, 1⟩
def SYS_MODE_PREV : Fld := ⟨SYS_MODE, 8, 4⟩
def SYS_MODE_MODE : Fld := ⟨SYS_MODE, 0, 4⟩
def SYS_MODEREQ_GO : Fld := ⟨SYS_MODEREQ, 31, 1⟩
def SYS_MODEREQ_MODE : Fld := ⟨SYS_MODEREQ, 0, 4⟩
def SYS_RCAUSE_LOCKREL : Fld := ⟨SYS_RCAUSE, 5, 1⟩
def SYS_RCAUSE_HOLDUP : Fld := ⟨SYS_RCAUSE, 4, 1⟩
def SYS_RCAUSE_WARMCON : Fld := ⟨SYS_RCAUSE, 3, 1⟩
def SYS_RCAUSE_WARMSW : Fld := ⟨SYS_RCAUSE, 2, 1⟩
def SYS_RCAUSE_WAKE : Fld := ⟨SYS_RCAUSE, 1, 1⟩
def SYS_RCAUSE_POR : Fld := ⟨SYS_RCAUSE, 0, 1⟩
def SYS_RESET_KEY : Fld := ⟨SYS_RESET, 24, 8⟩
def SYS_RESET_GO : Fld := ⟨SYS_RESET, 0, 1⟩
def SYS_WAKEEN_FULLBIST : Fld := ⟨SYS_WAKEEN, 16, 1⟩
def SYS_WAKEEN_MOTOR : Fld := ⟨SYS_WAKEEN, 6, 1⟩
def SYS_WAKEEN_CART : Fld := ⟨SYS_WAKEEN, 5, 1⟩
def SYS_WAKEEN_KEY : Fld := ⟨SYS_WAKEEN, 4, 1⟩
def SYS_WAKEEN_LOGIC : Fld := ⟨SYS_WAKEEN, 3, 1⟩
def SYS_WAKEEN_PL1 : Fld := ⟨SYS_WAKEEN, 2, 1⟩
def SYS_WAKEEN_PL0 : Fld := ⟨SYS_WAKEEN, 1, 1⟩
def SYS_WAKEEN_ISO : Fld := ⟨SYS_WAKEEN, 0, 1⟩
def SYS_WAKESRC_SYNCIN : Fld := ⟨SYS_WAKESRC, 7, 1⟩
def SYS_WAKESRC_SRC : Fld := ⟨SYS_WAKESRC, 0, 7⟩
def SYS_DLY_SEC : Fld := ⟨SYS_DLY, 0, 16⟩
def SYS_STOPTO_MS : Fld := ⟨SYS_STOPTO, 0, 16⟩
def SYS_BOOT_BTIME : Fld := ⟨SYS_BOOT, 24, 8⟩
def SYS_BOOT_FULL : Fld := ⟨SYS_BOOT, 16, 1⟩
def SYS_BOOT_CAPOK : Fld := ⟨SYS_BOOT, 13, 1⟩
def SYS_BOOT_FORME : Fld := ⟨SYS_BOOT, 12, 1⟩
def SYS_BOOT_JNLOK : Fld := ⟨SYS_BOOT, 11, 1⟩
def SYS_BOOT_RAMOK : Fld := ⟨SYS_BOOT, 10, 1⟩
def SYS_BOOT_SSQOK : Fld := ⟨SYS_BOOT, 9, 1⟩
def SYS_BOOT_PAIROK : Fld := ⟨SYS_BOOT, 0, 5⟩
def SYS_LOCK_LATCH : Fld := ⟨SYS_LOCK, 31, 1⟩
def SYS_LOCK_PORSEEN : Fld := ⟨SYS_LOCK, 30, 1⟩
def SYS_LOCK_CAUSE : Fld := ⟨SYS_LOCK, 0, 8⟩
def SYS_AXSAFE_LO_HOLD : Fld := ⟨SYS_AXSAFE_LO, 0, 32⟩
def SYS_AXSAFE_HI_HOLD : Fld := ⟨SYS_AXSAFE_HI, 0, 32⟩
def SYS_PEAL_CTL_GO : Fld := ⟨SYS_PEAL_CTL, 31, 1⟩
def SYS_PEAL_CTL_ACTION : Fld := ⟨SYS_PEAL_CTL, 16, 4⟩
def SYS_PEAL_CTL_LEAD : Fld := ⟨SYS_PEAL_CTL, 0, 10⟩
def SYS_PEAL_MLO_MASK : Fld := ⟨SYS_PEAL_MLO, 0, 32⟩
def SYS_PEAL_MHI_MASK : Fld := ⟨SYS_PEAL_MHI, 0, 32⟩
def SYS_PEAL_RES_NBAD : Fld := ⟨SYS_PEAL_RES, 8, 8⟩
def SYS_PEAL_RES_RES : Fld := ⟨SYS_PEAL_RES, 0, 4⟩
def SYS_PEAL_FLO_FAIL : Fld := ⟨SYS_PEAL_FLO, 0, 32⟩
def SYS_PEAL_FHI_FAIL : Fld := ⟨SYS_PEAL_FHI, 0, 32⟩
def SYS_PEAL_XLO_MIXED : Fld := ⟨SYS_PEAL_XLO, 0, 32⟩
def SYS_PEAL_XHI_MIXED : Fld := ⟨SYS_PEAL_XHI, 0, 32⟩
def SYS_PEAL_TC_TC : Fld := ⟨SYS_PEAL_TC, 0, 32⟩
def SYS_EVT_FLAG : Fld := ⟨SYS_EVT, 0, 3⟩
def SYS_AXST_ST (k j : Nat) : Fld := ⟨(SYS_AXST k), 4 * j, 4⟩
def PWM_STAT_BSREFS (a : Nat) : Fld := ⟨(PWM_STAT a), 8, 8⟩
def PWM_STAT_ABSENT (a : Nat) : Fld := ⟨(PWM_STAT a), 7, 1⟩
def PWM_STAT_LDLOST (a : Nat) : Fld := ⟨(PWM_STAT a), 6, 1⟩
def PWM_STAT_PERCLIP (a : Nat) : Fld := ⟨(PWM_STAT a), 5, 1⟩
def PWM_STAT_BRIDGE (a : Nat) : Fld := ⟨(PWM_STAT a), 4, 1⟩
def PWM_STAT_DTSPLIT (a : Nat) : Fld := ⟨(PWM_STAT a), 3, 1⟩
def PWM_STAT_LDPEND (a : Nat) : Fld := ⟨(PWM_STAT a), 2, 1⟩
def PWM_STAT_HIZ (a : Nat) : Fld := ⟨(PWM_STAT a), 1, 1⟩
def PWM_STAT_FLT (a : Nat) : Fld := ⟨(PWM_STAT a), 0, 1⟩
def PWM_FLT_OCPH (a : Nat) : Fld := ⟨(PWM_FLT a), 8, 3⟩
def PWM_FLT_LINK (a : Nat) : Fld := ⟨(PWM_FLT a), 7, 1⟩
def PWM_FLT_SSQ (a : Nat) : Fld := ⟨(PWM_FLT a), 6, 1⟩
def PWM_FLT_LSM (a : Nat) : Fld := ⟨(PWM_FLT a), 5, 1⟩
def PWM_FLT_KNELL (a : Nat) : Fld := ⟨(PWM_FLT a), 4, 1⟩
def PWM_FLT_LINE (a : Nat) : Fld := ⟨(PWM_FLT a), 3, 1⟩
def PWM_FLT_GSUV (a : Nat) : Fld := ⟨(PWM_FLT a), 2, 1⟩
def PWM_FLT_OC (a : Nat) : Fld := ⟨(PWM_FLT a), 1, 1⟩
def PWM_FLT_DESAT (a : Nat) : Fld := ⟨(PWM_FLT a), 0, 1⟩
def PWM_PAT_SRC (a : Nat) : Fld := ⟨(PWM_PAT a), 12, 4⟩
def PWM_PAT_PW (a : Nat) : Fld := ⟨(PWM_PAT a), 8, 3⟩
def PWM_PAT_PV (a : Nat) : Fld := ⟨(PWM_PAT a), 4, 3⟩
def PWM_PAT_PU (a : Nat) : Fld := ⟨(PWM_PAT a), 0, 3⟩
def PWM_TPAT_PW (a : Nat) : Fld := ⟨(PWM_TPAT a), 8, 3⟩
def PWM_TPAT_PV (a : Nat) : Fld := ⟨(PWM_TPAT a), 4, 3⟩
def PWM_TPAT_PU (a : Nat) : Fld := ⟨(PWM_TPAT a), 0, 3⟩
def PWM_PER_PER (a : Nat) : Fld := ⟨(PWM_PER a), 0, 16⟩
def PWM_OFS_OFS (a : Nat) : Fld := ⟨(PWM_OFS a), 0, 16⟩
def PWM_CMPU_CMP (a : Nat) : Fld := ⟨(PWM_CMPU a), 0, 16⟩
def PWM_CMPV_CMP (a : Nat) : Fld := ⟨(PWM_CMPV a), 0, 16⟩
def PWM_CMPW_CMP (a : Nat) : Fld := ⟨(PWM_CMPW a), 0, 16⟩
def PWM_CMPD_CMP (a : Nat) : Fld := ⟨(PWM_CMPD a), 0, 16⟩
def PWM_BTRIM_TRIM (a : Nat) : Fld := ⟨(PWM_BTRIM a), 0, 12⟩
def PWM_TRIG0_EN (a : Nat) : Fld := ⟨(PWM_TRIG0 a), 31, 1⟩
def PWM_TRIG0_ANN (a : Nat) : Fld := ⟨(PWM_TRIG0 a), 16, 8⟩
def PWM_TRIG0_POS (a : Nat) : Fld := ⟨(PWM_TRIG0 a), 0, 16⟩
def PWM_TRIG1_EN (a : Nat) : Fld := ⟨(PWM_TRIG1 a), 31, 1⟩
def PWM_TRIG1_ANN (a : Nat) : Fld := ⟨(PWM_TRIG1 a), 16, 8⟩
def PWM_TRIG1_POS (a : Nat) : Fld := ⟨(PWM_TRIG1 a), 0, 16⟩
def PWM_APO_PER (a : Nat) : Fld := ⟨(PWM_APO a), 16, 16⟩
def PWM_APO_OFS (a : Nat) : Fld := ⟨(PWM_APO a), 0, 16⟩
def PWM_ACMPUV_CMPU (a : Nat) : Fld := ⟨(PWM_ACMPUV a), 16, 16⟩
def PWM_ACMPUV_CMPV (a : Nat) : Fld := ⟨(PWM_ACMPUV a), 0, 16⟩
def PWM_ACMPWD_CMPW (a : Nat) : Fld := ⟨(PWM_ACMPWD a), 16, 16⟩
def PWM_ACMPWD_CMPD (a : Nat) : Fld := ⟨(PWM_ACMPWD a), 0, 16⟩
def PWM_ATRIM_TRIM (a : Nat) : Fld := ⟨(PWM_ATRIM a), 20, 12⟩
def PWM_VEC_DUTY (a : Nat) : Fld := ⟨(PWM_VEC a), 8, 1⟩
def PWM_VEC_ZVEC (a : Nat) : Fld := ⟨(PWM_VEC a), 4, 3⟩
def PWM_VEC_VEC (a : Nat) : Fld := ⟨(PWM_VEC a), 0, 3⟩
def PWM_DT_DT (a : Nat) : Fld := ⟨(PWM_DT a), 0, 10⟩
def PWM_DTS_DTR (a : Nat) : Fld := ⟨(PWM_DTS a), 16, 10⟩
def PWM_DTS_DTF (a : Nat) : Fld := ⟨(PWM_DTS a), 0, 10⟩
def PWM_OCTRIP_TRIP (a : Nat) : Fld := ⟨(PWM_OCTRIP a), 0, 10⟩
def PWM_BSR_MAXON (a : Nat) : Fld := ⟨(PWM_BSR a), 16, 16⟩
def PWM_BSR_REF (a : Nat) : Fld := ⟨(PWM_BSR a), 0, 10⟩
def PWM_CNT_CNT (a : Nat) : Fld := ⟨(PWM_CNT a), 0, 16⟩
def PWM_LASTLD_T (a : Nat) : Fld := ⟨(PWM_LASTLD a), 0, 32⟩
def PWM_LDALL_LO_MASK : Fld := ⟨PWM_LDALL_LO, 0, 32⟩
def PWM_LDALL_HI_MASK : Fld := ⟨PWM_LDALL_HI, 0, 32⟩
def PWM_LDPEND_LO_PEND : Fld := ⟨PWM_LDPEND_LO, 0, 32⟩
def PWM_LDPEND_HI_PEND : Fld := ⟨PWM_LDPEND_HI, 0, 32⟩
def PWM_FLTSUM_LO_FLT : Fld := ⟨PWM_FLTSUM_LO, 0, 32⟩
def PWM_FLTSUM_HI_FLT : Fld := ⟨PWM_FLTSUM_HI, 0, 32⟩
def AC_CTL_HKDIV (q : Nat) : Fld := ⟨(AC_CTL q), 6, 3⟩
def AC_CTL_INTLV (q : Nat) : Fld := ⟨(AC_CTL q), 4, 1⟩
def AC_CTL_REFEN (q : Nat) : Fld := ⟨(AC_CTL q), 0, 1⟩
def AC_STAT_ABSENT (q : Nat) : Fld := ⟨(AC_STAT q), 15, 1⟩
def AC_STAT_CALDUE (q : Nat) : Fld := ⟨(AC_STAT q), 13, 1⟩
def AC_STAT_CALBUSY (q : Nat) : Fld := ⟨(AC_STAT q), 12, 1⟩
def AC_STAT_SPLIT (q : Nat) : Fld := ⟨(AC_STAT q), 10, 2⟩
def AC_STAT_SKEWPH (q : Nat) : Fld := ⟨(AC_STAT q), 9, 1⟩
def AC_STAT_INTLV (q : Nat) : Fld := ⟨(AC_STAT q), 8, 1⟩
def AC_STAT_INTMON (q : Nat) : Fld := ⟨(AC_STAT q), 4, 1⟩
def AC_STAT_REFBAD (q : Nat) : Fld := ⟨(AC_STAT q), 3, 1⟩
def AC_STAT_REFRDY (q : Nat) : Fld := ⟨(AC_STAT q), 2, 1⟩
def AC_CAL_GO (q : Nat) : Fld := ⟨(AC_CAL q), 31, 1⟩
def AC_CAL_SKEW (q : Nat) : Fld := ⟨(AC_CAL q), 30, 1⟩
def AC_CAL_ERR (q : Nat) : Fld := ⟨(AC_CAL q), 24, 4⟩
def AC_CAL_PHASE (q : Nat) : Fld := ⟨(AC_CAL q), 16, 4⟩
def AC_CAL_CONV (q : Nat) : Fld := ⟨(AC_CAL q), 0, 1⟩
def AC_CUCFG_CONV (q : Nat) : Fld := ⟨(AC_CUCFG q), 0, 4⟩
def AC_DROPTH_TH (q : Nat) : Fld := ⟨(AC_DROPTH q), 0, 16⟩
def AC_CALT_TDIE (q : Nat) : Fld := ⟨(AC_CALT q), 0, 14⟩
def AC_EVT_FLAG (q : Nat) : Fld := ⟨(AC_EVT q), 0, 4⟩
def AC_UCFG_T1B (q p : Nat) : Fld := ⟨(AC_UCFG q p), 24, 8⟩
def AC_UCFG_T1A (q p : Nat) : Fld := ⟨(AC_UCFG q p), 16, 8⟩
def AC_UCFG_T0B (q p : Nat) : Fld := ⟨(AC_UCFG q p), 8, 8⟩
def AC_UCFG_T0A (q p : Nat) : Fld := ⟨(AC_UCFG q p), 0, 8⟩
def AC_SEQCTL_LEN (q x : Nat) : Fld := ⟨(AC_SEQCTL q x), 0, 6⟩
def AC_DROPCNT_CNT (q x : Nat) : Fld := ⟨(AC_DROPCNT q x), 0, 16⟩
def AC_DROPINFO_T (q x : Nat) : Fld := ⟨(AC_DROPINFO q x), 16, 16⟩
def AC_DROPINFO_POS (q x : Nat) : Fld := ⟨(AC_DROPINFO q x), 4, 2⟩
def AC_DROPINFO_SRC (q x : Nat) : Fld := ⟨(AC_DROPINFO q x), 2, 2⟩
def AC_DROPINFO_CAUSE (q x : Nat) : Fld := ⟨(AC_DROPINFO q x), 0, 2⟩
def AC_OFS_OFS (q x : Nat) : Fld := ⟨(AC_OFS q x), 0, 12⟩
def AC_GAIN_GAIN (q x : Nat) : Fld := ⟨(AC_GAIN q x), 0, 16⟩
def AC_SKEW_SKEW (q x : Nat) : Fld := ⟨(AC_SKEW q x), 0, 8⟩
def AC_HK_ABSENT (q x k : Nat) : Fld := ⟨(AC_HK q x k), 31, 1⟩
def AC_HK_RNR (q x k : Nat) : Fld := ⟨(AC_HK q x k), 30, 1⟩
def AC_HK_COVER (q x k : Nat) : Fld := ⟨(AC_HK q x k), 29, 1⟩
def AC_HK_OVR (q x k : Nat) : Fld := ⟨(AC_HK q x k), 28, 1⟩
def AC_HK_XTRA (q x k : Nat) : Fld := ⟨(AC_HK q x k), 27, 1⟩
def AC_HK_AGE (q x k : Nat) : Fld := ⟨(AC_HK q x k), 20, 7⟩
def AC_HK_CH (q x k : Nat) : Fld := ⟨(AC_HK q x k), 14, 6⟩
def AC_HK_VALUE (q x k : Nat) : Fld := ⟨(AC_HK q x k), 0, 14⟩
def AC_RSLT_ABSENT (q x i : Nat) : Fld := ⟨(AC_RSLT q x i), 31, 1⟩
def AC_RSLT_RNR (q x i : Nat) : Fld := ⟨(AC_RSLT q x i), 30, 1⟩
def AC_RSLT_COVER (q x i : Nat) : Fld := ⟨(AC_RSLT q x i), 29, 1⟩
def AC_RSLT_OVR (q x i : Nat) : Fld := ⟨(AC_RSLT q x i), 28, 1⟩
def AC_RSLT_XTRA (q x i : Nat) : Fld := ⟨(AC_RSLT q x i), 27, 1⟩
def AC_RSLT_AGE (q x i : Nat) : Fld := ⟨(AC_RSLT q x i), 20, 7⟩
def AC_RSLT_CH (q x i : Nat) : Fld := ⟨(AC_RSLT q x i), 14, 6⟩
def AC_RSLT_VALUE (q x i : Nat) : Fld := ⟨(AC_RSLT q x i), 0, 14⟩
def AC_SEQ_CH (q x i : Nat) : Fld := ⟨(AC_SEQ q x i), 0, 6⟩
def AC_RTS_T (q x i : Nat) : Fld := ⟨(AC_RTS q x i), 0, 32⟩
def AC_UTS_T (q p s : Nat) : Fld := ⟨(AC_UTS q p s), 0, 32⟩
def AC_CHCAL_OFS (q c : Nat) : Fld := ⟨(AC_CHCAL q c), 16, 12⟩
def AC_CHCAL_GAIN (q c : Nat) : Fld := ⟨(AC_CHCAL q c), 0, 16⟩
def CU_STATE_DIR (a : Nat) : Fld := ⟨(CU_STATE a), 15, 1⟩
def CU_STATE_PREV (a : Nat) : Fld := ⟨(CU_STATE a), 8, 4⟩
def CU_STATE_STEP (a : Nat) : Fld := ⟨(CU_STATE a), 4, 3⟩
def CU_STATE_STATE (a : Nat) : Fld := ⟨(CU_STATE a), 0, 4⟩
def CU_CMD_DIR (a : Nat) : Fld := ⟨(CU_CMD a), 7, 1⟩
def CU_CMD_CMD (a : Nat) : Fld := ⟨(CU_CMD a), 0, 4⟩
def CU_STAT_REFUSE (a : Nat) : Fld := ⟨(CU_STAT a), 28, 4⟩
def CU_STAT_LATEC (a : Nat) : Fld := ⟨(CU_STAT a), 16, 1⟩
def CU_STAT_FEWSMP (a : Nat) : Fld := ⟨(CU_STAT a), 15, 1⟩
def CU_STAT_EARLYZC (a : Nat) : Fld := ⟨(CU_STAT a), 14, 1⟩
def CU_STAT_FALLBK (a : Nat) : Fld := ⟨(CU_STAT a), 13, 1⟩
def CU_STAT_PREDIN (a : Nat) : Fld := ⟨(CU_STAT a), 12, 1⟩
def CU_STAT_STALE (a : Nat) : Fld := ⟨(CU_STAT a), 11, 1⟩
def CU_STAT_HALLUSE (a : Nat) : Fld := ⟨(CU_STAT a), 10, 1⟩
def CU_STAT_NPRED (a : Nat) : Fld := ⟨(CU_STAT a), 0, 4⟩
def CU_FLT_PHASE (a : Nat) : Fld := ⟨(CU_FLT a), 28, 4⟩
def CU_FLT_CODE (a : Nat) : Fld := ⟨(CU_FLT a), 24, 4⟩
def CU_FLT_LATCH (a : Nat) : Fld := ⟨(CU_FLT a), 1, 15⟩
def CU_SSCFG_ADV (a : Nat) : Fld := ⟨(CU_SSCFG a), 16, 8⟩
def CU_SSCFG_DEMAG (a : Nat) : Fld := ⟨(CU_SSCFG a), 8, 6⟩
def CU_SSCFG_CHOP (a : Nat) : Fld := ⟨(CU_SSCFG a), 0, 1⟩
def CU_SAMP_MINWIN (a : Nat) : Fld := ⟨(CU_SAMP a), 16, 10⟩
def CU_SAMP_BLANK (a : Nat) : Fld := ⟨(CU_SAMP a), 0, 10⟩
def CU_ZCOFS_ZCOFS (a : Nat) : Fld := ⟨(CU_ZCOFS a), 0, 16⟩
def CU_MP_MPI (a : Nat) : Fld := ⟨(CU_MP a), 16, 16⟩
def CU_ALIGN_T (a : Nat) : Fld := ⟨(CU_ALIGN a), 16, 16⟩
def CU_ALIGN_STEP (a : Nat) : Fld := ⟨(CU_ALIGN a), 12, 3⟩
def CU_ALIGN_I (a : Nat) : Fld := ⟨(CU_ALIGN a), 0, 12⟩
def CU_RAMP0_F1 (a : Nat) : Fld := ⟨(CU_RAMP0 a), 16, 16⟩
def CU_RAMP0_F0 (a : Nat) : Fld := ⟨(CU_RAMP0 a), 0, 16⟩
def CU_RAMP1_T (a : Nat) : Fld := ⟨(CU_RAMP1 a), 16, 16⟩
def CU_RAMP1_N (a : Nat) : Fld := ⟨(CU_RAMP1 a), 12, 4⟩
def CU_RAMP1_I (a : Nat) : Fld := ⟨(CU_RAMP1 a), 0, 12⟩
def CU_REG_CMAXF (a : Nat) : Fld := ⟨(CU_REG a), 8, 8⟩
def CU_REG_KI (a : Nat) : Fld := ⟨(CU_REG a), 0, 8⟩
def CU_CATCH_T (a : Nat) : Fld := ⟨(CU_CATCH a), 16, 5⟩
def CU_CATCH_BEMFMIN (a : Nat) : Fld := ⟨(CU_CATCH a), 0, 16⟩
def CU_HALL_HDLY (a : Nat) : Fld := ⟨(CU_HALL a), 16, 10⟩
def CU_HALL_MODE (a : Nat) : Fld := ⟨(CU_HALL a), 0, 2⟩
def CU_HALLMAP_MAP (a c : Nat) : Fld := ⟨(CU_HALLMAP a), 3 * c, 3⟩
def CU_SPEED_SPEED (a : Nat) : Fld := ⟨(CU_SPEED a), 0, 32⟩
def CU_T1_T (a : Nat) : Fld := ⟨(CU_T1 a), 0, 32⟩
def CU_T2_T (a : Nat) : Fld := ⟨(CU_T2 a), 0, 32⟩
def CU_TPRED_T (a : Nat) : Fld := ⟨(CU_TPRED a), 0, 32⟩
def CU_ZCT_T (a : Nat) : Fld := ⟨(CU_ZCT a), 0, 32⟩
def CU_ZCGAP_PRED (a : Nat) : Fld := ⟨(CU_ZCGAP a), 31, 1⟩
def CU_ZCGAP_G (a : Nat) : Fld := ⟨(CU_ZCGAP a), 0, 31⟩
def CU_PREDB_E (a : Nat) : Fld := ⟨(CU_PREDB a), 0, 32⟩
def CU_NEXTC_T (a : Nat) : Fld := ⟨(CU_NEXTC a), 0, 32⟩
def CU_CATCHRES_ANGLE (a : Nat) : Fld := ⟨(CU_CATCHRES a), 16, 16⟩
def CU_CATCHRES_OVSP (a : Nat) : Fld := ⟨(CU_CATCHRES a), 15, 1⟩
def CU_CATCHRES_DIR (a : Nat) : Fld := ⟨(CU_CATCHRES a), 14, 1⟩
def CU_CATCHRES_E (a : Nat) : Fld := ⟨(CU_CATCHRES a), 0, 14⟩
def CU_CATCHSPD_SPEED (a : Nat) : Fld := ⟨(CU_CATCHSPD a), 0, 32⟩
def CU_CMPX_CATCHCMP (a : Nat) : Fld := ⟨(CU_CMPX a), 16, 16⟩
def CU_CMPX_RAMPCMP (a : Nat) : Fld := ⟨(CU_CMPX a), 0, 16⟩
def CU_HALLST_CODE (a : Nat) : Fld := ⟨(CU_HALLST a), 0, 3⟩
def CU_MPPEAK_PKW (a : Nat) : Fld := ⟨(CU_MPPEAK a), 20, 10⟩
def CU_MPPEAK_PKV (a : Nat) : Fld := ⟨(CU_MPPEAK a), 10, 10⟩
def CU_MPPEAK_PKU (a : Nat) : Fld := ⟨(CU_MPPEAK a), 0, 10⟩
def CU_CNT_NPREDT (a : Nat) : Fld := ⟨(CU_CNT a), 16, 16⟩
def CU_CNT_NOBS (a : Nat) : Fld := ⟨(CU_CNT a), 0, 16⟩
def CU_SKIPCNT_LOST (a : Nat) : Fld := ⟨(CU_SKIPCNT a), 16, 16⟩
def CU_SKIPCNT_SKIP (a : Nat) : Fld := ⟨(CU_SKIPCNT a), 0, 16⟩
def CU_DTCCFG_PP (a : Nat) : Fld := ⟨(CU_DTCCFG a), 8, 8⟩
def CU_DTCCFG_AUTOHO (a : Nat) : Fld := ⟨(CU_DTCCFG a), 3, 1⟩
def CU_DTCCFG_DTCOMP (a : Nat) : Fld := ⟨(CU_DTCCFG a), 2, 1⟩
def CU_DTCCFG_DUTY (a : Nat) : Fld := ⟨(CU_DTCCFG a), 1, 1⟩
def CU_DTCCFG_EN (a : Nat) : Fld := ⟨(CU_DTCCFG a), 0, 1⟩
def CU_TICK_TICK (a : Nat) : Fld := ⟨(CU_TICK a), 0, 16⟩
def CU_TREF_TREF (a : Nat) : Fld := ⟨(CU_TREF a), 0, 32⟩
def CU_PSIREF_PSIREF (a : Nat) : Fld := ⟨(CU_PSIREF a), 0, 32⟩
def CU_BAND_HT (a : Nat) : Fld := ⟨(CU_BAND a), 16, 16⟩
def CU_BAND_HF (a : Nat) : Fld := ⟨(CU_BAND a), 0, 16⟩
def CU_MOTOR_RS (a : Nat) : Fld := ⟨(CU_MOTOR a), 0, 16⟩
def CU_PSI0_PSI0 (a : Nat) : Fld := ⟨(CU_PSI0 a), 0, 32⟩
def CU_IPK_IPK (a : Nat) : Fld := ⟨(CU_IPK a), 0, 16⟩
def CU_HO_UP (a : Nat) : Fld := ⟨(CU_HO a), 16, 16⟩
def CU_HO_DN (a : Nat) : Fld := ⟨(CU_HO a), 0, 16⟩
def CU_HOCFG_HOLD (a : Nat) : Fld := ⟨(CU_HOCFG a), 24, 8⟩
def CU_HOCFG_TOL (a : Nat) : Fld := ⟨(CU_HOCFG a), 16, 8⟩
def CU_HOCFG_LEAK (a : Nat) : Fld := ⟨(CU_HOCFG a), 0, 8⟩
def CU_FW_FWM (a : Nat) : Fld := ⟨(CU_FW a), 8, 8⟩
def CU_FW_FSLEW (a : Nat) : Fld := ⟨(CU_FW a), 0, 8⟩
def CU_DWELL_DMIN (a : Nat) : Fld := ⟨(CU_DWELL a), 16, 10⟩
def CU_DWELL_ICZ (a : Nat) : Fld := ⟨(CU_DWELL a), 0, 16⟩
def CU_STAB_E (a s i : Nat) : Fld := ⟨(CU_STAB a s), 3 * i, 3⟩
def CU_DEC_RATE (a : Nat) : Fld := ⟨(CU_DEC a), 16, 16⟩
def CU_DEC_DNSPD (a : Nat) : Fld := ⟨(CU_DEC a), 0, 16⟩
def CU_DECLAG_LAG (a : Nat) : Fld := ⟨(CU_DECLAG a), 0, 16⟩
def CU_REV_TH (a : Nat) : Fld := ⟨(CU_REV a), 24, 8⟩
def CU_REV_WAIT (a : Nat) : Fld := ⟨(CU_REV a), 16, 8⟩
def CU_REV_TRIES (a : Nat) : Fld := ⟨(CU_REV a), 0, 8⟩
def CU_RATED_RATED (a : Nat) : Fld := ⟨(CU_RATED a), 0, 16⟩
def CU_QRLIM_QRLIM (a : Nat) : Fld := ⟨(CU_QRLIM a), 0, 16⟩
def CU_BOND_QUAD (a : Nat) : Fld := ⟨(CU_BOND a), 2, 1⟩
def CU_BOND_PAIR23 (a : Nat) : Fld := ⟨(CU_BOND a), 1, 1⟩
def CU_BOND_PAIR01 (a : Nat) : Fld := ⟨(CU_BOND a), 0, 1⟩
def CU_BSHARE_SH (a j : Nat) : Fld := ⟨(CU_BSHARE a), 8 * j, 8⟩
def CU_BTOL_SHN (a : Nat) : Fld := ⟨(CU_BTOL a), 8, 8⟩
def CU_BTOL_SHTOL (a : Nat) : Fld := ⟨(CU_BTOL a), 0, 8⟩
def CU_PSIA_PSI (a : Nat) : Fld := ⟨(CU_PSIA a), 0, 32⟩
def CU_PSIB_PSI (a : Nat) : Fld := ⟨(CU_PSIB a), 0, 32⟩
def CU_TEST_T (a : Nat) : Fld := ⟨(CU_TEST a), 0, 32⟩
def CU_IDC_CEIL (a : Nat) : Fld := ⟨(CU_IDC a), 16, 16⟩
def CU_IDC_IDC (a : Nat) : Fld := ⟨(CU_IDC a), 0, 16⟩
def CU_DTCSTAT_SECT (a : Nat) : Fld := ⟨(CU_DTCSTAT a), 29, 3⟩
def CU_DTCSTAT_F (a : Nat) : Fld := ⟨(CU_DTCSTAT a), 28, 1⟩
def CU_DTCSTAT_TL (a : Nat) : Fld := ⟨(CU_DTCSTAT a), 26, 2⟩
def CU_DTCSTAT_BONDERR (a : Nat) : Fld := ⟨(CU_DTCSTAT a), 25, 1⟩
def CU_DTCSTAT_HOFAIL (a : Nat) : Fld := ⟨(CU_DTCSTAT a), 16, 8⟩
def CU_DTCSTAT_DWELLC (a : Nat) : Fld := ⟨(CU_DTCSTAT a), 8, 8⟩
def CU_DTCSTAT_SHMEM (a : Nat) : Fld := ⟨(CU_DTCSTAT a), 6, 2⟩
def CU_DTCSTAT_REVFAIL (a : Nat) : Fld := ⟨(CU_DTCSTAT a), 5, 1⟩
def CU_DTCSTAT_NOPSI (a : Nat) : Fld := ⟨(CU_DTCSTAT a), 4, 1⟩
def CU_DTCSTAT_REGEN0 (a : Nat) : Fld := ⟨(CU_DTCSTAT a), 3, 1⟩
def CU_DTCSTAT_VLIM (a : Nat) : Fld := ⟨(CU_DTCSTAT a), 2, 1⟩
def CU_DTCSTAT_LIMPK (a : Nat) : Fld := ⟨(CU_DTCSTAT a), 1, 1⟩
def CU_DTCSTAT_LIMCEIL (a : Nat) : Fld := ⟨(CU_DTCSTAT a), 0, 1⟩
def CU_DECREF_WR (a : Nat) : Fld := ⟨(CU_DECREF a), 0, 32⟩
def LE_CTL_SCHBANK (e : Nat) : Fld := ⟨(LE_CTL e), 8, 1⟩
def LE_CTL_EN (e : Nat) : Fld := ⟨(LE_CTL e), 0, 1⟩
def LE_STAT_MEMADDR (e : Nat) : Fld := ⟨(LE_STAT e), 16, 16⟩
def LE_STAT_CMTERR (e : Nat) : Fld := ⟨(LE_STAT e), 15, 1⟩
def LE_STAT_CMTLOOP (e : Nat) : Fld := ⟨(LE_STAT e), 10, 5⟩
def LE_STAT_PRFBUSY (e : Nat) : Fld := ⟨(LE_STAT e), 9, 1⟩
def LE_STAT_RUN (e : Nat) : Fld := ⟨(LE_STAT e), 8, 1⟩
def LE_STAT_SCHERR (e : Nat) : Fld := ⟨(LE_STAT e), 0, 3⟩
def LE_FRAME_LEN (e : Nat) : Fld := ⟨(LE_FRAME e), 0, 16⟩
def LE_FOFS_OFS (e : Nat) : Fld := ⟨(LE_FOFS e), 0, 16⟩
def LE_SCHCMT_GO (e : Nat) : Fld := ⟨(LE_SCHCMT e), 0, 1⟩
def LE_COMMIT_LOOPS (e : Nat) : Fld := ⟨(LE_COMMIT e), 0, 24⟩
def LE_BANK_BANK (e : Nat) : Fld := ⟨(LE_BANK e), 0, 24⟩
def LE_PROOF_GO (e : Nat) : Fld := ⟨(LE_PROOF e), 31, 1⟩
def LE_PROOF_N (e : Nat) : Fld := ⟨(LE_PROOF e), 8, 16⟩
def LE_PROOF_LOOP (e : Nat) : Fld := ⟨(LE_PROOF e), 0, 5⟩
def LE_PROOFRES_CAUSE (e : Nat) : Fld := ⟨(LE_PROOFRES e), 16, 4⟩
def LE_PROOFRES_LOOP (e : Nat) : Fld := ⟨(LE_PROOFRES e), 8, 5⟩
def LE_PROOFRES_RES (e : Nat) : Fld := ⟨(LE_PROOFRES e), 0, 2⟩
def LE_PDIFF_PDIFF1 (e : Nat) : Fld := ⟨(LE_PDIFF e), 16, 16⟩
def LE_PDIFF_PDIFF0 (e : Nat) : Fld := ⟨(LE_PDIFF e), 0, 16⟩
def LE_PROVED_PROVED (e : Nat) : Fld := ⟨(LE_PROVED e), 0, 24⟩
def LE_PLOWN0_OWN (e j : Nat) : Fld := ⟨(LE_PLOWN0 e), 4 * j, 4⟩
def LE_PLOWN1_OWN (e j : Nat) : Fld := ⟨(LE_PLOWN1 e), 4 * j, 4⟩
def LE_RECOWN_OWN (e k j : Nat) : Fld := ⟨(LE_RECOWN e k), 8 * j, 8⟩
def LE_BOND_KSH (e : Nat) : Fld := ⟨(LE_BOND e), 16, 8⟩
def LE_BOND_TMAX (e : Nat) : Fld := ⟨(LE_BOND e), 0, 12⟩
def LE_EVT_FLAG (e : Nat) : Fld := ⟨(LE_EVT e), 0, 4⟩
def LE_LCTL_REFGO (e k : Nat) : Fld := ⟨(LE_LCTL e k), 9, 1⟩
def LE_LCTL_STAGED (e k : Nat) : Fld := ⟨(LE_LCTL e k), 8, 1⟩
def LE_LCTL_AUTO (e k : Nat) : Fld := ⟨(LE_LCTL e k), 0, 1⟩
def LE_LSTAT_SATCNT (e k : Nat) : Fld := ⟨(LE_LSTAT e k), 24, 8⟩
def LE_LSTAT_SUB (e k : Nat) : Fld := ⟨(LE_LSTAT e k), 20, 4⟩
def LE_LSTAT_NOCLASS (e k : Nat) : Fld := ⟨(LE_LSTAT e k), 19, 1⟩
def LE_LSTAT_PRECLIP (e k : Nat) : Fld := ⟨(LE_LSTAT e k), 18, 1⟩
def LE_LSTAT_HOLD (e k : Nat) : Fld := ⟨(LE_LSTAT e k), 17, 1⟩
def LE_LSTAT_ACTIVE (e k : Nat) : Fld := ⟨(LE_LSTAT e k), 16, 1⟩
def LE_LSTAT_INVAL (e k : Nat) : Fld := ⟨(LE_LSTAT e k), 12, 4⟩
def LE_LSTAT_RESID (e k : Nat) : Fld := ⟨(LE_LSTAT e k), 8, 4⟩
def LE_LSTAT_CLASS (e k : Nat) : Fld := ⟨(LE_LSTAT e k), 7, 1⟩
def LE_LSTAT_REGION (e k : Nat) : Fld := ⟨(LE_LSTAT e k), 0, 3⟩
def LE_MAN0_MAN (e k : Nat) : Fld := ⟨(LE_MAN0 e k), 0, 32⟩
def LE_MAN1_MAN (e k : Nat) : Fld := ⟨(LE_MAN1 e k), 0, 32⟩
def LE_REF0_REF (e k : Nat) : Fld := ⟨(LE_REF0 e k), 0, 32⟩
def LE_REF1_REF (e k : Nat) : Fld := ⟨(LE_REF1 e k), 0, 32⟩
def LE_OUTTS_T (e k : Nat) : Fld := ⟨(LE_OUTTS e k), 0, 32⟩
def LE_LAT_MAX (e k : Nat) : Fld := ⟨(LE_LAT e k), 16, 16⟩
def LE_LAT_LAST (e k : Nat) : Fld := ⟨(LE_LAT e k), 0, 16⟩
def SCU_EVT_FLAG : Fld := ⟨SCU_EVT, 0, 16⟩
def SCU_SCTL_GO (s : Nat) : Fld := ⟨(SCU_SCTL s), 31, 1⟩
def SCU_SCTL_ABORT (s : Nat) : Fld := ⟨(SCU_SCTL s), 30, 1⟩
def SCU_SCTL_RING (s : Nat) : Fld := ⟨(SCU_SCTL s), 8, 1⟩
def SCU_SCTL_OWN (s : Nat) : Fld := ⟨(SCU_SCTL s), 0, 3⟩
def SCU_STGT_POINT (s : Nat) : Fld := ⟨(SCU_STGT s), 16, 3⟩
def SCU_STGT_IDX (s : Nat) : Fld := ⟨(SCU_STGT s), 12, 2⟩
def SCU_STGT_ENG (s : Nat) : Fld := ⟨(SCU_STGT s), 8, 3⟩
def SCU_STGT_LOOP (s : Nat) : Fld := ⟨(SCU_STGT s), 0, 5⟩
def SCU_SSIG_TYPE (s : Nat) : Fld := ⟨(SCU_SSIG s), 29, 3⟩
def SCU_SSIG_ORDER (s : Nat) : Fld := ⟨(SCU_SSIG s), 25, 4⟩
def SCU_SSIG_HOLD (s : Nat) : Fld := ⟨(SCU_SSIG s), 15, 8⟩
def SCU_SSIG_SEED (s : Nat) : Fld := ⟨(SCU_SSIG s), 0, 15⟩
def SCU_SAMP_VAL (s : Nat) : Fld := ⟨(SCU_SAMP s), 0, 32⟩
def SCU_SBIAS_VAL (s : Nat) : Fld := ⟨(SCU_SBIAS s), 0, 32⟩
def SCU_SPINC0_PINC (s : Nat) : Fld := ⟨(SCU_SPINC0 s), 0, 32⟩
def SCU_SPINC1_PINC (s : Nat) : Fld := ⟨(SCU_SPINC1 s), 0, 32⟩
def SCU_SLEN_PRE (s : Nat) : Fld := ⟨(SCU_SLEN s), 16, 16⟩
def SCU_SLEN_NSTK (s : Nat) : Fld := ⟨(SCU_SLEN s), 0, 16⟩
def SCU_SCLK_SRC (s : Nat) : Fld := ⟨(SCU_SCLK s), 16, 2⟩
def SCU_SCLK_DIV (s : Nat) : Fld := ⟨(SCU_SCLK s), 0, 16⟩
def SCU_CSRC_ADDR (s c : Nat) : Fld := ⟨(SCU_CSRC s c), 0, 32⟩
def SCU_CCFG_EN (s c : Nat) : Fld := ⟨(SCU_CCFG s c), 31, 1⟩
def SCU_CCFG_KIND (s c : Nat) : Fld := ⟨(SCU_CCFG s c), 12, 2⟩
def SCU_CCFG_SMAX (s c : Nat) : Fld := ⟨(SCU_CCFG s c), 8, 4⟩
def SCU_CCFG_SHR (s c : Nat) : Fld := ⟨(SCU_CCFG s c), 0, 5⟩
def SCU_CBUF_SIZE (s : Nat) : Fld := ⟨(SCU_CBUF s), 16, 12⟩
def SCU_CBUF_BASE (s : Nat) : Fld := ⟨(SCU_CBUF s), 0, 11⟩
def SCU_CNCAP_NCAP (s : Nat) : Fld := ⟨(SCU_CNCAP s), 0, 24⟩
def SCU_CBW_BWMAX (s : Nat) : Fld := ⟨(SCU_CBW s), 0, 13⟩
def SCU_CWPTR_LAP (s : Nat) : Fld := ⟨(SCU_CWPTR s), 23, 8⟩
def SCU_CWPTR_PTR (s : Nat) : Fld := ⟨(SCU_CWPTR s), 0, 23⟩
def SCU_SSTAT_CAUSE (s : Nat) : Fld := ⟨(SCU_SSTAT s), 16, 8⟩
def SCU_SSTAT_FULL (s : Nat) : Fld := ⟨(SCU_SSTAT s), 3, 1⟩
def SCU_SSTAT_STATE (s : Nat) : Fld := ⟨(SCU_SSTAT s), 0, 3⟩
def SCU_CDROP_CNT (s : Nat) : Fld := ⟨(SCU_CDROP s), 0, 16⟩
def EVC_AGE_US : Fld := ⟨EVC_AGE, 0, 16⟩
def EVC_STAT_REDIR : Fld := ⟨EVC_STAT, 2, 1⟩
def EVC_STAT_ACKREJ : Fld := ⟨EVC_STAT, 1, 1⟩
def EVC_STAT_SWREF : Fld := ⟨EVC_STAT, 0, 1⟩
def EVC_RAISE_NUM : Fld := ⟨EVC_RAISE, 0, 10⟩
def EVC_ACK_NUM : Fld := ⟨EVC_ACK, 0, 10⟩
def EVC_THR_THR (m : Nat) : Fld := ⟨(EVC_THR m), 0, 4⟩
def EVC_TOP_VALID (m : Nat) : Fld := ⟨(EVC_TOP m), 31, 1⟩
def EVC_TOP_EFF (m : Nat) : Fld := ⟨(EVC_TOP m), 16, 4⟩
def EVC_TOP_NUM (m : Nat) : Fld := ⟨(EVC_TOP m), 0, 10⟩
def EVC_WTOP_VALID (m : Nat) : Fld := ⟨(EVC_WTOP m), 31, 1⟩
def EVC_WTOP_EFF (m : Nat) : Fld := ⟨(EVC_WTOP m), 16, 4⟩
def EVC_WTOP_NUM (m : Nat) : Fld := ⟨(EVC_WTOP m), 0, 10⟩
def EVC_PEND_PEND (k : Nat) : Fld := ⟨(EVC_PEND k), 0, 32⟩
def EVC_RERAISE_RR (k : Nat) : Fld := ⟨(EVC_RERAISE k), 0, 32⟩
def EVC_CFG_EN (i : Nat) : Fld := ⟨(EVC_CFG i), 31, 1⟩
def EVC_CFG_AGEN (i : Nat) : Fld := ⟨(EVC_CFG i), 30, 1⟩
def EVC_CFG_DELIV (i : Nat) : Fld := ⟨(EVC_CFG i), 29, 1⟩
def EVC_CFG_PEND (i : Nat) : Fld := ⟨(EVC_CFG i), 28, 1⟩
def EVC_CFG_EFF (i : Nat) : Fld := ⟨(EVC_CFG i), 24, 4⟩
def EVC_CFG_PRIO (i : Nat) : Fld := ⟨(EVC_CFG i), 20, 4⟩
def EVC_CFG_TARGET (i : Nat) : Fld := ⟨(EVC_CFG i), 17, 3⟩
def EVC_CFG_ENG (i : Nat) : Fld := ⟨(EVC_CFG i), 13, 3⟩
def EVC_CFG_LOOP (i : Nat) : Fld := ⟨(EVC_CFG i), 8, 5⟩
def LSS_HOST_MIG (k j : Nat) : Fld := ⟨(LSS_HOST k), 4 * j + 3, 1⟩
def LSS_HOST_HOST (k j : Nat) : Fld := ⟨(LSS_HOST k), 4 * j, 3⟩
def LSS_PAIRST_SUP : Fld := ⟨LSS_PAIRST, 20, 3⟩
def LSS_PAIRST_ST (m : Nat) : Fld := ⟨LSS_PAIRST, 4 * m, 3⟩
def LSS_FREC_RESULT : Fld := ⟨LSS_FREC, 16, 2⟩
def LSS_FREC_NFAIL : Fld := ⟨LSS_FREC, 8, 8⟩
def LSS_FREC_CAUSE : Fld := ⟨LSS_FREC, 4, 4⟩
def LSS_FREC_PAIR : Fld := ⟨LSS_FREC, 0, 3⟩
def LSS_FTS_T : Fld := ⟨LSS_FTS, 0, 32⟩
def LSS_WDG_US : Fld := ⟨LSS_WDG, 0, 16⟩
def LSS_CFG_FLTW : Fld := ⟨LSS_CFG, 16, 16⟩
def LSS_CFG_RHTO : Fld := ⟨LSS_CFG, 8, 8⟩
def LSS_CFG_RESTART : Fld := ⟨LSS_CFG, 1, 1⟩
def LSS_CFG_LINE : Fld := ⟨LSS_CFG, 0, 1⟩
def LSS_MIGCTL_GO : Fld := ⟨LSS_MIGCTL, 31, 1⟩
def LSS_MIGCTL_DEST : Fld := ⟨LSS_MIGCTL, 16, 3⟩
def LSS_MIGCTL_LEAD : Fld := ⟨LSS_MIGCTL, 0, 10⟩
def LSS_MIGMLO_MASK : Fld := ⟨LSS_MIGMLO, 0, 32⟩
def LSS_MIGMHI_MASK : Fld := ⟨LSS_MIGMHI, 0, 32⟩
def LSS_MIGRES_RES : Fld := ⟨LSS_MIGRES, 0, 3⟩
def LSS_MIGTS_TM : Fld := ⟨LSS_MIGTS, 0, 32⟩
def LSS_REHOST_GO : Fld := ⟨LSS_REHOST, 31, 1⟩
def LSS_REHOST_ERR : Fld := ⟨LSS_REHOST, 16, 2⟩
def LSS_REHOST_TO : Fld := ⟨LSS_REHOST, 4, 3⟩
def LSS_REHOST_FROM : Fld := ⟨LSS_REHOST, 0, 3⟩
def LSS_SUPMV_GO : Fld := ⟨LSS_SUPMV, 31, 1⟩
def LSS_SUPMV_ERR : Fld := ⟨LSS_SUPMV, 8, 1⟩
def LSS_SUPMV_DEST : Fld := ⟨LSS_SUPMV, 0, 3⟩
def LSS_PRST_KEY : Fld := ⟨LSS_PRST, 24, 8⟩
def LSS_PRST_UPDATE : Fld := ⟨LSS_PRST, 4, 1⟩
def LSS_PRST_PAIR : Fld := ⟨LSS_PRST, 0, 3⟩
def LSS_SPLIT_PAIR : Fld := ⟨LSS_SPLIT, 0, 5⟩
def LSS_EVT_FLAG : Fld := ⟨LSS_EVT, 0, 14⟩
def SSQ_STAT_RSBUSY : Fld := ⟨SSQ_STAT, 3, 1⟩
def SSQ_STAT_PULSE : Fld := ⟨SSQ_STAT, 2, 1⟩
def SSQ_STAT_XFAIL : Fld := ⟨SSQ_STAT, 1, 1⟩
def SSQ_STAT_XOK : Fld := ⟨SSQ_STAT, 0, 1⟩
def SSQ_KNELL_LO_MASK : Fld := ⟨SSQ_KNELL_LO, 0, 32⟩
def SSQ_KNELL_HI_MASK : Fld := ⟨SSQ_KNELL_HI, 0, 32⟩
def SSQ_HOLD_LO_MASK : Fld := ⟨SSQ_HOLD_LO, 0, 32⟩
def SSQ_HOLD_HI_MASK : Fld := ⟨SSQ_HOLD_HI, 0, 32⟩
def SSQ_KMASK_LO_MASK : Fld := ⟨SSQ_KMASK_LO, 0, 32⟩
def SSQ_KMASK_HI_MASK : Fld := ⟨SSQ_KMASK_HI, 0, 32⟩
def SSQ_LINE_ASSERT : Fld := ⟨SSQ_LINE, 0, 1⟩
def SSQ_KTS_T : Fld := ⟨SSQ_KTS, 0, 32⟩
def JNL_STAT_MODE : Fld := ⟨JNL_STAT, 16, 4⟩
def JNL_STAT_QDEPTH : Fld := ⟨JNL_STAT, 8, 8⟩
def JNL_STAT_UNSEALED : Fld := ⟨JNL_STAT, 7, 1⟩
def JNL_STAT_COMPACT : Fld := ⟨JNL_STAT, 6, 1⟩
def JNL_STAT_IMGBUSY : Fld := ⟨JNL_STAT, 5, 1⟩
def JNL_SUBMIT_ADDR : Fld := ⟨JNL_SUBMIT, 2, 30⟩
def JNL_RES_CODE (m : Nat) : Fld := ⟨(JNL_RES m), 28, 4⟩
def JNL_RES_NSUB (m : Nat) : Fld := ⟨(JNL_RES m), 0, 8⟩
def JNL_SEQ_SEQ (m : Nat) : Fld := ⟨(JNL_SEQ m), 0, 32⟩
def JNL_RING_TAIL : Fld := ⟨JNL_RING, 16, 12⟩
def JNL_RING_HEAD : Fld := ⟨JNL_RING, 0, 12⟩
def JNL_NEXTSEQ_SEQ : Fld := ⟨JNL_NEXTSEQ, 0, 32⟩
def JNL_SPARE_RETIRED : Fld := ⟨JNL_SPARE, 16, 16⟩
def JNL_SPARE_LEFT : Fld := ⟨JNL_SPARE, 0, 9⟩
def JNL_WEAR_MAX : Fld := ⟨JNL_WEAR, 0, 32⟩
def JNL_CCFG_LOW : Fld := ⟨JNL_CCFG, 20, 12⟩
def JNL_CCFG_SPLOW : Fld := ⟨JNL_CCFG, 8, 8⟩
def JNL_CCFG_WDELTA : Fld := ⟨JNL_CCFG, 0, 8⟩
def JNL_QUOTA_PERMIN : Fld := ⟨JNL_QUOTA, 0, 16⟩
def JNL_CONS_RATE : Fld := ⟨JNL_CONS, 0, 8⟩
def JNL_FWCUR_SLOT (m : Nat) : Fld := ⟨JNL_FWCUR, 4 * m, 4⟩
def JNL_FWPREV_SLOT (m : Nat) : Fld := ⟨JNL_FWPREV, 4 * m, 4⟩
def JNL_IMGSRC_ADDR : Fld := ⟨JNL_IMGSRC, 2, 30⟩
def JNL_IMGWR_GO : Fld := ⟨JNL_IMGWR, 31, 1⟩
def JNL_IMGWR_ERR : Fld := ⟨JNL_IMGWR, 24, 4⟩
def JNL_IMGWR_SLOT : Fld := ⟨JNL_IMGWR, 0, 3⟩
def JNL_IMGST_ST (s : Nat) : Fld := ⟨JNL_IMGST, 4 * s, 4⟩
def JNL_MAPQ_RO : Fld := ⟨JNL_MAPQ, 31, 1⟩
def JNL_MAPQ_INVAL : Fld := ⟨JNL_MAPQ, 30, 1⟩
def JNL_MAPQ_PHYS : Fld := ⟨JNL_MAPQ, 16, 12⟩
def JNL_MAPQ_LOG : Fld := ⟨JNL_MAPQ, 0, 12⟩
def JNL_EVT_FLAG : Fld := ⟨JNL_EVT, 0, 9⟩
def SP0_CFG_RDYTO : Fld := ⟨SP0_CFG, 16, 16⟩
def SP0_CFG_RDYEN : Fld := ⟨SP0_CFG, 12, 1⟩
def SP0_CFG_SAMPLE : Fld := ⟨SP0_CFG, 8, 3⟩
def SP0_CFG_DIV : Fld := ⟨SP0_CFG, 0, 8⟩
def SP0_TIM_CSHI : Fld := ⟨SP0_TIM, 16, 8⟩
def SP0_TIM_CSH : Fld := ⟨SP0_TIM, 8, 8⟩
def SP0_TIM_CSS : Fld := ⟨SP0_TIM, 0, 8⟩
def SP0_CTL_FLUSH : Fld := ⟨SP0_CTL, 1, 1⟩
def SP0_CTL_RESUME : Fld := ⟨SP0_CTL, 0, 1⟩
def SP0_STAT_ERR : Fld := ⟨SP0_STAT, 16, 4⟩
def SP0_STAT_OWNLOST : Fld := ⟨SP0_STAT, 15, 1⟩
def SP0_STAT_XIPBUSY : Fld := ⟨SP0_STAT, 14, 1⟩
def SP0_STAT_CSON : Fld := ⟨SP0_STAT, 13, 1⟩
def SP0_STAT_CS : Fld := ⟨SP0_STAT, 11, 2⟩
def SP0_STAT_HALT : Fld := ⟨SP0_STAT, 10, 1⟩
def SP0_STAT_BUSY : Fld := ⟨SP0_STAT, 9, 1⟩
def SP0_STAT_QCNT : Fld := ⟨SP0_STAT, 0, 5⟩
def SP0_OWN_PAIR : Fld := ⟨SP0_OWN, 0, 3⟩
def SP0_EVT_FLAG : Fld := ⟨SP0_EVT, 0, 3⟩
def SP0_QBUF_ADDR : Fld := ⟨SP0_QBUF, 0, 32⟩
def SP0_QADDR_ADDR : Fld := ⟨SP0_QADDR, 0, 32⟩
def SP0_QCTL_LEN : Fld := ⟨SP0_QCTL, 16, 12⟩
def SP0_QCTL_IRQ : Fld := ⟨SP0_QCTL, 10, 1⟩
def SP0_QCTL_WSIZE : Fld := ⟨SP0_QCTL, 8, 2⟩
def SP0_QCTL_CONT : Fld := ⟨SP0_QCTL, 6, 1⟩
def SP0_QCTL_CS : Fld := ⟨SP0_QCTL, 4, 2⟩
def SP0_QCTL_FD : Fld := ⟨SP0_QCTL, 0, 3⟩
def SP0_QRES_DONE : Fld := ⟨SP0_QRES, 16, 16⟩
def SP0_QRES_ERR : Fld := ⟨SP0_QRES, 0, 4⟩
def SP0_XIPCFG_XBASE : Fld := ⟨SP0_XIPCFG, 12, 20⟩
def SP0_XIPCFG_FD : Fld := ⟨SP0_XIPCFG, 8, 3⟩
def SP0_XIPCFG_CS : Fld := ⟨SP0_XIPCFG, 4, 2⟩
def SP0_XIPCFG_EXEC : Fld := ⟨SP0_XIPCFG, 1, 1⟩
def SP0_XIPCFG_EN : Fld := ⟨SP0_XIPCFG, 0, 1⟩
def SP0_XCON_ERR : Fld := ⟨SP0_XCON, 1, 1⟩
def SP0_XCON_EN : Fld := ⟨SP0_XCON, 0, 1⟩
def SP0_FDC_CMD (i : Nat) : Fld := ⟨(SP0_FDC i), 16, 16⟩
def SP0_FDC_CW (i : Nat) : Fld := ⟨(SP0_FDC i), 2, 2⟩
def SP0_FDC_CLN (i : Nat) : Fld := ⟨(SP0_FDC i), 0, 2⟩
def SP0_FDP_DIR (i : Nat) : Fld := ⟨(SP0_FDP i), 30, 2⟩
def SP0_FDP_DLN (i : Nat) : Fld := ⟨(SP0_FDP i), 28, 2⟩
def SP0_FDP_DUMMY (i : Nat) : Fld := ⟨(SP0_FDP i), 16, 5⟩
def SP0_FDP_AW (i : Nat) : Fld := ⟨(SP0_FDP i), 4, 2⟩
def SP0_FDP_ALN (i : Nat) : Fld := ⟨(SP0_FDP i), 0, 2⟩
def SP1_CFG_TXTH : Fld := ⟨SP1_CFG, 24, 6⟩
def SP1_CFG_RXTH : Fld := ⟨SP1_CFG, 16, 6⟩
def SP1_CFG_TURN : Fld := ⟨SP1_CFG, 12, 4⟩
def SP1_CFG_RDYEN : Fld := ⟨SP1_CFG, 8, 1⟩
def SP1_CFG_WSIZE : Fld := ⟨SP1_CFG, 4, 2⟩
def SP1_CFG_LANES : Fld := ⟨SP1_CFG, 0, 2⟩
def SP1_CTL_FLUSHTX : Fld := ⟨SP1_CTL, 9, 1⟩
def SP1_CTL_FLUSHRX : Fld := ⟨SP1_CTL, 8, 1⟩
def SP1_CTL_ATTN : Fld := ⟨SP1_CTL, 0, 1⟩
def SP1_STAT_TXFULLW : Fld := ⟨SP1_STAT, 22, 1⟩
def SP1_STAT_RDYLO : Fld := ⟨SP1_STAT, 21, 1⟩
def SP1_STAT_UNF : Fld := ⟨SP1_STAT, 20, 1⟩
def SP1_STAT_TXCUT : Fld := ⟨SP1_STAT, 19, 1⟩
def SP1_STAT_OVF : Fld := ⟨SP1_STAT, 18, 1⟩
def SP1_STAT_XCON : Fld := ⟨SP1_STAT, 17, 1⟩
def SP1_STAT_CSACT : Fld := ⟨SP1_STAT, 16, 1⟩
def SP1_STAT_TXCNT : Fld := ⟨SP1_STAT, 8, 7⟩
def SP1_STAT_RXCNT : Fld := ⟨SP1_STAT, 0, 7⟩
def SP1_BUSY_PAT : Fld := ⟨SP1_BUSY, 0, 32⟩
def SP1_RXHEAD_FIRST : Fld := ⟨SP1_RXHEAD, 31, 1⟩
def SP1_RXHEAD_PARTIAL : Fld := ⟨SP1_RXHEAD, 30, 1⟩
def SP1_RXHEAD_VALID : Fld := ⟨SP1_RXHEAD, 29, 1⟩
def SP1_RXHEAD_NBITS : Fld := ⟨SP1_RXHEAD, 0, 6⟩
def SP1_RX_WORD : Fld := ⟨SP1_RX, 0, 32⟩
def SP1_TX_WORD : Fld := ⟨SP1_TX, 0, 32⟩
def SP1_TCNT_CNT : Fld := ⟨SP1_TCNT, 0, 32⟩
def SP1_OVFCNT_CNT : Fld := ⟨SP1_OVFCNT, 0, 16⟩
def SP1_EVT_FLAG : Fld := ⟨SP1_EVT, 0, 4⟩
def SWC_CFG_AGENT : Fld := ⟨SWC_CFG, 0, 3⟩
def SWC_STAT_AGENTLOST : Fld := ⟨SWC_STAT, 3, 1⟩
def SWC_STAT_LEDROP : Fld := ⟨SWC_STAT, 2, 1⟩
def SWC_STAT_VIOL : Fld := ⟨SWC_STAT, 1, 1⟩
def SWC_STAT_OWNERR : Fld := ⟨SWC_STAT, 0, 1⟩
def SWC_VADDR_ADDR : Fld := ⟨SWC_VADDR, 0, 32⟩
def SWC_EVT_FLAG : Fld := ⟨SWC_EVT, 0, 2⟩
def SWC_SEG_LE (i : Nat) : Fld := ⟨(SWC_SEG i), 9, 1⟩
def SWC_SEG_HSHARE (i : Nat) : Fld := ⟨(SWC_SEG i), 8, 1⟩
def SWC_SEG_PAIR (i : Nat) : Fld := ⟨(SWC_SEG i), 4, 3⟩
def SWC_SEG_OWN (i : Nat) : Fld := ⟨(SWC_SEG i), 0, 2⟩
def SWC_HSUM_LO_HOST : Fld := ⟨SWC_HSUM_LO, 0, 32⟩
def SWC_HSUM_HI_HOST : Fld := ⟨SWC_HSUM_HI, 0, 32⟩
def CAN_CFG_EN (n : Nat) : Fld := ⟨(CAN_CFG n), 31, 1⟩
def CAN_CFG_FD (n : Nat) : Fld := ⟨(CAN_CFG n), 30, 1⟩
def CAN_CFG_BRS (n : Nat) : Fld := ⟨(CAN_CFG n), 29, 1⟩
def CAN_CFG_LISTEN (n : Nat) : Fld := ⟨(CAN_CFG n), 28, 1⟩
def CAN_CFG_LOOP (n : Nat) : Fld := ⟨(CAN_CFG n), 27, 1⟩
def CAN_CFG_AUTOREC (n : Nat) : Fld := ⟨(CAN_CFG n), 26, 1⟩
def CAN_CFG_TDCEN (n : Nat) : Fld := ⟨(CAN_CFG n), 25, 1⟩
def CAN_CFG_NODE (n : Nat) : Fld := ⟨(CAN_CFG n), 16, 5⟩
def CAN_CFG_TDCO (n : Nat) : Fld := ⟨(CAN_CFG n), 8, 8⟩
def CAN_NBT_BRP (n : Nat) : Fld := ⟨(CAN_NBT n), 24, 8⟩
def CAN_NBT_TSEG1 (n : Nat) : Fld := ⟨(CAN_NBT n), 16, 8⟩
def CAN_NBT_TSEG2 (n : Nat) : Fld := ⟨(CAN_NBT n), 8, 8⟩
def CAN_NBT_SJW (n : Nat) : Fld := ⟨(CAN_NBT n), 0, 8⟩
def CAN_DBT_BRP (n : Nat) : Fld := ⟨(CAN_DBT n), 24, 8⟩
def CAN_DBT_TSEG1 (n : Nat) : Fld := ⟨(CAN_DBT n), 16, 8⟩
def CAN_DBT_TSEG2 (n : Nat) : Fld := ⟨(CAN_DBT n), 8, 8⟩
def CAN_DBT_SJW (n : Nat) : Fld := ⟨(CAN_DBT n), 0, 8⟩
def CAN_STAT_CFGERR (n : Nat) : Fld := ⟨(CAN_STAT n), 16, 1⟩
def CAN_STAT_LEC (n : Nat) : Fld := ⟨(CAN_STAT n), 12, 3⟩
def CAN_STAT_ALONE (n : Nat) : Fld := ⟨(CAN_STAT n), 8, 1⟩
def CAN_STAT_TXACT (n : Nat) : Fld := ⟨(CAN_STAT n), 7, 1⟩
def CAN_STAT_RXACT (n : Nat) : Fld := ⟨(CAN_STAT n), 6, 1⟩
def CAN_STAT_STATE (n : Nat) : Fld := ⟨(CAN_STAT n), 0, 2⟩
def CAN_ERRC_TEC (n : Nat) : Fld := ⟨(CAN_ERRC n), 16, 9⟩
def CAN_ERRC_REC (n : Nat) : Fld := ⟨(CAN_ERRC n), 8, 8⟩
def CAN_TXREQ_MB (n : Nat) : Fld := ⟨(CAN_TXREQ n), 0, 8⟩
def CAN_TXABORT_MB (n : Nat) : Fld := ⟨(CAN_TXABORT n), 0, 8⟩
def CAN_TXPEND_MB (n : Nat) : Fld := ⟨(CAN_TXPEND n), 0, 8⟩
def CAN_RXSTAT_OVR (n : Nat) : Fld := ⟨(CAN_RXSTAT n), 31, 1⟩
def CAN_RXSTAT_COUNT (n : Nat) : Fld := ⟨(CAN_RXSTAT n), 0, 7⟩
def CAN_TBC_PWROK (n : Nat) : Fld := ⟨(CAN_TBC n), 1, 1⟩
def CAN_TBC_EN (n : Nat) : Fld := ⟨(CAN_TBC n), 0, 1⟩
def CAN_EVT_FLAG (n : Nat) : Fld := ⟨(CAN_EVT n), 0, 5⟩
def CAN_OWN_PAIR (n : Nat) : Fld := ⟨(CAN_OWN n), 0, 3⟩
def CAN_TXRES_ATT (n m : Nat) : Fld := ⟨(CAN_TXRES n m), 16, 8⟩
def CAN_TXRES_RES (n m : Nat) : Fld := ⟨(CAN_TXRES n m), 0, 3⟩
def CAN_FLTID_EN (n f : Nat) : Fld := ⟨(CAN_FLTID n f), 31, 1⟩
def CAN_FLTID_IDE (n f : Nat) : Fld := ⟨(CAN_FLTID n f), 30, 1⟩
def CAN_FLTID_ID (n f : Nat) : Fld := ⟨(CAN_FLTID n f), 0, 29⟩
def CAN_FLTMSK_EN (n f : Nat) : Fld := ⟨(CAN_FLTMSK n f), 31, 1⟩
def CAN_FLTMSK_IDE (n f : Nat) : Fld := ⟨(CAN_FLTMSK n f), 30, 1⟩
def CAN_FLTMSK_ID (n f : Nat) : Fld := ⟨(CAN_FLTMSK n f), 0, 29⟩
def CAN_TXID_IDE (n m : Nat) : Fld := ⟨CAN_TXID n m, 31, 1⟩
def CAN_TXID_ID (n m : Nat) : Fld := ⟨CAN_TXID n m, 0, 29⟩
def CAN_TXCTL_FDF (n m : Nat) : Fld := ⟨CAN_TXCTL n m, 31, 1⟩
def CAN_TXCTL_BRS (n m : Nat) : Fld := ⟨CAN_TXCTL n m, 30, 1⟩
def CAN_TXCTL_DLC (n m : Nat) : Fld := ⟨CAN_TXCTL n m, 0, 4⟩
def CAN_TXTS_T (n m : Nat) : Fld := ⟨CAN_TXTS n m, 0, 32⟩
def CAN_TXDATA_DATA (n m k : Nat) : Fld := ⟨CAN_TXDATA n m k, 0, 32⟩
def CAN_RXID_IDE (n : Nat) : Fld := ⟨CAN_RXID n, 31, 1⟩
def CAN_RXID_ID (n : Nat) : Fld := ⟨CAN_RXID n, 0, 29⟩
def CAN_RXCTL_FDF (n : Nat) : Fld := ⟨CAN_RXCTL n, 31, 1⟩
def CAN_RXCTL_BRS (n : Nat) : Fld := ⟨CAN_RXCTL n, 30, 1⟩
def CAN_RXCTL_ESI (n : Nat) : Fld := ⟨CAN_RXCTL n, 29, 1⟩
def CAN_RXCTL_VALID (n : Nat) : Fld := ⟨CAN_RXCTL n, 16, 1⟩
def CAN_RXCTL_FLT (n : Nat) : Fld := ⟨CAN_RXCTL n, 8, 8⟩
def CAN_RXCTL_DLC (n : Nat) : Fld := ⟨CAN_RXCTL n, 0, 4⟩
def CAN_RXTS_T (n : Nat) : Fld := ⟨CAN_RXTS n, 0, 32⟩
def CAN_RXDATA_DATA (n k : Nat) : Fld := ⟨CAN_RXDATA n k, 0, 32⟩

end Reg

/-- The registers of the SYS block. -/
def rowsSYS : List RegRow := [
  ⟨0, 0, 1, 0x64483100, 0, 0, 0, 0, 0⟩ /- SYS_ID -/,
  ⟨4, 0, 1, 1, 0, 0, 0, 0, 0⟩ /- SYS_MODE -/,
  ⟨8, 0, 1, 0, 0, 0, 0, 0, 0x8000000f⟩ /- SYS_MODEREQ -/,
  ⟨0xc, 0, 1, 1, 0, 0x3f, 0, 0, 0⟩ /- SYS_RCAUSE -/,
  ⟨0x10, 0, 1, 0, 0, 0, 0, 0, 0xff000001⟩ /- SYS_RESET -/,
  ⟨0x14, 0, 1, 0x7f, 0x1007f, 0, 0, 0, 0⟩ /- SYS_WAKEEN -/,
  ⟨0x18, 0, 1, 0, 0, 0, 0, 0, 0⟩ /- SYS_WAKESRC -/,
  ⟨0x1c, 0, 1, 0xa, 0xffff, 0, 0, 0, 0⟩ /- SYS_DLY -/,
  ⟨0x20, 0, 1, 0x1388, 0xffff, 0, 0, 0, 0⟩ /- SYS_STOPTO -/,
  ⟨0x24, 0, 1, 0, 0, 0, 0, 0, 0⟩ /- SYS_BOOT -/,
  ⟨0x28, 0, 1, 0, 0, 0, 0, 0, 0⟩ /- SYS_LOCK -/,
  ⟨0x30, 0, 1, 0, 0, 0xffffffff, 0, 0, 0⟩ /- SYS_AXSAFE_LO -/,
  ⟨0x34, 0, 1, 0, 0, 0xffffffff, 0, 0, 0⟩ /- SYS_AXSAFE_HI -/,
  ⟨0x40, 0, 1, 0xa, 0xf03ff, 0, 0, 0, 0x80000000⟩ /- SYS_PEAL_CTL -/,
  ⟨0x44, 0, 1, 0, 0xffffffff, 0, 0, 0, 0⟩ /- SYS_PEAL_MLO -/,
  ⟨0x48, 0, 1, 0, 0xffffffff, 0, 0, 0, 0⟩ /- SYS_PEAL_MHI -/,
  ⟨0x4c, 0, 1, 0, 0, 0, 0, 0, 0⟩ /- SYS_PEAL_RES -/,
  ⟨0x50, 0, 1, 0, 0, 0, 0, 0, 0⟩ /- SYS_PEAL_FLO -/,
  ⟨0x54, 0, 1, 0, 0, 0, 0, 0, 0⟩ /- SYS_PEAL_FHI -/,
  ⟨0x58, 0, 1, 0, 0, 0, 0, 0, 0⟩ /- SYS_PEAL_XLO -/,
  ⟨0x5c, 0, 1, 0, 0, 0, 0, 0, 0⟩ /- SYS_PEAL_XHI -/,
  ⟨0x60, 0, 1, 0, 0, 0, 0, 0, 0⟩ /- SYS_PEAL_TC -/,
  ⟨0x70, 0, 1, 0, 0, 7, 0, 0, 0⟩ /- SYS_EVT -/,
  ⟨0x100, 4, 8, 0xdddddddd, 0, 0, 0, 0, 0⟩ /- SYS_AXST -/]

/-- The registers of the EVC block. -/
def rowsEVC : List RegRow := [
  ⟨0, 0, 1, 0x3e8, 0xffff, 0, 0, 0, 0⟩ /- EVC_AGE -/,
  ⟨4, 0, 1, 0, 0, 7, 0, 0, 0⟩ /- EVC_STAT -/,
  ⟨8, 0, 1, 0, 0, 0, 0, 0, 0x3ff⟩ /- EVC_RAISE -/,
  ⟨0xc, 0, 1, 0, 0, 0, 0, 0, 0x3ff⟩ /- EVC_ACK -/,
  ⟨0x20, 4, 5, 0, 0xf, 0, 0, 0, 0⟩ /- EVC_THR -/,
  ⟨0x40, 4, 5, 0, 0, 0, 0, 0, 0⟩ /- EVC_TOP -/,
  ⟨0x60, 4, 5, 0, 0, 0, 0, 0, 0⟩ /- EVC_WTOP -/,
  ⟨0x400, 4, 0x20, 0, 0, 0, 0, 0, 0⟩ /- EVC_PEND -/,
  ⟨0x480, 4, 0x20, 0, 0, 0xffffffff, 0, 0, 0⟩ /- EVC_RERAISE -/,
  ⟨0x1000, 4, 0x380, 0x444a0000, 0xe0feff00, 0, 0, 0, 0⟩ /- EVC_CFG -/,
  ⟨0x1e00, 4, 8, 0xcffc0000, 0x4000ff00, 0, 0, 0, 0⟩ /- EVC_CFG -/,
  ⟨0x1e20, 4, 0x59, 0x444c0000, 0xe0feff00, 0, 0, 0, 0⟩ /- EVC_CFG -/,
  ⟨0x1f84, 0, 1, 0xcffc0000, 0x4000ff00, 0, 0, 0, 0⟩ /- EVC_CFG -/,
  ⟨0x1f88, 4, 0x1e, 0x444c0000, 0xe0feff00, 0, 0, 0, 0⟩ /- EVC_CFG -/]

/-- The registers of the LSS block. -/
def rowsLSS : List RegRow := [
  ⟨0, 4, 2, 0, 0, 0, 0, 0, 0⟩ /- LSS_HOST -/,
  ⟨8, 4, 2, 0x11111111, 0, 0, 0, 0, 0⟩ /- LSS_HOST -/,
  ⟨0x10, 4, 2, 0x22222222, 0, 0, 0, 0, 0⟩ /- LSS_HOST -/,
  ⟨0x18, 4, 2, 0x33333333, 0, 0, 0, 0, 0⟩ /- LSS_HOST -/,
  ⟨0x20, 0, 1, 0x10000, 0, 0, 0, 0, 0⟩ /- LSS_PAIRST -/,
  ⟨0x24, 0, 1, 0, 0, 0, 0, 0, 0⟩ /- LSS_FREC -/,
  ⟨0x28, 0, 1, 0, 0, 0, 0, 0, 0⟩ /- LSS_FTS -/,
  ⟨0x30, 0, 1, 0x3e8, 0xffff, 0, 0, 0, 0⟩ /- LSS_WDG -/,
  ⟨0x34, 0, 1, 0, 0, 0, 0, 0, 0xffffffff⟩ /- LSS_KICK -/,
  ⟨0x38, 0, 1, 0xa0103, 0xffffff03, 0, 0, 0, 0⟩ /- LSS_CFG -/,
  ⟨0x40, 0, 1, 0x4000a, 0x703ff, 0, 0, 0, 0x80000000⟩ /- LSS_MIGCTL -/,
  ⟨0x44, 0, 1, 0, 0xffffffff, 0, 0, 0, 0⟩ /- LSS_MIGMLO -/,
  ⟨0x48, 0, 1, 0, 0xffffffff, 0, 0, 0, 0⟩ /- LSS_MIGMHI -/,
  ⟨0x4c, 0, 1, 0, 0, 0, 0, 0, 0⟩ /- LSS_MIGRES -/,
  ⟨0x50, 0, 1, 0, 0, 0, 0, 0, 0⟩ /- LSS_MIGTS -/,
  ⟨0x60, 0, 1, 0, 0, 0, 0, 0, 0x80000077⟩ /- LSS_REHOST -/,
  ⟨0x64, 0, 1, 0, 0, 0x100, 0, 0, 0x80000007⟩ /- LSS_SUPMV -/,
  ⟨0x68, 0, 1, 0, 0, 0, 0, 0, 0xff000017⟩ /- LSS_PRST -/,
  ⟨0x6c, 0, 1, 0, 0, 0, 0, 0, 0⟩ /- LSS_SPLIT -/,
  ⟨0xf0, 0, 1, 0, 0, 0x3fff, 0, 0, 0⟩ /- LSS_EVT -/,
  ⟨0x800, 0, 1, 0, 0, 0, 0, 0, 0⟩ /- SSQ_STAT -/,
  ⟨0x804, 0, 1, 0, 0, 0, 0, 0, 0xffffffff⟩ /- SSQ_KNELL_LO -/,
  ⟨0x808, 0, 1, 0, 0, 0, 0, 0, 0xffffffff⟩ /- SSQ_KNELL_HI -/,
  ⟨0x80c, 0, 1, 0, 0, 0, 0, 0, 0xffffffff⟩ /- SSQ_HOLD_LO -/,
  ⟨0x810, 0, 1, 0, 0, 0, 0, 0, 0xffffffff⟩ /- SSQ_HOLD_HI -/,
  ⟨0x814, 0, 1, 0, 0, 0, 0, 0, 0⟩ /- SSQ_KMASK_LO -/,
  ⟨0x818, 0, 1, 0, 0, 0, 0, 0, 0⟩ /- SSQ_KMASK_HI -/,
  ⟨0x81c, 0, 1, 0, 1, 0, 0, 0, 0⟩ /- SSQ_LINE -/,
  ⟨0x820, 0, 1, 0, 0, 0, 0, 0, 0⟩ /- SSQ_KTS -/]

/-- The registers of the JNL block. -/
def rowsJNL : List RegRow := [
  ⟨0, 0, 1, 0, 0, 0, 0, 0, 0⟩ /- JNL_STAT -/,
  ⟨4, 0, 1, 0, 0, 0, 0, 0, 0xfffffffc⟩ /- JNL_SUBMIT -/,
  ⟨0x10, 4, 5, 0, 0, 0, 0, 0, 0⟩ /- JNL_RES -/,
  ⟨0x24, 4, 5, 0, 0, 0, 0, 0, 0⟩ /- JNL_SEQ -/,
  ⟨0x40, 0, 1, 0, 0, 0, 0, 0, 0⟩ /- JNL_RING -/,
  ⟨0x44, 0, 1, 0, 0, 0, 0, 0, 0⟩ /- JNL_NEXTSEQ -/,
  ⟨0x48, 0, 1, 0, 0, 0, 0, 0, 0⟩ /- JNL_SPARE -/,
  ⟨0x4c, 0, 1, 0, 0, 0, 0, 0, 0⟩ /- JNL_WEAR -/,
  ⟨0x50, 0, 1, 0x4002010, 0xfff0ffff, 0, 0, 0, 0⟩ /- JNL_CCFG -/,
  ⟨0x54, 0, 1, 0x258, 0xffff, 0, 0, 0, 0⟩ /- JNL_QUOTA -/,
  ⟨0x58, 0, 1, 0x3c, 0xff, 0, 0, 0, 0⟩ /- JNL_CONS -/,
  ⟨0x60, 0, 1, 0, 0xfffff, 0, 0, 0, 0⟩ /- JNL_FWCUR -/,
  ⟨0x64, 0, 1, 0, 0xfffff, 0, 0, 0, 0⟩ /- JNL_FWPREV -/,
  ⟨0x68, 0, 1, 0, 0xfffffffc, 0, 0, 0, 0⟩ /- JNL_IMGSRC -/,
  ⟨0x6c, 0, 1, 0, 7, 0, 0, 0, 0x80000000⟩ /- JNL_IMGWR -/,
  ⟨0x70, 0, 1, 0, 0, 0, 0, 0, 0⟩ /- JNL_IMGST -/,
  ⟨0x74, 0, 1, 0, 0xfff, 0, 0, 0, 0⟩ /- JNL_MAPQ -/,
  ⟨0x7c, 0, 1, 0, 0, 0x1ff, 0, 0, 0⟩ /- JNL_EVT -/]

/-- The registers of the TRU block. -/
def rowsTRU : List RegRow := [
  ⟨0, 0, 1, 0, 0, 0, 0, 0, 0⟩ /- TRU_NOW_LO -/,
  ⟨4, 0, 1, 0, 0, 0, 0, 0, 0⟩ /- TRU_NOW_HI -/,
  ⟨8, 0, 1, 0x20, 0, 0, 0, 0, 0⟩ /- TRU_STAT -/,
  ⟨0xc, 0, 1, 0, 0xb3, 0, 0, 0, 0⟩ /- TRU_CFG -/,
  ⟨0x10, 0, 1, 0, 0, 0, 0, 0, 0⟩ /- TRU_FCORR -/,
  ⟨0x14, 0, 1, 0, 0, 0, 0, 0, 0⟩ /- TRU_FREF -/,
  ⟨0x18, 0, 1, 0, 0, 0, 0, 0, 0⟩ /- TRU_PHERR -/,
  ⟨0x1c, 0, 1, 0x100, 0x1fff, 0, 0, 0, 0⟩ /- TRU_GAIN -/,
  ⟨0x20, 0, 1, 0, 0x3ffff, 0, 0, 0, 0⟩ /- TRU_SIOFS -/,
  ⟨0x24, 0, 1, 0, 0x3ffff, 0, 0, 0, 0⟩ /- TRU_PLOFS -/,
  ⟨0x28, 0, 1, 0, 7, 0, 0, 0, 0⟩ /- TRU_SOCFG -/,
  ⟨0x2c, 0, 1, 0, 0xfffffff, 0, 0, 0, 0⟩ /- TRU_SOOFS -/,
  ⟨0x30, 0, 1, 0, 0, 0, 0, 0, 0⟩ /- TRU_SITS_LO -/,
  ⟨0x34, 0, 1, 0, 0, 0, 0, 0, 0⟩ /- TRU_SITS_HI -/,
  ⟨0x38, 0, 1, 0, 0, 0, 0, 0, 0⟩ /- TRU_RCERR -/,
  ⟨0x3c, 0, 1, 0, 0, 0xf, 0, 0, 0⟩ /- TRU_EVT -/]

/-- The registers of the SP0 block. -/
def rowsSP0 : List RegRow := [
  ⟨0, 0, 1, 0x3e80203, 0xffff17ff, 0, 0, 0, 0⟩ /- SP0_CFG -/,
  ⟨4, 0, 1, 0x40202, 0xffffff, 0, 0, 0, 0⟩ /- SP0_TIM -/,
  ⟨8, 0, 1, 0, 0, 0, 0, 0, 3⟩ /- SP0_CTL -/,
  ⟨0xc, 0, 1, 0, 0, 0x8000, 0, 0, 0⟩ /- SP0_STAT -/,
  ⟨0x10, 0, 1, 7, 7, 0, 0, 0, 0⟩ /- SP0_OWN -/,
  ⟨0x14, 0, 1, 0, 0, 7, 0, 0, 0⟩ /- SP0_EVT -/,
  ⟨0x20, 0, 1, 0, 0xffffffff, 0, 0, 0, 0⟩ /- SP0_QBUF -/,
  ⟨0x24, 0, 1, 0, 0xffffffff, 0, 0, 0, 0⟩ /- SP0_QADDR -/,
  ⟨0x28, 0, 1, 0, 0, 0, 0, 0, 0xfff0777⟩ /- SP0_QCTL -/,
  ⟨0x2c, 0, 1, 0, 0, 0, 0, 0, 0⟩ /- SP0_QRES -/,
  ⟨0x40, 0, 1, 0, 0xfffff733, 0, 0, 0, 0⟩ /- SP0_XIPCFG -/,
  ⟨0x44, 0, 1, 0, 0, 0, 0, 0, 0⟩ /- SP0_XIPINV -/,
  ⟨0x48, 0, 1, 0, 1, 2, 0, 0, 0⟩ /- SP0_XCON -/,
  ⟨0x100, 8, 8, 0, 0xffff000f, 0, 0, 0, 0⟩ /- SP0_FDC -/,
  ⟨0x104, 8, 8, 0, 0xf01f0033, 0, 0, 0, 0⟩ /- SP0_FDP -/]

/-- The registers of the SP1 block. -/
def rowsSP1 : List RegRow := [
  ⟨0, 0, 1, 0x10018120, 0x3f3ff133, 0, 0, 0, 0⟩ /- SP1_CFG -/,
  ⟨4, 0, 1, 0, 1, 0, 0, 0, 0x300⟩ /- SP1_CTL -/,
  ⟨8, 0, 1, 0, 0, 0x5c0000, 0, 0, 0⟩ /- SP1_STAT -/,
  ⟨0xc, 0, 1, 0xb5b5b5b5, 0xffffffff, 0, 0, 0, 0⟩ /- SP1_BUSY -/,
  ⟨0x10, 0, 1, 0, 0, 0, 0, 0, 0⟩ /- SP1_RXHEAD -/,
  ⟨0x14, 0, 1, 0, 0, 0, 0, 0xffffffff, 0⟩ /- SP1_RX -/,
  ⟨0x18, 0, 1, 0, 0, 0, 0, 0xffffffff, 0⟩ /- SP1_TX -/,
  ⟨0x1c, 0, 1, 0, 0, 0, 0, 0, 0⟩ /- SP1_TCNT -/,
  ⟨0x20, 0, 1, 0, 0, 0, 0, 0xffff, 0⟩ /- SP1_OVFCNT -/,
  ⟨0x24, 0, 1, 0, 0, 0xf, 0, 0, 0⟩ /- SP1_EVT -/]

/-- The registers of the CAN block, part 0. -/
def rowsCAN_0 : List RegRow := [
  ⟨0, 0, 1, 0x84000000, 0x9c000000, 0, 0, 0, 0⟩ /- CAN_CFG -/,
  ⟨4, 0, 1, 0x310c0100, 0, 0, 0, 0, 0⟩ /- CAN_NBT -/,
  ⟨8, 0, 1, 0, 0, 0, 0, 0, 0⟩ /- CAN_DBT -/,
  ⟨0xc, 0, 1, 0, 0, 0x10000, 0, 0, 0⟩ /- CAN_STAT -/,
  ⟨0x10, 0, 1, 0, 0, 0, 0, 0, 0⟩ /- CAN_ERRC -/,
  ⟨0x14, 0, 1, 0, 0, 0, 0, 0, 0xff⟩ /- CAN_TXREQ -/,
  ⟨0x18, 0, 1, 0, 0, 0, 0, 0, 0xff⟩ /- CAN_TXABORT -/,
  ⟨0x1c, 0, 1, 0, 0, 0, 0, 0, 0⟩ /- CAN_TXPEND -/,
  ⟨0x20, 0, 1, 0, 0, 0, 0, 0, 0⟩ /- CAN_RXPOP -/,
  ⟨0x24, 0, 1, 0, 0, 0x80000000, 0, 0, 0⟩ /- CAN_RXSTAT -/,
  ⟨0x28, 0, 1, 0, 1, 0, 0, 0, 0⟩ /- CAN_TBC -/,
  ⟨0x2c, 0, 1, 0, 0, 0x1f, 0, 0, 0⟩ /- CAN_EVT -/,
  ⟨0x30, 0, 1, 7, 7, 0, 0, 0, 0⟩ /- CAN_OWN -/,
  ⟨0x40, 4, 8, 0, 0, 0, 0, 0, 0⟩ /- CAN_TXRES -/,
  ⟨0x80, 8, 0x10, 0, 0xdfffffff, 0, 0, 0, 0⟩ /- CAN_FLTID -/,
  ⟨0x84, 8, 0x10, 0, 0x1fffffff, 0, 0, 0, 0⟩ /- CAN_FLTMSK -/,
  ⟨0x100, 0x50, 8, 0, 0x9fffffff, 0, 0, 0, 0⟩ /- CAN_TXID -/,
  ⟨0x104, 0x50, 8, 0, 0x4000000f, 0, 0, 0, 0⟩ /- CAN_TXCTL -/,
  ⟨0x108, 0x50, 8, 0, 0, 0, 0, 0, 0⟩ /- CAN_TXTS -/,
  ⟨0x10c, 4, 0x10, 0, 0xffffffff, 0, 0, 0, 0⟩ /- CAN_TXDATA0 -/,
  ⟨0x15c, 4, 0x10, 0, 0xffffffff, 0, 0, 0, 0⟩ /- CAN_TXDATA1 -/,
  ⟨0x1ac, 4, 0x10, 0, 0xffffffff, 0, 0, 0, 0⟩ /- CAN_TXDATA2 -/,
  ⟨0x1fc, 4, 0x10, 0, 0xffffffff, 0, 0, 0, 0⟩ /- CAN_TXDATA3 -/,
  ⟨0x24c, 4, 0x10, 0, 0xffffffff, 0, 0, 0, 0⟩ /- CAN_TXDATA4 -/,
  ⟨0x29c, 4, 0x10, 0, 0xffffffff, 0, 0, 0, 0⟩ /- CAN_TXDATA5 -/,
  ⟨0x2ec, 4, 0x10, 0, 0xffffffff, 0, 0, 0, 0⟩ /- CAN_TXDATA6 -/,
  ⟨0x33c, 4, 0x10, 0, 0xffffffff, 0, 0, 0, 0⟩ /- CAN_TXDATA7 -/,
  ⟨0x400, 0, 1, 0, 0, 0, 0, 0, 0⟩ /- CAN_RXID -/,
  ⟨0x404, 0, 1, 0, 0, 0, 0, 0, 0⟩ /- CAN_RXCTL -/,
  ⟨0x408, 0, 1, 0, 0, 0, 0, 0, 0⟩ /- CAN_RXTS -/]
/-- The registers of the CAN block, part 1. -/
def rowsCAN_1 : List RegRow := [
  ⟨0x40c, 4, 0x10, 0, 0, 0, 0, 0, 0⟩ /- CAN_RXDATA -/]
/-- The registers of the CAN block. -/
def rowsCAN : List RegRow := rowsCAN_0 ++ rowsCAN_1

/-- The registers of the CANPL block. -/
def rowsCANPL : List RegRow := [
  ⟨0, 0, 1, 0xe6001e00, 0xfe1fff00, 0, 0, 0, 0⟩ /- CAN_CFG -/,
  ⟨4, 0, 1, 0x41e0707, 0xffffffff, 0, 0, 0, 0⟩ /- CAN_NBT -/,
  ⟨8, 0, 1, 0x1c0909, 0xffffffff, 0, 0, 0, 0⟩ /- CAN_DBT -/,
  ⟨0xc, 0, 1, 0, 0, 0x10000, 0, 0, 0⟩ /- CAN_STAT -/,
  ⟨0x10, 0, 1, 0, 0, 0, 0, 0, 0⟩ /- CAN_ERRC -/,
  ⟨0x14, 0, 1, 0, 0, 0, 0, 0, 0xff⟩ /- CAN_TXREQ -/,
  ⟨0x18, 0, 1, 0, 0, 0, 0, 0, 0xff⟩ /- CAN_TXABORT -/,
  ⟨0x1c, 0, 1, 0, 0, 0, 0, 0, 0⟩ /- CAN_TXPEND -/,
  ⟨0x20, 0, 1, 0, 0, 0, 0, 0, 0⟩ /- CAN_RXPOP -/,
  ⟨0x24, 0, 1, 0, 0, 0x80000000, 0, 0, 0⟩ /- CAN_RXSTAT -/,
  ⟨0x2c, 0, 1, 0, 0, 0x1f, 0, 0, 0⟩ /- CAN_EVT -/,
  ⟨0x30, 0, 1, 7, 7, 0, 0, 0, 0⟩ /- CAN_OWN -/,
  ⟨0x40, 4, 8, 0, 0, 0, 0, 0, 0⟩ /- CAN_TXRES -/,
  ⟨0x80, 8, 0x10, 0, 0xdfffffff, 0, 0, 0, 0⟩ /- CAN_FLTID -/,
  ⟨0x84, 8, 0x10, 0, 0x1fffffff, 0, 0, 0, 0⟩ /- CAN_FLTMSK -/,
  ⟨0x100, 0x50, 8, 0, 0x9fffffff, 0, 0, 0, 0⟩ /- CAN_TXID -/,
  ⟨0x104, 0x50, 8, 0, 0xc000000f, 0, 0, 0, 0⟩ /- CAN_TXCTL -/,
  ⟨0x108, 0x50, 8, 0, 0, 0, 0, 0, 0⟩ /- CAN_TXTS -/,
  ⟨0x10c, 4, 0x10, 0, 0xffffffff, 0, 0, 0, 0⟩ /- CAN_TXDATA0 -/,
  ⟨0x15c, 4, 0x10, 0, 0xffffffff, 0, 0, 0, 0⟩ /- CAN_TXDATA1 -/,
  ⟨0x1ac, 4, 0x10, 0, 0xffffffff, 0, 0, 0, 0⟩ /- CAN_TXDATA2 -/,
  ⟨0x1fc, 4, 0x10, 0, 0xffffffff, 0, 0, 0, 0⟩ /- CAN_TXDATA3 -/,
  ⟨0x24c, 4, 0x10, 0, 0xffffffff, 0, 0, 0, 0⟩ /- CAN_TXDATA4 -/,
  ⟨0x29c, 4, 0x10, 0, 0xffffffff, 0, 0, 0, 0⟩ /- CAN_TXDATA5 -/,
  ⟨0x2ec, 4, 0x10, 0, 0xffffffff, 0, 0, 0, 0⟩ /- CAN_TXDATA6 -/,
  ⟨0x33c, 4, 0x10, 0, 0xffffffff, 0, 0, 0, 0⟩ /- CAN_TXDATA7 -/,
  ⟨0x400, 0, 1, 0, 0, 0, 0, 0, 0⟩ /- CAN_RXID -/,
  ⟨0x404, 0, 1, 0, 0, 0, 0, 0, 0⟩ /- CAN_RXCTL -/,
  ⟨0x408, 0, 1, 0, 0, 0, 0, 0, 0⟩ /- CAN_RXTS -/,
  ⟨0x40c, 4, 0x10, 0, 0, 0, 0, 0, 0⟩ /- CAN_RXDATA -/]

/-- The registers of the SWC block. -/
def rowsSWC : List RegRow := [
  ⟨0, 0, 1, 7, 7, 0, 0, 0, 0⟩ /- SWC_CFG -/,
  ⟨4, 0, 1, 0, 0, 0xf, 0, 0, 0⟩ /- SWC_STAT -/,
  ⟨8, 0, 1, 0, 0, 0, 0, 0, 0⟩ /- SWC_VADDR -/,
  ⟨0xc, 0, 1, 0, 0, 3, 0, 0, 0⟩ /- SWC_EVT -/,
  ⟨0x100, 4, 0x40, 0, 0x373, 0, 0, 0, 0⟩ /- SWC_SEG -/,
  ⟨0x200, 0, 1, 0, 0, 0, 0, 0, 0⟩ /- SWC_HSUM_LO -/,
  ⟨0x204, 0, 1, 0, 0, 0, 0, 0, 0⟩ /- SWC_HSUM_HI -/]

/-- The registers of the AC block, part 0. -/
def rowsAC_0 : List RegRow := [
  ⟨0, 0, 1, 0, 0x1d1, 0, 0, 0, 0⟩ /- AC_CTL -/,
  ⟨4, 0, 1, 0, 0, 0x10, 0, 0, 0⟩ /- AC_STAT -/,
  ⟨8, 0, 1, 0x40000000, 0x40000001, 0, 0, 0, 0x80000000⟩ /- AC_CAL -/,
  ⟨0xc, 0, 1, 0xa, 0xf, 0, 0, 0, 0⟩ /- AC_CUCFG -/,
  ⟨0x10, 0, 1, 0x10, 0xffff, 0, 0, 0, 0⟩ /- AC_DROPTH -/,
  ⟨0x14, 0, 1, 0, 0, 0, 0, 0, 0⟩ /- AC_CALT -/,
  ⟨0x18, 0, 1, 0, 0, 0xf, 0, 0, 0⟩ /- AC_EVT -/,
  ⟨0x20, 0, 1, 0x8180, 0xffffffff, 0, 0, 0, 0⟩ /- AC_UCFG -/,
  ⟨0x24, 0, 1, 0x8988, 0xffffffff, 0, 0, 0, 0⟩ /- AC_UCFG -/,
  ⟨0x28, 0, 1, 0x9190, 0xffffffff, 0, 0, 0, 0⟩ /- AC_UCFG -/,
  ⟨0x2c, 0, 1, 0x9998, 0xffffffff, 0, 0, 0, 0⟩ /- AC_UCFG -/,
  ⟨0x500, 4, 6, 0x47f00000, 0, 0, 0, 0, 0⟩ /- AC_UR -/,
  ⟨0x520, 4, 6, 0x47f00000, 0, 0, 0, 0, 0⟩ /- AC_UR -/,
  ⟨0x540, 4, 6, 0x47f00000, 0, 0, 0, 0, 0⟩ /- AC_UR -/,
  ⟨0x560, 4, 6, 0x47f00000, 0, 0, 0, 0, 0⟩ /- AC_UR -/,
  ⟨0x580, 4, 3, 0, 0, 0, 0, 0, 0⟩ /- AC_UTS -/,
  ⟨0x590, 4, 3, 0, 0, 0, 0, 0, 0⟩ /- AC_UTS -/,
  ⟨0x5a0, 4, 3, 0, 0, 0, 0, 0, 0⟩ /- AC_UTS -/,
  ⟨0x5b0, 4, 3, 0, 0, 0, 0, 0, 0⟩ /- AC_UTS -/,
  ⟨0x600, 4, 0x24, 0, 0xfffffff, 0, 0, 0, 0⟩ /- AC_CHCAL -/,
  ⟨0x100, 0, 1, 0x20, 0x3f, 0, 0, 0, 0⟩ /- AC_SEQCTL -/,
  ⟨0x300, 0, 1, 0x20, 0x3f, 0, 0, 0, 0⟩ /- AC_SEQCTL -/,
  ⟨0x104, 0, 1, 0, 0, 0, 0, 0xffff, 0⟩ /- AC_DROPCNT -/,
  ⟨0x304, 0, 1, 0, 0, 0, 0, 0xffff, 0⟩ /- AC_DROPCNT -/,
  ⟨0x108, 0, 1, 0, 0, 0, 0, 0, 0⟩ /- AC_DROPINFO -/,
  ⟨0x308, 0, 1, 0, 0, 0, 0, 0, 0⟩ /- AC_DROPINFO -/,
  ⟨0x10c, 0, 1, 0, 0xfff, 0, 0, 0, 0⟩ /- AC_OFS -/,
  ⟨0x30c, 0, 1, 0, 0xfff, 0, 0, 0, 0⟩ /- AC_OFS -/,
  ⟨0x110, 0, 1, 0, 0xffff, 0, 0, 0, 0⟩ /- AC_GAIN -/,
  ⟨0x310, 0, 1, 0, 0xffff, 0, 0, 0, 0⟩ /- AC_GAIN -/]
/-- The registers of the AC block, part 1. -/
def rowsAC_1 : List RegRow := [
  ⟨0x114, 0, 1, 0, 0xff, 0, 0, 0, 0⟩ /- AC_SKEW -/,
  ⟨0x314, 0, 1, 0, 0xff, 0, 0, 0, 0⟩ /- AC_SKEW -/,
  ⟨0x120, 4, 6, 0x47f00000, 0, 0, 0, 0, 0⟩ /- AC_HK -/,
  ⟨0x320, 4, 6, 0x47f00000, 0, 0, 0, 0, 0⟩ /- AC_HK -/,
  ⟨0x1c0, 4, 0x20, 0x47f00000, 0, 0, 0, 0, 0⟩ /- AC_RSLT -/,
  ⟨0x3c0, 4, 0x20, 0x47f00000, 0, 0, 0, 0, 0⟩ /- AC_RSLT -/,
  ⟨0x140, 0, 1, 0, 0x3f, 0, 0, 0, 0⟩ /- AC_SEQ -/,
  ⟨0x144, 0, 1, 2, 0x3f, 0, 0, 0, 0⟩ /- AC_SEQ -/,
  ⟨0x148, 0, 1, 3, 0x3f, 0, 0, 0, 0⟩ /- AC_SEQ -/,
  ⟨0x14c, 0, 1, 4, 0x3f, 0, 0, 0, 0⟩ /- AC_SEQ -/,
  ⟨0x150, 0, 1, 0, 0x3f, 0, 0, 0, 0⟩ /- AC_SEQ -/,
  ⟨0x154, 0, 1, 2, 0x3f, 0, 0, 0, 0⟩ /- AC_SEQ -/,
  ⟨0x158, 0, 1, 3, 0x3f, 0, 0, 0, 0⟩ /- AC_SEQ -/,
  ⟨0x15c, 0, 1, 4, 0x3f, 0, 0, 0, 0⟩ /- AC_SEQ -/,
  ⟨0x160, 0, 1, 8, 0x3f, 0, 0, 0, 0⟩ /- AC_SEQ -/,
  ⟨0x164, 0, 1, 0xa, 0x3f, 0, 0, 0, 0⟩ /- AC_SEQ -/,
  ⟨0x168, 0, 1, 0xb, 0x3f, 0, 0, 0, 0⟩ /- AC_SEQ -/,
  ⟨0x16c, 0, 1, 0xc, 0x3f, 0, 0, 0, 0⟩ /- AC_SEQ -/,
  ⟨0x170, 0, 1, 8, 0x3f, 0, 0, 0, 0⟩ /- AC_SEQ -/,
  ⟨0x174, 0, 1, 0xa, 0x3f, 0, 0, 0, 0⟩ /- AC_SEQ -/,
  ⟨0x178, 0, 1, 0xb, 0x3f, 0, 0, 0, 0⟩ /- AC_SEQ -/,
  ⟨0x17c, 0, 1, 0xc, 0x3f, 0, 0, 0, 0⟩ /- AC_SEQ -/,
  ⟨0x180, 0, 1, 0x10, 0x3f, 0, 0, 0, 0⟩ /- AC_SEQ -/,
  ⟨0x184, 0, 1, 0x12, 0x3f, 0, 0, 0, 0⟩ /- AC_SEQ -/,
  ⟨0x188, 0, 1, 0x13, 0x3f, 0, 0, 0, 0⟩ /- AC_SEQ -/,
  ⟨0x18c, 0, 1, 0x14, 0x3f, 0, 0, 0, 0⟩ /- AC_SEQ -/,
  ⟨0x190, 0, 1, 0x10, 0x3f, 0, 0, 0, 0⟩ /- AC_SEQ -/,
  ⟨0x194, 0, 1, 0x12, 0x3f, 0, 0, 0, 0⟩ /- AC_SEQ -/,
  ⟨0x198, 0, 1, 0x13, 0x3f, 0, 0, 0, 0⟩ /- AC_SEQ -/,
  ⟨0x19c, 0, 1, 0x14, 0x3f, 0, 0, 0, 0⟩ /- AC_SEQ -/]
/-- The registers of the AC block, part 2. -/
def rowsAC_2 : List RegRow := [
  ⟨0x1a0, 0, 1, 0x18, 0x3f, 0, 0, 0, 0⟩ /- AC_SEQ -/,
  ⟨0x1a4, 0, 1, 0x1a, 0x3f, 0, 0, 0, 0⟩ /- AC_SEQ -/,
  ⟨0x1a8, 0, 1, 0x1b, 0x3f, 0, 0, 0, 0⟩ /- AC_SEQ -/,
  ⟨0x1ac, 0, 1, 0x1c, 0x3f, 0, 0, 0, 0⟩ /- AC_SEQ -/,
  ⟨0x1b0, 0, 1, 0x18, 0x3f, 0, 0, 0, 0⟩ /- AC_SEQ -/,
  ⟨0x1b4, 0, 1, 0x1a, 0x3f, 0, 0, 0, 0⟩ /- AC_SEQ -/,
  ⟨0x1b8, 0, 1, 0x1b, 0x3f, 0, 0, 0, 0⟩ /- AC_SEQ -/,
  ⟨0x1bc, 0, 1, 0x1c, 0x3f, 0, 0, 0, 0⟩ /- AC_SEQ -/,
  ⟨0x340, 0, 1, 1, 0x3f, 0, 0, 0, 0⟩ /- AC_SEQ -/,
  ⟨0x344, 0, 1, 2, 0x3f, 0, 0, 0, 0⟩ /- AC_SEQ -/,
  ⟨0x348, 0, 1, 3, 0x3f, 0, 0, 0, 0⟩ /- AC_SEQ -/,
  ⟨0x34c, 0, 1, 4, 0x3f, 0, 0, 0, 0⟩ /- AC_SEQ -/,
  ⟨0x350, 0, 1, 1, 0x3f, 0, 0, 0, 0⟩ /- AC_SEQ -/,
  ⟨0x354, 0, 1, 2, 0x3f, 0, 0, 0, 0⟩ /- AC_SEQ -/,
  ⟨0x358, 0, 1, 3, 0x3f, 0, 0, 0, 0⟩ /- AC_SEQ -/,
  ⟨0x35c, 0, 1, 4, 0x3f, 0, 0, 0, 0⟩ /- AC_SEQ -/,
  ⟨0x360, 0, 1, 9, 0x3f, 0, 0, 0, 0⟩ /- AC_SEQ -/,
  ⟨0x364, 0, 1, 0xa, 0x3f, 0, 0, 0, 0⟩ /- AC_SEQ -/,
  ⟨0x368, 0, 1, 0xb, 0x3f, 0, 0, 0, 0⟩ /- AC_SEQ -/,
  ⟨0x36c, 0, 1, 0xc, 0x3f, 0, 0, 0, 0⟩ /- AC_SEQ -/,
  ⟨0x370, 0, 1, 9, 0x3f, 0, 0, 0, 0⟩ /- AC_SEQ -/,
  ⟨0x374, 0, 1, 0xa, 0x3f, 0, 0, 0, 0⟩ /- AC_SEQ -/,
  ⟨0x378, 0, 1, 0xb, 0x3f, 0, 0, 0, 0⟩ /- AC_SEQ -/,
  ⟨0x37c, 0, 1, 0xc, 0x3f, 0, 0, 0, 0⟩ /- AC_SEQ -/,
  ⟨0x380, 0, 1, 0x11, 0x3f, 0, 0, 0, 0⟩ /- AC_SEQ -/,
  ⟨0x384, 0, 1, 0x12, 0x3f, 0, 0, 0, 0⟩ /- AC_SEQ -/,
  ⟨0x388, 0, 1, 0x13, 0x3f, 0, 0, 0, 0⟩ /- AC_SEQ -/,
  ⟨0x38c, 0, 1, 0x14, 0x3f, 0, 0, 0, 0⟩ /- AC_SEQ -/,
  ⟨0x390, 0, 1, 0x11, 0x3f, 0, 0, 0, 0⟩ /- AC_SEQ -/,
  ⟨0x394, 0, 1, 0x12, 0x3f, 0, 0, 0, 0⟩ /- AC_SEQ -/]
/-- The registers of the AC block, part 3. -/
def rowsAC_3 : List RegRow := [
  ⟨0x398, 0, 1, 0x13, 0x3f, 0, 0, 0, 0⟩ /- AC_SEQ -/,
  ⟨0x39c, 0, 1, 0x14, 0x3f, 0, 0, 0, 0⟩ /- AC_SEQ -/,
  ⟨0x3a0, 0, 1, 0x19, 0x3f, 0, 0, 0, 0⟩ /- AC_SEQ -/,
  ⟨0x3a4, 0, 1, 0x1a, 0x3f, 0, 0, 0, 0⟩ /- AC_SEQ -/,
  ⟨0x3a8, 0, 1, 0x1b, 0x3f, 0, 0, 0, 0⟩ /- AC_SEQ -/,
  ⟨0x3ac, 0, 1, 0x1c, 0x3f, 0, 0, 0, 0⟩ /- AC_SEQ -/,
  ⟨0x3b0, 0, 1, 0x19, 0x3f, 0, 0, 0, 0⟩ /- AC_SEQ -/,
  ⟨0x3b4, 0, 1, 0x1a, 0x3f, 0, 0, 0, 0⟩ /- AC_SEQ -/,
  ⟨0x3b8, 0, 1, 0x1b, 0x3f, 0, 0, 0, 0⟩ /- AC_SEQ -/,
  ⟨0x3bc, 0, 1, 0x1c, 0x3f, 0, 0, 0, 0⟩ /- AC_SEQ -/,
  ⟨0x240, 4, 0x20, 0, 0, 0, 0, 0, 0⟩ /- AC_RTS -/,
  ⟨0x440, 4, 0x20, 0, 0, 0, 0, 0, 0⟩ /- AC_RTS -/]
/-- The registers of the AC block. -/
def rowsAC : List RegRow := rowsAC_0 ++ rowsAC_1 ++ rowsAC_2 ++ rowsAC_3

/-- The registers of the PWMG block. -/
def rowsPWMG : List RegRow := [
  ⟨0, 0, 1, 0, 0, 0, 0, 0, 0xffffffff⟩ /- PWM_LDALL_LO -/,
  ⟨4, 0, 1, 0, 0, 0, 0, 0, 0xffffffff⟩ /- PWM_LDALL_HI -/,
  ⟨8, 0, 1, 0, 0, 0, 0, 0, 0⟩ /- PWM_LDPEND_LO -/,
  ⟨0xc, 0, 1, 0, 0, 0, 0, 0, 0⟩ /- PWM_LDPEND_HI -/,
  ⟨0x10, 0, 1, 0, 0, 0, 0, 0, 0⟩ /- PWM_FLTSUM_LO -/,
  ⟨0x14, 0, 1, 0, 0, 0, 0, 0, 0⟩ /- PWM_FLTSUM_HI -/]

/-- The registers of the PWM block. -/
def rowsPWM : List RegRow := [
  ⟨0, 0, 1, 2, 0, 0x60, 0, 0xff00, 0⟩ /- PWM_STAT -/,
  ⟨4, 0, 1, 0, 0, 0xff, 0, 0, 0⟩ /- PWM_FLT -/,
  ⟨8, 0, 1, 0, 0, 0, 0, 0, 0⟩ /- PWM_PAT -/,
  ⟨0xc, 0, 1, 0, 0x777, 0, 0, 0, 0⟩ /- PWM_TPAT -/,
  ⟨0x10, 0, 1, 0x2710, 0xffff, 0, 0, 0, 0⟩ /- PWM_PER -/,
  ⟨0x14, 0, 1, 0, 0xffff, 0, 0, 0, 0⟩ /- PWM_OFS -/,
  ⟨0x18, 0, 1, 0, 0xffff, 0, 0, 0, 0⟩ /- PWM_CMPU -/,
  ⟨0x1c, 0, 1, 0, 0xffff, 0, 0, 0, 0⟩ /- PWM_CMPV -/,
  ⟨0x20, 0, 1, 0, 0xffff, 0, 0, 0, 0⟩ /- PWM_CMPW -/,
  ⟨0x24, 0, 1, 0, 0xffff, 0, 0, 0, 0⟩ /- PWM_CMPD -/,
  ⟨0x28, 0, 1, 0, 0xfff, 0, 0, 0, 0⟩ /- PWM_BTRIM -/,
  ⟨0x2c, 0, 1, 0x140000, 0x80ffffff, 0, 0, 0, 0⟩ /- PWM_TRIG0 -/,
  ⟨0x30, 0, 1, 0x140000, 0x80ffffff, 0, 0, 0, 0⟩ /- PWM_TRIG1 -/,
  ⟨0x40, 0, 1, 0x27100000, 0, 0, 0, 0, 0⟩ /- PWM_APO -/,
  ⟨0x44, 0, 1, 0, 0, 0, 0, 0, 0⟩ /- PWM_ACMPUV -/,
  ⟨0x48, 0, 1, 0, 0, 0, 0, 0, 0⟩ /- PWM_ACMPWD -/,
  ⟨0x4c, 0, 1, 0, 0, 0, 0, 0, 0⟩ /- PWM_ATRIM -/,
  ⟨0x50, 0, 1, 0, 0, 0, 0, 0, 0⟩ /- PWM_VEC -/,
  ⟨0x60, 0, 1, 0x14, 0x3ff, 0, 0, 0, 0⟩ /- PWM_DT -/,
  ⟨0x64, 0, 1, 0x3c0028, 0x3ff03ff, 0, 0, 0, 0⟩ /- PWM_DTS -/,
  ⟨0x80, 0, 1, 0x1c2, 0x3ff, 0, 0, 0, 0⟩ /- PWM_OCTRIP -/,
  ⟨0x84, 0, 1, 0x3e80064, 0xffff03ff, 0, 0, 0, 0⟩ /- PWM_BSR -/,
  ⟨0xa0, 0, 1, 0, 0, 0, 0, 0, 0⟩ /- PWM_CNT -/,
  ⟨0xa4, 0, 1, 0, 0, 0, 0, 0, 0⟩ /- PWM_LASTLD -/]

/-- The registers of the CU block, part 0. -/
def rowsCU_0 : List RegRow := [
  ⟨0, 0, 1, 0xd0d, 0, 0, 0, 0, 0⟩ /- CU_STATE -/,
  ⟨4, 0, 1, 0, 0, 0, 0, 0, 0x8f⟩ /- CU_CMD -/,
  ⟨8, 0, 1, 0, 0, 0x16000, 0, 0, 0⟩ /- CU_STAT -/,
  ⟨0xc, 0, 1, 0, 0, 0xfffe, 0, 0, 0⟩ /- CU_FLT -/,
  ⟨0x10, 0, 1, 0x1000, 0xff3f01, 0, 0, 0, 0⟩ /- CU_SSCFG -/,
  ⟨0x14, 0, 1, 0x3c0028, 0x3ff03ff, 0, 0, 0, 0⟩ /- CU_SAMP -/,
  ⟨0x18, 0, 1, 0, 0xffff, 0, 0, 0, 0⟩ /- CU_ZCOFS -/,
  ⟨0x1c, 0, 1, 0xa40000, 0xffff0000, 0, 0, 0, 0⟩ /- CU_MP -/,
  ⟨0x20, 0, 1, 0xc80290, 0xffff7fff, 0, 0, 0, 0⟩ /- CU_ALIGN -/,
  ⟨0x24, 0, 1, 0xc80014, 0xffffffff, 0, 0, 0, 0⟩ /- CU_RAMP0 -/,
  ⟨0x28, 0, 1, 0x1f46290, 0xffffffff, 0, 0, 0, 0⟩ /- CU_RAMP1 -/,
  ⟨0x2c, 0, 1, 0x4010, 0xffff, 0, 0, 0, 0⟩ /- CU_REG -/,
  ⟨0x30, 0, 1, 0x10072, 0x1fffff, 0, 0, 0, 0⟩ /- CU_CATCH -/,
  ⟨0x34, 0, 1, 0, 0x3ff0003, 0, 0, 0, 0⟩ /- CU_HALL -/,
  ⟨0x38, 0, 1, 0xf054cf, 0xffffff, 0, 0, 0, 0⟩ /- CU_HALLMAP -/,
  ⟨0x40, 0, 1, 0, 0, 0, 0, 0, 0⟩ /- CU_SPEED -/,
  ⟨0x44, 0, 1, 0, 0, 0, 0, 0, 0⟩ /- CU_T1 -/,
  ⟨0x48, 0, 1, 0, 0, 0, 0, 0, 0⟩ /- CU_T2 -/,
  ⟨0x4c, 0, 1, 0, 0, 0, 0, 0, 0⟩ /- CU_TPRED -/,
  ⟨0x50, 0, 1, 0, 0, 0, 0, 0, 0⟩ /- CU_ZCT -/,
  ⟨0x54, 0, 1, 0, 0, 0, 0, 0, 0⟩ /- CU_ZCGAP -/,
  ⟨0x58, 0, 1, 0, 0, 0, 0, 0, 0⟩ /- CU_PREDB -/,
  ⟨0x5c, 0, 1, 0, 0, 0, 0, 0, 0⟩ /- CU_NEXTC -/,
  ⟨0x60, 0, 1, 0, 0, 0, 0, 0, 0⟩ /- CU_CATCHRES -/,
  ⟨0x64, 0, 1, 0, 0, 0, 0, 0, 0⟩ /- CU_CATCHSPD -/,
  ⟨0x68, 0, 1, 0, 0, 0, 0, 0, 0⟩ /- CU_CMPX -/,
  ⟨0x6c, 0, 1, 0, 0, 0, 0, 0, 0⟩ /- CU_HALLST -/,
  ⟨0x70, 0, 1, 0, 0, 0, 0, 0, 0⟩ /- CU_MPPEAK -/,
  ⟨0x74, 0, 1, 0, 0, 0, 0, 0xffffffff, 0⟩ /- CU_CNT -/,
  ⟨0x78, 0, 1, 0, 0, 0, 0, 0xffffffff, 0⟩ /- CU_SKIPCNT -/]
/-- The registers of the CU block, part 1. -/
def rowsCU_1 : List RegRow := [
  ⟨0x100, 0, 1, 0x40c, 0xff0f, 0, 0, 0, 0⟩ /- CU_DTCCFG -/,
  ⟨0x104, 0, 1, 0x3e8, 0xffff, 0, 0, 0, 0⟩ /- CU_TICK -/,
  ⟨0x108, 0, 1, 0, 0xffffffff, 0, 0, 0, 0⟩ /- CU_TREF -/,
  ⟨0x10c, 0, 1, 0, 0xffffffff, 0, 0, 0, 0⟩ /- CU_PSIREF -/,
  ⟨0x110, 0, 1, 0x3200c8, 0xffffffff, 0, 0, 0, 0⟩ /- CU_BAND -/,
  ⟨0x114, 0, 1, 0x64, 0xffff, 0, 0, 0, 0⟩ /- CU_MOTOR -/,
  ⟨0x118, 0, 1, 0, 0xffffffff, 0, 0, 0, 0⟩ /- CU_PSI0 -/,
  ⟨0x11c, 0, 1, 0x166a, 0xffff, 0, 0, 0, 0⟩ /- CU_IPK -/,
  ⟨0x120, 0, 1, 0x1f4012c, 0xffffffff, 0, 0, 0, 0⟩ /- CU_HO -/,
  ⟨0x124, 0, 1, 0xc780014, 0xffff00ff, 0, 0, 0, 0⟩ /- CU_HOCFG -/,
  ⟨0x128, 0, 1, 0xe604, 0xffff, 0, 0, 0, 0⟩ /- CU_FW -/,
  ⟨0x12c, 0, 1, 0x640021, 0x3ffffff, 0, 0, 0, 0⟩ /- CU_DWELL -/,
  ⟨0x130, 0, 1, 0x1fa84, 0x3ffff, 0, 0, 0, 0⟩ /- CU_STAB -/,
  ⟨0x134, 0, 1, 0x103bd, 0x3ffff, 0, 0, 0, 0⟩ /- CU_STAB -/,
  ⟨0x138, 0, 1, 0x37701, 0x3ffff, 0, 0, 0, 0⟩ /- CU_STAB -/,
  ⟨0x13c, 0, 1, 0x2057b, 0x3ffff, 0, 0, 0, 0⟩ /- CU_STAB -/,
  ⟨0x140, 0, 1, 0x2fc42, 0x3ffff, 0, 0, 0, 0⟩ /- CU_STAB -/,
  ⟨0x144, 0, 1, 0x88fe, 0x3ffff, 0, 0, 0, 0⟩ /- CU_STAB -/,
  ⟨0x150, 0, 1, 0xa0032, 0xffffffff, 0, 0, 0, 0⟩ /- CU_DEC -/,
  ⟨0x154, 0, 1, 0x64, 0xffff, 0, 0, 0, 0⟩ /- CU_DECLAG -/,
  ⟨0x158, 0, 1, 0x5320003, 0xffff00ff, 0, 0, 0, 0⟩ /- CU_REV -/,
  ⟨0x15c, 0, 1, 0x3e8, 0xffff, 0, 0, 0, 0⟩ /- CU_RATED -/,
  ⟨0x160, 0, 1, 0x3e8, 0xffff, 0, 0, 0, 0⟩ /- CU_QRLIM -/,
  ⟨0x170, 0, 1, 0, 7, 0, 0, 0, 0⟩ /- CU_BOND -/,
  ⟨0x174, 0, 1, 0, 0, 0, 0, 0, 0⟩ /- CU_BSHARE -/,
  ⟨0x178, 0, 1, 0x813, 0xffff, 0, 0, 0, 0⟩ /- CU_BTOL -/,
  ⟨0x180, 0, 1, 0, 0, 0, 0, 0, 0⟩ /- CU_PSIA -/,
  ⟨0x184, 0, 1, 0, 0, 0, 0, 0, 0⟩ /- CU_PSIB -/,
  ⟨0x188, 0, 1, 0, 0, 0, 0, 0, 0⟩ /- CU_TEST -/,
  ⟨0x18c, 0, 1, 0, 0, 0, 0, 0, 0⟩ /- CU_IDC -/]
/-- The registers of the CU block, part 2. -/
def rowsCU_2 : List RegRow := [
  ⟨0x190, 0, 1, 0x4000000, 0, 0x2000020, 0, 0xffff00, 0⟩ /- CU_DTCSTAT -/,
  ⟨0x194, 0, 1, 0, 0, 0, 0, 0, 0⟩ /- CU_DECREF -/]
/-- The registers of the CU block. -/
def rowsCU : List RegRow := rowsCU_0 ++ rowsCU_1 ++ rowsCU_2

/-- The registers of the LE block. -/
def rowsLE : List RegRow := [
  ⟨0, 0, 1, 0, 1, 0, 0, 0, 0⟩ /- LE_CTL -/,
  ⟨4, 0, 1, 0, 0, 0x8000, 0, 0, 0⟩ /- LE_STAT -/,
  ⟨8, 0, 1, 0x7d0, 0xffff, 0, 0, 0, 0⟩ /- LE_FRAME -/,
  ⟨0xc, 0, 1, 0, 0xffff, 0, 0, 0, 0⟩ /- LE_FOFS -/,
  ⟨0x10, 0, 1, 0, 0, 0, 0, 0, 1⟩ /- LE_SCHCMT -/,
  ⟨0x14, 0, 1, 0, 0, 0, 0, 0, 0xffffff⟩ /- LE_COMMIT -/,
  ⟨0x18, 0, 1, 0, 0, 0, 0, 0, 0⟩ /- LE_BANK -/,
  ⟨0x1c, 0, 1, 0x271000, 0xffff1f, 0, 0, 0, 0x80000000⟩ /- LE_PROOF -/,
  ⟨0x20, 0, 1, 0, 0, 0, 0, 0, 0⟩ /- LE_PROOFRES -/,
  ⟨0x24, 0, 1, 0xffffffff, 0xffffffff, 0, 0, 0, 0⟩ /- LE_PDIFF -/,
  ⟨0x28, 0, 1, 0, 0, 0, 0, 0, 0⟩ /- LE_PROVED -/,
  ⟨0x30, 0, 1, 0xffffffff, 0xffffffff, 0, 0, 0, 0⟩ /- LE_PLOWN0 -/,
  ⟨0x34, 0, 1, 0xffffffff, 0xffffffff, 0, 0, 0, 0⟩ /- LE_PLOWN1 -/,
  ⟨0x40, 4, 6, 0xffffffff, 0xffffffff, 0, 0, 0, 0⟩ /- LE_RECOWN -/,
  ⟨0x60, 0, 1, 0x800c8, 0xff0fff, 0, 0, 0, 0⟩ /- LE_BOND -/,
  ⟨0x70, 0, 1, 0, 0, 0xf, 0, 0, 0⟩ /- LE_EVT -/,
  ⟨0x100, 0x20, 0x18, 1, 1, 0, 0, 0, 0x200⟩ /- LE_LCTL -/,
  ⟨0x104, 0x20, 0x18, 0, 0, 0x40f00, 0, 0xff000000, 0⟩ /- LE_LSTAT -/,
  ⟨0x108, 0x20, 0x18, 0, 0xffffffff, 0, 0, 0, 0⟩ /- LE_MAN0 -/,
  ⟨0x10c, 0x20, 0x18, 0, 0xffffffff, 0, 0, 0, 0⟩ /- LE_MAN1 -/,
  ⟨0x110, 0x20, 0x18, 0, 0xffffffff, 0, 0, 0, 0⟩ /- LE_REF0 -/,
  ⟨0x114, 0x20, 0x18, 0, 0xffffffff, 0, 0, 0, 0⟩ /- LE_REF1 -/,
  ⟨0x118, 0x20, 0x18, 0, 0, 0, 0, 0, 0⟩ /- LE_OUTTS -/,
  ⟨0x11c, 0x20, 0x18, 0, 0, 0, 0, 0xffff0000, 0⟩ /- LE_LAT -/]

/-- The registers of the PSE block. -/
def rowsPSE : List RegRow := [
  ⟨0, 0, 1, 1, 0, 0, 0, 0, 0⟩ /- PSE_STAT -/,
  ⟨4, 0, 1, 0, 0, 0, 0, 0, 0⟩ /- PSE_VLINK -/,
  ⟨8, 0, 1, 0, 0, 0, 0, 0, 0⟩ /- PSE_VIN -/,
  ⟨0xc, 0, 1, 0, 0, 0, 0, 0, 0⟩ /- PSE_IIN -/,
  ⟨0x10, 0, 1, 0, 0, 0, 0, 0, 0⟩ /- PSE_LOGIC -/,
  ⟨0x14, 0, 1, 0, 0, 0, 0, 0, 0⟩ /- PSE_TBASE -/,
  ⟨0x18, 0, 1, 0x3e802710, 0, 0, 0, 0, 0⟩ /- PSE_PLIM -/,
  ⟨0x1c, 0, 1, 0x64647530, 0, 0, 0, 0, 0⟩ /- PSE_CREDIT -/,
  ⟨0x20, 0, 1, 4, 7, 0, 0, 0, 0⟩ /- PSE_CFG -/,
  ⟨0x24, 0, 1, 0, 0xffff, 0, 0, 0, 0⟩ /- PSE_PUSER -/,
  ⟨0x28, 0, 1, 0x16a815e0, 0xffffffff, 0, 0, 0, 0⟩ /- PSE_VTHR0 -/,
  ⟨0x2c, 0, 1, 0x1770170c, 0xffffffff, 0, 0, 0, 0⟩ /- PSE_VTHR1 -/,
  ⟨0x30, 0, 1, 0x64000000, 0, 0, 0, 0, 0⟩ /- PSE_RIPPLE -/,
  ⟨0x34, 0, 1, 0x6400ffff, 0, 0, 0, 0, 0⟩ /- PSE_CLAMP -/,
  ⟨0x38, 0, 1, 0, 0, 0, 0, 0, 0⟩ /- PSE_SEG -/,
  ⟨0x3c, 0, 1, 0, 0, 0xfff, 0, 0, 0⟩ /- PSE_EVT -/,
  ⟨0x40, 0, 1, 0, 0, 0, 0, 0, 0xffff⟩ /- PSE_SEGRC -/,
  ⟨0x100, 4, 8, 0x33333333, 0x77777777, 0, 0, 0, 0⟩ /- PSE_AXPRIO -/,
  ⟨0x200, 4, 0x40, 0xffff0000, 0xffffffff, 0, 0, 0, 0⟩ /- PSE_AXLIM -/,
  ⟨0x300, 4, 0x40, 0x6400, 0, 0, 0, 0, 0⟩ /- PSE_AXCEIL -/]

/-- The registers of the AUX block. -/
def rowsAUX : List RegRow := [
  ⟨0, 0, 1, 0, 0xffff, 0, 0, 0, 0⟩ /- AUX_OUT -/,
  ⟨4, 0, 1, 0, 0xffff, 0, 0, 0, 0⟩ /- AUX_TMASK -/,
  ⟨0x10, 4, 4, 0x6400ff, 0xffff00ff, 0, 0, 0, 0⟩ /- AUX_GCFG -/,
  ⟨0x20, 0, 1, 0, 0, 0, 0, 0, 0⟩ /- AUX_GSTAT -/,
  ⟨0x24, 0, 1, 0, 0, 0, 0, 0, 0⟩ /- AUX_OLOAD -/,
  ⟨0x28, 0, 1, 0, 0, 0, 0, 0, 0xf⟩ /- AUX_TRIPCLR -/,
  ⟨0x40, 0, 1, 0xa, 0x1ff, 0, 0, 0, 0⟩ /- GSP_CFG -/,
  ⟨0x44, 0, 1, 0, 0, 0, 0, 0, 0⟩ /- GSP_PERIOD -/,
  ⟨0x60, 0, 1, 0, 0, 4, 0, 0, 0⟩ /- FLT_STAT -/]

/-- The registers of the CSL block. -/
def rowsCSL : List RegRow := [
  ⟨0, 0x20, 0x10, 0, 0, 0, 0, 0, 0⟩ /- CSL_STAT -/,
  ⟨4, 0x20, 0x10, 0, 0, 0, 0, 0, 0⟩ /- CSL_PORT -/,
  ⟨8, 0x20, 0x10, 0, 0, 0, 0, 0, 0⟩ /- CSL_NTC -/,
  ⟨0x400, 0, 1, 0, 0, 0, 0, 0, 0x8000000f⟩ /- CSL_REL -/,
  ⟨0x404, 0, 1, 0xa, 0xff, 0, 0, 0, 0⟩ /- CSL_RTO -/,
  ⟨0x408, 0, 1, 0, 0, 0x100, 0, 0, 0⟩ /- CSL_PANEL -/]

/-- The registers of the SCUG block, part 0. -/
def rowsSCUG_0 : List RegRow := [
  ⟨0, 0, 1, 0, 0, 0xffff, 0, 0, 0⟩ /- SCU_EVT -/,
  ⟨0x100, 0, 1, 0, 0x107, 0, 0, 0, 0xc0000000⟩ /- SCU_SCTL -/,
  ⟨0x180, 0, 1, 0, 0x107, 0, 0, 0, 0xc0000000⟩ /- SCU_SCTL -/,
  ⟨0x200, 0, 1, 0, 0x107, 0, 0, 0, 0xc0000000⟩ /- SCU_SCTL -/,
  ⟨0x280, 0, 1, 0, 0x107, 0, 0, 0, 0xc0000000⟩ /- SCU_SCTL -/,
  ⟨0x104, 0, 1, 0, 0x7371f, 0, 0, 0, 0⟩ /- SCU_STGT -/,
  ⟨0x184, 0, 1, 0, 0x7371f, 0, 0, 0, 0⟩ /- SCU_STGT -/,
  ⟨0x204, 0, 1, 0, 0x7371f, 0, 0, 0, 0⟩ /- SCU_STGT -/,
  ⟨0x284, 0, 1, 0, 0x7371f, 0, 0, 0, 0⟩ /- SCU_STGT -/,
  ⟨0x108, 0, 1, 0x1e000001, 0xfe7fffff, 0, 0, 0, 0⟩ /- SCU_SSIG -/,
  ⟨0x188, 0, 1, 0x1e000001, 0xfe7fffff, 0, 0, 0, 0⟩ /- SCU_SSIG -/,
  ⟨0x208, 0, 1, 0x1e000001, 0xfe7fffff, 0, 0, 0, 0⟩ /- SCU_SSIG -/,
  ⟨0x288, 0, 1, 0x1e000001, 0xfe7fffff, 0, 0, 0, 0⟩ /- SCU_SSIG -/,
  ⟨0x10c, 0, 1, 0, 0xffffffff, 0, 0, 0, 0⟩ /- SCU_SAMP -/,
  ⟨0x18c, 0, 1, 0, 0xffffffff, 0, 0, 0, 0⟩ /- SCU_SAMP -/,
  ⟨0x20c, 0, 1, 0, 0xffffffff, 0, 0, 0, 0⟩ /- SCU_SAMP -/,
  ⟨0x28c, 0, 1, 0, 0xffffffff, 0, 0, 0, 0⟩ /- SCU_SAMP -/,
  ⟨0x110, 0, 1, 0, 0xffffffff, 0, 0, 0, 0⟩ /- SCU_SBIAS -/,
  ⟨0x190, 0, 1, 0, 0xffffffff, 0, 0, 0, 0⟩ /- SCU_SBIAS -/,
  ⟨0x210, 0, 1, 0, 0xffffffff, 0, 0, 0, 0⟩ /- SCU_SBIAS -/,
  ⟨0x290, 0, 1, 0, 0xffffffff, 0, 0, 0, 0⟩ /- SCU_SBIAS -/,
  ⟨0x114, 0, 1, 0, 0xffffffff, 0, 0, 0, 0⟩ /- SCU_SPINC0 -/,
  ⟨0x194, 0, 1, 0, 0xffffffff, 0, 0, 0, 0⟩ /- SCU_SPINC0 -/,
  ⟨0x214, 0, 1, 0, 0xffffffff, 0, 0, 0, 0⟩ /- SCU_SPINC0 -/,
  ⟨0x294, 0, 1, 0, 0xffffffff, 0, 0, 0, 0⟩ /- SCU_SPINC0 -/,
  ⟨0x118, 0, 1, 0, 0xffffffff, 0, 0, 0, 0⟩ /- SCU_SPINC1 -/,
  ⟨0x198, 0, 1, 0, 0xffffffff, 0, 0, 0, 0⟩ /- SCU_SPINC1 -/,
  ⟨0x218, 0, 1, 0, 0xffffffff, 0, 0, 0, 0⟩ /- SCU_SPINC1 -/,
  ⟨0x298, 0, 1, 0, 0xffffffff, 0, 0, 0, 0⟩ /- SCU_SPINC1 -/,
  ⟨0x11c, 0, 1, 0, 0xffffffff, 0, 0, 0, 0⟩ /- SCU_SLEN -/]
/-- The registers of the SCUG block, part 1. -/
def rowsSCUG_1 : List RegRow := [
  ⟨0x19c, 0, 1, 0, 0xffffffff, 0, 0, 0, 0⟩ /- SCU_SLEN -/,
  ⟨0x21c, 0, 1, 0, 0xffffffff, 0, 0, 0, 0⟩ /- SCU_SLEN -/,
  ⟨0x29c, 0, 1, 0, 0xffffffff, 0, 0, 0, 0⟩ /- SCU_SLEN -/,
  ⟨0x120, 0, 1, 0xc8, 0x3ffff, 0, 0, 0, 0⟩ /- SCU_SCLK -/,
  ⟨0x1a0, 0, 1, 0xc8, 0x3ffff, 0, 0, 0, 0⟩ /- SCU_SCLK -/,
  ⟨0x220, 0, 1, 0xc8, 0x3ffff, 0, 0, 0, 0⟩ /- SCU_SCLK -/,
  ⟨0x2a0, 0, 1, 0xc8, 0x3ffff, 0, 0, 0, 0⟩ /- SCU_SCLK -/,
  ⟨0x124, 4, 4, 0, 0xffffffff, 0, 0, 0, 0⟩ /- SCU_CSRC -/,
  ⟨0x1a4, 4, 4, 0, 0xffffffff, 0, 0, 0, 0⟩ /- SCU_CSRC -/,
  ⟨0x224, 4, 4, 0, 0xffffffff, 0, 0, 0, 0⟩ /- SCU_CSRC -/,
  ⟨0x2a4, 4, 4, 0, 0xffffffff, 0, 0, 0, 0⟩ /- SCU_CSRC -/,
  ⟨0x134, 4, 4, 0x800, 0x80003f1f, 0, 0, 0, 0⟩ /- SCU_CCFG -/,
  ⟨0x1b4, 4, 4, 0x800, 0x80003f1f, 0, 0, 0, 0⟩ /- SCU_CCFG -/,
  ⟨0x234, 4, 4, 0x800, 0x80003f1f, 0, 0, 0, 0⟩ /- SCU_CCFG -/,
  ⟨0x2b4, 4, 4, 0x800, 0x80003f1f, 0, 0, 0, 0⟩ /- SCU_CCFG -/,
  ⟨0x144, 0, 1, 0x10000, 0xfff07ff, 0, 0, 0, 0⟩ /- SCU_CBUF -/,
  ⟨0x1c4, 0, 1, 0x10000, 0xfff07ff, 0, 0, 0, 0⟩ /- SCU_CBUF -/,
  ⟨0x244, 0, 1, 0x10000, 0xfff07ff, 0, 0, 0, 0⟩ /- SCU_CBUF -/,
  ⟨0x2c4, 0, 1, 0x10000, 0xfff07ff, 0, 0, 0, 0⟩ /- SCU_CBUF -/,
  ⟨0x148, 0, 1, 0, 0xffffff, 0, 0, 0, 0⟩ /- SCU_CNCAP -/,
  ⟨0x1c8, 0, 1, 0, 0xffffff, 0, 0, 0, 0⟩ /- SCU_CNCAP -/,
  ⟨0x248, 0, 1, 0, 0xffffff, 0, 0, 0, 0⟩ /- SCU_CNCAP -/,
  ⟨0x2c8, 0, 1, 0, 0xffffff, 0, 0, 0, 0⟩ /- SCU_CNCAP -/,
  ⟨0x14c, 0, 1, 0xfa0, 0x1fff, 0, 0, 0, 0⟩ /- SCU_CBW -/,
  ⟨0x1cc, 0, 1, 0xfa0, 0x1fff, 0, 0, 0, 0⟩ /- SCU_CBW -/,
  ⟨0x24c, 0, 1, 0xfa0, 0x1fff, 0, 0, 0, 0⟩ /- SCU_CBW -/,
  ⟨0x2cc, 0, 1, 0xfa0, 0x1fff, 0, 0, 0, 0⟩ /- SCU_CBW -/,
  ⟨0x150, 0, 1, 0, 0, 0, 0, 0, 0⟩ /- SCU_CWPTR -/,
  ⟨0x1d0, 0, 1, 0, 0, 0, 0, 0, 0⟩ /- SCU_CWPTR -/,
  ⟨0x250, 0, 1, 0, 0, 0, 0, 0, 0⟩ /- SCU_CWPTR -/]
/-- The registers of the SCUG block, part 2. -/
def rowsSCUG_2 : List RegRow := [
  ⟨0x2d0, 0, 1, 0, 0, 0, 0, 0, 0⟩ /- SCU_CWPTR -/,
  ⟨0x154, 0, 1, 0, 0, 0, 0, 0, 0⟩ /- SCU_SSTAT -/,
  ⟨0x1d4, 0, 1, 0, 0, 0, 0, 0, 0⟩ /- SCU_SSTAT -/,
  ⟨0x254, 0, 1, 0, 0, 0, 0, 0, 0⟩ /- SCU_SSTAT -/,
  ⟨0x2d4, 0, 1, 0, 0, 0, 0, 0, 0⟩ /- SCU_SSTAT -/,
  ⟨0x158, 0, 1, 0, 0, 0, 0, 0xffff, 0⟩ /- SCU_CDROP -/,
  ⟨0x1d8, 0, 1, 0, 0, 0, 0, 0xffff, 0⟩ /- SCU_CDROP -/,
  ⟨0x258, 0, 1, 0, 0, 0, 0, 0xffff, 0⟩ /- SCU_CDROP -/,
  ⟨0x2d8, 0, 1, 0, 0, 0, 0, 0xffff, 0⟩ /- SCU_CDROP -/]
/-- The registers of the SCUG block. -/
def rowsSCUG : List RegRow := rowsSCUG_0 ++ rowsSCUG_1 ++ rowsSCUG_2

/-- Every block of the memory map that holds registers (R25). The timebase control range stands before the PWM
blocks, since it cuts the end off axis 63's block (R5). -/
def blocks : List BlockRow := [
  ⟨0x40000000, 0, 1, 0x10000, rowsSYS⟩,
  ⟨0x40010000, 0, 1, 0x10000, rowsEVC⟩,
  ⟨0x40020000, 0, 1, 0x10000, rowsLSS⟩,
  ⟨0x40030000, 0, 1, 0x10000, rowsJNL⟩,
  ⟨0x40040000, 0, 1, 0x10000, rowsTRU⟩,
  ⟨0x40050000, 0, 1, 0x1000, rowsSP0⟩,
  ⟨0x40051000, 0, 1, 0x1000, rowsSP1⟩,
  ⟨0x40060000, 0, 1, 0x1000, rowsCAN⟩,
  ⟨0x40061000, 0x1000, 2, 0x1000, rowsCANPL⟩,
  ⟨0x40080000, 0, 1, 0x10000, rowsSWC⟩,
  ⟨0x40100000, 0x1000, 16, 0x1000, rowsAC⟩,
  ⟨0x4020ff00, 0, 1, 0x100, rowsPWMG⟩,
  ⟨0x40200000, 0x400, 64, 0x400, rowsPWM⟩,
  ⟨0x40300000, 0x800, 64, 0x800, rowsCU⟩,
  ⟨0x40400000, 0x10000, 8, 0x10000, rowsLE⟩,
  ⟨0x40500000, 0, 1, 0x10000, rowsPSE⟩,
  ⟨0x40510000, 0, 1, 0x10000, rowsAUX⟩,
  ⟨0x40520000, 0, 1, 0x10000, rowsCSL⟩,
  ⟨0x40600000, 0, 1, 0x10000, rowsSCUG⟩]

/-- The row of a block at an offset, if a register stands there. -/
def findRow : List RegRow → Nat → Option RegRow
  | [], _ => none
  | r :: rs, off =>
    if r.off ≤ off ∧ (off - r.off = 0 ∨ (r.stride ≠ 0 ∧ (off - r.off) % r.stride = 0 ∧ (off - r.off) / r.stride < r.count))
    then some r else findRow rs off

/-- Whether an address lies in an instance of a block. -/
def BlockRow.has (b : BlockRow) (addr : Nat) : Bool :=
  b.base ≤ addr &&
  (if b.stride = 0 then addr - b.base < b.size
   else (addr - b.base) / b.stride < b.count && (addr - b.base) % b.stride < b.size)

/-- The offset of an address within its instance of a block. -/
def BlockRow.offset (b : BlockRow) (addr : Nat) : Nat :=
  if b.stride = 0 then addr - b.base else (addr - b.base) % b.stride

/-- The block of an address, if the address lies in one. -/
def blockAt (addr : Nat) : Option BlockRow := blocks.find? (·.has addr)

/-- The register row of an address, if a register stands there. -/
def rowAt (addr : Nat) : Option RegRow := (blockAt addr).bind fun b => findRow b.rows (b.offset addr)

end Sys2Proof
end

