-- ==== Sys2Proof/Machine/Tab.lean ====
section
/-! DEFINITION. Sparse tables: a list of (key, value) pairs, keys strictly rising, with no entry equal to what an
unlisted key reads as. Registers, byte memory and every indexed group of hidden state are held this way, so that equal
contents are equal data. -/

namespace Sys2Proof

/-- A sparse table with natural-number keys. -/
abbrev Tab (α : Type) := List (Nat × α)

/-- The value at a key: the listed one, else what an unlisted key reads as. -/
def tget {α : Type} (dflt : α) : Tab α → Nat → α
  | [], _ => dflt
  | (k, v) :: t, i => if k = i then v else tget dflt t i

/-- The table without a key. -/
def tdel {α : Type} (t : Tab α) (i : Nat) : Tab α := t.filter fun e => e.1 ≠ i

/-- The table with a key at a listed value, in its place by the order of keys. -/
def tput {α : Type} : Tab α → Nat → α → Tab α
  | [], i, x => [(i, x)]
  | (k, v) :: t, i, x =>
    if i < k then (i, x) :: (k, v) :: t
    else if i = k then (i, x) :: t
    else (k, v) :: tput t i x

/-- Write a key. Writing the value an unlisted key reads as removes the entry. -/
def tset {α : Type} [DecidableEq α] (dflt : α) (t : Tab α) (i : Nat) (x : α) : Tab α :=
  if x = dflt then tdel t i else tput t i x

/-- Keys strictly rising, and no entry equal to its key's default. -/
def tabWf {α : Type} [DecidableEq α] (dflt : Nat → α) : Tab α → Bool
  | [] => true
  | [(k, v)] => v ≠ dflt k
  | (k, v) :: (k', v') :: t => (v ≠ dflt k) && (k < k') && tabWf dflt ((k', v') :: t)

end Sys2Proof
end

