-- ==== Sys2Proof/Machine/State.lean ====
section
/-! DEFINITION. The state of the block as plain data: every register, and the hidden state the rules imply, grouped by
chapter; the reasons a step can stop; the state right after a power-on reset. -/

namespace Sys2Proof.Machine

/-! ### Chapter 5: modes, resets, peal -/

/-- A running peal (R108 to R112). `voted`: the pairs that have voted. `tc`: the commit instant once every vote is in. -/
structure Peal where
  running : Bool := false
  mask : Nat := 0
  action : Nat := 0
  lead : Nat := 0
  goAt : Nat := 0
  voted : List Nat := []
  mixed : Nat := 0
  tc : Option Nat := none
  deriving DecidableEq, Repr

/-- Hidden state of the system-control block: the instant a pending change was requested (R98) and whether it is the
automatic change of R71, since when a mode that enters DORMANT by itself has lasted without LOGIC main (R102), the sources
latched during DORMANT entry (R103), whether the logic domain is on, whether the always-on domain has kept its record since
the logic domain went off (R81, R107), the slots accepted and the ports loaded when DORMANT was entered (R103), whether this
boot runs the full RAM test, whether its mount succeeded, whether configuration changes are refused after it (R105), and
whether a warm reset abandoned a release (R53). -/
structure SysH where
  pendSince : Option Nat := none
  autoSince : Option Nat := none
  wakeLatch : Nat := 0
  logicOn : Bool := true
  aon : Bool := false
  slots : Nat := 0
  motorPins : Nat := 0
  full : Bool := true
  jnlOk : Bool := true
  bootFault : Bool := false
  autoPend : Bool := false
  relDone : Bool := false
  deriving DecidableEq, Repr

/-! ### Chapter 6: PWM -/

/-- One half-bridge as the generator drives it (R116 to R120): the target before the last edge and after it (0 both
gates off, 1 low gate, 2 high gate), the instant of that edge, the instant the turn-on takes effect, and the counts the
phase has been high since the last DTC tick, reckoned up to `upd` (R187). -/
structure PhaseH where
  old : Nat := 0
  tgt : Nat := 0
  edge : Nat := 0
  onAt : Nat := 0
  acc : Nat := 0
  upd : Nat := 0
  deriving DecidableEq, Repr

/-- Hidden state of a PWM generator and its bridge: the instants from which armed loads take effect and the shadows captured
for one (R123), the shadows as they stood before the latest cycle that wrote one, the bridging period as start and length (R124),
the three half-bridges, the gate states the cartridge holds (bit 2x high gate of phase x, bit 2x+1 low gate; R16), the
phases due for a refresh and the refresh in progress (R121), the active trigger words (R128), the vector last delivered, the one before it and when (R127), whether the active PWM_CMPU still
serves as the DTC-duty compare (R197), the release sources still asserted at the cartridge (R131), and whether the
cartridge holds its gates until a re-arm frame (R16). -/
structure PwmH where
  armed : List Nat := []
  capt : Option (Nat × List Nat) := none
  wr : Option (Nat × List Nat) := none
  bridge : Option (Nat × Nat) := none
  phU : PhaseH := {}
  phV : PhaseH := {}
  phW : PhaseH := {}
  gates : Nat := 0
  refDue : Nat := 0
  refAt : Option (Nat × Nat) := none
  trig0 : Nat := 0x00140000
  trig1 : Nat := 0x00140000
  vecLast : Nat := 0
  vecPrev : Nat := 0
  vecAt : Nat := 0
  cmpuServes : Bool := false
  src : Nat := 0
  held : Bool := false
  deriving DecidableEq, Repr

/-- Hidden state of a cartridge link (R16): when the core last sent a gate frame and the cartridge last received a valid
one, the check failures of each direction within the last millisecond, and the fuse and temperature flags of the last
valid status frame. -/
structure LinkH where
  sentAt : Nat := 0
  validAt : Nat := 0
  badUp : List Nat := []
  badDown : List Nat := []
  fuse : Bool := false
  hot : Bool := false
  deriving DecidableEq, Repr

/-! ### Chapters 8 and 9: the commutation unit -/

/-- The class of a period's back-EMF sample (R162); `opened`: the class is not decided yet (R166). -/
inductive SampleClass where
  | valid | skipped | lost | opened
  deriving DecidableEq, Repr

/-- Why a phase test runs (R177). -/
inductive TestOrigin where
  | late | align
  deriving DecidableEq, Repr

/-- What a CATCH measured: θ at the end of the window in 2^-16 turns, its unwrapped change and the counts it took, and
the end of the window (R170). -/
structure CatchM where
  th : Nat := 0
  dth : Int := 0
  dt : Nat := 1
  at_ : Nat := 0
  deriving DecidableEq, Repr

/-- Hidden state of the six-step machine, start and catch (R158 to R182). Instants are full device times. `lastC`,
`nextC`: the last and the scheduled commutation; `nextS`: the step a Hall edge asks for. `counted`, `old`, `crossed`: of
the present step (R163, R164). `iv`: the last six intervals, each with whether it ends at a predicted crossing. `gaps`:
the gaps of the latest consecutive observed crossings, newest first; `seedG`: the largest of the three that seeded a run
of predictions (R168). `perT`, `perReq`, `cls`, `perW`: the present period's start, request instant, class and window
end, and `clsPrev`, `reqPrev` those of the period before (R161, R162, R166). `lowMask`, `lowBoth`: phases low in the
last and in the last two revolutions (R176). `bemfLow`: since when the back-EMF is below 0.5 V; `hotAt`: when it was last seen at 2 V or more; `restAt`: since
when the axis does not drive. -/
structure SixH where
  lastC : Nat := 0
  nextC : Option Nat := none
  nextS : Option Nat := none
  tZc : Nat := 0
  tExp : Option Nat := none
  counted : Bool := false
  old : Option (Nat × Nat) := none
  crossed : Bool := false
  iv : List (Nat × Bool) := []
  gaps : List Nat := []
  seedG : Option Nat := none
  lateEnd : Option Nat := none
  perT : Nat := 0
  perReq : Nat := 0
  perW : Nat := 0
  cls : SampleClass := .skipped
  clsPrev : SampleClass := .skipped
  test : Option TestOrigin := none
  alignEnd : Option Nat := none
  noCurSince : Option Nat := none
  rampAt : Nat := 0
  rampC : Nat := 0
  rampOld : Nat := 0
  rampOk : Nat := 0
  rampHit : Bool := false
  rampX : Option Nat := none
  catchAt : Nat := 0
  catchLen : Nat := 0
  catchExt : Nat := 0
  catchM : CatchM := {}
  charged : Bool := false
  joinAt : Option Nat := none
  recoverEnd : Option Nat := none
  hallAt : Nat := 0
  hallBad : Option Nat := none
  pkU : Nat := 0
  pkV : Nat := 0
  pkW : Nat := 0
  pkSteps : Nat := 0
  lowMask : Nat := 0
  lowBoth : Nat := 0
  bemfLow : Option Nat := none
  hotAt : Nat := 0
  restAt : Nat := 0
  fltAt : Option Nat := none
  deriving DecidableEq, Repr

/-- Hidden state of DTC, handover, deceleration, reversal and sharing (R186 to R210). Fluxes are in 2^-16 micro-webers,
signed 48-bit. `tickAt`, `hi`, `tSnap`, `cSnap`, `served`: the present tick's sampling instant, the counts U, V and W
were high (last taken at `hiAt`), the torque reference and the ceiling in force there, and whether its request was served. `trefAt`, `trefOld`,
`stab`: the cycle of the latest write of CU_TREF with the value before it, and of each CU_STAB (R191, R211). -/
structure DtcH where
  psiA : Int := 0
  psiB : Int := 0
  psiRef : Int := 0
  tHeld : Option Int := none
  tHist : List Int := []
  tickAt : Option Nat := none
  hiAt : Nat := 0
  hi : Nat × Nat × Nat := (0, 0, 0)
  tSnap : Int := 0
  cSnap : Nat := 0
  served : Bool := false
  trefAt : Option Nat := none
  trefOld : Int := 0
  stab : Tab (Nat × Nat) := []
  prevAt : Nat := 0
  prevIU : Int := 0
  prevIW : Int := 0
  tickAge : Nat := 0
  psiBad : Nat := 0
  noInt : Nat := 0
  hoAt : Nat := 0
  hoPass : Nat := 0
  hoSince : Nat := 255
  hoReady : Bool := false
  fromDtc : Bool := false
  decAt : Nat := 0
  vlimIn : Bool := false
  revOn : Bool := false
  revTries : Nat := 0
  revWaiting : Bool := false
  revLow : Option Nat := none
  revDir : Nat := 0
  shBad : Nat := 0
  deriving DecidableEq, Repr

/-! ### Chapter 13: events -/

/-- Ageing of a pending event (R290): the boundaries of device time counted up to the start of its ageing or to its
last step, the steps taken, the cycle of the latest raise, and the pairs that have taken it as an interrupt (R287). -/
structure EvH where
  base : Nat := 0
  steps : Nat := 0
  at_ : Nat := 0
  takenBy : List Nat := []
  deriving DecidableEq, Repr

/-! ### Chapter 14: lock-step and safety sequencer -/

/-- A failed pair the sequencer is to deal with (R303, R304): its number, whether its axes were released at the
failure, since when the wait of step 1 runs (none while it waits behind another re-host), and a destination already
written for it. -/
structure Rehost where
  pair : Nat
  released : Bool := true
  since : Option Nat := none
  dest : Option Nat := none
  deriving DecidableEq, Repr

/-- A migration (R307 to R309): mask still to switch, whole mask, destination, boundary instant, and whether it waits
for a running peal. -/
structure Migration where
  left : Nat
  dest : Nat
  lead : Nat
  tm : Nat
  waitPeal : Bool := false
  deriving DecidableEq, Repr

/-- Hidden state of the safety sequencer. `moves`: axes of a running re-host that still move at their period start, with
the destination. `restart`: the restart set with the recorded direction (R305).
`kAt`: the cycle of the last knell (R313). `dead`: pairs whose pair reset has
failed, which only a warm or power-on reset tries again (R306). -/
structure SsqH where
  queue : List Rehost := []
  moves : List (Nat × Nat) := []
  moving : Bool := false
  restart : List (Nat × Nat) := []
  pulseEnd : Option Nat := none
  mig : Option Migration := none
  kicks : Tab (Option Nat) := []
  resetEnd : List Nat := []
  dead : List Nat := []
  armedHalt : List Nat := []
  extLine : Bool := false
  xfail : Bool := false
  kAt : Option Nat := none
  deriving DecidableEq, Repr

/-! ### Chapter 15: journal -/

/-- A journal record (R318), with the log block and byte offset it stands at once appended. -/
structure JRec where
  seq : Nat := 0
  typ : Nat
  srck : Nat := 4
  pair : Nat := 15
  slot : Nat := 0xFF
  flags : Nat := 0
  txn : Nat := 0
  key : Nat := 0
  time : Nat := 0
  name : Nat := 0
  payload : List Nat := []
  block : Nat := 0
  off : Nat := 0
  deriving DecidableEq, Repr

/-- A queued submission: the staged record, its submitting pair (none: the controller itself), and whether an
uncorrectable error was found while it was staged (R28). -/
structure JSub where
  body : JRec
  from_ : Option Nat := none
  ecc : Bool := false
  deriving DecidableEq, Repr

/-! ### Chapter 7: conversion clusters -/

/-- A source of urgent requests of a position: trigger 0, trigger 1, or the commutation unit, for the floating phase in
six-step or for a DTC tick (R143). -/
inductive ReqSrc where
  | trig0 | trig1 | cu | tick
  deriving DecidableEq, Repr

/-- The rank and DROPINFO code of a request source (R145). -/
def ReqSrc.code : ReqSrc → Nat
  | .trig0 => 0 | .trig1 => 1 | .cu => 2 | .tick => 2

/-- An urgent request or announcement: position, source, request instant, and (for an announcement) when it was made. -/
structure UReq where
  pos : Nat
  src : ReqSrc
  tr : Nat
  annAt : Nat := 0
  deriving DecidableEq, Repr

/-- What a converter runs (R140): the latched entries of a pass and HKDIV, the passes since the latch of HKDIV, the next
housekeeping position, whether CTL was written since, the start of the pass and the entries of the pass before it. -/
structure ConvH where
  seq : List Nat := []
  hkd : Nat := 0
  pass : Nat := 0
  hk : Nat := 0
  ctlWr : Bool := true
  at_ : Nat := 0
  seqOld : List Nat := []
  busy : Nat := 0
  bad : Nat := 0
  good : Nat := 0
  deriving DecidableEq, Repr

/-- A half of a served urgent request whose frame is still to arrive: the channel, the request instant, the sampling
instant and whether the partner converts it (R143, R145, R155). -/
structure UrgH where
  ch : Nat := 0
  tr : Nat := 0
  ts : Nat := 0
  cover : Bool := false
  live : Bool := false
  deriving DecidableEq, Repr

/-- Hidden state of a conversion cluster: its two converters, the announced and issued requests (R144), the halves on
their way (key 8p + k), the drop window (R146), since when the reference buffer is on and the interval it was on before
(R147), the recalibration in progress (R155), the entries whose averaging output is not yet valid and the latest sample
of each converter per entry (R152, R153), the port identity halves: value and half number (R151), and the
trims written of late with the words before (R137). -/
structure ClusterH where
  a : ConvH := {}
  b : ConvH := {}
  ann : List UReq := []
  reqs : List UReq := []
  urg : Tab UrgH := []
  win : Nat := 0
  drops : Nat := 0
  dropRaised : Bool := false
  refAt : Option Nat := none
  refWas : Nat × Nat := (0, 0)
  calOfs : Int := 0
  calGain : Int := 0
  calSk : Int := 0
  calEnd : Nat := 0
  calConv : Nat := 0
  calSkew : Bool := false
  stale : List Nat := []
  streamA : Tab Int := []
  streamB : Tab Int := []
  idPos : Tab (Option (Int × Nat)) := []
  idNeg : Tab (Option (Int × Nat)) := []
  trims : List (Nat × Nat × Word) := []
  deriving DecidableEq, Repr

/-! ### Chapter 15: the journal controller -/

/-- Hidden state of the journal controller: the queue of submissions (R320), the records standing in the log with their
place (R318), head block and offset (0: no block open), tail block and next SEQ, the use count of each log block, the
block map, allocation counts and what an unsealed mount adds to all of them (R322, R326), blocks held read-only, the next
spare, blocks retired (R327, R328), the newest metadata copy, its SEQ, copies with a read-only block, allocations since it
was written, the quota and CONSERVE windows (R328, R330), 1 in CONSERVE and 2 in READONLY, the image being written as slot
and address (R331), the state of each image slot, the records a running compaction still has to copy (R325), whether the
last append was such a copy, and whether sealing has begun (R321). -/
structure JnlH where
  queue : List JSub := []
  log : List JRec := []
  headBlk : Nat := 0
  headOff : Nat := 0
  tailBlk : Nat := 0
  nextSeq : Nat := 0
  useCnt : Tab Nat := []
  map : Tab Nat := []
  wear : Tab Nat := []
  wearBase : Nat := 0
  ro : List Nat := []
  nextSpare : Nat := 3840
  retired : Nat := 0
  metaNew : Nat := 0
  metaSeq : Nat := 0
  metaBad : List Nat := []
  allocs : Nat := 0
  quota : Tab (Nat × Nat) := []
  consWin : Nat := 0
  consCnt : Nat := 0
  worn : Nat := 0
  img : Option (Nat × Nat) := none
  imgSt : Tab Nat := []
  copies : List JRec := []
  compacting : Bool := false
  lastCopy : Bool := false
  sealing : Bool := false
  deriving DecidableEq, Repr

/-! ### Chapters 10 and 11: loop engines, strike and capture -/

/-- A running proof (R236): the loop, the runs asked for and done, whether its state has been set, the cause of its
failure if it has failed, its counts of R230, and its class and region. -/
structure ProofH where
  loop : Nat
  n : Nat
  done : Nat := 0
  started : Bool := false
  cause : Nat := 0
  implCnt : List Nat := [0, 0, 0, 0]
  cls : Nat := 0
  reg : Nat := 0
  deriving DecidableEq, Repr

/-- Hidden state of a loop engine: the frame settings in force (R222), the start and number of the present frame, a
schedule commit waiting for the next frame start and loops waiting for their next run (R237), the loops a peal commits
and from when (R111), the running proof, the frame in which LE_SAT was last raised, and the drives whose sharing trims
await the reserved cycles (R234). -/
structure EngineH where
  len : Nat := 2000
  ofs : Nat := 0
  frameAt : Nat := 0
  frameNo : Nat := 0
  schPend : Bool := false
  commits : Nat := 0
  pealMask : Nat := 0
  pealAt : Nat := 0
  proof : Option ProofH := none
  satFrame : Option Nat := none
  shares : List Nat := []
  deriving DecidableEq, Repr

/-- What a loop's next preset takes as the previous outputs (R227, R228): nothing to preset, the last delivered ones, or
a value for an output sent to the PWM compares and one for an output sent to CU_TREF (none: as left). -/
inductive Preset where
  | none_ | last | values (pwm : Int) (tref : Option Int)
  deriving DecidableEq, Repr

/-- Hidden state of a loop: a reference commit, its instant and values, waiting for the next run, the references in force,
and the staged ones as they stood before the latest cycle that wrote one (R216, R239); whether the axis was active at the
last run, the preset due, the consecutive counts of R230 and R231 with their findings, whether the loop delivered in its
last scheduled run (R215), a memory error (R233) or a finding (R232) that stops it, the mode of the last run (R229), the scheduling variable of the last run, the last value delivered to each destination (R228),
and the instant of the last run with the strike values injected into it as point, index and value (R244, R246). -/
structure LoopH where
  refGo : Option (Nat × List Int) := none
  refs : List Int := [0, 0]
  refWr : Option (Nat × List Int) := none
  wasActive : Bool := false
  preset : Preset := .none_
  implCnt : List Nat := [0, 0, 0, 0]
  invCnt : List Nat := [0, 0, 0, 0]
  impl : Nat := 0
  inval : Bool := false
  delivered : Bool := false
  memStop : Bool := false
  stop : Bool := false
  auto : Bool := true
  sv : Int := 0
  last : Tab Int := []
  ranAt : Option Nat := none
  inj : List (Nat × Nat × Int) := []
  deriving DecidableEq, Repr

/-- An open compressed block of a capture channel (R248, R249): its samples so far, and the channel's block count. -/
structure ChanH where
  open_ : List Int := []
  count : Nat := 0
  deriving DecidableEq, Repr

/-- Hidden state of a strike/capture session (R242 to R252): the instant of GO, the clocks so far, whether the strike and
the capture still run, the generators, the open blocks, the bandwidth window, the clocks dropped since the last segment,
the nominal period of the open segment (0: none), the clocks captured, the last clock, and the instant it became DONE. -/
structure SessH where
  go : Nat := 0
  clocks : Nat := 0
  strikeOn : Bool := false
  capOn : Bool := false
  phase : Nat := 0
  lfsr : Nat := 1
  bitLeft : Nat := 0
  chans : Tab ChanH := []
  win : Nat := 0
  taken : Nat := 0
  dropRaised : Bool := false
  dropped : Nat := 0
  period : Nat := 0
  captured : Nat := 0
  clkAt : Option Nat := none
  doneAt : Option Nat := none
  deriving DecidableEq, Repr

/-! ### Chapter 12: the processor pairs -/

/-- What a pair waits in: nothing, WEV with its destination register and deadline (R267), PEAL with W = 1 (R268), or a
load of a line of the execute-in-place window (R350). -/
inductive Waiting where
  | none_
  | wev (rd : Nat) (deadline : Option Nat)
  | peal (rd : Nat)
  | line (rd size : Nat) (signed : Bool) (addr : Nat)
  deriving DecidableEq, Repr

/-- The architectural state of a processor pair (R255 to R273): general registers g1 to g31 that are not 0,
accumulators ac0 to ac3, control words that differ from their reset value, the PC, the instructions retired and the
latch of RETHI, what it waits in, the result of a peal it waited for, whether it is halted for debug, whether it has been
started, and whether its present access or instruction has taken an exception. -/
structure PairH where
  g : Tab Word := []
  ac : Tab (BitVec 64) := []
  cw : Tab Word := []
  pc : Word := 0
  retired : Nat := 0
  retHi : Word := 0
  wait : Waiting := .none_
  pealRes : Nat := 0
  halted : Bool := false
  started : Bool := false
  took : Bool := false
  deriving DecidableEq, Repr

/-! ### Chapter 2: ports, slots, panel, auxiliary outputs -/

/-- How far an acceptance has come (R50): presence made, checking, waiting for the link (R104), precharging, precharged. -/
inductive AcceptStage where
  | idle | presence | checking | waitLink | precharge | ready
  deriving DecidableEq, Repr

/-- Hidden state of a cartridge slot: the identity memory of the cartridge in it, the stage of an acceptance, a precharge
requested after acceptance (R53, R58), when presence made, a release began, the quad became safe and the lock opened,
whether the slot waits for its acceptance after a boot (R104), and when a release request was last refused (R48, R53). -/
structure SlotH where
  ident : Option Ident := none
  stage : AcceptStage := .idle
  reclose : Bool := false
  presAt : Nat := 0
  relAt : Nat := 0
  safeAt : Nat := 0
  openAt : Nat := 0
  boot : Bool := false
  refusedAt : Option Nat := none
  deriving DecidableEq, Repr

/-- What a decoding of a port found (R33): a code 0 to 14, SHORT (15) or no valid band (16). -/
abbrev Decoded := Nat

/-- What PROBE has found on one bridge (R37): still measuring since an instant, pulses under way (the end of the
measurement and the results so far), passed, a missing phase by its code, or failed. -/
inductive ProbeH where
  | none_
  | measuring (since : Nat)
  | pulses (from_ : Nat) (done : List Bool)
  | passed (at_ : Nat)
  | missing (phase at_ : Nat)
  deriving DecidableEq, Repr

/-- Hidden state of a motor port: the last decoding, how many in a row agree, the one accepted (R34), agreeing NO_MOTOR
decodings since the axis entered FAULT (R39), the energised time of the bridge not yet counted as an hour and since when it
is energised (R338), whether PROBE is due and what it found, since when the Hall supply is off,
and what a standing restart needs: when the axis left with MISSING_PHASE of phase ALL, its code then and the client that
held it (R339). -/
structure PortH where
  last : Decoded := 0
  agree : Nat := 0
  accepted : Decoded := 0
  noMotor : Nat := 0
  enCnt : Nat := 0
  enAt : Option Nat := none
  probeDue : Bool := false
  probe : ProbeH := .none_
  hallOff : Option Nat := none
  stand : Option (Nat × Nat × Option Nat) := none
  standOk : Bool := false
  deriving DecidableEq, Repr

/-- The operator panel: the instant of the last key press. -/
structure PanelH where
  keyAt : Option Nat := none
  deriving DecidableEq, Repr

/-- Hidden state of the auxiliary outputs: those on, when each turned on, those past their pull-in time, the instant the
last output of each group turned off, the start of a running diagnostic and the end of the last one per group, and until
when AUX_TMASK still governs after TRANSPORT (R101). -/
structure AuxH where
  on : Nat := 0
  since : Tab Nat := []
  hold : Nat := 0
  offAt : Tab (Option Nat) := []
  diag : Tab (Option Nat) := []
  diagEnd : Tab Nat := []
  maskUntil : Option Nat := none
  deriving DecidableEq, Repr

/-- The instruction in force on the test access port (R47). -/
inductive JtagIr where
  | idcode | bypass | sample | extest
  deriving DecidableEq, Repr

/-- The test access port: the instruction, the word its data register holds, and the preloaded boundary word. -/
structure JtagH where
  ir : JtagIr := .idcode
  dr : Nat := 0x06448D63
  preload : Nat := 0
  driving : Bool := false
  deriving DecidableEq, Repr

/-! ### Chapter 3: supplies -/

/-- Hidden state of a DC input: since when it precharges, when it retries, and whether it blocks reverse current. -/
structure InputH where
  preAt : Option Nat := none
  retryAt : Option Nat := none
  block : Bool := false
  deriving DecidableEq, Repr

/-- Hidden state of the PSE. The power credit is what remains, in 10 µJ; the others are held as the part used: input currents in 10⁻⁷ A·s, CLAMP in
10⁻⁵ A²s, and each drive's peak credit in 10⁻⁹ A²s (R69, R71, R72, R74). `faulted`: the axes a link condition faulted
(R66). `sent`: the ceiling of the latest arbitration each unit has not yet taken up (R74). -/
structure PseH where
  powLeft : Nat := 3000000000
  aUsed : Nat := 0
  bUsed : Nat := 0
  clampUsed : Nat := 0
  pkUsed : Tab Nat := []
  faulted : Nat := 0
  sent : Tab (Option Nat) := []
  ripAvg : Nat := 0
  budgetAt : Option Nat := none
  holdAt : Nat := 0
  deriving DecidableEq, Repr

/-! ### Chapter 4: the time/reference unit -/

/-- Hidden state of the TRU: the latches of TRU_NOW_HI and TRU_SITS_HI per reader (R82: pairs 0 to 4, engines 5 to 12,
debug 13), the last SYNC IN edge, consecutive intervals inside and outside the window of SYNC IN and valid pairs of the
private link, the last valid pair, the SYNC of each link that waits for its FOLLOW_UP as node, counter and start of frame
with the pair used last, as master the counter, the SYNC sent on each link and the last FOLLOW_UP, the phase error of each
external reference in 10⁻⁹ counts at an instant, since when the lock conditions hold, a PLL outage in progress, SYNC OUT's settings in force, when they were
last changed and its last edge (R91). -/
structure TruH where
  nowHi : Tab Word := []
  sitsHi : Tab Word := []
  sits : Nat := 0
  siEdge : Option Nat := none
  siGood : Nat := 0
  siBad : Nat := 0
  plGood : Nat := 0
  plAt : Option Nat := none
  sync : Tab (Option (Nat × Nat × Nat)) := []
  plLast : Option (Nat × Nat) := none
  txSeq : Nat := 0
  txSync : Tab (Option Nat) := []
  sent : Tab (Option (Nat × Nat)) := []
  siE9 : Int := 0
  siEAt : Nat := 0
  plE9 : Int := 0
  plEAt : Nat := 0
  lockSince : Option Nat := none
  outage : Bool := false
  soMode : Nat := 0
  soOfs : Nat := 0
  soChg : Nat := 0
  soEdge : Option Nat := none
  deriving DecidableEq, Repr


/-! ### Chapter 16: serial ports and the shared window -/

/-- A queue entry of SP0 (R346): buffer, device address, length, the IRQ, WSIZE, CONT, CS and FD fields, and how many of its
data bytes have been moved. `cut`: a flush ends it after the present word (R349). -/
structure QEntry where
  buf : Nat
  addr : Nat
  len : Nat
  irq : Bool
  wsize : Nat
  cont : Bool
  cs : Nat
  fd : Nat
  done : Nat := 0
  cut : Bool := false
  deriving DecidableEq, Repr

/-- Hidden state of SP0: the queue, its head running or not (R346 to R349), the count and SP0_QBUF and SP0_QADDR as they
stood at the start of a cycle, the buffered lines oldest first (R350), whether the running line read is discarded (R363),
the bytes the last frame sent, the owner's loss (R359), and whether a separation waits for both ports to be idle (R357). -/
structure Sp0H where
  queue : List QEntry := []
  run : Bool := false
  snap : Option (Nat × Nat × Nat × Nat) := none
  lines : List (Nat × List Nat) := []
  discard : Bool := false
  sent : List Nat := []
  ownLost : Bool := false
  parting : Bool := false
  deriving DecidableEq, Repr

/-- A received word of SP1: the word, whether it is the first of its transaction, and the bits of a partial one. -/
structure RxWord where
  word : Nat
  first : Bool
  bits : Option Nat := none
  deriving DecidableEq, Repr

/-- Hidden state of SP1 (R353 to R356): the FIFOs, SP1_CFG as latched at the fall of CS_N, whether the next word is the
first of its transaction, whether a half-duplex host reads, and the TX word being sent (none: the busy pattern). -/
structure Sp1H where
  rx : List RxWord := []
  tx : List Nat := []
  cfg : Nat := 0x10018120
  first : Bool := false
  reads : Bool := false
  cur : Option Nat := none
  deriving DecidableEq, Repr

/-- The window protocol as the agent keeps it (R360 to R362): the expected SEQ, none before the first SYNC, the command
answered last as SEQ, STATUS, OP, OFS and NW, the response placed and the words the host read last; the segment words as
they stood before the latest cycle that changed one (R363), and the agent's loss (R359). -/
structure WinH where
  expect : Option Nat := none
  last : Option (Nat × Nat × Nat × Nat × Nat) := none
  resp : List Nat := []
  out : List Nat := []
  prev : Tab (Option (Nat × Word)) := []
  agentLost : Bool := false
  deriving DecidableEq, Repr


/-! ### Chapter 17: CAN controllers, ISOBUS, clients -/

/-- A received frame in a FIFO (R397): identifier, flags, the filter that matched, length code, data, timestamp. -/
structure RxFrame where
  id : Nat
  ide : Bool := false
  fdf : Bool := false
  brs : Bool := false
  esi : Bool := false
  flt : Nat := 0
  dlc : Nat := 0
  data : List Nat := []
  ts : Nat := 0
  deriving DecidableEq, Repr

/-- Hidden state of a transmit mailbox (R395, R396): when it was requested, the attempts made, whether an abort reached it
too late, and when it was last aborted. -/
structure MbH where
  reqAt : Nat := 0
  att : Nat := 0
  late : Bool := false
  abortAt : Option Nat := none
  deriving DecidableEq, Repr

/-- Hidden state of a CAN controller: the receive FIFO, the mailboxes, the owner's loss. -/
structure CanH where
  rx : List RxFrame := []
  mb : Tab MbH := []
  ownLost : Bool := false
  deriving DecidableEq, Repr

/-- The process-data commands (R378). -/
inductive PdCmd where
  | technicalCapabilities | deviceDescriptor | value | timeInterval | distanceInterval | minimum | maximum | change
  | acknowledge | negative
  deriving DecidableEq, Repr

/-- A process-data message the device sent: command, element, DDI and value (none: "not available"). -/
structure PdMsg where
  cmd : PdCmd
  elem : Nat := 0
  ddi : Nat := 0
  value : Option Int := none
  deriving DecidableEq, Repr

/-- A measurement trigger (R378): its kind, element, DDI, parameter, when it last fired and the value it sent then. -/
structure Trigger where
  kind : PdCmd
  elem : Nat
  ddi : Nat
  par : Int
  at_ : Nat := 0
  last : Int := 0
  deriving DecidableEq, Repr

/-- A message the device's firmware sent on ISOBUS: source address, PGN, destination and data bytes. -/
structure BusMsg where
  src : Nat
  pgn : Nat
  dst : Nat
  data : List Nat
  deriving DecidableEq, Repr

/-- A diagnostic trouble code in DM1 (R381): SPN, FMI, occurrence count. -/
structure Dtc1 where
  spn : Nat
  fmi : Nat
  oc : Nat := 0
  deriving DecidableEq, Repr

/-- What the bus firmware keeps: the address in use, the one last held and the one being claimed since an instant, the ones
lost since the procedure began, since when no address is left (R373); the NAME last claimed for each address; open transport
sessions (R375); bus speeds with their arrival, and the last selection (R376); the task controller's address, slot, last
status message and active triggers (R378); the last DM1 with its lamps and the occurrence counts (R380); present nodes
of the private links (key 32·link + node) with NAME and last HELLO, the last conflict and the HELLO sent of each link with
its instant (R382, R384); the elements of the DDOP uploaded (R378);
the last message and process-data message sent, and the element and DDI of the last acknowledgement received. -/
structure BusH where
  addr : Option Nat := none
  lastAddr : Option Nat := none
  cand : Nat := 168
  claimAt : Option Nat := none
  lost : List Nat := []
  retryAt : Option Nat := none
  names : Tab (Option Nat) := []
  tp : List Nat := []
  speed : Tab (Option (Int × Nat)) := []
  spdAt : Option Nat := none
  tcSrc : Option Nat := none
  tcSlot : Option Nat := none
  tcAt : Nat := 0
  task : Nat := 0
  trig : List Trigger := []
  dm1 : List Dtc1 := []
  lamps : Nat := 0
  dm1At : Option Nat := none
  occ : Tab Nat := []
  nodes : Tab (Option (Nat × Nat)) := []
  conflict : Tab (Option Nat) := []
  hello : Tab (Option (Nat × List Nat)) := []
  ddop : List Nat := []
  ackRx : Option (Nat × Nat) := none
  sent : Option BusMsg := none
  pd : Option PdMsg := none
  deriving DecidableEq, Repr

/-- A response to a control message (R387): OP + 0x80, SEQ, AXIS (0xFF for none), STATUS and VALUE. -/
structure Reply where
  op : Nat
  seq : Nat
  axis : Nat := 0xFF
  status : Nat := 0
  value : Nat := 0
  deriving DecidableEq, Repr

/-- A client slot (R385 to R388, R392): open, the client's NAME, its link (0 ISOBUS, 1 PL0, 2 PL1) and node, whether it is
the task controller, the heartbeat interval in ms and the last message with a valid CRC, the expected SEQ and the stored
response, loss, the token bucket in 5·10⁻⁹ tokens at an instant, the second of its first QUOTA refusal, the failures
counted. -/
structure ClientH where
  used : Bool := false
  name : Nat := 0
  link : Nat := 0
  node : Nat := 0
  tc : Bool := false
  beat : Nat := 1000
  heard : Nat := 0
  expect : Nat := 0
  resp : Option Reply := none
  loss : Bool := false
  tok : Nat := 0
  tokAt : Nat := 0
  quotaSec : Option Nat := none
  crcBad : Nat := 0
  seqBad : Nat := 0
  deriving DecidableEq, Repr


/-! ### The block -/

/-- Everything of the block but its byte memories and the queue of waiting commands. `now` is device time, which runs
while `timeOn` holds (R80, R81); `regs` holds every register that differs from its reset value, by address; `stamp`
holds the full sampling instant of each result register (R138); `claim` and `devClaim` the client slots that hold
each axis and the device claim (R29, R30), `policy` the loss-of-command policy of each axis and `holdEnd` the end of a hold
(R393), `capSlot` the slot a session runs for (R392), `reply` the last response, `pealFor` the slot whose PEAL message
awaits the end of the running peal, with its response to be (R390); `wrote` the cycle and the rank of the
latest writer of a register (R23); `rdata` the word the latest read command answered. -/
structure Dev where
  now : Nat := 0
  timeOn : Bool := false
  regs : Tab Word := []
  stamp : Tab (Option Nat) := []
  pwm : Tab PwmH := []
  link : Tab LinkH := []
  six : Tab SixH := []
  dtc : Tab DtcH := []
  bond : Tab Nat := []
  clu : Tab ClusterH := []
  evs : Tab EvH := []
  eng : Tab EngineH := []
  loops : Tab LoopH := []
  sess : Tab SessH := []
  pairs : Tab PairH := []
  sys : SysH := {}
  peal : Peal := {}
  ssq : SsqH := {}
  jnl : JnlH := {}
  slots : Tab SlotH := []
  ports : Tab PortH := []
  panel : PanelH := {}
  aux : AuxH := {}
  gspAt : Option Nat := none
  jtag : JtagH := {}
  inputs : Tab InputH := []
  pse : PseH := {}
  tru : TruH := {}
  sp0 : Sp0H := {}
  sp1 : Sp1H := {}
  win : WinH := {}
  can : Tab CanH := []
  bus : BusH := {}
  clients : Tab ClientH := []
  claim : Tab (Option Nat) := []
  devClaim : Option Nat := none
  policy : Tab (Nat × Nat) := []
  holdEnd : Tab (Option Nat) := []
  capSlot : Tab (Option Nat) := []
  reply : Option Reply := none
  pealFor : Option (Nat × Reply) := none
  wrote : Tab (Option (Nat × Nat)) := []
  rdata : Word := 0
  free : Nat := 0
  deriving DecidableEq, Repr

/-- The whole state: the block, its byte memories (pair-local RAM, shared SRAM, capture RAM, the store) and the queue
of waiting commands, first in, first out. -/
structure State where
  dev : Dev
  mem : List Host.Cell
  pending : List Instr
  deriving DecidableEq, Repr

/-- Why a step stops with a fault. -/
inductive Fault where
  /-- Raised by no meaning of this model: every command the spec describes takes a next state. Safe. -/
  | none_
  deriving DecidableEq, Repr

/-- Why a step refuses a command. -/
inductive Refusal where
  /-- Raised by an arm of exec whose command has no meaning yet, under its mnemonic. Safe: the machine stops where the
  hardware goes on. -/
  | notModelled (mnemonic : String)
  deriving DecidableEq, Repr

/-- The state right after a power-on reset: every register at its reset word (R12), no byte memory listed, no command
waiting. -/
def State.reset : State := { dev := {}, mem := [], pending := [] }

end Sys2Proof.Machine
end

