-- ==== Sys2Proof/Machine/Ops.lean ====
section
/-! DEFINITION. The named operations over registers, fields, masks and byte memory, and over the sparse tables of hidden
state. Every meaning reads and writes state through these. -/

namespace Sys2Proof.Machine
open Sys2Proof

/-- The outcome of a step. -/
abbrev Out := Host.Outcome State Fault Refusal

/-- A meaning of the always-on domain, or one that acts whatever domain runs: the byte memories and the queue stay. -/
def onAny (f : Dev → Dev) (s : State) : Out := .next { s with dev := f s.dev }

/-- A meaning that acts on the block alone: the byte memories and the queue stay. While the logic domain is off nothing
of it acts (chapter 1, R62, R102). -/
def onDev (f : Dev → Dev) (s : State) : Out := onAny (fun d => if d.sys.logicOn then f d else d) s

/-- Do `f` when `c` holds, else nothing: an event whose condition does not hold does not occur. -/
def Dev.when (c : Bool) (f : Dev → Dev) (d : Dev) : Dev := if c then f d else d

/-- The reset word of a register; an address without a register reads 0 (R8, R12). -/
def resetWord (addr : Nat) : Word :=
  match rowAt addr with
  | some r => w32 r.reset
  | none => 0

/-- The word a register holds. -/
def Dev.reg (d : Dev) (addr : Nat) : Word := tget (resetWord addr) d.regs addr

/-- The block with a register's word replaced. -/
def Dev.setReg (d : Dev) (addr : Nat) (w : Word) : Dev := { d with regs := tset (resetWord addr) d.regs addr w }

/-- The bits of a word a field covers. -/
def Fld.mask (f : Fld) : Word := w32 ((2 ^ f.width - 1) * 2 ^ f.lo)

/-- A field of a word. -/
def wordGet (w : Word) (lo width : Nat) : Nat := w.toNat / 2 ^ lo % 2 ^ width

/-- A word with a field replaced; the value is taken modulo the field's width. -/
def wordPut (w : Word) (lo width v : Nat) : Word :=
  w32 (w.toNat % 2 ^ lo + v % 2 ^ width * 2 ^ lo + w.toNat / 2 ^ (lo + width) * 2 ^ (lo + width))

/-- The value a field holds. -/
def Dev.get (d : Dev) (f : Fld) : Nat := wordGet (d.reg f.addr) f.lo f.width

/-- The block with a field replaced. -/
def Dev.put (d : Dev) (f : Fld) (v : Nat) : Dev := d.setReg f.addr (wordPut (d.reg f.addr) f.lo f.width v)

/-- Whether a field is not 0. -/
def Dev.on (d : Dev) (f : Fld) : Bool := d.get f ≠ 0

/-- A field as a two's-complement number. -/
def Dev.getS (d : Dev) (f : Fld) : Int :=
  let v := d.get f
  if v < 2 ^ (f.width - 1) then (v : Int) else (v : Int) - (2 : Int) ^ f.width

/-- Write a two's-complement number to a field, modulo its width. -/
def Dev.putI (d : Dev) (f : Fld) (v : Int) : Dev := d.put f (v % (2 : Int) ^ f.width).toNat

/-- Add to a counting field, holding at its maximum (R11). -/
def Dev.bump (d : Dev) (f : Fld) (n : Nat) : Dev := d.put f (min (2 ^ f.width - 1) (d.get f + n))

/-- Set bit `n` of a register. -/
def Dev.setBit (d : Dev) (addr n : Nat) : Dev := d.put ⟨addr, n, 1⟩ 1

/-- Clear bit `n` of a register. -/
def Dev.clrBit (d : Dev) (addr n : Nat) : Dev := d.put ⟨addr, n, 1⟩ 0

/-- Bit `n` of a register. -/
def Dev.bit (d : Dev) (addr n : Nat) : Bool := d.on ⟨addr, n, 1⟩

/-- A 64-bit mask held in a low and a high register. -/
def Dev.mask64 (d : Dev) (lo hi : Nat) : Nat := (d.reg lo).toNat + (d.reg hi).toNat * 2 ^ 32

/-- Write a 64-bit mask to a low and a high register. -/
def Dev.setMask64 (d : Dev) (lo hi m : Nat) : Dev := (d.setReg lo (w32 (m % 2 ^ 32))).setReg hi (w32 (m / 2 ^ 32))

/-- Set bit `n` of a 64-bit mask held in a low and a high register. -/
def Dev.setBit64 (d : Dev) (lo hi n : Nat) : Dev := if n < 32 then d.setBit lo n else d.setBit hi (n - 32)

/-- Clear bit `n` of a 64-bit mask held in a low and a high register. -/
def Dev.clrBit64 (d : Dev) (lo hi n : Nat) : Dev := if n < 32 then d.clrBit lo n else d.clrBit hi (n - 32)

/-- The members of a 64-bit mask, ascending. -/
def axesOf (m : Nat) : List Nat := (List.range 64).filter fun a => m.testBit a

/-- The mask of a list of axes. -/
def maskOf (l : List Nat) : Nat := l.foldl (fun m a => m ||| 2 ^ a) 0

/-- Apply an operation to each element of a list, first to last. -/
def Dev.each {α : Type} (d : Dev) (l : List α) (f : α → Dev → Dev) : Dev := l.foldl (fun d x => f x d) d

/-- Clamp a natural number between two bounds. -/
def clampN (lo hi v : Nat) : Nat := max lo (min hi v)

/-- Clamp an integer between two bounds. -/
def clampI (lo hi v : Int) : Int := max lo (min hi v)

/-! Sparse tables of hidden state. -/

/-- PWM generator `a`. -/
def Dev.pwmOf (d : Dev) (a : Nat) : PwmH := tget {} d.pwm a
/-- Replace hidden state of PWM generator `a`. -/
def Dev.onPwm (d : Dev) (a : Nat) (f : PwmH → PwmH) : Dev := { d with pwm := tset {} d.pwm a (f (d.pwmOf a)) }
/-- Six-step machine of axis `a`. -/
def Dev.sixOf (d : Dev) (a : Nat) : SixH := tget {} d.six a
/-- Replace hidden state of the six-step machine of axis `a`. -/
def Dev.onSix (d : Dev) (a : Nat) (f : SixH → SixH) : Dev := { d with six := tset {} d.six a (f (d.sixOf a)) }
/-- DTC machine of axis `a`. -/
def Dev.dtcOf (d : Dev) (a : Nat) : DtcH := tget {} d.dtc a
/-- Replace hidden state of the DTC machine of axis `a`. -/
def Dev.onDtc (d : Dev) (a : Nat) (f : DtcH → DtcH) : Dev := { d with dtc := tset {} d.dtc a (f (d.dtcOf a)) }
/-- Conversion cluster `q`. -/
def Dev.cluOf (d : Dev) (q : Nat) : ClusterH := tget {} d.clu q
/-- Replace hidden state of conversion cluster `q`. -/
def Dev.onClu (d : Dev) (q : Nat) (f : ClusterH → ClusterH) : Dev := { d with clu := tset {} d.clu q (f (d.cluOf q)) }
/-- Event `n`. -/
def Dev.evOf (d : Dev) (n : Nat) : EvH := tget {} d.evs n
/-- Replace hidden state of event `n`. -/
def Dev.onEv (d : Dev) (n : Nat) (f : EvH → EvH) : Dev := { d with evs := tset {} d.evs n (f (d.evOf n)) }
/-- Loop engine `e`. -/
def Dev.engOf (d : Dev) (e : Nat) : EngineH := tget {} d.eng e
/-- Replace hidden state of loop engine `e`. -/
def Dev.onEng (d : Dev) (e : Nat) (f : EngineH → EngineH) : Dev := { d with eng := tset {} d.eng e (f (d.engOf e)) }
/-- Loop `k` of engine `e`. -/
def Dev.loopOf (d : Dev) (e k : Nat) : LoopH := tget {} d.loops (24 * e + k)
/-- Replace hidden state of loop `k` of engine `e`. -/
def Dev.onLoop (d : Dev) (e k : Nat) (f : LoopH → LoopH) : Dev :=
  { d with loops := tset {} d.loops (24 * e + k) (f (d.loopOf e k)) }
/-- Session `s`. -/
def Dev.sessOf (d : Dev) (s : Nat) : SessH := tget {} d.sess s
/-- Replace hidden state of session `s`. -/
def Dev.onSess (d : Dev) (s : Nat) (f : SessH → SessH) : Dev := { d with sess := tset {} d.sess s (f (d.sessOf s)) }
/-- Pair `p`. -/
def Dev.pairOf (d : Dev) (p : Nat) : PairH := tget {} d.pairs p
/-- Replace the state of pair `p`. -/
def Dev.onPair (d : Dev) (p : Nat) (f : PairH → PairH) : Dev := { d with pairs := tset {} d.pairs p (f (d.pairOf p)) }
/-- The system-control block. -/
def Dev.onSys (d : Dev) (f : SysH → SysH) : Dev := { d with sys := f d.sys }
/-- The peal machine. -/
def Dev.onPeal (d : Dev) (f : Peal → Peal) : Dev := { d with peal := f d.peal }
/-- The safety sequencer. -/
def Dev.onSsq (d : Dev) (f : SsqH → SsqH) : Dev := { d with ssq := f d.ssq }
/-- The journal controller. -/
def Dev.onJnl (d : Dev) (f : JnlH → JnlH) : Dev := { d with jnl := f d.jnl }

/-- Cartridge slot `q`. -/
def Dev.slotOf (d : Dev) (q : Nat) : SlotH := tget {} d.slots q
/-- Replace hidden state of cartridge slot `q`. -/
def Dev.onSlot (d : Dev) (q : Nat) (f : SlotH → SlotH) : Dev := { d with slots := tset {} d.slots q (f (d.slotOf q)) }
/-- The port of axis `a`. -/
def Dev.portOf (d : Dev) (a : Nat) : PortH := tget {} d.ports a
/-- Replace hidden state of the port of axis `a`. -/
def Dev.onPort (d : Dev) (a : Nat) (f : PortH → PortH) : Dev := { d with ports := tset {} d.ports a (f (d.portOf a)) }
/-- DC input `x`: 0 DCA, 1 DCB. -/
def Dev.inputOf (d : Dev) (x : Nat) : InputH := tget {} d.inputs x
/-- Replace hidden state of DC input `x`. -/
def Dev.onInput (d : Dev) (x : Nat) (f : InputH → InputH) : Dev := { d with inputs := tset {} d.inputs x (f (d.inputOf x)) }
/-- The auxiliary outputs. -/
def Dev.onAux (d : Dev) (f : AuxH → AuxH) : Dev := { d with aux := f d.aux }
/-- The PSE. -/
def Dev.onPse (d : Dev) (f : PseH → PseH) : Dev := { d with pse := f d.pse }
/-- SP0. -/
def Dev.onSp0 (d : Dev) (f : Sp0H → Sp0H) : Dev := { d with sp0 := f d.sp0 }
/-- SP1. -/
def Dev.onSp1 (d : Dev) (f : Sp1H → Sp1H) : Dev := { d with sp1 := f d.sp1 }
/-- The window protocol and the shared-window controller. -/
def Dev.onWin (d : Dev) (f : WinH → WinH) : Dev := { d with win := f d.win }
/-- CAN controller `c`: 0 ISO, 1 PL0, 2 PL1. -/
def Dev.canOf (d : Dev) (c : Nat) : CanH := tget {} d.can c
/-- Replace hidden state of a CAN controller. -/
def Dev.onCan (d : Dev) (c : Nat) (f : CanH → CanH) : Dev := { d with can := tset {} d.can c (f (d.canOf c)) }
/-- The bus firmware. -/
def Dev.onBus (d : Dev) (f : BusH → BusH) : Dev := { d with bus := f d.bus }
/-- Client slot `s`. -/
def Dev.clientOf (d : Dev) (s : Nat) : ClientH := tget {} d.clients s
/-- Replace a client slot. -/
def Dev.onClient (d : Dev) (s : Nat) (f : ClientH → ClientH) : Dev :=
  { d with clients := tset {} d.clients s (f (d.clientOf s)) }
/-- The TRU. -/
def Dev.onTru (d : Dev) (f : TruH → TruH) : Dev := { d with tru := f d.tru }

/-- Take a free value: the running count advances, and the value is the opaque constant at it (DESIGN CHOICE, log 3). -/
def Dev.freeVal (d : Dev) : Nat × Dev := (d.free, { d with free := d.free + 1 })

/-! Byte memory: little-endian words over the list of cells (R7, R25). An unlisted byte reads 0 (DESIGN CHOICE, log 4). -/

/-- The byte at a key of the byte memories. -/
def memGet (m : List Host.Cell) (k : Nat) : Byte := tget 0 m k

/-- Write one byte. -/
def memSet (m : List Host.Cell) (k : Nat) (b : Byte) : List Host.Cell := tset 0 m k b

/-- Read `n` bytes from a key upwards as a little-endian number. -/
def memRead (m : List Host.Cell) : Nat → Nat → Nat
  | _, 0 => 0
  | k, n + 1 => (memGet m k).toNat + 256 * memRead m (k + 1) n

/-- Write `n` bytes of a number from a key upwards, lowest byte first. -/
def memWrite (m : List Host.Cell) : Nat → Nat → Nat → List Host.Cell
  | _, 0, _ => m
  | k, n + 1, v => memWrite (memSet m k (BitVec.ofNat 8 v)) (k + 1) n (v / 256)

/-- Write a list of bytes from a key upwards. -/
def memWriteBytes (m : List Host.Cell) : Nat → List Nat → List Host.Cell
  | _, [] => m
  | k, b :: bs => memWriteBytes (memSet m k (BitVec.ofNat 8 b)) (k + 1) bs

/-- The canonical form of byte memory: keys strictly rising, no byte 0 listed. -/
def memWf (m : List Host.Cell) : Bool := tabWf (fun _ => (0 : Byte)) m

end Sys2Proof.Machine
end

