-- ==== Sys2Proof/Machine/Flags.lean ====
section
/-! DEFINITION. Events: raising and pending (R284), effective priority (R290), and the flag registers of the source
blocks, which a raise sets beside the event (R113, R157, R314, R340). -/

namespace Sys2Proof.Machine
open Sys2Proof Reg

/-- The safety events: 993 HOLDUP and 896 to 903 (R288). -/
def safetyEvent (n : Nat) : Bool := n = 993 || (896 ≤ n && n ≤ 903)

/-- Whether an event is pending (R284). -/
def Dev.pend (d : Dev) (n : Nat) : Bool := d.bit (EVC_PEND (n / 32)) (n % 32)

/-- The 1 µs boundaries of device time up to now: the multiples of 200 counts (R290). -/
def Dev.boundaries (d : Dev) : Nat := d.now / 200

/-- Raise event `n` (R284): set its pending bit, its ageing to start at the next boundary; a raise of a pending event
is merged and recorded in EVC_RERAISE; two raises in one cycle count as one. -/
def raise (n : Nat) (d : Dev) : Dev :=
  if d.pend n && (d.evOf n).at_ = d.now then d
  else if d.pend n then (d.setBit (EVC_RERAISE (n / 32)) (n % 32)).onEv n fun e => { e with at_ := d.now }
  else (d.setBit (EVC_PEND (n / 32)) (n % 32)).onEv n fun _ =>
    { base := d.boundaries + 1, steps := 0, at_ := d.now, takenBy := [] }

/-- Acknowledge event `n` (R291): PEND clears and EFF returns to PRIO; an event raised in the same cycle stays pending and
its ageing restarts. -/
def ackEvent (n : Nat) (d : Dev) : Dev :=
  if !d.pend n then d
  else if (d.evOf n).at_ = d.now then d.onEv n fun e => { e with base := d.boundaries + 1, steps := 0, takenBy := [] }
  else (d.clrBit (EVC_PEND (n / 32)) (n % 32)).onEv n fun _ => {}

/-- Raise event `base + n` and set bit `n` of the source's flag register. -/
def raiseIn (evt base n : Nat) (d : Dev) : Dev := raise (base + n) (d.setBit evt n)

/-- Raise an event of axis `a` by its offset (R283). -/
def raiseAx (a off : Nat) (d : Dev) : Dev := raise (12 * a + off) d

/-- Raise a system-control event: 0 MODE_CHANGE, 1 PEAL_DONE, 2 BOOT_FAULT (R113). -/
def raiseSys (n : Nat) (d : Dev) : Dev := raiseIn SYS_EVT 1015 n d

/-- Raise an LSS or SSQ event 896 + n (R314). -/
def raiseLss (n : Nat) (d : Dev) : Dev := raiseIn LSS_EVT 896 n d

/-- Raise a journal event 976 + n (R340). -/
def raiseJnl (n : Nat) (d : Dev) : Dev := raiseIn JNL_EVT 976 n d

/-- Raise event n of cluster `q` (R157). -/
def raiseAdc (q n : Nat) (d : Dev) : Dev := raiseIn (AC_EVT q) (768 + 4 * q) n d

/-- Raise a PSE event 992 + n (R78). -/
def raisePse (n : Nat) (d : Dev) : Dev := raiseIn PSE_EVT 992 n d

/-- Raise a TRU event 1004 + n (R93). -/
def raiseTru (n : Nat) (d : Dev) : Dev := raiseIn TRU_EVT 1004 n d

/-- Raise event n of engine `e` (R240). -/
def raiseLe (e n : Nat) (d : Dev) : Dev := raiseIn (LE_EVT e) (864 + 4 * e) n d

/-- The programmed level of an event; level 15 belongs to the safety events alone (R288). -/
def Dev.evPrio (d : Dev) (n : Nat) : Nat :=
  if safetyEvent n then 15 else min 14 (d.get (EVC_CFG_PRIO n))

/-- The effective priority of an event (R290): the programmed level, raised by one for each ageing step taken, to at
most 14. A disabled event stands at its programmed level (R295). -/
def Dev.evEff (d : Dev) (n : Nat) : Nat :=
  let p := d.evPrio n
  if d.pend n && d.on (EVC_CFG_EN n) && d.on (EVC_CFG_AGEN n) && p ≤ 13 then min 14 (p + (d.evOf n).steps) else p

/-- The ageing step in force, in boundaries (R290). -/
def Dev.evAge (d : Dev) : Nat := max 1 (d.get EVC_AGE_US)

end Sys2Proof.Machine
end

