-- ==== Sys2Proof/Machine/Operands.lean ====
section
/-! DEFINITION. Number formats and arithmetic forms the rules name: rounding half away from zero, division towards
zero, saturation, sign extension, square roots, the CRC-32C of R280, and the correction of conversion results (R136). -/

namespace Sys2Proof.Machine

/-- `n / d` rounded half away from zero; `d` is positive. -/
def rha (n : Int) (d : Nat) : Int :=
  if n < 0 then -(((2 * n.natAbs + d) / (2 * d) : Nat) : Int) else (((2 * n.natAbs + d) / (2 * d) : Nat) : Int)

/-- `n / d` rounded half away from zero, for a divisor of either sign. -/
def rhaI (n d : Int) : Int := if d < 0 then rha (-n) d.natAbs else rha n d.natAbs

/-- `n / d` truncated towards zero; 0 for a zero divisor. -/
def tdiv (n d : Int) : Int := Int.tdiv n d

/-- The `bits`-bit two's-complement number with the low bits of `v`. -/
def sx (bits v : Nat) : Int :=
  let m := v % 2 ^ bits
  if m < 2 ^ (bits - 1) then (m : Int) else (m : Int) - (2 : Int) ^ bits

/-- The low `bits` bits of an integer, as a natural number. -/
def ux (bits : Nat) (v : Int) : Nat := (v % (2 : Int) ^ bits).toNat

/-- Saturate to a signed `bits`-bit number. -/
def satS (bits : Nat) (v : Int) : Int := max (-(2 : Int) ^ (bits - 1)) (min ((2 : Int) ^ (bits - 1) - 1) v)

/-- Wrap to a signed `bits`-bit number. -/
def wrapS (bits : Nat) (v : Int) : Int := sx bits (ux bits v)

/-- The sign of an integer: −1, 0 or 1. -/
def sgn (v : Int) : Int := if v < 0 then -1 else if v = 0 then 0 else 1

/-- Digit-by-digit square root: bits `b - 1` down to 0 of the root of `n`, above the part `r` found so far. -/
def isqrtFrom (n : Nat) : Nat → Nat → Nat
  | 0, r => r
  | b + 1, r => if (r + 2 ^ b) * (r + 2 ^ b) ≤ n then isqrtFrom n b (r + 2 ^ b) else isqrtFrom n b r

/-- The integer square root of a number below 2^128. -/
def isqrt (n : Nat) : Nat := isqrtFrom n 64 0

/-- The square root rounded half away from zero. -/
def roundSqrt (n : Nat) : Nat :=
  let r := isqrt n
  if n - r * r > r then r + 1 else r

/-- One bit of a reflected CRC-32C (polynomial 0x82F63B78). -/
def crc32cBit (c : Nat) : Nat := if c % 2 = 1 then (c / 2) ^^^ 0x82F63B78 else c / 2

/-- One byte of a CRC-32C. -/
def crc32cByte (c b : Nat) : Nat :=
  crc32cBit (crc32cBit (crc32cBit (crc32cBit (crc32cBit (crc32cBit (crc32cBit (crc32cBit (c ^^^ (b % 256)))))))))

/-- CRC-32C of a list of bytes (R280): initial value and final exclusive-or 0xFFFF_FFFF, reflected. -/
def crc32c (bs : List Nat) : Nat := (bs.foldl crc32cByte 0xFFFFFFFF) ^^^ 0xFFFFFFFF

/-- The `n` low bytes of a number, lowest first. -/
def bytesLE : Nat → Nat → List Nat
  | 0, _ => []
  | n + 1, v => v % 256 :: bytesLE n (v / 256)

/-- A number from bytes, lowest first. -/
def ofBytesLE : List Nat → Nat
  | [] => 0
  | b :: bs => b % 256 + 256 * ofBytesLE bs

/-! Angles (DESIGN CHOICE, log 13): the rules name angles of vectors without fixing their rounding. Angles are in 2^-32 turns. -/

/-- The arc tangents of 2^-i in 2^-32 turns, i = 0 to 27. -/
def atanTab : List Int := [
  536870912, 316933406, 167458907, 85004756, 42667331, 21354465, 10679838,
  5340245, 2670163, 1335087, 667544, 333772, 166886, 83443,
  41722, 20861, 10430, 5215, 2608, 1304, 652,
  326, 163, 81, 41, 20, 10, 5]

/-- Turn a vector onto the x axis by the table, from shift `i` on, adding the angle turned. -/
def vectoring : List Int → Nat → Int → Int → Int → Int
  | [], _, _, _, z => z
  | a :: t, i, x, y, z =>
    if y > 0 then vectoring t (i + 1) (x + y / 2 ^ i) (y - x / 2 ^ i) (z + a)
    else vectoring t (i + 1) (x - y / 2 ^ i) (y + x / 2 ^ i) (z - a)

/-- The angle of a vector, 0 to 2^32 − 1. -/
def angleOf (x y : Int) : Nat :=
  let (x', y', b) := if x < 0 then (-x, -y, (2 : Int) ^ 31) else (x, y, 0)
  ((b + vectoring atanTab 0 (x' * 2 ^ 32) (y' * 2 ^ 32) 0) % (2 : Int) ^ 32).toNat

/-- Turn a vector by the table until an angle is used up. -/
def rotating : List Int → Nat → Int → Int → Int → Int × Int
  | [], _, x, y, _ => (x, y)
  | a :: t, i, x, y, z =>
    if z < 0 then rotating t (i + 1) (x + y / 2 ^ i) (y - x / 2 ^ i) (z + a)
    else rotating t (i + 1) (x - y / 2 ^ i) (y + x / 2 ^ i) (z - a)

/-- The vector of a magnitude at an angle. -/
def vecAt (r : Int) (th : Nat) : Int × Int :=
  let z := sx 32 th
  let (z, s) := if z > 2 ^ 30 then (z - 2 ^ 31, -1) else if z < -(2 : Int) ^ 30 then (z + 2 ^ 31, -1) else (z, 1)
  let (x, y) := rotating atanTab 0 (r * 2608131496) 0 z
  (s * rha x (2 ^ 32), s * rha y (2 ^ 32))

/-- The distance of two angles, in 2^-32 turns. -/
def angleDist (a b : Nat) : Nat := (sx 32 (a + 2 ^ 32 - b % 2 ^ 32)).natAbs

/-- A whole number of degrees as an angle, truncated. -/
def degrees (n : Nat) : Nat := n % 360 * 2 ^ 32 / 360

/-! Conversion results (R134, R136). -/

/-- The signed channels: the phase currents, the identification inputs and GND (R134). -/
def chSigned (ch : Nat) : Bool := (ch < 32 && (ch % 8 = 0 || ch % 8 = 1 || ch % 8 = 5)) || ch = 37

/-- The reserved channel codes (R134). -/
def chReserved (ch : Nat) : Bool := (ch < 32 && (ch % 8 = 6 || ch % 8 = 7)) || (38 ≤ ch && ch ≤ 63)

/-- The channels with front-end trims of their own (R136). -/
def chTrimmed (ch : Nat) : Bool := ch < 32 || ch = 35

/-- Clip between two bounds. -/
def clipI (lo hi v : Int) : Int := max lo (min hi v)

/-- Correction of a raw converter code, with whether the result was clipped or the code stood at a limit (R136). `cOfs`,
`cGain`: the converter's trims; `hOfs`, `hGain`: the channel's. -/
def correct (signed : Bool) (raw : Nat) (cOfs cGain hOfs hGain : Int) : Int × Bool :=
  let r : Int := if signed then (raw : Int) - 8192 else raw
  let x := r * 16 - cOfs
  let x := rha (x * (262144 + cGain)) 262144
  let x := rha ((x - hOfs) * (262144 + hGain)) 262144
  let v := rha x 16
  let c := if signed then clipI (-8192) 8191 v else clipI 0 16383 v
  (c, c ≠ v || raw = 0 || raw = 16383)

end Sys2Proof.Machine
end

