-- ==== Sys2Proof/Machine/LoopOps.lean ====
section
/-! DEFINITION. The loop engines' memory as the rules lay it out: banks, descriptors, records, schedule, state memory
(R213 to R238), and what other families ask of a loop (R205, R228). -/

namespace Sys2Proof.Machine
open Sys2Proof Reg

/-- The base of an engine block. -/
def leBase (e : Nat) : Nat := 0x40400000 + 0x10000 * e

/-- The base of a bank of an engine: 0 or 1. -/
def bankBase (e b : Nat) : Nat := leBase e + (if b = 0 then 0x2000 else 0x9000)

/-- The bank that is a loop's forme (R235). -/
def Dev.formeBank (d : Dev) (e k : Nat) : Nat := (d.get (LE_BANK_BANK e) / 2 ^ k) % 2

/-- A word of a loop's descriptor in a bank. -/
def Dev.desc (d : Dev) (e b k off : Nat) : Nat := (d.reg (bankBase e b + 0x200 + 0x80 * k + off)).toNat

/-- A field of a loop's descriptor in a bank. -/
def Dev.descF (d : Dev) (e b k off lo w : Nat) : Nat := d.desc e b k off / 2 ^ lo % 2 ^ w

/-- The loop is enabled in a bank. -/
def Dev.loopEn (d : Dev) (e b k : Nat) : Bool := d.descF e b k 0 31 1 = 1

/-- Sizes n, p, m and format of a loop's program (R213), each brought into its range. -/
def Dev.loopN (d : Dev) (e b k : Nat) : Nat := clampN 1 8 (d.descF e b k 0 0 4)
def Dev.loopP (d : Dev) (e b k : Nat) : Nat := clampN 1 4 (d.descF e b k 0 4 3)
def Dev.loopM (d : Dev) (e b k : Nat) : Nat := clampN 1 2 (d.descF e b k 0 8 2)
def Dev.loopBf (d : Dev) (e b k : Nat) : Bool := d.descF e b k 0 30 1 = 1

/-- `⌈x / 4⌉`. -/
def ceil4 (x : Nat) : Nat := (x + 3) / 4

/-- The delivery cycle of a run (R223). -/
def Dev.outc (d : Dev) (e b k : Nat) : Nat :=
  let n := d.loopN e b k; let p := d.loopP e b k; let m := d.loopM e b k
  3 + ceil4 (p * n) + ceil4 (m + m * n + m * m) + 1 + (if d.loopBf e b k then 4 else 0)

/-- The cycle count of a run (R223). -/
def Dev.cyc (d : Dev) (e b k : Nat) : Nat :=
  let n := d.loopN e b k; let p := d.loopP e b k; let m := d.loopM e b k
  3 + ceil4 (p * n) + ceil4 (m + m * n + m * m) + 1 + ceil4 (n * n + n * m + n * p) + 2
    + (if d.loopBf e b k then 6 else 0)

/-- A schedule entry. -/
structure SchedEntry where
  kind : Nat
  len : Nat
  start : Nat
  ph : Nat
  div : Nat
  loop : Nat
  deriving DecidableEq, Repr

/-- Entry `i` of the schedule table of a bank; DIV 0 means 16. -/
def Dev.schedEntry (d : Dev) (e b i : Nat) : SchedEntry :=
  let w0 := (d.reg (bankBase e b + 8 * i)).toNat
  let w1 := (d.reg (bankBase e b + 8 * i + 4)).toNat
  let dv := w1 / 2 ^ 8 % 16
  { kind := w0 / 2 ^ 28 % 16, len := w0 / 2 ^ 16 % 4096, start := w0 % 65536, ph := w1 / 2 ^ 12 % 16,
    div := if dv = 0 then 16 else dv, loop := w1 % 32 }

/-- The run and proof entries of a schedule table; other kinds are empty. -/
def Dev.schedule (d : Dev) (e b : Nat) : List SchedEntry :=
  ((List.range 64).map (d.schedEntry e b)).filter fun x => x.kind = 1 || x.kind = 2

/-- The run entry of a loop in the schedule in force. -/
def Dev.runEntry (d : Dev) (e k : Nat) : Option SchedEntry :=
  (d.schedule e (d.get (LE_CTL_SCHBANK e))).find? fun x => x.kind = 1 && x.loop = k

/-- The number of regions of a loop's program: 1 to 8 (R226). -/
def Dev.nreg (d : Dev) (e b k : Nat) : Nat :=
  let n := d.descF e b k 4 16 4
  if n = 0 then 1 else min 8 n

/-- The record and class of a region (R226). -/
def Dev.regionRec (d : Dev) (e b k r : Nat) : Nat := d.descF e b k (if r < 4 then 0x28 else 0x2C) (8 * (r % 4)) 5
def Dev.regionClass (d : Dev) (e b k r : Nat) : Nat := d.descF e b k (if r < 4 then 0x28 else 0x2C) (8 * (r % 4) + 7) 1

/-- The regions of a class, ascending (R226). -/
def Dev.regionsOf (d : Dev) (e b k c : Nat) : List Nat :=
  (List.range (d.nreg e b k)).filter fun r => d.regionClass e b k r = c

/-- The class of an axis loop now: DTC in DTC and in DECEL under DTC, else six-step (R217). -/
def Dev.axClass (d : Dev) (a : Nat) : Nat :=
  let st := d.get (CU_STATE_STATE a)
  if st = AxState.dtc.code || (st = AxState.decel.code && (d.dtcOf a).fromDtc) then 1 else 0

/-- The axis has an active loop (R228). -/
def Dev.loopActive (d : Dev) (a : Nat) : Bool :=
  let e := a / 8
  let k := a % 8
  let b := d.formeBank e k
  d.loopEn e b k && (d.runEntry e k).isSome && d.on (LE_LCTL_AUTO e k) && !(d.loopOf e k).memStop
    && (d.regionsOf e b k (d.axClass a)).length ≠ 0
    && (d.descF e b k 0 16 2 = 1 || d.descF e b k 0 16 2 = 2)

/-- A loop starts its next run from a preset (R227, R228). -/
def loopPreset (a : Nat) (p : Preset) (d : Dev) : Dev := d.onLoop (a / 8) (a % 8) fun l => { l with preset := p }

/-- Write CU_TREF (R211): a tick sampled in the cycle of the write or before it uses the reference as it stood; the held
torque of R197 gives way to the first write. -/
def writeTref (a : Nat) (w : Word) (d : Dev) : Dev :=
  let t := d.dtcOf a
  let now := t.tHeld.getD (sx 32 (d.reg (CU_TREF a)).toNat)
  let old := match t.trefAt with
    | some x => if d.now ≤ x then t.trefOld else now
    | none => now
  (d.onDtc a fun t => { t with trefAt := some d.now, trefOld := old, tHeld := none }).setReg (CU_TREF a) w

end Sys2Proof.Machine
end

