-- ==== Sys2Proof/Machine/Records.lean ====
section
/-! DEFINITION. Submitting records to the journal (R319, R320, R328, R330): the checks, the queue, the results. -/

namespace Sys2Proof.Machine
open Sys2Proof Reg

/-- The record types the controller writes by itself, and the codes that name no type (R319). -/
def controllerType (t : Nat) : Bool := t = 0 || t = 8 || t = 10 || t = 11 || t = 13 || 16 ≤ t

/-- The keyed types (R319). -/
def keyedType (t : Nat) : Bool := t = 6 || t = 8 || t = 9 || t = 10 || t = 11 || t = 12 || t = 13

/-- The minute window of device time (R330). -/
def Dev.minute (d : Dev) : Nat := d.now / 12000000000

/-- Records a client slot has had accepted in the present minute (R330). -/
def Dev.quotaUsed (d : Dev) (slot : Nat) : Nat :=
  let (w, n) := tget (0, 0) d.jnl.quota slot
  if w = d.minute then n % 65536 else 0

/-- Whether the slot has met its first QUOTA refusal in the present minute (R330). -/
def Dev.quotaHit (d : Dev) (slot : Nat) : Bool :=
  let (w, n) := tget (0, 0) d.jnl.quota slot
  w = d.minute && 65536 ≤ n

/-- FAULT records accepted in the present minute in CONSERVE (R328). -/
def Dev.consUsed (d : Dev) : Nat := if d.jnl.consWin = d.minute then d.jnl.consCnt else 0

/-- The refusal code of a submission, or 0, in the order of the codes (R320). -/
def submitCode (r : JRec) (badFormat ecc : Bool) (d : Dev) : Nat :=
  if 16 ≤ (d.jnl.queue.filter (·.from_.isSome)).length then 1
  else if badFormat then 2
  else if r.slot < 64 && max 1 (d.get JNL_QUOTA_PERMIN) ≤ d.quotaUsed r.slot then 3
  else if d.get JNL_STAT_MODE = 2 && (r.typ ≠ 3 || max 1 (d.get JNL_CONS_RATE) ≤ d.consUsed) then 4
  else if d.jnl.sealing || d.get JNL_STAT_MODE = 4 || d.on PSE_STAT_HOLDUP then 5
  else if ecc then 6
  else if d.get JNL_STAT_MODE = 3 || d.get JNL_STAT_MODE = 5 then 7
  else 0

/-- Report a completed submission to its pair (R320). -/
def submitDone (from_ : Option Nat) (code : Nat) (d : Dev) : Dev :=
  match from_ with
  | none => d
  | some p => (d.put (JNL_RES_CODE p) code).put (JNL_RES_NSUB p) (d.get (JNL_RES_NSUB p) + 1)

/-- Queue a record the controller writes by itself (R319). -/
def controllerRec (r : JRec) (d : Dev) : Dev :=
  d.onJnl fun j => { j with queue := j.queue ++ [{ body := { r with time := d.now, srck := 4, pair := 15 } }] }

/-- Submit a record (R320): queue it, or refuse it with its code, raising JNL_REFUSED; the first QUOTA refusal of a slot
in a minute appends QUOTA_HIT and raises JNL_QUOTA (R330). -/
def submitRec (from_ : Option Nat) (r : JRec) (badFormat ecc : Bool) (d : Dev) : Dev :=
  let code := submitCode r badFormat ecc d
  if code = 0 then
    d.onJnl fun j => { j with
      queue := j.queue ++ [{ body := { r with time := d.now, pair := from_.getD 15 }, from_ := from_ }]
      quota := if r.slot < 64 then
          tset (0, 0) j.quota r.slot (d.minute, d.quotaUsed r.slot + 1 + (if d.quotaHit r.slot then 65536 else 0))
        else j.quota
      consWin := if d.get JNL_STAT_MODE = 2 then d.minute else j.consWin
      consCnt := if d.get JNL_STAT_MODE = 2 then d.consUsed + 1 else j.consCnt }
  else
    let d1 := submitDone from_ code (raiseJnl 0 d)
    if code = 3 && !d.quotaHit r.slot then
      raiseJnl 1 (controllerRec { typ := 20, slot := r.slot }
        (d1.onJnl fun j => { j with quota := tset (0, 0) j.quota r.slot (d.minute, d.quotaUsed r.slot + 65536) }))
    else d1

/-- "Is journalled": the supervising pair's firmware submits a record of a type with a payload (R319, R320; DEDUCED, log 12). -/
def journal (typ srck : Nat) (payload : List Nat) (d : Dev) : Dev :=
  submitRec (some (d.get LSS_PAIRST_SUP)) { typ := typ, srck := srck, payload := payload } false false d

/-- "Is journalled" on behalf of a client slot with its NAME (R13, R330). -/
def journalClient (typ slot name : Nat) (payload : List Nat) (d : Dev) : Dev :=
  submitRec (some (d.get LSS_PAIRST_SUP)) { typ := typ, srck := 1, slot := slot, name := name, payload := payload }
    false false d

end Sys2Proof.Machine
end

