-- ==== Sys2Proof/Machine/ScuOps.lean ====
section
/-! DEFINITION. What axis and mode changes do to strike/capture sessions (R244, R252). -/

namespace Sys2Proof.Machine
open Sys2Proof Reg

/-- The axis a session's point acts on, when its target is an axis loop (R244). -/
def Dev.sessAxis (d : Dev) (s : Nat) : Option Nat :=
  let l := d.get (SCU_STGT_LOOP s)
  if l ≤ 7 then some (8 * d.get (SCU_STGT_ENG s) + l) else none

/-- Whether a session runs. -/
def Dev.sessRunning (d : Dev) (s : Nat) : Bool := d.get (SCU_SSTAT_STATE s) = 1

/-- Raise event 1018 + n of session `s` (R254). -/
def raiseScu (s n : Nat) (d : Dev) : Dev := raise (1018 + n) (d.setBit SCU_EVT (4 * s + n))

/-- Abort a running session with a cause: the strike ends, a ONESHOT capture runs on to NCAP (R252). A session that became
DONE on the clock of this cycle is ABORTED all the same (R253). -/
def sessAbort (s cause : Nat) (d : Dev) : Dev :=
  if d.sessRunning s || (d.get (SCU_SSTAT_STATE s) = 2 && (d.sessOf s).doneAt = some d.now) then
    raiseScu s 0 (((d.put (SCU_SSTAT_STATE s) 3).put (SCU_SSTAT_CAUSE s) cause).onSess s fun h =>
      { h with strikeOn := false, capOn := h.capOn && !d.on (SCU_SCTL_RING s) })
  else d

/-- The axis states a point permits (R244). -/
def pointPermits (point : Nat) (st : AxState) : Bool :=
  if point = 0 then true
  else if point = 4 then st = .test
  else st = .sixstep || st = .handover || st = .dtc

/-- Abort every running session that strikes at an axis, with a cause (R252). -/
def strikeAbort (a cause : Nat) (d : Dev) : Dev :=
  d.each (List.range 4) fun s d =>
    if d.sessAxis s = some a && d.get (SCU_STGT_POINT s) ≠ 0 then sessAbort s cause d else d

/-- Abort every running session that strikes at a loop, with cause FAULT: the loop has taken a reaction (R252). -/
def loopAbort (e k : Nat) (d : Dev) : Dev :=
  d.each (List.range 4) fun s d =>
    if d.get (SCU_STGT_ENG s) = e && d.get (SCU_STGT_LOOP s) = k && d.get (SCU_STGT_POINT s) ≠ 0 then sessAbort s 12 d else d

/-- An axis takes a state: sessions that strike at it and whose point the state does not permit are aborted, with cause
FAULT on FAULT, ABSENT on ABSENT, else STATE (R252). -/
def sessionsOnState (a : Nat) (st : AxState) (d : Dev) : Dev :=
  d.each (List.range 4) fun s d =>
    if d.sessAxis s = some a && !pointPermits (d.get (SCU_STGT_POINT s)) st then
      sessAbort s (if st = .fault then 12 else if st = .absent then 14 else 11) d
    else d

/-- The modes a point permits (R244). -/
def pointMode (point : Nat) (m : Mode) : Bool :=
  if point = 0 then m ≠ .dormant
  else if point = 4 then m = .calibrate || m = .service
  else m = .run || m = .service || m = .degraded

/-- A mode change aborts every session whose point it forbids (R252). A process loop's points are permitted in every
mode (R244). -/
def sessionsOnMode (m : Mode) (d : Dev) : Dev :=
  d.each (List.range 4) fun s d =>
    if (d.sessAxis s).isSome && !pointMode (d.get (SCU_STGT_POINT s)) m then sessAbort s 13 d else d

end Sys2Proof.Machine
end

