-- ==== Sys2Proof/Machine/Sense.lean ====
section
/-! DEFINITION. What a consumer sees of the conversion clusters: the freshest continuous sample of a channel (R139), the
segment voltage (R163), the back-EMF of an axis (R170, R417), the phase currents (R150). -/

namespace Sys2Proof.Machine
open Sys2Proof Reg

/-- Slot `q` holds an accepted cartridge: its state is not EMPTY, CHECKING or REFUSED (R17). -/
def Dev.present (d : Dev) (q : Nat) : Bool :=
  let st := d.get (CSL_STAT_STATE q)
  !(st = 0 || st = 1 || st = 3)

/-- The sequence and housekeeping result registers of both converters of a cluster (R139). -/
def resultRegs (q : Nat) : List Nat :=
  ((List.range 32).map fun n => AC_RSLT q 0 n) ++ ((List.range 32).map fun n => AC_RSLT q 1 n)
    ++ ((List.range 6).map fun k => AC_HK q 0 k) ++ ((List.range 6).map fun k => AC_HK q 1 k)

/-- The urgent result registers of a cluster (R143). -/
def urgentRegs (q : Nat) : List Nat := (List.range 4).flatMap fun p => (List.range 6).map fun k => AC_UR q p k

/-- A sample: its value and its sampling instant. -/
structure Sample where
  value : Int
  ts : Nat
  reg : Nat := 0
  deriving DecidableEq, Repr

/-- The value field of a result word, signed on signed channels (R138). -/
def resultValue (w : Word) : Int :=
  let v := wordGet w 0 14
  if chSigned (wordGet w 14 6) then sx 14 v else (v : Int)

/-- A result register as a sample of a channel, if it holds that channel and carries neither ABSENT nor RNR (R139). -/
def Dev.sampleAt (d : Dev) (ch addr : Nat) : Option Sample :=
  let w := d.reg addr
  match tget none d.stamp addr with
  | none => none
  | some t =>
    if wordGet w 14 6 = ch && wordGet w 31 1 = 0 && wordGet w 30 1 = 0 then some ⟨resultValue w, t, addr⟩ else none

/-- The later of two samples; the first stands at equal instants. -/
def later (a b : Option Sample) : Option Sample :=
  match a, b with
  | none, y => y
  | x, none => x
  | some x, some y => if x.ts < y.ts then some y else some x

/-- The freshest continuous sample of a channel of cluster `q` (R139); none while the slot holds no accepted
cartridge (R17). -/
def Dev.freshest (d : Dev) (q ch : Nat) : Option Sample :=
  if d.present q then (resultRegs q).foldl (fun b r => later b (d.sampleAt ch r)) none else none

/-- The value a consumer uses when it falls back on continuous samples: 0 where none exists (R139). -/
def Dev.freshVal (d : Dev) (q ch : Nat) : Int := ((d.freshest q ch).map (·.value)).getD 0

/-- The segment voltage of quad `q` in 4.4 mV steps (R163): the freshest VSEG when at most 100 µs old, else PSE_VLINK
rescaled from 2 mV, rounded half away from zero. -/
def Dev.vseg (d : Dev) (q : Nat) : Int :=
  let link := rha ((d.get PSE_VLINK_VLINK : Int) * 5) 11
  match d.freshest q 35 with
  | some s => if d.now - s.ts ≤ 20000 then s.value else link
  | none => link

/-- Nine times the square of the back-EMF magnitude of an axis, in squares of 4.4 mV steps, from the freshest phase
voltages: `9E² = (2a − b − c)² + 3(b − c)²` (R158, R170, R417; DEDUCED, log 6). -/
def Dev.bemfSq9 (d : Dev) (a : Nat) : Nat :=
  let p := 8 * (a % 4)
  let u := d.freshVal (a / 4) (p + 2)
  let v := d.freshVal (a / 4) (p + 3)
  let w := d.freshVal (a / 4) (p + 4)
  ((2 * u - v - w) * (2 * u - v - w) + 3 * (v - w) * (v - w)).natAbs

/-- The back-EMF is at or above a threshold in 4.4 mV steps. -/
def Dev.bemfAtLeast (d : Dev) (a thr : Nat) : Bool := 9 * thr * thr ≤ d.bemfSq9 a

/-- The ceiling of the latest arbitration comes into force at a unit (R74). -/
def takeCeil (a : Nat) (d : Dev) : Dev :=
  match tget none d.pse.sent a with
  | some c => (d.put (CU_IDC_CEIL a) c).onPse fun p => { p with sent := tset none p.sent a none }
  | none => d

/-- The motor of an axis counts as turning: back-EMF at or above BEMFMIN (R170, R178, R300). -/
def Dev.turning (d : Dev) (a : Nat) : Bool := d.bemfAtLeast a (d.get (CU_CATCH_BEMFMIN a))

/-- The freshest IU and IW results with one sampling instant, from paired entries of A and B (R139, R141, R150). -/
def Dev.freshPair (d : Dev) (a : Nat) : Option (Sample × Sample) :=
  let q := a / 4
  let p := 8 * (a % 4)
  let pick := fun (b : Option (Sample × Sample)) (n : Nat) =>
    match d.sampleAt p (AC_RSLT q 0 n), d.sampleAt (p + 1) (AC_RSLT q 1 n) with
    | some u, some w =>
      if u.ts = w.ts then
        match b with
        | none => some (u, w)
        | some (u', _) => if u'.ts < u.ts then some (u, w) else b
      else b
    | _, _ => b
  if d.present q then (List.range 32).foldl pick none else none

end Sys2Proof.Machine
end

