-- ==== Sys2Proof/Machine/Axis.lean ====
section
/-! DEFINITION. What every family does to an axis: its state and the state's change (R99, R179), the release of its
bridge (R130, R132), a fault of its unit (R180, R204), the safe-state broadcast (R299, R300), the FAULT line (R46,
R301), and the commands of R178 with their refusals. -/

namespace Sys2Proof.Machine
open Sys2Proof Reg

/-- The state of an axis (R99). -/
def Dev.axSt (d : Dev) (a : Nat) : AxState := AxState.ofCode (d.get (CU_STATE_STATE a))

/-- The present device mode (R94). -/
def Dev.mode (d : Dev) : Mode := (Mode.ofCode (d.get SYS_MODE_MODE)).getD .selftest

/-- The pair that hosts an axis: 0 to 4, or 7 for none (R20, R303). -/
def Dev.host (d : Dev) (a : Nat) : Nat := d.get (LSS_HOST_HOST (a / 8) (a % 8))

/-- The supervising pair (R296). -/
def Dev.sup (d : Dev) : Nat := d.get LSS_PAIRST_SUP

/-- Whether an axis is held safe (R100). -/
def Dev.heldSafe (d : Dev) (a : Nat) : Bool :=
  if a < 32 then d.bit SYS_AXSAFE_LO a else d.bit SYS_AXSAFE_HI (a - 32)

/-- All sixty-four axes. -/
def allAxes : List Nat := List.range 64

/-- The axes of quad `q` (R2). -/
def quadAxes (q : Nat) : List Nat := [4 * q, 4 * q + 1, 4 * q + 2, 4 * q + 3]

/-- The axes a pair hosts. -/
def Dev.hosted (d : Dev) (p : Nat) : List Nat := allAxes.filter fun a => d.host a = p

/-! Bonding (R129, R200). -/

/-- The bond in effect in quad `q`: bit 0 PAIR01, bit 1 PAIR23, bit 2 QUAD (R200). -/
def Dev.bondBits (d : Dev) (q : Nat) : Nat := tget 0 d.bond q

/-- The axes of the drive an axis belongs to, lowest first (R3, R129). -/
def Dev.members (d : Dev) (a : Nat) : List Nat :=
  let b := d.bondBits (a / 4)
  let q := 4 * (a / 4)
  if b.testBit 2 then [q, q + 1, q + 2, q + 3]
  else if a % 4 < 2 && b.testBit 0 then [q, q + 1]
  else if 2 ≤ a % 4 && b.testBit 1 then [q + 2, q + 3]
  else [a]

/-- The governing (lowest) member of the drive of an axis (R129). -/
def Dev.lowest (d : Dev) (a : Nat) : Nat := ((d.members a).head?).getD a

/-- The drive of an axis is a bonded quad. -/
def Dev.isQuad (d : Dev) (a : Nat) : Bool := (d.bondBits (a / 4)).testBit 2

/-- The sharing trims of the bonded drive of an axis are set to 0, in PWM_BTRIM and in force (R234). -/
def resetTrims (a : Nat) (d : Dev) : Dev :=
  if (d.members a).length = 1 then d
  else d.each (d.members a) fun m d => (d.put (PWM_BTRIM_TRIM m) 0).put (PWM_ATRIM_TRIM m) 0

/-- An axis leaving OFF takes the bond written in CU_BOND of its quad into effect: QUAD and its own pair's bit (R200);
the trims and shares of a bond that forms are 0 (R203, R234). -/
def takeBond (a : Nat) (d : Dev) : Dev :=
  let q := a / 4
  let w := d.get ⟨CU_BOND (4 * q), 0, 3⟩
  let own := if a % 4 < 2 then 1 else 2
  let keep := (d.bondBits q) &&& (3 - own)
  let new := (w &&& (4 + own)) ||| (if w.testBit 2 then 0 else keep)
  if new = d.bondBits q then d
  else
    let e := { d with bond := tset 0 d.bond q new }
    let e := e.each ((quadAxes q).filter fun x => d.members x ≠ e.members x) fun x e => e.setReg (CU_BSHARE x) 0
    resetTrims a e

/-! Phase modes, state changes. -/

/-- Put phase modes in force on an axis: source, U, V, W (R116). -/
def setPat (a src u v w : Nat) (d : Dev) : Dev :=
  (((d.put (PWM_PAT_SRC a) src).put (PWM_PAT_PU a) u).put (PWM_PAT_PV a) v).put (PWM_PAT_PW a) w

/-- Phase modes on every member of the drive (R129, R182). -/
def setPatDrive (a src u v w : Nat) (d : Dev) : Dev := d.each (d.members a) fun m => setPat m src u v w

/-- An axis that stops driving has no phase mode, schedule, window or test in force. -/
def quiesce (a : Nat) (d : Dev) : Dev :=
  (((setPat a 0 0 0 0 d).onSix a fun s => { s with
      nextC := none, nextS := none, tExp := none, lateEnd := none, test := none, alignEnd := none, noCurSince := none,
      joinAt := none, recoverEnd := none, hallBad := none, rampX := none, cls := .skipped, clsPrev := .skipped,
      bemfLow := if d.bemfAtLeast a 114 then none else some d.now, restAt := d.now }).onDtc a fun t => { t with
      hoReady := false, tHeld := none, vlimIn := false,
      revLow := if d.turning a then none else some d.now }).put (CU_DECREF_WR a) 0 |>.put (CU_DTCSTAT_VLIM a) 0 |>.put
    (CU_DTCSTAT_REGEN0 a) 0

/-- A slot in loss is freed once its last claim has ended (R393), and the freeing is journalled (R391). -/
def freeIdle (s : Nat) (d : Dev) : Dev :=
  let c := d.clientOf s
  if c.loss && d.claim.all fun x => x.2 ≠ some s then
    let d := journalClient 1 s c.name [4, s] (d.onClient s fun _ => {})
    d.onBus fun b => { b with tcSlot := if b.tcSlot = some s then none else b.tcSlot }
  else d

/-- A claim on an axis ends (R29): its policy returns to 2,000 ms and STOP, a hold is over (R393). -/
def endClaim (a : Nat) (d : Dev) : Dev :=
  match tget none d.claim a with
  | none => d
  | some s => freeIdle s { d with
      claim := tset none d.claim a none
      policy := tset (2000, 0) d.policy a (2000, 0)
      holdEnd := tset none d.holdEnd a none }

/-- The active states of a loop (R228). -/
def loopState (st : AxState) : Bool := st = .sixstep || st = .handover || st = .dtc || st = .decel

/-- What a change of state means at the port: energised time runs while the axis drives (R338), the count of R39 starts
over at entry into FAULT, PROBE's findings end with it. -/
def portOnState (a : Nat) (old st : AxState) (d : Dev) : Dev :=
  d.onPort a fun p => { p with
    noMotor := if st = .fault then 0 else p.noMotor
    probe := if old = .probe then .none_ else p.probe
    enCnt := if st.driving then p.enCnt else p.enCnt + (match p.enAt with | some t => d.now - t | none => 0)
    enAt := if st.driving then (if p.enAt.isSome then p.enAt else some d.now) else none }

/-- Change the state of one axis (R100, R179): PREV and STATE, the STATE_CHANGE event; a bond is taken on leaving OFF,
and an axis that stops driving comes to rest; one that a client in loss holds loses its claim then (R393). No change, no
event. -/
def setAxState (a : Nat) (st : AxState) (d : Dev) : Dev :=
  let old := d.axSt a
  if old = st then d
  else
    let d := if old = .off then takeBond a d else d
    let d := if loopState st && !loopState old then resetTrims a d else d
    let d := raiseAx a 10 ((d.put (CU_STATE_PREV a) old.code).put (CU_STATE_STATE a) st.code)
    let d := portOnState a old st (sessionsOnState a st d)
    let d := if (tget none d.holdEnd a).isSome && !st.driving then endClaim a d else d
    if st.driving then d else quiesce a d

/-- Change the state of every member of the drive of an axis (R182). -/
def setDriveState (a : Nat) (st : AxState) (d : Dev) : Dev :=
  let d := if d.axSt a = .off then takeBond a d else d
  d.each (d.members a) fun m => setAxState m st

/-- HIZ when the back-EMF is at or above BEMFMIN, OFF otherwise (R178, R300). -/
def Dev.restState (d : Dev) (a : Nat) : AxState := if d.turning a then .hiz else .off

/-! Peal outcomes that axes bring about (R110, R112). -/

/-- A migration that waited for the peal begins to count its LEAD (R307). -/
def migrationAfterPeal (d : Dev) : Dev :=
  match d.ssq.mig with
  | some m =>
    if m.waitPeal then
      let tm := d.now + 200 * m.lead
      ((d.onSsq fun q => { q with mig := some { m with waitPeal := false, tm := tm } }).put LSS_MIGRES_RES 1).put
        LSS_MIGTS_TM tm
    else d
  | none => d

/-- The pairs that wait for the end of the peal get its result (R268), and a client's PEAL message its response (R390). -/
def tellPeal (res : Nat) (d : Dev) : Dev :=
  let d := match d.pealFor with
    | some (s, r) =>
      let r := { r with value := res }
      { d.onClient s (fun c => if c.used then { c with resp := some r } else c) with reply := some r, pealFor := none }
    | none => d
  d.each (List.range 5) fun p d =>
    match (d.pairOf p).wait with
    | .peal _ => d.onPair p fun h => { h with pealRes := 0x100 + res }
    | _ => d

/-- End the running peal with a result and the masks of refusing and of mixed axes; PEAL_DONE is raised (R110, R112). -/
def pealEnd (res fail mixed : Nat) (d : Dev) : Dev :=
  let d := ((d.setMask64 SYS_PEAL_FLO SYS_PEAL_FHI fail).setMask64 SYS_PEAL_XLO SYS_PEAL_XHI mixed)
  let d := ((tellPeal res d).put SYS_PEAL_RES_RES res).put SYS_PEAL_RES_NBAD (axesOf (fail ||| mixed)).length
  migrationAfterPeal (raiseSys 1 (d.onPeal fun p => { p with running := false }))

/-- An axis that faults during a peal: before the last vote the peal aborts (R110); between the last vote and T_c the
axis is counted on its fault path (R112). -/
def pealAxisFault (a : Nat) (d : Dev) : Dev :=
  if d.peal.running && d.peal.mask.testBit a then
    match d.peal.tc with
    | none => pealEnd 3 (2 ^ a) 0 d
    | some _ => d.onPeal fun p => { p with mixed := p.mixed ||| 2 ^ a }
  else d

/-! Release, fault, knell. -/

/-- A release cancels a pending load, with LDLOST, and ends a bridging period (R132). -/
def cancelLoad (a : Nat) (d : Dev) : Dev :=
  let d := if (d.pwmOf a).armed ≠ [] || (d.pwmOf a).capt.isSome then d.put (PWM_STAT_LDLOST a) 1 else d
  d.onPwm a fun p => { p with armed := [], capt := none, bridge := none, refDue := 0, refAt := none }

/-- Release a bridge: latch a bit of PWM_FLT, cancel a pending load, all phases to high impedance (R130, R132). -/
def release (a bit : Nat) (d : Dev) : Dev := setPat a 0 0 0 0 (cancelLoad a (d.setBit (PWM_FLT a) bit))

/-- Record a fault code on one axis: its latch bit, CODE (the lowest of those of one cycle) and PHASE (R180). -/
def latchFault (a code phase : Nat) (d : Dev) : Dev :=
  let same := (d.sixOf a).fltAt = some d.now
  let keep := same && d.get (CU_FLT_CODE a) < code
  let d := d.setBit (CU_FLT a) code
  let d := if keep then d else (d.put (CU_FLT_CODE a) code).put (CU_FLT_PHASE a) phase
  d.onSix a fun s => { s with fltAt := some d.now }

/-- One axis enters FAULT with a code; an ABSENT axis stays ABSENT (R180). -/
def faultOne (a code phase : Nat) (d : Dev) : Dev :=
  if d.axSt a = .absent then d
  else setAxState a .fault (pealAxisFault a ((setPat a 0 0 0 0 (latchFault a code phase d)).onDtc a fun t =>
    { t with revOn := false, revWaiting := false }))

/-- A fault of the drive of an axis: the faulted member records its code, each other member code 14 (R180, R204). -/
def faultDrive (a code phase : Nat) (d : Dev) : Dev :=
  let others := (d.members a).filter (· ≠ a)
  (faultOne a code phase d).each others fun m => faultOne m 14 0

/-- A fault of every driving axis of a list, drive by drive. -/
def faultDriving (l : List Nat) (code phase : Nat) (d : Dev) : Dev :=
  d.each l fun a d => if (d.axSt a).driving then faultDrive a code phase d else d

/-- The state a released axis takes (R100, R300): TEST to OFF; another driving state to HIZ if turning, else OFF. -/
def releasedState (a : Nat) (d : Dev) : Dev :=
  let st := d.axSt a
  let d := d.onDtc a fun t => { t with revOn := false, revWaiting := false }
  if st = .test then setAxState a .off d
  else if st.driving then setAxState a (d.restState a) d
  else d

/-- Record an axis in the restart set with its direction, if its state is one of those of R305. -/
def recordRestart (a : Nat) (d : Dev) : Dev :=
  if (d.axSt a).restartable then
    d.onSsq fun q => { q with restart := (q.restart.filter fun x => x.1 ≠ a) ++ [(a, d.get (CU_STATE_DIR a))] }
  else d

/-- The knell at one axis (R300). -/
def knellAxis (a : Nat) (d : Dev) : Dev :=
  let d := recordRestart a d
  releasedState a (pealAxisFault a (strikeAbort a 12 (release a 4 d)))

/-- The safe-state broadcast to a mask of axes: SSQ_KMASK, SSQ_KTS and KNELL (event 900) record it (R299). Knells of one
cycle are one, with the union of the masks (R313); a failure of a pair that hosts no axis brings none (R303). -/
def knell (l : List Nat) (d : Dev) : Dev :=
  if l = [] then d else
  let again := d.ssq.kAt = some d.now
  let m := maskOf l ||| (if again then d.mask64 SSQ_KMASK_LO SSQ_KMASK_HI else 0)
  let d := ((d.each l knellAxis).setMask64 SSQ_KMASK_LO SSQ_KMASK_HI m).put SSQ_KTS_T d.now
  let d := d.onSsq fun q => { q with kAt := some d.now }
  if again then d else raiseLss 4 d

/-- FAULT_N falls (R46, R100, R301): every bridge is released with LINE latched, driving axes go to HIZ or OFF, and
FAULT_LINE is raised. A pulse of this module's own for a mismatch first adds the driving axes to the restart set. -/
def lineFell (ownPulse : Bool) (d : Dev) : Dev :=
  if d.on FLT_STAT_LEVEL then d
  else
    let d := d.put FLT_STAT_LEVEL 1
    let d := if ownPulse then d.each allAxes recordRestart else d
    let d := d.each allAxes fun a d => releasedState a (pealAxisFault a (strikeAbort a 12 (release a 3 d)))
    raiseLss 7 d

/-- The module's own drive of FAULT_N: a mismatch pulse, SSQ_LINE.ASSERT, or LOCKOUT (R301). -/
def Dev.driving (d : Dev) : Bool := d.ssq.pulseEnd.isSome || d.on SSQ_LINE_ASSERT || d.ssq.xfail || d.mode = .lockout

/-- Discard the restart set (R305). -/
def dropRestart (d : Dev) : Dev := d.onSsq fun q => { q with restart := [] }

/-- The line follows its drivers: asserted while this module or an external device drives it. An external drive is seen
while this module does not drive the line, and then discards the restart set (R46, R305). -/
def lineUpdate (ownPulse : Bool) (d : Dev) : Dev :=
  let d := d.put FLT_STAT_DRIVE (if d.driving then 1 else 0)
  let d := if d.ssq.extLine && !d.driving then dropRestart (d.put FLT_STAT_EXTSEEN 1) else d
  if d.driving || d.ssq.extLine then lineFell ownPulse d else d.put FLT_STAT_LEVEL 0

/-! Commands (R178). -/

/-- The bridge of a drive can be re-armed: no PWM_FLT bit set, FAULT_N released, no REFBAD (R131, R172). -/
def Dev.rearmReady (d : Dev) (a : Nat) : Bool :=
  (d.members a).all (fun m => d.get ⟨PWM_FLT m, 0, 8⟩ = 0) && !d.on FLT_STAT_LEVEL && !d.on (AC_STAT_REFBAD (a / 4))

/-- A release of the axis's slot is in progress: RELEASING, SAFE or UNLOCKED (R52). -/
def Dev.releasing (d : Dev) (a : Nat) : Bool :=
  let st := d.get (CSL_STAT_STATE (a / 4))
  st = 4 || st = 5 || st = 6

/-- A migration of the axis is pending or in progress (R109, R178). -/
def Dev.migrating (d : Dev) (a : Nat) : Bool :=
  match d.ssq.mig with
  | some m => m.left.testBit a
  | none => false

/-- The reason START is refused, or 0: the lowest code of those that apply (R178). -/
def Dev.startReason (d : Dev) (a : Nat) : Nat :=
  let st := d.axSt a
  if !(st = .off || st = .hiz || st = .fault) then 1
  else if !AxState.permitted .catch_ d.mode then 2
  else if d.get (CSL_PORT_ST (a / 4) (a % 4)) ≠ 1 then 3
  else if d.heldSafe a then 4
  else if d.releasing a then 5
  else if d.on SYS_MODE_PEND || d.migrating a then 6
  else if !d.rearmReady a then 7
  else 0

/-- The cartridge takes gate frames again: the re-arm frame of a restart (R16, R131). -/
def rearm (a : Nat) (d : Dev) : Dev := d.each (d.members a) fun m d => d.onPwm m fun p => { p with held := false }

/-- Enter CATCH: the measurement window opens with the bridge in high impedance (R170). After RECOVER the bootstraps are
charged already (R172). -/
def enterCatch (a : Nat) (d : Dev) : Dev :=
  let t := clampN 1 20 (d.get (CU_CATCH_T a)) * 200000
  let charged := d.axSt a = .recover
  (setPatDrive a 1 0 0 0 (rearm a (setDriveState a .catch_ d))).onSix a fun s => { s with
    catchAt := d.now, catchLen := t, catchExt := 0, joinAt := none, charged := charged }

/-- The bootstrap recharge: three pulses of PWM_BSR.REF counts, 1 µs apart (R171, R172). -/
def Dev.rechargeLen (d : Dev) (a : Nat) : Nat := 3 * max 40 (d.get (PWM_BSR_REF a)) + 400

/-- Enter RECOVER: the bootstrap recharge runs (R172). -/
def enterRecover (a : Nat) (d : Dev) : Dev :=
  (setPatDrive a 1 0 0 0 (rearm a (setDriveState a .recover d))).onSix a fun s => { s with
    recoverEnd := some (d.now + d.rechargeLen a) }

/-- START in a direction (R178): refused with its reason, or CATCH from OFF and RECOVER from HIZ and FAULT. -/
def doStart (a dir : Nat) (d : Dev) : Dev :=
  let r := d.startReason a
  if r ≠ 0 then d.put (CU_STAT_REFUSE a) r
  else
    let st := d.axSt a
    let d := (d.put (CU_STATE_DIR a) dir).onDtc a fun t => { t with revOn := false, revWaiting := false }
    if st = .off then enterCatch a d else enterRecover a d

/-- Abandon a handover: HOFAIL counts it and the axis returns to SIXSTEP (R198). -/
def abandonHandover (a : Nat) (d : Dev) : Dev :=
  let d := (d.bump (CU_DTCSTAT_HOFAIL a) 1).onDtc a fun t => { t with hoPass := 0, hoSince := 0, hoReady := false }
  setDriveState a .sixstep d

/-- Enter DECEL from SIXSTEP, HANDOVER or DTC (R205). A bonded quad in six-step and an axis with no active loop enter
HIZ instead. -/
def enterDecel (a : Nat) (d : Dev) : Dev :=
  let st := d.axSt a
  let d := if st = .handover then abandonHandover a d else d
  if (d.isQuad a && st ≠ .dtc) || !d.loopActive a then
    (setDriveState a .hiz d).onDtc a fun t => { t with revWaiting := t.revOn }
  else
    (((setDriveState a .decel d).setReg (CU_DECREF a) (d.reg (CU_SPEED a))).onDtc a fun t => { t with
      fromDtc := st = .dtc, decAt := d.now, vlimIn := false })

/-- STOP (R178): DECEL, HIZ or OFF by the state; it also ends the waits of a reversal (R211). -/
def doStop (a : Nat) (d : Dev) : Dev :=
  let st := d.axSt a
  if st = .recover || st = .catch_ || st = .align then setDriveState a (d.restState a) d
  else if st = .ramp then setDriveState a .hiz d
  else if st = .sixstep || st = .handover || st = .dtc then enterDecel a (d.onDtc a fun t => { t with revOn := false })
  else if (d.dtcOf a).revWaiting then d.onDtc a fun t => { t with revOn := false, revWaiting := false }
  else d.put (CU_STAT_REFUSE a) 1

/-- COAST (R178): from any driving state, HIZ if turning, else OFF. -/
def doCoast (a : Nat) (d : Dev) : Dev :=
  if (d.axSt a).driving then
    setDriveState a (d.restState a) (d.onDtc a fun t => { t with revOn := false, revWaiting := false })
  else d.put (CU_STAT_REFUSE a) 1

/-- CLEAR (R178): from FAULT, HIZ if turning, else OFF; the CU_FLT latches stay. -/
def doClear (a : Nat) (d : Dev) : Dev :=
  if d.axSt a = .fault then setDriveState a (d.restState a) d else d.put (CU_STAT_REFUSE a) 1

/-- A bonded quad above its reversal threshold: |CU_SPEED| above TH % of RATED (R210). Speeds in 0.01 Hz. -/
def Dev.quadTooFast (d : Dev) (a : Nat) : Bool :=
  d.isQuad a && d.get (CU_REV_TH a) * (d.get (CU_RATED_RATED a)) * 10 < (sx 32 (d.reg (CU_SPEED a)).toNat).natAbs * 100

/-- REVERSE (R178, R209, R210). -/
def doReverse (a : Nat) (d : Dev) : Dev :=
  let st := d.axSt a
  if !(st = .sixstep || st = .dtc) then d.put (CU_STAT_REFUSE a) 1
  else if d.quadTooFast a then raiseAx a 8 (d.put (CU_STAT_REFUSE a) 8)
  else
    let d := d.onDtc a fun t => { t with
      revOn := true, revWaiting := false, revTries := max 1 (d.get (CU_REV_TRIES a)), revDir := 1 - d.get (CU_STATE_DIR a) }
    if d.isQuad a then (setDriveState a .hiz d).onDtc a fun t => { t with revWaiting := true }
    else enterDecel a d

/-- A CU command at the governing member of the drive (R178, R182). -/
def doCmd (a : Nat) (c : CuCmd) (dir : Nat) (d : Dev) : Dev :=
  match c with
  | .start => doStart a dir d
  | .stop => doStop a d
  | .coast => doCoast a d
  | .clear => doClear a d
  | .reverse => doReverse a d

/-- Stop one axis as a requested mode change or a release of its slot does (R52, R98): by the STOP of R178, TEST to
OFF; PROBE completes by itself. -/
def stopForChange (a : Nat) (d : Dev) : Dev :=
  let st := d.axSt a
  if st = .test then setDriveState a .off d
  else if st = .probe || st = .decel || !st.driving then d
  else doStop a d

end Sys2Proof.Machine
end

