-- ==== Sys2Proof/Machine/Gate.lean ====
section
/-! DEFINITION. What a PWM generator does (R114 to R129): the counter, loads and bridging periods, the half-bridges with
dead time and refresh, vectors, the release by a detector, and the cartridge link that carries gate states (R16). -/

namespace Sys2Proof.Machine
open Sys2Proof Reg

/-! The counter (R114, R124, R129). -/

/-- The active period of the drive of an axis. -/
def Dev.per (d : Dev) (a : Nat) : Nat := d.get (PWM_APO_PER (d.lowest a))

/-- The active offset of the drive, modulo its period. -/
def Dev.ofs (d : Dev) (a : Nat) : Nat := d.get (PWM_APO_OFS (d.lowest a)) % max 1 (d.per a)

/-- The counter on the grid of the active setting. -/
def Dev.gridCnt (d : Dev) (a t : Nat) : Nat := (t + d.per a - d.ofs a) % max 1 (d.per a)

/-- The bridging period that covers an instant, as start and length (R124). -/
def Dev.bridging (d : Dev) (a t : Nat) : Option (Nat × Nat) :=
  match (d.pwmOf (d.lowest a)).bridge with
  | some (s, l) => if s ≤ t && t < s + l then some (s, l) else none
  | none => none

/-- The counter of an axis at an instant (R114), or its position in a bridging period (R124). -/
def Dev.cnt (d : Dev) (a t : Nat) : Nat :=
  match d.bridging a t with
  | some (s, _) => t - s
  | none => d.gridCnt a t

/-- The length of the period that covers an instant. -/
def Dev.perLen (d : Dev) (a t : Nat) : Nat :=
  match d.bridging a t with
  | some (_, l) => l
  | none => d.per a

/-- The first period start of an axis at or after an instant. -/
def Dev.firstStart (d : Dev) (a t : Nat) : Nat :=
  match (d.pwmOf (d.lowest a)).bridge with
  | some (s, l) => if t ≤ s + l then s + l else if d.gridCnt a t = 0 then t else t + d.per a - d.gridCnt a t
  | none => if d.gridCnt a t = 0 then t else t + d.per a - d.gridCnt a t

/-- A period of the axis starts now. -/
def Dev.atStart (d : Dev) (a : Nat) : Bool := d.timeOn && d.cnt a d.now = 0

/-! Shadows and loads (R122 to R125, R127, R132). -/

/-- The shadow registers of an axis, in the order of R122. -/
def shadowRegs (a : Nat) : List Nat :=
  [PWM_PER a, PWM_OFS a, PWM_CMPU a, PWM_CMPV a, PWM_CMPW a, PWM_CMPD a, PWM_BTRIM a, PWM_TRIG0 a, PWM_TRIG1 a]

/-- The present contents of the shadows. -/
def Dev.shadows (d : Dev) (a : Nat) : List Nat := (shadowRegs a).map fun r => (d.reg r).toNat

/-- The shadows as they stood at the start of the present cycle (R123). -/
def Dev.shadowsAtCycle (d : Dev) (a : Nat) : List Nat :=
  match (d.pwmOf a).wr with
  | some (t, l) => if d.now ≤ t then l else d.shadows a
  | none => d.shadows a

/-- The period start the next armed load of an axis belongs to (R123, R125): the first at or after its instant, on the
grid then in force (R124). -/
def Dev.loadStart (d : Dev) (a : Nat) : Option Nat := (d.pwmOf a).armed.head?.map (d.firstStart a)

/-- Copy the shadows for the load whose capture instant has come (R123). -/
def capture (a : Nat) (d : Dev) : Dev :=
  match d.loadStart a with
  | some t =>
    if t ≤ d.now + 8 && (d.pwmOf a).capt.isNone then
      let l := d.shadowsAtCycle a
      d.onPwm a fun p => { p with armed := p.armed.filter fun x => d.firstStart a x ≠ t, capt := some (t, l) }
    else d
  | none => d

/-- Write a shadow register: a load whose capture instant has come takes the old contents first, and the contents at the
start of this cycle are kept (R123). -/
def writeShadow (a addr : Nat) (w : Word) (d : Dev) : Dev :=
  let d := capture a d
  let l := d.shadowsAtCycle a
  (d.onPwm a fun p => { p with wr := some (d.now, l) }).setReg addr w

/-- Arm a load of a drive at its first period start at or after an instant (R123, R125, R129): every member's shadows. -/
def armLoad (a at_ : Nat) (d : Dev) : Dev :=
  let t := d.firstStart a at_
  d.each (d.members a) fun m d =>
    let d := d.onPwm m fun p => { p with
      armed := if p.armed.any fun x => d.firstStart a x = t then p.armed
        else p.armed.takeWhile (· < at_) ++ [at_] ++ p.armed.dropWhile (· < at_) }
    capture m d

/-- Load-all for one axis (R22, R123): the bits of members other than the lowest are ignored (R129). -/
def loadAll (a : Nat) (d : Dev) : Dev := if d.lowest a = a then armLoad a (d.now + 8) d else d

/-- A load pending (R123). -/
def Dev.ldPend (d : Dev) (a : Nat) : Bool := (d.pwmOf a).armed ≠ [] || (d.pwmOf a).capt.isSome

/-- The clamped period a load puts into force (R115). -/
def clampPer (p : Nat) : Nat := clampN 2000 50000 p

/-- The length of the bridging period from T to the grid of a new setting, or 0 (R124). -/
def bridgeLen (t per ofs : Nat) : Nat :=
  let l := (ofs % per + per - t % per) % per
  if 0 < l && l < 400 then l + per else l

/-- Withdraw the announcements of an axis's triggers for instants inside a bridging period (R124). -/
def withdraw (a : Nat) (until_ : Nat) (d : Dev) : Dev :=
  d.onClu (a / 4) fun c => { c with
    ann := c.ann.filter fun r => !(r.pos = a % 4 && (r.src = .trig0 || r.src = .trig1) && d.now ≤ r.tr && r.tr < until_) }

/-- Put captured shadows into force at a period start (R115, R122 to R124). -/
def applyLoad (a : Nat) (l : List Nat) (d : Dev) : Dev :=
  let g := fun i => l.getD i 0
  let per := clampPer (g 0 % 65536)
  let ofs := g 1 % 65536
  let changed := per ≠ d.get (PWM_APO_PER a) || ofs ≠ d.get (PWM_APO_OFS a)
  let d := if per ≠ g 0 % 65536 then d.put (PWM_STAT_PERCLIP a) 1 else d
  let d := (d.put (PWM_APO_PER a) per).put (PWM_APO_OFS a) ofs
  let d := (d.put (PWM_ACMPUV_CMPU a) (g 2)).put (PWM_ACMPUV_CMPV a) (g 3)
  let d := (d.put (PWM_ACMPWD_CMPW a) (g 4)).put (PWM_ACMPWD_CMPD a) (g 5)
  let d := (d.put (PWM_ATRIM_TRIM a) (g 6)).put (PWM_LASTLD_T a) d.now
  let len := if changed && d.lowest a = a then bridgeLen d.now per ofs else 0
  let d := d.onPwm a fun p => { p with
    capt := none, trig0 := g 7, trig1 := g 8, cmpuServes := false
    bridge := if len = 0 then p.bridge else some (d.now, len) }
  if len = 0 then d else d.each (d.members a) fun m d => withdraw m (d.now + len) d

/-! The half-bridges (R116 to R121, R127, R193, R202). -/

/-- An active compare as used in a period: scaled in a bridging period (R124), with the member's trim (R129). -/
def Dev.usedCmp (d : Dev) (a k : Nat) : Nat :=
  let p := d.per a
  let l := d.perLen a d.now
  if p ≤ k then l
  else
    let c := if l = p then k else k * l / p
    if (d.members a).length = 1 then c else (clampI 0 l ((c : Int) + d.getS (PWM_ATRIM_TRIM a))).toNat

/-- The rising and falling delays in force (R118, R119). -/
def Dev.dly (d : Dev) (a : Nat) : Nat × Nat :=
  let g := d.lowest a
  if (d.axSt g).split then (max 10 (d.get (PWM_DTS_DTR g)), max 10 (d.get (PWM_DTS_DTF g)))
  else (max 10 (d.get (PWM_DT_DT g)), max 10 (d.get (PWM_DT_DT g)))

/-- A phase current of an axis from the last tick or the freshest pair, in 6.1 mA steps: 0 U, 1 V, 2 W (R150). -/
def phaseCur (iu iw : Int) (x : Nat) : Int := if x = 0 then iu else if x = 2 then iw else -(iu + iw)

/-- The compare of the chopped phase in six-step, under the link-side ceiling (R159, R194). -/
def Dev.chopCmp (d : Dev) (a x : Nat) : Nat :=
  let g := d.lowest a
  let cmp := d.get (PWM_ACMPUV_CMPU g)
  let st := d.axSt g
  if st = .align || st = .ramp then cmp
  else
    let ceil := d.get (CU_IDC_CEIL g)
    if ceil = 0 then 0
    else
      let i := if x = 1 then (match d.freshPair g with | some (u, w) => -(u.value + w.value) | none => 0)
        else d.freshVal (g / 4) (8 * (g % 4) + (if x = 0 then 0 else 1))
      let i10 := i.natAbs * 61 / 100
      if i10 = 0 then cmp else min cmp (d.per g * ceil / i10)

/-- The effective DTC-duty compare of the phase that differs (R193). `icomp`: it runs in ICOMP. -/
def Dev.dutyCmp (d : Dev) (a x : Nat) (icomp : Bool) : Nat :=
  let g := d.lowest a
  let p := d.per g
  let cmpd := if (d.pwmOf g).cmpuServes then d.get (PWM_ACMPUV_CMPU g) else d.get (PWM_ACMPWD_CMPD g)
  if p ≤ cmpd then p
  else
    let t := d.dtcOf g
    let i := phaseCur t.prevIU t.prevIW x
    let icz : Int := d.get (CU_DWELL_ICZ g)
    let (dr, df) := d.dly g
    let out := decide (i ≥ icz)
    let inn := decide (i ≤ -icz)
    let k : Int := if !d.on (CU_DTCCFG_DTCOMP g) || i.natAbs < icz.toNat then cmpd
      else if out then (if icomp then (cmpd : Int) - dr else cmpd + dr)
      else if inn then (if icomp then (cmpd : Int) + df else cmpd - df)
      else cmpd
    let dmin := max (d.get (CU_DWELL_DMIN g)) (2 * d.get (PWM_DT_DT g))
    if k < dmin then 0 else if (p : Int) - dmin < k then p else k.toNat

/-- The active compare a phase follows, by the source of its mode (R116, R127, R159). -/
def Dev.phaseCmp (d : Dev) (a x mode : Nat) : Nat :=
  let g := d.lowest a
  let src := d.get (PWM_PAT_SRC a)
  if src = 1 then d.usedCmp a (d.chopCmp a x)
  else if src = 3 then d.usedCmp a (d.dutyCmp a x (mode = 5))
  else d.usedCmp a (if x = 0 then d.get (PWM_ACMPUV_CMPU g) else if x = 1 then d.get (PWM_ACMPUV_CMPV g)
    else d.get (PWM_ACMPWD_CMPW g))

/-- The mode of a phase (R116). -/
def Dev.phaseMode (d : Dev) (a x : Nat) : Nat :=
  if x = 0 then d.get (PWM_PAT_PU a) else if x = 1 then d.get (PWM_PAT_PV a) else d.get (PWM_PAT_PW a)

/-- The gate a mode asks for: 0 none, 1 low, 2 high. `s`: the ideal switching signal (R116). -/
def modeTarget (mode : Nat) (s : Bool) : Nat :=
  match mode with
  | 1 => 1
  | 2 => 2
  | 3 => if s then 2 else 1
  | 4 => if s then 2 else 0
  | 5 => if s then 1 else 2
  | _ => 0

/-- The gate a phase is driven to at the present instant: a released or held bridge has none (R130, R132); else by the
mode, where a refresh holds the low gate for its time in place of the high gate (R121). -/
def Dev.target (d : Dev) (a x : Nat) : Nat :=
  let p := d.pwmOf a
  if d.get ⟨PWM_FLT a, 0, 8⟩ ≠ 0 || p.held then 0
  else
    let mode := d.phaseMode a x
    let g := modeTarget mode (decide (d.cnt a d.now < d.phaseCmp a x mode))
    let fresh := match p.refAt with
      | some (t, m) => m.testBit x && d.now < t + (d.dly a).2 + max 40 (d.get (PWM_BSR_REF (d.lowest a)))
      | none => false
    if g = 2 && fresh then 1 else g

/-- The counts of an overlap of two half-open intervals. -/
def overlap (a b c e : Nat) : Nat := min b e - max a c

/-- Reckon the counts a phase has been high up to an instant (R187). `i`: the phase current of the previous tick. -/
def PhaseH.reckon (h : PhaseH) (t : Nat) (i icz : Int) : PhaseH :=
  let before := if h.old = 2 then overlap h.upd t 0 h.edge else 0
  let dead := if h.tgt = 0 then 0
    else if i.natAbs < icz.toNat then overlap h.upd t h.edge (h.edge + (h.onAt - h.edge) / 2)
    else if i < 0 then overlap h.upd t h.edge h.onAt
    else 0
  let on := if h.tgt = 2 then overlap h.upd t h.onAt t else 0
  { h with acc := h.acc + before + dead + on, upd := max h.upd t }

/-- The gate that is on in a half-bridge at an instant: 0 none, 1 low, 2 high. -/
def PhaseH.gate (h : PhaseH) (t : Nat) : Nat := if t < h.edge then h.old else if h.onAt ≤ t then h.tgt else 0

/-- A half-bridge takes a new target: the turn-off at the edge, the turn-on a dead time after it (R118); a bonded
member's trim shifts the edges of DTC-direct vectors (R202). -/
def PhaseH.follow (h : PhaseH) (t tgt dr df : Nat) (trim : Int) : PhaseH :=
  if h.tgt = tgt then h
  else
    let shift := if h.tgt = 2 && tgt = 1 then max 0 trim else if h.tgt = 1 && tgt = 2 then max 0 (-trim) else 0
    let e := t + shift.toNat
    { h with old := h.gate t, tgt := tgt, edge := e
             onAt := e + (if tgt = 2 then dr else if tgt = 1 then df else 0) }

/-- A half-bridge of a generator. -/
def PwmH.ph (p : PwmH) (x : Nat) : PhaseH := if x = 0 then p.phU else if x = 1 then p.phV else p.phW

/-- Replace a half-bridge of a generator. -/
def PwmH.setPh (p : PwmH) (x : Nat) (h : PhaseH) : PwmH :=
  if x = 0 then { p with phU := h } else if x = 1 then { p with phV := h } else { p with phW := h }

/-- Bring the half-bridges of an axis to the present instant. -/
def followPhases (a : Nat) (d : Dev) : Dev :=
  let t := d.dtcOf (d.lowest a)
  let (dr, df) := d.dly a
  let icz : Int := d.get (CU_DWELL_ICZ (d.lowest a))
  let direct := d.get (PWM_PAT_SRC a) = 2 && (d.members a).length ≠ 1
  let trim := if direct then clampI (-63) 63 (d.getS (PWM_ATRIM_TRIM a)) else 0
  d.each [0, 1, 2] fun x d =>
    let tgt := d.target a x
    d.onPwm a fun p => p.setPh x (((p.ph x).reckon d.now (phaseCur t.prevIU t.prevIW x) icz).follow d.now tgt dr df trim)

/-- The gate states of a bridge now: bit 2x high gate, bit 2x+1 low gate of phase x. -/
def PwmH.gateBits (p : PwmH) (t : Nat) : Nat :=
  let g := fun x => match (p.ph x).gate t with | 2 => 1 | 1 => 2 | _ => 0
  g 0 + 4 * g 1 + 16 * g 2

/-- The phase current flows out of, into, or in neither sense of the bridge; the phase is high counts since the last
tick, U, V, W (R187); the reckoning starts afresh. -/
def takeHigh (a : Nat) (d : Dev) : (Nat × Nat × Nat) × Dev :=
  let d := followPhases a d
  let p := d.pwmOf a
  ((p.phU.acc, p.phV.acc, p.phW.acc),
    (d.onDtc a fun t => { t with hiAt := d.now }).onPwm a fun p => { p with
      phU := { p.phU with acc := 0 }, phV := { p.phV with acc := 0 }, phW := { p.phW with acc := 0 } })

/-! Vectors (R126, R127). -/

/-- The zero vector of a DTC-duty vector (R127). -/
def zeroVec (v : Nat) : Nat :=
  let ones := v % 2 + v / 2 % 2 + v / 4 % 2
  if ones = 1 then 0 else if ones = 2 then 7 else v

/-- The mode of phase x in DTC-duty (R127). -/
def dutyMode (v x : Nat) : Nat :=
  let b := v.testBit x
  if zeroVec v = v || (zeroVec v).testBit x = b then (if b then 2 else 1) else if b then 3 else 5

/-- Put a DTC-direct vector into force on every member: each phase HIGH or LOW (R126). -/
def vectorDirect (a v : Nat) (d : Dev) : Dev :=
  let m := fun x => if v.testBit x then 2 else 1
  d.each (d.members a) fun j d =>
    followPhases j (((setPat j 2 (m 0) (m 1) (m 2) d).put (PWM_VEC_VEC j) v).put (PWM_VEC_DUTY j) 0)

/-- Deliver a DTC-duty vector to the generator; it governs from the next capture instant on (R127). -/
def deliverDuty (a v : Nat) (d : Dev) : Dev :=
  d.onPwm a fun p => { p with vecPrev := p.vecLast, vecLast := v, vecAt := d.now }

/-- Put into force at a period start the vector last delivered before the capture instant (R127). -/
def vectorDuty (a : Nat) (d : Dev) : Dev :=
  let p := d.pwmOf a
  let v := if p.vecAt + 8 < d.now then p.vecLast else p.vecPrev
  d.each (d.members a) fun j d =>
    let d := setPat j 3 (dutyMode v 0) (dutyMode v 1) (dutyMode v 2) d
    ((d.put (PWM_VEC_VEC j) v).put (PWM_VEC_ZVEC j) (zeroVec v)).put (PWM_VEC_DUTY j) 1

/-! Triggers (R128). -/

/-- The active word of a trigger of the drive's governing member (R128, R129). -/
def Dev.trigWord (d : Dev) (a n : Nat) : Nat :=
  let p := d.pwmOf (d.lowest a)
  if n = 0 then p.trig0 else p.trig1

/-- The position, lead and enable of a trigger (R128). -/
def Dev.trigPos (d : Dev) (a n : Nat) : Nat := d.trigWord a n % 65536
def Dev.trigAnn (d : Dev) (a n : Nat) : Nat := max 20 (d.trigWord a n / 65536 % 256)
def Dev.trigOn (d : Dev) (a n : Nat) : Bool := (d.trigWord a n).testBit 31 && d.trigPos a n < d.per a

/-! Release by a detector (R130 to R133). -/

/-- A detector releases a bridge: the bit is latched and its source stands asserted, every member of the drive lets go,
the unit records a fault (R130, R180, R204). -/
def detectorFault (a bit code phase : Nat) (d : Dev) : Dev :=
  let d := release a bit (d.onPwm a fun p => { p with src := p.src ||| 2 ^ bit })
  let d := d.each ((d.members a).filter (· ≠ a)) cancelLoad
  faultDrive a code phase d

/-- The release sources of an axis that are still asserted (R131). -/
def Dev.asserted (d : Dev) (a : Nat) : Nat := (d.pwmOf a).src ||| (if d.on FLT_STAT_LEVEL then 8 else 0)

/-- A write of ones to PWM_FLT (R131): a bit whose source is still asserted stays set. -/
def clearFlt (a w : Nat) (d : Dev) : Dev :=
  let keep := d.asserted a
  d.put ⟨PWM_FLT a, 0, 8⟩ ((List.range 8).foldl (fun v b =>
    if w.testBit b && !keep.testBit b then v else v + (if d.bit (PWM_FLT a) b then 2 ^ b else 0)) 0)

/-- Hidden state of the link of quad `q`. -/
def Dev.linkOf (d : Dev) (q : Nat) : LinkH := tget {} d.link q
/-- Replace hidden state of the link of quad `q`. -/
def Dev.onLink (d : Dev) (q : Nat) (f : LinkH → LinkH) : Dev := { d with link := tset {} d.link q (f (d.linkOf q)) }

/-- Count a check failure of one direction of a link (R16). -/
def linkBad (q : Nat) (down : Bool) (d : Dev) : Dev :=
  let add := fun (l : List Nat) => (l.filter fun t => d.now < t + 200000) ++ [d.now]
  d.onLink q fun l => if down then { l with badDown := add l.badDown } else { l with badUp := add l.badUp }

end Sys2Proof.Machine
end

