-- ==== Sys2Proof/Machine/SixOps.lean ====
section
/-! DEFINITION. The six-step machine of an axis (R158 to R177): steps, sampling windows, intervals and the schedule of
commutations, predictions, the speed filter, the peaks of a revolution, ramp and alignment. Times are full device times;
the registers show their low 32 bits. -/

namespace Sys2Proof.Machine
open Sys2Proof Reg

/-! Steps (R158, R159). -/

/-- The chopped, LOW and floating phase of a step: 0 U, 1 V, 2 W (R158). -/
def stepPhases (s : Nat) : Nat × Nat × Nat :=
  match s with
  | 0 => (0, 1, 2)
  | 1 => (0, 2, 1)
  | 2 => (1, 2, 0)
  | 3 => (1, 0, 2)
  | 4 => (2, 0, 1)
  | _ => (2, 1, 0)

/-- The floating phase's slope is rising: odd steps forward, even steps reverse (R158). -/
def stepRising (s dir : Nat) : Bool := (s + dir) % 2 = 1

/-- The back-EMF angle at the crossing of a step, in degrees (R158). -/
def stepAngle (s : Nat) : Nat := (330 + 60 * s) % 360

/-- The next step in a direction (R158). -/
def nextStep (s dir : Nat) : Nat := if dir = 0 then (s + 1) % 6 else (s + 5) % 6

/-- The present step and direction of an axis. -/
def Dev.step6 (d : Dev) (a : Nat) : Nat := d.get (CU_STATE_STEP a)
def Dev.dir (d : Dev) (a : Nat) : Nat := d.get (CU_STATE_DIR a)

/-- Link voltage in 10 mV units, truncated (R205). -/
def Dev.v10 (d : Dev) : Nat := d.get PSE_VLINK_VLINK / 5

/-- Regeneration is held at zero (R206): the link at or above V_REGEN0, or the CLAMP limited. -/
def Dev.regenOff (d : Dev) : Bool := d.get PSE_VTHR0_VREGEN0 ≤ d.v10 || d.on PSE_STAT_CLAMPLIM

/-- The chopped phase's mode (R159, R205): HCHOP while no axis may regenerate, in every six-step state (R67, R206). -/
def Dev.chopMode (d : Dev) (a x : Nat) : Nat :=
  if d.per a ≤ d.chopCmp a x then 2
  else if d.regenOff then 4
  else if d.axSt a = .decel then 3
  else if d.on (CU_SSCFG_CHOP a) then 3 else 4

/-- Put the phase modes of the present step into force on every member (R158, R159, R182). -/
def applyStep (a : Nat) (d : Dev) : Dev :=
  let (c, l, _) := stepPhases (d.step6 a)
  let m := fun x => if x = c then d.chopMode a c else if x = l then 1 else 0
  d.each (d.members a) fun j d => followPhases j (setPat j 1 (m 0) (m 1) (m 2) d)

/-- The axis commutates in six-step: RAMP, SIXSTEP, HANDOVER, or DECEL in six-step. -/
def Dev.sixOn (d : Dev) (a : Nat) : Bool :=
  let st := d.axSt a
  st = .ramp || st = .sixstep || st = .handover || (st = .decel && !(d.dtcOf a).fromDtc)

/-- Hall edges commutate the axis: RAMP in modes 1 and 2, SIXSTEP in mode 2 (R175). Mode 3 counts as 0. -/
def Dev.hallMode (d : Dev) (a : Nat) : Nat := if d.get (CU_HALL_MODE a) = 3 then 0 else d.get (CU_HALL_MODE a)
def Dev.hallDrives (d : Dev) (a : Nat) : Bool :=
  (d.axSt a = .ramp && d.hallMode a ≠ 0) || (d.sixOn a && d.axSt a ≠ .ramp && d.hallMode a = 2)

/-- Schedule the next commutation for an instant, at least 8 counts ahead (R160). -/
def scheduleAt (a t : Nat) (s : Option Nat) (d : Dev) : Dev :=
  let late := t < d.now + 8
  let t := if late then d.now + 8 else t
  let d := if late then d.put (CU_STAT_LATEC a) 1 else d
  (d.onSix a fun h => { h with nextC := some t, nextS := s }).put (CU_NEXTC_T a) t

/-! The speed filter and the revolution (R169, R176, R203). -/

/-- Frequency in 0.01 Hz for the time of one electrical revolution in counts, rounded (R169). -/
def freqOf (sum : Nat) : Nat := if sum = 0 then 0 else (2 * 20000000000 + sum) / (2 * sum)

/-- Empty the filter: the speed is a given one and stale (R169). -/
def seedSpeed (a : Nat) (spd : Int) (d : Dev) : Dev :=
  (((d.setReg (CU_SPEED a) (w32i spd)).put (CU_STAT_STALE a) 1).put (CU_STAT_PREDIN a) 0).onSix a fun h => { h with iv := [] }

/-- Take an interval into the filter (R169). -/
def speedIn (a t : Nat) (pred : Bool) (d : Dev) : Dev :=
  let iv := ((d.sixOf a).iv ++ [(t, pred)])
  let iv := iv.drop (iv.length - 6)
  let d := (d.onSix a fun h => { h with iv := iv }).put (CU_STAT_PREDIN a) (if iv.any (·.2) then 1 else 0)
  if iv.length < 6 then d
  else
    let f : Int := freqOf ((iv.map (·.1)).foldl (· + ·) 0)
    (d.setReg (CU_SPEED a) (w32i (if d.dir a = 1 then -f else f))).put (CU_STAT_STALE a) 0

/-- A current in 6.1 mA steps as 0.1 A steps (R176). -/
def deciAmp (i : Nat) : Nat := min 1023 (i * 61 / 1000)

/-- End a revolution for one member: report its peaks, judge which phases are low (R176). -/
def revolutionOf (a : Nat) (d : Dev) : Dev :=
  let h := d.sixOf a
  let d := ((d.put (CU_MPPEAK_PKU a) (deciAmp h.pkU)).put (CU_MPPEAK_PKV a) (deciAmp h.pkV)).put (CU_MPPEAK_PKW a) (deciAmp h.pkW)
  let big := max h.pkU (max h.pkV h.pkW)
  let low := fun p => if decide (8 * p < big) then 1 else 0
  let m := if d.get (CU_MP_MPI (d.lowest a)) ≤ big then low h.pkU + 2 * low h.pkV + 4 * low h.pkW else 0
  d.onSix a fun h => { h with pkU := 0, pkV := 0, pkW := 0, lowMask := m, lowBoth := h.lowMask &&& m }

/-- The largest reported peak of a member, in 0.1 A steps. -/
def Dev.bigPeak (d : Dev) (m : Nat) : Nat :=
  max (d.get (CU_MPPEAK_PKU m)) (max (d.get (CU_MPPEAK_PKV m)) (d.get (CU_MPPEAK_PKW m)))

/-- The shares of a bonded drive at the end of a revolution (R203): SH of each member, the tolerance count, and the
drive joins those whose trims the loop engine updates (R234). With no current in any member the spec states no share:
each takes a free value. -/
def updateShares (a : Nat) (d : Dev) : Dev :=
  let ms := d.members a
  let n := ms.length
  if n = 1 then d
  else
    let sum := (ms.map d.bigPeak).foldl (· + ·) 0
    let d := d.each ms fun m d =>
      let f := d.freeVal
      let sh := if sum = 0 then (Config.freeWord f.1).toNat % 256
        else min 255 ((2 * 128 * d.bigPeak m * n + sum) / (2 * sum))
      (if sum = 0 then f.2 else d).put (CU_BSHARE_SH a (m % 4)) sh
    let tol := d.get (CU_BTOL_SHTOL a)
    let bad := ms.filter fun m => tol < ((d.get (CU_BSHARE_SH a (m % 4)) : Int) - 128).natAbs
    let enough := d.get (CU_MP_MPI a) * 61 * n ≤ sum * 1000
    let d := match bad with
      | m :: _ => if enough then (d.put (CU_DTCSTAT_SHMEM a) (m % 4)).onDtc a fun t => { t with shBad := t.shBad + 1 }
        else d.onDtc a fun t => { t with shBad := 0 }
      | [] => d.onDtc a fun t => { t with shBad := 0 }
    d.onEng (a / 8) fun e => { e with shares := if a ∈ e.shares then e.shares else e.shares ++ [a] }

/-- One step or one flux sector has passed; the sixth ends a revolution (R176, R203). -/
def revolutionStep (a : Nat) (d : Dev) : Dev :=
  let st := d.axSt a
  if st = .sixstep || st = .handover || st = .dtc || st = .decel then
    let n := (d.sixOf a).pkSteps + 1
    if n < 6 then d.onSix a fun h => { h with pkSteps := n }
    else updateShares a ((d.onSix a fun h => { h with pkSteps := 0 }).each (d.members a) revolutionOf)
  else d

/-- Take a phase current into the peaks of its revolution (R176): U and W as sampled, V from a pair of one instant. -/
def takePeak (a x : Nat) (v : Int) (d : Dev) : Dev :=
  d.onSix a fun h =>
    if x = 0 then { h with pkU := max h.pkU v.natAbs } else if x = 1 then { h with pkV := max h.pkV v.natAbs }
    else { h with pkW := max h.pkW v.natAbs }

/-! Sampling windows (R161, R162). -/

/-- A refresh that begins this period: the counts by which the request moves later (R121, R161). -/
def Dev.refreshMove (d : Dev) (a : Nat) : Nat :=
  match (d.pwmOf (d.lowest a)).refAt with
  | some (t, _) => if t = (d.sixOf a).perT then max 40 (d.get (PWM_BSR_REF a)) + (d.dly a).1 + (d.dly a).2 else 0
  | none => 0

/-- MINWIN and BLANK as used (R161). -/
def Dev.blank (d : Dev) (a : Nat) : Nat := max 10 (d.get (CU_SAMP_BLANK a))
def Dev.minwin (d : Dev) (a : Nat) : Nat := max (d.blank a + 3) (d.get (CU_SAMP_MINWIN a))

/-- The link-side current of a tick or period in 10 mA, truncated (R194). -/
def linkCur (iu iw : Int) (n : Nat) (hi : Nat × Nat × Nat) : Int :=
  tdiv (((hi.1 : Int) * iu + (hi.2.1 : Int) * (-(iu + iw)) + (hi.2.2 : Int) * iw) * 61) (100 * (max 1 n : Nat))

/-- The link-side current of the period that ends at a period start in six-step (R194): the freshest currents of the
members over the counts each phase was high; the regeneration clamp in force (R206). -/
def periodCurrent (a : Nat) (d : Dev) : Dev :=
  let n := d.now - (d.dtcOf a).hiAt
  let cur := (d.members a).filterMap d.freshPair
  let (hi, d) := takeHigh a d
  let d := d.put (CU_DTCSTAT_REGEN0 a) (if d.regenOff then 1 else 0)
  if cur = [] then d
  else d.put (CU_IDC_IDC a) (ux 16 (linkCur ((cur.map fun x => x.1.value).foldl (· + ·) 0)
    ((cur.map fun x => x.2.value).foldl (· + ·) 0) n hi))

/-- Decide that the present period's sample is lost (R162). -/
def loseSample (a : Nat) (d : Dev) : Dev :=
  if (d.sixOf a).cls = .opened then (d.onSix a fun h => { h with cls := .lost }).bump (CU_SKIPCNT_LOST a) 1 else d

/-- Begin a period's sampling (R161, R162): the request instant and window; a window too narrow or a bridging period is
SKIPPED. -/
def beginWindow (a : Nat) (d : Dev) : Dev :=
  let d := loseSample a d
  let (c, _, _) := stepPhases (d.step6 a)
  let t := d.now
  let d := d.onSix a fun h => { h with clsPrev := h.cls, perT := t }
  let cmp := min (d.usedCmp a (d.chopCmp a c)) (d.perLen a t)
  let mv := d.refreshMove a
  let tr := t + (d.dly a).1 + d.blank a + mv
  let w : Int := (cmp : Int) - (d.dly a).1 - mv
  let skip := w < d.minwin a || (d.bridging a t).isSome
  let d := d.onSix a fun h => { h with perReq := tr, perW := t + cmp - 3, cls := if skip then .skipped else .opened }
  if skip then d.bump (CU_SKIPCNT_SKIP a) 1 else d

/-! Crossings and the schedule (R164 to R168). -/

/-- The advance and demagnetisation settings as used (R163, R165). -/
def Dev.adv (d : Dev) (a : Nat) : Nat := min 240 (d.get (CU_SSCFG_ADV a))
def Dev.demag (d : Dev) (a : Nat) : Nat := max 4 (d.get (CU_SSCFG_DEMAG a))

/-- Report T_pred and whether few samples fall in it (R165). -/
def putPred (a tp : Nat) (d : Dev) : Dev :=
  (d.put (CU_TPRED_T a) tp).put (CU_STAT_FEWSMP a) (if tp < 8 * d.per a then 1 else 0)

/-- Schedule from a crossing with an estimate in force (R165): the commutation, and the expected next crossing. -/
def scheduleFrom (a t tp : Nat) (d : Dev) : Dev :=
  let d := scheduleAt a (t + tp * (240 - d.adv a) / 480) none d
  d.onSix a fun h => { h with tExp := some (t + tp) }

/-- The intervals at a crossing (R165): T2, T1, T_pred, the last crossing, and the speed filter. -/
def intervalIn (a t : Nat) (pred : Bool) (d : Dev) : Dev :=
  let t1 := d.get (CU_T1_T a)
  let n := t - (d.sixOf a).tZc
  let tp := clampI (n / 2 : Nat) (2 * n : Nat) (2 * n - t1)
  speedIn a n pred (putPred a tp.toNat ((d.put (CU_T2_T a) t1).put (CU_T1_T a) n))

/-- The factor of G in the bound of the j-th prediction (R168). -/
def predFactor (j : Nat) : Nat := 2 * j * j + 4 * j + 1

/-- The bound of the present prediction (R168). -/
def putBound (a : Nat) (d : Dev) : Dev :=
  match (d.sixOf a).seedG with
  | some g => d.put (CU_PREDB_E a) (min 0xFFFFFFFF (predFactor (d.get (CU_STAT_NPRED a)) * g))
  | none => d.put (CU_PREDB_E a) 0xFFFFFFFF

/-- Report an observed crossing (R164): the instant, the gap, the counts, ZC_DETECTED, NPRED back to 0. -/
def observe (a t g : Nat) (d : Dev) : Dev :=
  let d := ((d.put (CU_ZCT_T a) t).put (CU_ZCGAP_PRED a) 0).put (CU_ZCGAP_G a) g
  let d := (((d.put (CU_STAT_NPRED a) 0).put (CU_PREDB_E a) 0).bump (CU_CNT_NOBS a) 1).onDtc a fun q =>
    { q with hoSince := min 255 (q.hoSince + 1) }
  raiseAx a 0 (d.onSix a fun h => { h with crossed := true, gaps := g :: h.gaps.take 2, seedG := none, lateEnd := none })

/-- Report a predicted crossing at t_exp (R166 to R168). -/
def predicted (a t : Nat) (d : Dev) : Dev :=
  let h := d.sixOf a
  let seed := if d.get (CU_STAT_NPRED a) = 0 then
      (if h.gaps.length < 3 then none else some (h.gaps.foldl max 0)) else h.seedG
  let d := (d.put (CU_ZCT_T a) t).put (CU_ZCGAP_PRED a) 1
  let d := ((d.put (CU_STAT_NPRED a) (min 8 (d.get (CU_STAT_NPRED a) + 1))).bump (CU_CNT_NPREDT a) 1).onSix a fun h =>
    { h with crossed := true, gaps := [], seedG := seed, lateEnd := none, tExp := none }
  raiseAx a 1 (putBound a d)

/-- Let the six-step machine begin a step that was just put into force at an instant (R163). -/
def beginStep (a : Nat) (d : Dev) : Dev :=
  d.onSix a fun h => { h with
    lastC := d.now, nextC := none, nextS := none, counted := false, old := none, crossed := false, rampHit := false }

/-! Start (R173, R174, R175). -/

/-- The current the start regulator holds and the measured one (R173): the largest of |i_U|, |i_W|, |i_U + i_W|. -/
def Dev.startCur (d : Dev) (a : Nat) : Int :=
  match d.freshPair a with
  | some (u, w) => max (u.value.natAbs : Int) (max (w.value.natAbs : Int) ((u.value + w.value).natAbs : Int))
  | none => 0

/-- The start regulator at a period start (R173): the active compare, and since when it stands at its maximum without
current. -/
def startRegulator (a iset : Nat) (d : Dev) : Dev :=
  let im := d.startCur a
  let top : Int := (d.per a * d.get (CU_REG_CMAXF a) / 256 : Nat)
  let cmp := clampI 0 top ((d.get (PWM_ACMPUV_CMPU a) : Int) + tdiv (((iset : Int) - im) * d.get (CU_REG_KI a)) 256)
  let dry := cmp = top && im * 4 < iset
  (d.put (PWM_ACMPUV_CMPU a) cmp.toNat).onSix a fun h => { h with
    noCurSince := if dry then (if h.noCurSince.isSome then h.noCurSince else some d.now) else none }

/-- The ramp's interval at an instant: 1/(6f) in counts, f rising linearly (R174). -/
def Dev.rampInterval (d : Dev) (a t : Nat) : Nat :=
  let dur := max 1 (d.get (CU_RAMP1_T a)) * 200000
  let f0 := max 1 (d.get (CU_RAMP0_F0 a))
  let e := min dur (t - (d.sixOf a).rampAt)
  let num : Int := (f0 : Int) * dur + ((d.get (CU_RAMP0_F1 a) : Int) - f0) * e
  2000000000 * dur / (6 * max 1 num.toNat)

/-- Enter RAMP at a step: open-loop, or by Hall edges (R174, R175). -/
def enterRamp (a s : Nat) (d : Dev) : Dev :=
  let d := setDriveState a .ramp d
  let d := (d.put (CU_STATE_STEP a) s).onSix a fun h => { h with
    rampAt := d.now, rampC := 0, rampOld := 0, rampOk := 0, rampX := none, alignEnd := none, noCurSince := none }
  let iv := d.rampInterval a d.now
  let d := beginStep a (applyStep a (d.onSix a fun h => { h with rampC := iv }))
  let d := d.put (CU_STAT_HALLUSE a) (if d.hallDrives a then 1 else 0)
  if d.hallDrives a then d else scheduleAt a (d.now + iv) none d

/-- The alignment step as used (R173). -/
def Dev.alignStep (d : Dev) (a : Nat) : Nat := if d.get (CU_ALIGN_STEP a) < 6 then d.get (CU_ALIGN_STEP a) else 0

/-- A motor at rest starts: ALIGN, or RAMP at the Hall code's step, with no phase driven while the code is invalid
(R173, R175). -/
def startFromRest (a : Nat) (d : Dev) : Dev :=
  let d := d.put (PWM_ACMPUV_CMPU a) 0
  if d.hallMode a = 0 then
    let d := (setDriveState a .align d).put (CU_STATE_STEP a) (d.alignStep a)
    applyStep a (d.onSix a fun h => { h with
      alignEnd := some (d.now + max 1 (d.get (CU_ALIGN_T a)) * 200000), noCurSince := none })
  else
    let s := d.get (CU_HALLMAP_MAP a (d.get (CU_HALLST_CODE a)))
    if s < 6 then enterRamp a s d else setPatDrive a 1 0 0 0 (enterRamp a (d.step6 a) d)

/-- Begin the phase test (R177): the bridge goes to high impedance but for the pulses. -/
def beginTest (a : Nat) (o : TestOrigin) (d : Dev) : Dev :=
  (setPatDrive a 1 0 0 0 d).onSix a fun h => { h with
    test := some o, lateEnd := none, tExp := none, nextC := none, alignEnd := none, noCurSince := none }

end Sys2Proof.Machine
end

