-- ==== Sys2Proof/Machine/DtcOps.lean ====
section
/-! DEFINITION. Direct torque control of an axis (R184 to R199) and stopping (R205 to R208): handover, the estimator, the
comparators, the table, the handback, the deceleration ramp. -/

namespace Sys2Proof.Machine
open Sys2Proof Reg

/-! Settings as used. -/

/-- The electrical speed in 0.01 Hz, signed. -/
def Dev.speed (d : Dev) (a : Nat) : Int := sx 32 (d.reg (CU_SPEED a)).toNat
/-- The handover speeds in 0.01 Hz; DN at or above UP counts as UP − 1 (CU_HO). -/
def Dev.upSpd (d : Dev) (a : Nat) : Nat := d.get (CU_HO_UP a) * 10
def Dev.dnSpd (d : Dev) (a : Nat) : Nat := min (d.get (CU_HO_DN a)) (d.get (CU_HO_UP a) - 1) * 10
/-- PSI0 in µWb. -/
def Dev.psi0 (d : Dev) (a : Nat) : Nat := (d.reg (CU_PSI0 a)).toNat
/-- The tick period in DTC-direct (R186). -/
def Dev.tickPer (d : Dev) (a : Nat) : Nat := clampN 200 50000 (d.get (CU_TICK_TICK a))
/-- DTC-duty is chosen (CU_DTCCFG). -/
def Dev.duty (d : Dev) (a : Nat) : Bool := d.on (CU_DTCCFG_DUTY a)

/-- Ticks run: HANDOVER, DTC, and DECEL under DTC (R185, R186, R197). -/
def Dev.ticking (d : Dev) (a : Nat) : Bool :=
  let st := d.axSt a
  st = .handover || st = .dtc || (st = .decel && (d.dtcOf a).fromDtc)

/-- DTC holds the bridge: DTC, and DECEL under DTC. -/
def Dev.inDtc (d : Dev) (a : Nat) : Bool :=
  let st := d.axSt a
  st = .dtc || (st = .decel && (d.dtcOf a).fromDtc)

/-- An instant is a tick's sampling instant (R186). -/
def Dev.onTick (d : Dev) (a t : Nat) : Bool :=
  if d.duty a then d.cnt a (t + 60) = 0
  else (t + d.tickPer a - d.get (PWM_APO_OFS (d.lowest a)) % d.tickPer a) % d.tickPer a = 0

/-! Handover (R196 to R198). -/

/-- The flux angle of a back-EMF angle: a quarter turn behind it in the sense of rotation (R197). -/
def fluxAngle (th dir : Nat) : Nat := (th + (if dir = 0 then 3 else 1) * 2 ^ 30) % 2 ^ 32

/-- Enter HANDOVER, seeding the estimator at a back-EMF angle in 2^-32 turns (R196, R197). -/
def enterHandover (a th : Nat) (d : Dev) : Dev :=
  let d := setDriveState a .handover d
  let (x, y) := vecAt ((d.psi0 a : Int) * 65536) (fluxAngle th (d.dir a))
  let d := (takeHigh a d).2
  d.onDtc a fun t => { t with
    psiA := x, psiB := y, hoAt := d.now, hoPass := 0, hoReady := false, prevAt := d.now, tHist := [], tickAt := none
    psiBad := 0, noInt := 0 }

/-- DTC may follow: EN and AUTOHO, and PSI0 not 0; NOPSI shows a PSI0 of 0 (R196). -/
def Dev.dtcWanted (d : Dev) (a : Nat) : Bool := d.on (CU_DTCCFG_EN a) && d.on (CU_DTCCFG_AUTOHO a)

/-- At an observed crossing in SIXSTEP: HANDOVER if all conditions of R196 hold. -/
def maybeHandover (a : Nat) (d : Dev) : Dev :=
  let fast := d.upSpd a ≤ (d.speed a).natAbs
  let clean := !d.on (CU_STAT_STALE a) && !d.on (CU_STAT_PREDIN a) && d.get (CU_STAT_NPRED a) = 0
  if d.axSt a = .sixstep && d.dtcWanted a && fast && clean && d.get (CU_HOCFG_HOLD a) ≤ (d.dtcOf a).hoSince then
    if d.psi0 a = 0 then d.put (CU_DTCSTAT_NOPSI a) 1
    else enterHandover a (degrees (stepAngle (d.step6 a))) (d.put (CU_DTCSTAT_NOPSI a) 0)
  else d

/-- The check of an observed crossing in HANDOVER (R197). -/
def checkHandover (a : Nat) (d : Dev) : Dev :=
  if d.axSt a = .handover then
    let t := d.dtcOf a
    let want := fluxAngle (degrees (stepAngle (d.step6 a))) (d.dir a)
    if angleDist (angleOf t.psiA t.psiB) want ≤ d.get (CU_HOCFG_TOL a) * 2 ^ 32 / 2880 then
      d.onDtc a fun t => { t with hoPass := t.hoPass + 1, hoReady := decide (2 ≤ t.hoPass + 1) }
    else abandonHandover a d
  else d

/-- DTC takes the bridge (R197): the held torque, the flux reference, the loop's preset, HANDOVER_DONE. -/
def takeOver (a psi : Nat) (d : Dev) : Dev :=
  let h := (d.dtcOf a).tHist
  let held := if h = [] then 0 else rha (h.foldl (· + ·) 0) h.length
  let d := setDriveState a .dtc d
  let d := (d.onDtc a fun t => { t with tHeld := some held, psiRef := psi, hoReady := false }).onSix a fun s => { s with
    nextC := none, nextS := none, tExp := none, lateEnd := none }
  let d := d.onPwm a fun p => { p with
    cmpuServes := d.duty a
    vecLast := (if p.phU.tgt = 2 then 1 else 0) + (if p.phV.tgt = 2 then 2 else 0) + (if p.phW.tgt = 2 then 4 else 0) }
  raiseAx a 6 (loopPreset a (.values (d.get (PWM_ACMPUV_CMPU a)) (some held)) d)

/-! The estimator (R187, R188). -/

/-- The sector of a flux vector, s spanning 60°·s ± 30°, the lower bound included (R188); none for the zero vector. -/
def fluxSector (x y : Int) : Option Nat :=
  let b := 3 * y * y
  let a := x * x
  if x = 0 && y = 0 then none
  else if x > 0 then
    (if b < a then some 0 else if b = a then some (if y < 0 then 0 else 1) else some (if y > 0 then 1 else 5))
  else if x = 0 then some (if y > 0 then 2 else 5)
  else (if b < a then some 3 else if b = a then some (if y < 0 then 4 else 3) else some (if y > 0 then 2 else 4))

/-- iβ of a pair of phase currents (R184). -/
def iBeta (iu iw : Int) : Int := rha ((-iu - 2 * iw) * 37837) 65536

/-- One integration of the flux (R188). `n`: counts; `hi`: counts each phase was high. -/
def integrate (a : Nat) (iu iw : Int) (n : Nat) (hi : Nat × Nat × Nat) (d : Dev) : Dev :=
  let v := d.vseg (a / 4)
  let nu : Int := hi.1
  let nv : Int := hi.2.1
  let nw : Int := hi.2.2
  let rs : Int := d.get (CU_MOTOR_RS a)
  let lk : Int := (2 : Int) ^ clampN 12 24 (d.get (CU_HOCFG_LEAK a))
  let da := tdiv (v * (2 * nu - nv - nw) * 22 * 65536) 3000000
  let db := tdiv (v * (nv - nw) * 22 * 37837) 1000000
  let ra := tdiv (rs * iu * n * 61 * 65536) 2000000000
  let rb := tdiv (rs * iBeta iu iw * n * 61 * 65536) 2000000000
  d.onDtc a fun t => { t with
    psiA := wrapS 48 (t.psiA + da - ra - tdiv t.psiA lk), psiB := wrapS 48 (t.psiB + db - rb - tdiv t.psiB lk) }

/-- The torque of the flux and currents, in mN·m (R188). -/
def Dev.torque (d : Dev) (a : Nat) (iu iw : Int) : Int :=
  let t := d.dtcOf a
  let pp : Int := clampN 1 32 (d.get (CU_DTCCFG_PP a))
  rha ((tdiv t.psiA 65536 * iBeta iu iw - tdiv t.psiB 65536 * iu) * pp * 183) 20000000

/-- |ψ| in µWb (R188). -/
def Dev.psiMag (d : Dev) (a : Nat) : Nat :=
  let t := d.dtcOf a
  let x := tdiv t.psiA 65536
  let y := tdiv t.psiB 65536
  roundSqrt (x * x + y * y).natAbs

/-! Comparators and table (R190, R191, R194, R195, R206, R207). -/

/-- The flux target under field weakening (R195; its rounding is the model's, DESIGN CHOICE, log 13). -/
def Dev.fluxTarget (d : Dev) (a : Nat) : Nat :=
  let base := if (d.reg (CU_PSIREF a)).toNat = 0 then d.psi0 a else (d.reg (CU_PSIREF a)).toNat
  let f := (d.speed a).natAbs
  if f = 0 then base
  else min base (d.get (CU_FW_FWM a) * (d.vseg (a / 4)).toNat * 440000 * 10000000 / (256 * 98696044 * f))

/-- The applied flux reference moves towards its target by at most FSLEW/256 × PSI0 a tick (R190). -/
def slewFlux (a : Nat) (d : Dev) : Dev :=
  let step : Int := (max 1 (d.get (CU_FW_FSLEW a)) * d.psi0 a / 256 : Nat)
  d.onDtc a fun t => { t with psiRef := clampI (t.psiRef - step) (t.psiRef + step) (d.fluxTarget a) }

/-- The applied torque reference (R190, R197, R206). -/
def Dev.torqueRef (d : Dev) (a : Nat) : Int :=
  let t := (d.dtcOf a).tSnap
  let w := d.speed a
  if d.regenOff && t * w < 0 then 0 else t

/-- Torque levels as DTCSTAT.TL codes them: −1, 0, +1 (R190). -/
def Dev.tl (d : Dev) (a : Nat) : Int := (d.get (CU_DTCSTAT_TL a) : Int) - 1

/-- The largest phase-current magnitude of the members: the tick's currents for the lowest, the freshest pairs of the
others (R194, R201). -/
def Dev.peakCur (d : Dev) (a : Nat) (iu iw : Int) : Nat :=
  let big := fun (u w : Int) => max u.natAbs (max w.natAbs (u + w).natAbs)
  ((d.members a).map fun m =>
    if m = a then big iu iw
    else match d.freshPair m with | some (u, w) => big u.value w.value | none => 0).foldl max 0

/-- The comparators, their overrides, and the status of R190 and R194. -/
def compareTick (a : Nat) (t : Int) (psi : Nat) (peak : Nat) (idc : Int) (d : Dev) : Dev :=
  let hf : Int := max 1 (d.get (CU_BAND_HF a))
  let ht : Int := max 1 (d.get (CU_BAND_HT a))
  let r := (d.dtcOf a).psiRef
  let f := d.get (CU_DTCSTAT_F a)
  let f := if (psi : Int) ≤ r - hf then 1 else f
  let f := if (psi : Int) ≥ r + hf then 0 else f
  let e := d.torqueRef a - t
  let tl := d.tl a
  let tl : Int := if e ≥ ht then 1 else if e ≤ -ht then -1
    else if (tl = 1 && e ≤ 0) || (tl = -1 && e ≥ 0) then 0 else tl
  let pk := decide (d.get (CU_IPK_IPK a) ≤ peak)
  let ceil := decide (t * d.speed a > 0) && decide (idc > ((d.dtcOf a).cSnap : Int))
  let quad := d.isQuad a && d.axSt a = .decel && decide (idc < -(d.get (CU_QRLIM_QRLIM a) : Int))
  let tl : Int := if pk && t > 0 then -1 else if pk && t < 0 then 1 else if ceil || quad then 0 else tl
  ((((d.put (CU_DTCSTAT_F a) f).put (CU_DTCSTAT_TL a) (tl + 1).toNat).put (CU_DTCSTAT_LIMPK a) (if pk then 1 else 0)).put
    (CU_DTCSTAT_LIMCEIL a) (if ceil then 1 else 0)).put (CU_DTCSTAT_REGEN0 a) (if d.regenOff then 1 else 0)

/-- The switching table's word of a sector for a sampling instant: a write less than 8 counts before it does not count
yet (R191). -/
def Dev.stabWord (d : Dev) (a s t : Nat) : Nat :=
  match tget (0, 0) (d.dtcOf a).stab s with
  | (w, old) => if w ≠ 0 && t < w + 8 then old else (d.reg (CU_STAB a s)).toNat

/-- The vector of a tick (R191). -/
def Dev.tableVec (d : Dev) (a s t : Nat) : Nat :=
  d.stabWord a s t / 2 ^ (3 * (3 * d.get (CU_DTCSTAT_F a) + d.get (CU_DTCSTAT_TL a))) % 8

/-- Apply the minimum dwell to a DTC-direct vector about to reach the drivers now (R192): a phase that changed state
less than DMIN counts ago keeps it, and DWELLC counts it. -/
def dwell (a v : Nat) (d : Dev) : Nat × Dev :=
  let p := d.pwmOf a
  let dmin := max (d.get (CU_DWELL_DMIN a)) (2 * d.get (PWM_DT_DT a))
  let held := fun x => (v.testBit x != decide ((p.ph x).tgt = 2)) && decide (d.now < (p.ph x).edge + dmin)
  let bit := fun x => if held x then (if (p.ph x).tgt = 2 then 2 ^ x else 0) else (if v.testBit x then 2 ^ x else 0)
  let n := ([0, 1, 2].filter held).length
  (bit 0 + bit 1 + bit 2, d.bump (CU_DTCSTAT_DWELLC a) n)

/-! Stopping (R205 to R208). -/

/-- The rate scale k of the ramp (R205). -/
def Dev.decK (d : Dev) (a : Nat) : Nat :=
  let v : Int := d.v10
  let vd : Int := d.get PSE_VTHR0_VDECEL
  let vr : Int := d.get PSE_VTHR0_VREGEN0
  if d.on PSE_STAT_CLAMPLIM then 0
  else if d.isQuad a || v < vd then 65536
  else (max 0 (tdiv ((vr - v) * 65536) (vr - vd))).toNat

/-- One update of the deceleration ramp (R205). -/
def decelRamp (a : Nat) (d : Dev) : Dev :=
  let k := d.decK a
  let dt := d.now - (d.dtcOf a).decAt
  let dw : Int := (max 1 (d.get (CU_DEC_RATE a)) * 10 * dt * k / (200000 * 65536) : Nat)
  let w := d.speed a
  let wr := sx 32 (d.reg (CU_DECREF a)).toNat
  let m := clampI ((w.natAbs : Int) - d.get (CU_DECLAG_LAG a) * 10) w.natAbs ((wr.natAbs : Int) - dw)
  let d := (d.setReg (CU_DECREF a) (w32i (sgn w * max m 0))).put (CU_DTCSTAT_VLIM a) (if k < 65536 then 1 else 0)
  let d := if k < 65536 && !(d.dtcOf a).vlimIn then raiseAx a 7 d else d
  (d.put (CU_DTCSTAT_REGEN0 a) (if d.regenOff then 1 else 0)).onDtc a fun t =>
    { t with decAt := d.now, vlimIn := decide (k < 65536) }

/-- DECEL has reached its end speed, or a bonded quad has come down to DN (R207, R208). -/
def Dev.decelDone (d : Dev) (a : Nat) : Bool :=
  let w := (d.speed a).natAbs
  let wr := (sx 32 (d.reg (CU_DECREF a)).toNat).natAbs
  let n := d.get (CU_DEC_DNSPD a) * 10
  (decide (wr ≤ n) && decide (w ≤ 2 * n)) || (d.isQuad a && decide (w ≤ d.dnSpd a))

/-- End DECEL (R208, R209): the bridge is released into HIZ; a reversal waits for rest. -/
def decelEnd (a : Nat) (d : Dev) : Dev :=
  (setDriveState a .hiz d).onDtc a fun t => { t with revWaiting := t.revOn, fromDtc := false }

/-- Run the ramp of an axis in DECEL and end it when due. -/
def decelUpdate (a : Nat) (d : Dev) : Dev :=
  if d.axSt a = .decel then
    let d := decelRamp a d
    if d.decelDone a then decelEnd a d else d
  else d

/-! Handback (R199). -/

/-- The instant at which an angle, running at one turn in `turn` counts, has gone a distance (R171, R199). -/
def afterTurn (dist turn : Nat) : Nat := dist * turn / 2 ^ 32

/-- The way from an angle to the boundary of a step in the direction of rotation, less the advance (R171). -/
def Dev.toBoundary (d : Dev) (a th s dir : Nat) : Int :=
  let b := degrees (if dir = 0 then 60 * s else 300 + 60 * s)
  let way : Nat := (if dir = 0 then b + 2 ^ 32 - th % 2 ^ 32 else th % 2 ^ 32 + 2 ^ 32 - b) % 2 ^ 32
  (way : Int) - (d.adv a * 2 ^ 32 / 2880 : Nat)

/-- Join six-step at a step with a turn time and an angle known at an instant (R171, R199): T1 and T2 are a sixth of a
turn, the commutation falls at the boundary less the advance, and the crossing of the step lies at its centre (DESIGN CHOICE, log 14). -/
def joinSix (a s th at_ turn : Nat) (d : Dev) : Dev :=
  let t1 := turn / 6
  let dir := d.dir a
  let centre := degrees (stepAngle s)
  let way := (if dir = 0 then centre + 2 ^ 32 - th % 2 ^ 32 else th % 2 ^ 32 + 2 ^ 32 - centre) % 2 ^ 32
  let ahead := way < 2 ^ 31
  let tx := if ahead then at_ + afterTurn way turn else at_ - afterTurn (2 ^ 32 - way) turn
  let d := putPred a t1 ((d.put (CU_T1_T a) t1).put (CU_T2_T a) t1)
  let d := beginStep a (applyStep a (d.put (CU_STATE_STEP a) s))
  let coming := ahead && decide (d.now < tx)
  let d := d.onSix a fun h => { h with
    tZc := if coming then tx - t1 else tx, tExp := if coming then some tx else none, crossed := !coming, gaps := [] }
  let w := d.toBoundary a th s dir
  scheduleAt a (at_ + afterTurn w.toNat turn) none d

/-- Hand a DTC axis back to six-step (R199): the step of the back-EMF angle, the matched compare, the schedule. An axis in
DECEL stays there. At speed 0 the spec states no interval: the turn time is a free value. -/
def handback (a : Nat) (d : Dev) : Dev :=
  let t := d.dtcOf a
  let f := (d.speed a).natAbs
  let (i, d) := if f = 0 then d.freeVal else (0, d)
  let turn := if f = 0 then (Config.freeWord i).toNat else 20000000000 / f
  let psi := angleOf t.psiA t.psiB
  let dir := d.dir a
  let th := (psi + (if dir = 0 then 1 else 3) * 2 ^ 30) % 2 ^ 32
  let s := (th * 6 + 2 ^ 32) / 2 ^ 32 % 6
  let v := (d.vseg (a / 4)).toNat
  let p := d.per a
  let num := p * f * d.psiMag a * 10392388498
  let den := 440000 * v * 1000000000
  let cmp := if den = 0 then p else min p ((2 * num + den) / (2 * den))
  let d := d.put (PWM_ACMPUV_CMPU a) cmp
  let d := if d.axSt a = .decel then d else setDriveState a .sixstep d
  let d := d.onDtc a fun t => { t with fromDtc := false, tHeld := none }
  raiseAx a 6 (joinSix a s th d.now turn (loopPreset a (.values cmp none) d))

end Sys2Proof.Machine
end

