-- ==== Sys2Proof/Machine/SixCross.lean ====
section
/-! DEFINITION. Back-EMF samples and what they bring about (R162 to R168), Hall edges (R175), the end of a CATCH and the
join (R170, R171, R209), the lock of a ramp (R174). -/

namespace Sys2Proof.Machine
open Sys2Proof Reg

/-! Crossings. -/

/-- An observed crossing (R164, R165, R174, R175, R196, R197). -/
def crossing (a t g : Nat) (early : Bool) (d : Dev) : Dev :=
  let d := if early then d.put (CU_STAT_EARLYZC a) 1 else d
  let d := observe a t g d
  let h := d.sixOf a
  if d.axSt a = .ramp then
    let centre := h.lastC + h.rampC / 2
    let hit := decide ((t : Int) - centre ≤ h.rampC / 4) && decide ((centre : Int) - t ≤ h.rampC / 4)
    d.onSix a fun h => { h with
      rampX := if max 2 (d.get (CU_RAMP1_N a)) ≤ h.rampOk then some t else h.rampX
      rampHit := hit, rampOk := if hit then h.rampOk + 1 else 0 }
  else if d.hallDrives a then d
  else
    let d := (intervalIn a t false d).onSix a fun h => { h with tZc := t }
    maybeHandover a (checkHandover a (scheduleFrom a t (d.get (CU_TPRED_T a)) d))

/-- A VALID sample of the floating phase: value in 4.4 mV steps and sampling instant (R163, R164). -/
def cuSample (a ts : Nat) (v : Int) (d : Dev) : Dev :=
  let h := d.sixOf a
  if !d.sixOn a || h.crossed || h.test.isSome || ts < h.lastC then d
  else
    let vs := d.vseg (a / 4)
    let e := wrapS 16 (v - wrapS 16 (tdiv vs 2 + d.getS (CU_ZCOFS_ZCOFS a)))
    let tp := if d.axSt a = .ramp then h.rampC else d.get (CU_TPRED_T a)
    let ready := decide (h.lastC + d.demag a * tp / 256 ≤ ts) && decide (114 ≤ v) && decide (v ≤ vs - 114)
    if !h.counted && !ready then d
    else
      let new := if stepRising (d.step6 a) (d.dir a) then decide (e ≥ 0) else decide (e ≤ 0)
      let d := d.onSix a fun h => { h with counted := true }
      if new then
        match h.old with
        | some (ta, ea) => crossing a (ta + (ts - ta) * ea / (ea + e.natAbs)) (ts - ta) false d
        | none => crossing a ts (ts - h.lastC) true d
      else d.onSix a fun h => { h with old := some (ts, e.natAbs) }

/-- The channel of the phase that floats now on the axis's cluster. -/
def Dev.floatCh (d : Dev) (a : Nat) : Nat := 8 * (a % 4) + 2 + (stepPhases (d.step6 a)).2.2

/-- A continuous result stands in for a dropped request when it was sampled in the window (R162). -/
def cuFallback (a ch ts : Nat) (v : Int) (d : Dev) : Dev :=
  let h := d.sixOf a
  if d.sixOn a && h.cls = .opened && ch = d.floatCh a && h.perReq ≤ ts && ts ≤ h.perW then
    cuSample a ts v ((d.onSix a fun h => { h with cls := .valid }).put (CU_STAT_FALLBK a) 1)
  else d

/-- t_exp has come with no crossing observed (R166, R198): wait for an open class, predict, or open the late window. -/
def expected (a : Nat) (d : Dev) : Dev :=
  let h := d.sixOf a
  match h.tExp with
  | none => d
  | some te =>
    if d.now < te || h.crossed || h.test.isSome || !d.sixOn a || d.axSt a = .ramp || d.hallDrives a then d
    else
      let cur := decide (h.perReq ≤ te)
      if cur && h.cls = .opened && d.now < h.perW then d
      else
        let d := if cur then loseSample a d else d
        let cls := if cur then (d.sixOf a).cls else h.clsPrev
        if cls = .valid then
          d.onSix a fun h => { h with tExp := none, lateEnd := some (te + d.get (CU_TPRED_T a) / 2) }
        else
          let d := (intervalIn a te true (predicted a te d)).onSix a fun h => { h with tZc := te }
          let d := if d.get (CU_STAT_NPRED a) < 8 then scheduleFrom a te (d.get (CU_TPRED_T a)) d
            else d.onSix a fun h => { h with nextC := none }
          if d.axSt a = .handover then abandonHandover a d else d

/-! Hall (R175). -/

/-- A filtered Hall edge with its code: the state, the step it maps to, and the commutation it drives. -/
def hallEdge (a code : Nat) (d : Dev) : Dev :=
  let d := d.put (CU_HALLST_CODE a) code
  let s := d.get (CU_HALLMAP_MAP a code)
  let h := d.sixOf a
  if 6 ≤ s then d.onSix a fun h => { h with hallBad := if h.hallBad.isSome then h.hallBad else some d.now }
  else
    let d := d.onSix a fun h => { h with hallBad := none }
    if d.hallDrives a then
      let d := if d.axSt a = .ramp then
          d.onSix a fun h => { h with rampOld := h.rampC, rampC := if h.hallAt = 0 then h.rampC else d.now - h.hallAt }
        else (intervalIn a d.now false (d.onSix a fun h => { h with tZc := h.hallAt })).onSix a fun h =>
          { h with tZc := d.now }
      scheduleAt a (d.now + d.get (CU_HALL_HDLY a)) (some s) (d.onSix a fun h => { h with hallAt := d.now })
    else d.onSix a fun _ => { h with hallBad := none, hallAt := d.now }

/-! The end of RAMP and of CATCH. -/

/-- RAMP has locked and the next crossing was observed (R174): SIXSTEP from the ramp's intervals. -/
def rampLock (a t : Nat) (d : Dev) : Dev :=
  let h := d.sixOf a
  let f : Int := freqOf (6 * h.rampC)
  let t2 := if h.rampOld = 0 then h.rampC else h.rampOld
  let tp := clampI (h.rampC / 2 : Nat) (2 * h.rampC : Nat) (2 * (h.rampC : Int) - t2)
  let d := d.put (CU_CMPX_RAMPCMP a) (d.get (PWM_ACMPUV_CMPU a))
  let d := setDriveState a .sixstep d
  let d := seedSpeed a (if d.dir a = 1 then -f else f) d
  let d := putPred a tp.toNat ((d.put (CU_T1_T a) h.rampC).put (CU_T2_T a) t2)
  let d := (d.onSix a fun h => { h with tZc := t, rampX := none, pkSteps := 0 }).put (CU_STAT_HALLUSE a)
    (if d.hallMode a = 2 then 1 else 0)
  let d := loopPreset a (.values (d.get (PWM_ACMPUV_CMPU a)) none) d
  if d.hallDrives a then d.onSix a fun h => { h with nextC := none, nextS := none } else scheduleFrom a t tp.toNat d

/-- A measured angle change over a time as a speed in 0.01 Hz, rounded (R170). -/
def speedOf (dth : Int) (dt : Nat) : Int := rha (dth * 20000000000) (65536 * max 1 dt)

/-- The end of a CATCH with its measurement (R170, R171, R173, R209). `e`: mean magnitude; `m`: θ and its change. -/
def catchEnd (a e : Nat) (m : CatchM) (d : Dev) : Dev :=
  let h := d.sixOf a
  let turning := decide (d.get (CU_CATCH_BEMFMIN a) ≤ e)
  let small := decide (m.dth.natAbs * 360 < 5 * 65536)
  if turning && small && h.catchExt < 3 then
    d.onSix a fun h => { h with catchExt := h.catchExt + 1 }
  else
    let spd := speedOf m.dth m.dt
    let dir := if m.dth < 0 then 1 else 0
    let vs := (d.vseg (a / 4)).toNat
    let beyond := decide (vs * vs < 3 * e * e)
    let d := (((d.put (CU_CATCHRES_ANGLE a) m.th).put (CU_CATCHRES_DIR a) dir).put (CU_CATCHRES_E a) e).setReg
      (CU_CATCHSPD a) (w32i spd)
    let d := raiseAx a 5 d
    let d := d.put (CU_CATCHRES_OVSP a) (if turning && !small && beyond then 1 else 0)
    if !turning || small then startFromRest a (d.onDtc a fun t => { t with revOn := false })
    else if beyond then (setDriveState a .hiz d).onDtc a fun t => { t with revOn := false, revWaiting := false }
    else
      let t := d.dtcOf a
      let other := dir ≠ d.dir a
      if t.revOn && other && t.revTries = 0 then
        (setDriveState a .hiz (d.put (CU_DTCSTAT_REVFAIL a) 1)).onDtc a fun t => { t with revOn := false, revWaiting := false }
      else
        let d := d.onDtc a fun t => { t with
          revTries := if t.revOn && other then t.revTries - 1
            else if other then max 1 (d.get (CU_REV_TRIES a)) else t.revTries
          revDir := d.dir a, revOn := other }
        d.onSix a fun h => { h with
          catchM := { m with at_ := d.now }, joinAt := some (if h.charged then d.now else d.now + d.rechargeLen a) }

/-- The matched compare of a catch (R171 step 4); with a segment voltage of 0 the spec states none: a free value. -/
def catchCmp (a : Nat) (d : Dev) : Nat × Dev :=
  let vs := (d.vseg (a / 4)).toNat
  let e := d.get (CU_CATCHRES_E a)
  let p := d.per a
  if vs = 0 then
    let f := d.freeVal
    (min p ((Config.freeWord f.1).toNat % 65536), f.2)
  else (min p ((2 * p * 1654 * e + 1000 * vs) / (2000 * vs)), d)

/-- Join a turning motor at a period start (R171): SIXSTEP in the caught direction; HANDOVER at once when fast enough;
a direction other than the commanded one is carried out as a reversal. -/
def catchJoin (a : Nat) (d : Dev) : Dev :=
  let h := d.sixOf a
  let m := h.catchM
  let f := catchCmp a d
  let d := (f.2.put (CU_CMPX_CATCHCMP a) f.1).put (PWM_ACMPUV_CMPU a) f.1
  let spd := sx 32 (d.reg (CU_CATCHSPD a)).toNat
  let s := (m.th * 6 + 65536) / 65536 % 6
  let turn := 65536 * m.dt / max 1 m.dth.natAbs
  let d := d.put (CU_STATE_DIR a) (if m.dth < 0 then 1 else 0)
  let d := setDriveState a .sixstep (d.onSix a fun h => { h with joinAt := none, pkSteps := 0 })
  let d := joinSix a s (m.th * 65536) m.at_ turn (seedSpeed a spd d)
  let d := loopPreset a (.values f.1 none) d
  if (d.dtcOf a).revOn then enterDecel a d
  else if d.dtcWanted a && d.upSpd a ≤ spd.natAbs then
    if d.psi0 a = 0 then d.put (CU_DTCSTAT_NOPSI a) 1 else enterHandover a (m.th * 65536) (d.put (CU_DTCSTAT_NOPSI a) 0)
  else d

/-- Restart a reversal after its wait (R209): CATCH with DIR inverted. -/
def reversalRestart (a : Nat) (d : Dev) : Dev :=
  let d := (d.put (CU_STATE_DIR a) (d.dtcOf a).revDir).onDtc a fun t => { t with revWaiting := false }
  if d.axSt a = .off then enterCatch a d else enterRecover a d

end Sys2Proof.Machine
end

