-- ==== Sys2Proof/Machine/Cluster.lean ====
section
/-! DEFINITION. The conversion clusters (R134 to R156): results with their flags, sequences, urgent requests with hold-off
and drops, the reference monitor, recalibration. -/

namespace Sys2Proof.Machine
open Sys2Proof Reg

/-- A converter of a cluster: 0 A, 1 B. -/
def ClusterH.conv (c : ClusterH) (x : Nat) : ConvH := if x = 0 then c.a else c.b
/-- Replace a converter of a cluster. -/
def ClusterH.onConv (c : ClusterH) (x : Nat) (f : ConvH → ConvH) : ClusterH :=
  if x = 0 then { c with a := f c.a } else { c with b := f c.b }

/-- The converter that is away, if any: 0 A, 1 B (R155). -/
def Dev.away (d : Dev) (q : Nat) : Option Nat :=
  match d.get (AC_STAT_SPLIT q) with
  | 1 => some 0
  | 2 => some 1
  | _ => none

/-- The converter that serves in place of `x` (R155). -/
def Dev.serves (d : Dev) (q x : Nat) : Nat := if d.away q = some x then 1 - x else x

/-- The reference buffer was on and settled at an instant (R147). -/
def Dev.refReady (d : Dev) (q t : Nat) : Bool :=
  let c := d.cluOf q
  (match c.refAt with | some r => decide (r + 80000 ≤ t) | none => false)
    || (decide (c.refWas.1 + 80000 ≤ t) && decide (t < c.refWas.2))

/-- A trim as it applies to a conversion whose window opened at an instant: a write applies from the first window 100 ns
or more after it (R137). -/
def Dev.trimAt (d : Dev) (q ts : Nat) (f : Fld) : Int :=
  let w := match (d.cluOf q).trims.find? fun x => x.1 = f.addr && ts < x.2.1 + 20 with
    | some x => x.2.2
    | none => d.reg f.addr
  sx f.width (wordGet w f.lo f.width)

/-- The corrected value of a raw code of a channel from a converter, sampled at an instant, and its OVR flag (R136). -/
def Dev.corrected (d : Dev) (q x ch raw ts : Nat) : Int × Bool :=
  let trim := chTrimmed ch
  correct (chSigned ch) raw (d.trimAt q ts (AC_OFS_OFS q x)) (d.trimAt q ts (AC_GAIN_GAIN q x))
    (if trim then d.trimAt q ts (AC_CHCAL_OFS q ch) else 0) (if trim then d.trimAt q ts (AC_CHCAL_GAIN q ch) else 0)

/-- Note the word a trim held before a write, for the conversions the write does not reach (R137). -/
def noteTrim (q addr : Nat) (d : Dev) : Dev :=
  d.onClu q fun c => { c with trims := (c.trims.filter fun x => d.now < x.2.1 + 100) ++ [(addr, d.now, d.reg addr)] }

/-- The flag bits of a result sampled at an instant (R138, R147, R148, R151): RNR, COVER, OVR, XTRA. -/
def Dev.flagsAt (d : Dev) (q ts : Nat) (cover ovr xtra : Bool) : Nat :=
  (if d.refReady q ts && !d.on (AC_STAT_REFBAD q) then 0 else 2 ^ 30)
    + (if cover then 2 ^ 29 else 0) + (if ovr then 2 ^ 28 else 0) + (if xtra then 2 ^ 27 else 0)

/-- Write a result register and its sampling instant (R138). -/
def putResult (addr ch : Nat) (v : Int) (ts flags : Nat) (d : Dev) : Dev :=
  let d := d.setReg addr (w32 (flags + ch * 2 ^ 14 + ux 14 v))
  { d with stamp := tset none d.stamp addr (some ts) }

/-- A sampling instant in a negative half of the pin-5 drive (R33, R151). -/
def negHalf (ts : Nat) : Bool := ts / 100000 % 2 = 1

/-- What a new continuous or urgent result of a channel brings about: peaks of the phase currents (R176), the fall of the
back-EMF while the bridge is off (R100, R209), a stand-in for a dropped request (R162). -/
def onResult (q ch ts : Nat) (v : Int) (cont : Bool) (d : Dev) : Dev :=
  if 32 ≤ ch then d
  else
    let a := 4 * q + ch / 8
    let k := ch % 8
    if k = 0 || k = 1 then
      let d := takePeak a (if k = 0 then 0 else 2) v d
      match d.freshPair a with
      | some (u, w) => if u.ts = ts then takePeak a 1 (u.value + w.value) d else d
      | none => d
    else if 2 ≤ k && k ≤ 4 then
      let d := if cont then cuFallback (d.lowest a) ch ts v d else d
      let d := d.onSix a fun h => { h with
        bemfLow := if d.bemfAtLeast a 114 then none else if h.bemfLow.isSome then h.bemfLow else some ts
        hotAt := if d.bemfAtLeast a 455 then ts else h.hotAt }
      d.onDtc a fun t => { t with revLow := if d.turning a then none else if t.revLow.isSome then t.revLow else some ts }
    else d

/-! Continuous sequences (R140, R141, R152). -/

/-- The channel of entry `n` in the pass in which an instant lies; none beyond the pass's length (R140). -/
def Dev.entryCh (d : Dev) (q x n ts : Nat) : Option Nat :=
  let c := (d.cluOf q).conv (if d.on (AC_STAT_INTLV q) then 0 else x)
  (if ts < c.at_ then c.seqOld else c.seq)[n]?

/-- A sample of a sequence entry reaches the core (R138, R152, R153). -/
def seqResult (q x n ch raw ts : Nat) (d : Dev) : Dev :=
  let (v, ovr) := d.corrected q x ch raw ts
  let cover := (d.away q).isSome && (d.on (AC_STAT_INTLV q) || d.away q = some x)
  let fl := d.flagsAt q ts cover ovr false
  if d.on (AC_STAT_INTLV q) then
    let d := (putResult (AC_RSLT q 0 n) ch v ts fl d).put (AC_RTS_T q 0 n) ts
    let c := d.cluOf q
    let other := tget 0 (if x = 0 then c.streamB else c.streamA) n
    let stale := (n ∈ c.stale) || (d.away q).isSome
    let d := d.onClu q fun c => { c with
      stale := c.stale.filter (· ≠ n)
      streamA := if x = 0 then tset 0 c.streamA n v else c.streamA
      streamB := if x = 0 then c.streamB else tset 0 c.streamB n v }
    let d := (putResult (AC_RSLT q 1 n) ch (rha (v + other) 2) ts (d.flagsAt q ts cover ovr stale) d).put (AC_RTS_T q 1 n) ts
    onResult q ch ts v true d
  else onResult q ch ts v true ((putResult (AC_RSLT q x n) ch v ts fl d).put (AC_RTS_T q x n) ts)

/-- Whether converter `x` may start a conversion at an instant: it ends before every announced request not yet served
(R144). In interleaved operation the hold-off binds the converters a request names alone. -/
def Dev.holdFree (d : Dev) (q x s : Nat) : Bool :=
  (d.cluOf q).ann.all fun r =>
    decide (s + 10 ≤ r.tr) ||
      (d.on (AC_STAT_INTLV q) && match r.src with
        | .trig0 => !d.on (if x = 0 then ⟨AC_UCFG q r.pos, 7, 1⟩ else ⟨AC_UCFG q r.pos, 15, 1⟩)
        | .trig1 => !d.on (if x = 0 then ⟨AC_UCFG q r.pos, 23, 1⟩ else ⟨AC_UCFG q r.pos, 31, 1⟩)
        | .cu => decide (d.get (AC_CUCFG_CONV q) / 2 ^ r.pos % 2 ≠ x)
        | .tick => false)

/-- The sequence a converter latches from its registers (R140, R142). -/
def Dev.seqRegs (d : Dev) (q x : Nat) : List Nat := (List.range 32).map fun n => d.get (AC_SEQ_CH q x n)

/-- LEN as used (R140). -/
def Dev.seqLen (d : Dev) (q x : Nat) : Nat := clampN 1 32 (d.get (AC_SEQCTL_LEN q x))

/-- A pass of a converter starts (R140, R152): entries, length, HKDIV after a write of CTL, and with A the interleaving. -/
def passStart (q x : Nat) (d : Dev) : Dev :=
  let d :=
    if x = 0 then
      let was := d.on (AC_STAT_INTLV q)
      let is := d.on (AC_CTL_INTLV q)
      let d := d.put (AC_STAT_INTLV q) (if is then 1 else 0)
      if is && !was then d.onClu q fun c => { c with stale := List.range 32 } else d
    else d
  let src := if d.on (AC_STAT_INTLV q) then 0 else x
  let sq := (d.seqRegs q src).take (d.seqLen q src)
  let hk := d.get (AC_CTL_HKDIV q)
  d.onClu q fun c => c.onConv x fun v => { v with
    seqOld := v.seq, seq := sq, at_ := d.now
    hkd := if v.ctlWr then hk else v.hkd, pass := if v.ctlWr then 1 else v.pass + 1, ctlWr := false }

/-! Housekeeping (R142, R148, R149, R151, R156). -/

/-- The channel of housekeeping position `k` (R142). -/
def hkChannel (x k : Nat) : Nat :=
  if x = 0 then [32, 33, 34, 35, 36, 37].getD k 37 else [5, 13, 21, 29, 32, 35].getD k 35

/-- The monitors on a housekeeping reading (R148, R149, R156). -/
def monitor (q x ch : Nat) (v : Int) (d : Dev) : Dev :=
  let d := if ch = 32 then
      d.onClu q fun c => c.onConv x fun h => { h with
        bad := if v < 11880 || 12120 < v then h.bad + 1 else 0
        good := if 11940 ≤ v && v ≤ 12060 then h.good + 1 else 0 }
    else d
  let out := (ch = 33 && (v < 14250 || 15750 < v)) || (ch = 34 && (v < 8550 || 9450 < v)) || (ch = 36 && 15526 < v)
    || (ch = 37 && (v < -16 || 16 < v))
  let d := if out && !d.on (AC_STAT_INTMON q) then raiseAdc q 3 (d.put (AC_STAT_INTMON q) 1) else d
  if ch = 36 && 400 < (v - d.get (AC_CALT_TDIE q)).natAbs then d.put (AC_STAT_CALDUE q) 1 else d

/-- Keep an ID result for the port decoding: the latest of each half sampled at least 100 µs after the reversal that began
the half (R151). -/
def keepId (q p ts : Nat) (v : Int) (d : Dev) : Dev :=
  if ts % 100000 < 20000 then d
  else d.onClu q fun c =>
    if negHalf ts then { c with idNeg := tset none c.idNeg p (some (v, ts / 100000)) }
    else { c with idPos := tset none c.idPos p (some (v, ts / 100000)) }

/-- A housekeeping slot of a converter (R142): its next channel, the result and the monitors. A frame that fails its check
leaves the register (R16). -/
def hkSlot (q x raw : Nat) (ok : Bool) (d : Dev) : Dev :=
  let k := ((d.cluOf q).conv x).hk
  let ch := hkChannel x k
  let ts := d.now - 17
  let d := d.onClu q fun c => c.onConv x fun h => { h with hk := (k + 1) % 6 }
  if ok then
    let (v, ovr) := d.corrected q x ch raw ts
    let xtra := (x = 1 && k < 4) && negHalf ts
    let d := putResult (AC_HK q x k) ch v ts (d.flagsAt q ts (decide (d.away q = some x)) ovr xtra) d
    let d := if x = 1 && k < 4 then keepId q k ts v d else d
    onResult q ch ts v true (monitor q x ch v d)
  else linkBad q false d

/-- A housekeeping slot is due: the pass count is a multiple of 2^HKDIV (R140); under covering the partner runs both
slots (R155). -/
def Dev.hkDue (d : Dev) (q x : Nat) : Bool :=
  let h := (d.cluOf q).conv (d.serves q x)
  decide (h.pass % 2 ^ h.hkd = 0)

/-! Urgent requests (R143 to R146, R155). -/

/-- The halves of a request: converter, UR index and channel (R143). -/
def Dev.halves (d : Dev) (q : Nat) (r : UReq) : List (Nat × Nat × Nat) :=
  let p := r.pos
  let half := fun (x k : Nat) (lo : Nat) =>
    if d.on ⟨AC_UCFG q p, lo + 7, 1⟩ then [(x, k, d.get ⟨AC_UCFG q p, lo, 6⟩)] else []
  match r.src with
  | .trig0 => half 0 0 0 ++ half 1 1 8
  | .trig1 => half 0 2 16 ++ half 1 3 24
  | .cu =>
    let x := d.get (AC_CUCFG_CONV q) / 2 ^ p % 2
    [(x, 4 + x, d.floatCh (4 * q + p))]
  | .tick => [(0, 4, 8 * p), (1, 5, 8 * p + 1)]

/-- Announce a request (R144); with the slot empty nothing is announced (R145). -/
def announce (q : Nat) (r : UReq) (d : Dev) : Dev :=
  if d.present q then d.onClu q fun c => { c with ann := c.ann ++ [{ r with annAt := d.now }] } else d

/-- Issue a request for its request instant (R144). -/
def request (q : Nat) (r : UReq) (d : Dev) : Dev :=
  if d.present q then d.onClu q fun c => { c with reqs := c.reqs ++ [r] } else d

/-- Rank of a request among those of one instant: position, then source (R145). -/
def UReq.rank (r : UReq) : Nat := 4 * r.pos + r.src.code

/-- Insert a request by rank. -/
def insertReq (r : UReq) : List UReq → List UReq
  | [] => [r]
  | x :: t => if r.rank < x.rank then r :: x :: t else x :: insertReq r t

/-- The converters that convert an earlier urgent request now (R145). -/
def Dev.busyConvs (d : Dev) (q : Nat) : List Nat := [0, 1].filter fun x => d.now < ((d.cluOf q).conv x).busy

/-- The cause for which a request is dropped now, or 0 (R145). `busy`: the converters that were converting an earlier
request when this instant began; `before`: those named by requests of this instant that rank first. -/
def Dev.dropCause (d : Dev) (q : Nat) (r : UReq) (names busy before : List Nat) : Nat :=
  let c := d.cluOf q
  if !(c.ann.any fun x => x.pos = r.pos && x.src = r.src && x.tr = r.tr && x.annAt + 20 ≤ r.tr) then 1
  else if names.any (fun x => d.serves q x ∈ busy) then 2
  else if names.any (fun x => x ∈ before) then 3
  else 0

/-- Drop a request (R145, R146): the counts and records of the converters it names. -/
def dropReq (q : Nat) (r : UReq) (names : List Nat) (cause : Nat) (d : Dev) : Dev :=
  let d := d.each names.eraseDups fun x d =>
    d.bump (AC_DROPCNT_CNT q x) 1 |>.setReg (AC_DROPINFO q x)
      (w32 (r.tr % 65536 * 65536 + r.pos * 16 + r.src.code * 4 + cause))
  d.onClu q fun c =>
    if c.win = d.now / 200000 then { c with drops := c.drops + 1 }
    else { c with win := d.now / 200000, drops := 1, dropRaised := false }

/-- Serve a request (R143, R155): each half opens its window now; on the partner, the second half 50 ns later. -/
def serveReq (q : Nat) (r : UReq) (hs : List (Nat × Nat × Nat)) (d : Dev) : Dev :=
  let both := hs.length = 2 && (d.away q).isSome
  d.each hs fun h d =>
    let x := d.serves q h.1
    let second := both && h.1 = 1
    let cover := x ≠ h.1 || second
    let u : UrgH := { ch := h.2.2, tr := r.tr, ts := if second then d.now + 10 else d.now, cover := cover, live := true }
    let d := d.onClu q fun c => c.onConv x fun v => { v with busy := d.now + (if both then 20 else 10) }
    d.onClu q fun c => { c with urg := tset {} c.urg (8 * r.pos + h.2.1) u }

/-- The requests of a cluster whose instant is now, ranked (R145). -/
def Dev.dueReqs (d : Dev) (q : Nat) : List UReq :=
  ((d.cluOf q).reqs.filter (·.tr = d.now)).foldl (fun l r => insertReq r l) []

/-- What the commutation unit takes from the fate of its request: the class of the period (R162), or the snapshot of a
tick's sampling instant (R186, R187, R211). -/
def cuFate (q : Nat) (r : UReq) (served : Bool) (d : Dev) : Dev :=
  let a := 4 * q + r.pos
  match r.src with
  | .cu => d.onSix a fun h => { h with cls := if served && h.cls = .opened then .valid else h.cls }
  | .tick =>
    let (hi, d) := takeHigh a (takeCeil a d)
    let t := d.dtcOf a
    let tref := match t.trefAt with
      | some w => if d.now ≤ w then t.trefOld else t.tHeld.getD (sx 32 (d.reg (CU_TREF a)).toNat)
      | none => t.tHeld.getD (sx 32 (d.reg (CU_TREF a)).toNat)
    let ceil := d.get (CU_IDC_CEIL a)
    d.onDtc a fun t => { t with
      tickAt := some d.now, hi := hi, served := served, tSnap := tref, cSnap := ceil }
  | _ => d

/-- The requests of this instant are served or dropped, one after the other by rank (R145). -/
def urgentAll (q : Nat) (busy : List Nat) : List UReq → List Nat → Dev → Dev
  | [], _, d => d
  | r :: rest, before, d =>
    let hs := d.halves q r
    let names := hs.map (·.1)
    if names = [] then urgentAll q busy rest before d
    else
      let cause := d.dropCause q r names busy before
      let d := if cause = 0 then serveReq q r hs d else dropReq q r names cause d
      urgentAll q busy rest (before ++ names) (cuFate q r (decide (cause = 0)) d)

/-- An urgent request's instant has come (R144, R145). -/
def urgentNow (q : Nat) (d : Dev) : Dev :=
  let l := d.dueReqs q
  let d := urgentAll q (d.busyConvs q) l [] d
  d.onClu q fun c => { c with
    reqs := c.reqs.filter fun r => d.now < r.tr, ann := c.ann.filter fun r => d.now < r.tr }

/-- An urgent result reaches the core (R138, R143): UR and UTS, and the commutation unit's sample (R163). A frame that
fails its check counts as a drop for its consumer (R16). -/
def urgResult (q p k raw : Nat) (ok : Bool) (d : Dev) : Dev :=
  let u := tget {} (d.cluOf q).urg (8 * p + k)
  if !u.live then d
  else
    let x := d.serves q (k % 2)
    let a := 4 * q + p
    let d := d.onClu q fun c => { c with urg := tset {} c.urg (8 * p + k) {} }
    if ok then
      let (v, ovr) := d.corrected q (if u.cover then x else k % 2) u.ch raw u.ts
      let d := putResult (AC_UR q p k) u.ch v u.ts (d.flagsAt q u.ts u.cover ovr false) d
      let d := onResult q u.ch u.ts v false (d.put (AC_UTS_T q p (k / 2)) u.tr)
      if 4 ≤ k && 2 ≤ u.ch % 8 && u.ch = d.floatCh a && (d.sixOf a).perReq = u.tr then cuSample a u.ts v d else d
    else
      let d := linkBad q false d
      if 4 ≤ k then d.onSix a fun h => { h with cls := if h.cls = .valid && h.perReq = u.tr then .opened else h.cls } else d

/-! Reference and recalibration (R147, R148, R155). -/

/-- Set or clear the reference buffer (R147): a clear is ignored while an axis of the quad is neither OFF, FAULT nor
ABSENT. -/
def setRefen (q : Nat) (on : Bool) (d : Dev) : Dev :=
  let is := d.on (AC_CTL_REFEN q)
  if on && !is then
    ((d.put (AC_CTL_REFEN q) 1).put (AC_STAT_REFRDY q) 0).onClu q fun c => { c with refAt := some d.now }
  else if !on && is && (quadAxes q).all (fun a => (d.axSt a).atRest) then
    ((d.put (AC_CTL_REFEN q) 0).put (AC_STAT_REFRDY q) 0).onClu q fun c => { c with
      refWas := (c.refAt.getD d.now, d.now), refAt := none }
  else d

/-- The reference buffer goes off with its cartridge or on DORMANT entry (R147). -/
def refOff (q : Nat) (d : Dev) : Dev :=
  ((d.put (AC_CTL_REFEN q) 0).put (AC_STAT_REFRDY q) 0).onClu q fun c => { c with
    refWas := (c.refAt.getD d.now, d.now), refAt := none }

/-- Accept or discard the new trims (R155 step 6), and go on to the rejoining. -/
def calAccept (q : Nat) (d : Dev) : Dev :=
  let c := d.cluOf q
  let x := c.calConv
  let ofs := d.getS (AC_OFS_OFS q x)
  let gain := d.getS (AC_GAIN_GAIN q x)
  let skew := d.getS (AC_SKEW_SKEW q 1)
  let ok := (c.calOfs - ofs).natAbs ≤ 512 && (c.calGain - gain).natAbs ≤ 2621 && (!c.calSkew || (c.calSk - skew).natAbs ≤ 40)
  let d := (d.put (AC_CAL_PHASE q) 5).put (AC_STAT_SKEWPH q) 0
  if ok then
    let d := (d.putI (AC_OFS_OFS q x) c.calOfs).putI (AC_GAIN_GAIN q x) c.calGain
    if c.calSkew then d.putI (AC_SKEW_SKEW q 1) c.calSk else d
  else d.put (AC_CAL_ERR q) 4

/-- End a recalibration without its rejoining: the cartridge went (R155). -/
def calLost (q : Nat) (d : Dev) : Dev :=
  if d.on (AC_STAT_CALBUSY q) then
    ((((d.put (AC_STAT_CALBUSY q) 0).put (AC_STAT_SPLIT q) 0).put (AC_STAT_SKEWPH q) 0).put (AC_CAL_PHASE q) 0).put
      (AC_CAL_ERR q) 3
  else d

end Sys2Proof.Machine
end

