-- ==== Sys2Proof/Machine/AuxOps.lean ====
section
/-! DEFINITION. The auxiliary outputs as they follow their requests and the device mode (R40 to R43, R101). -/

namespace Sys2Proof.Machine
open Sys2Proof Reg

/-! Auxiliary outputs (R40 to R43, R101). -/

/-- The outputs that are to be on: AUX_OUT, or in TRANSPORT and up to the next 1 ms boundary after it AUX_TMASK (R101). -/
def Dev.auxWanted (d : Dev) : Nat :=
  let masked := d.mode = .transport || (match d.aux.maskUntil with | some t => decide (d.now < t) | none => false)
  if masked then d.get AUX_TMASK_HOLD else d.get AUX_OUT_ON

/-- The outputs of a group (R40). -/
def groupOutputs (g : Nat) : List Nat := [4 * g, 4 * g + 1, 4 * g + 2, 4 * g + 3]

/-- Whether some output of a group is on. -/
def Dev.groupOn (d : Dev) (g : Nat) : Bool := (groupOutputs g).any d.aux.on.testBit

/-- The outputs follow their requests (R40 to R42, R101): one that turns on begins its pull-in time; a group with an output
on has its high side on, unless tripped, and defers its diagnostics; the high side of a group that loses its last output
stays on until AUX_HIGHSIDE_OFF. -/
def auxFollow (d : Dev) : Dev :=
  let w := d.auxWanted
  let old := d.aux.on
  let new_ := (List.range 16).filter fun n => w.testBit n && !old.testBit n
  let d0 := d
  let d := d.onAux fun x => { x with
    on := w, hold := x.hold &&& w
    since := new_.foldl (fun t n => tset 0 t n d.now) x.since }
  d.each [0, 1, 2, 3] fun g d =>
    let d := d.put (AUX_GSTAT_DEFER g) (if d.groupOn g then 1 else 0)
    if d.groupOn g then
      (if d.on (AUX_GSTAT_TRIP g) then d else d.put (AUX_GSTAT_HSON g) 1).onAux fun x => { x with
        offAt := tset none x.offAt g none, diag := tset none x.diag g none }
    else if d0.groupOn g then d.onAux fun x => { x with offAt := tset none x.offAt g (some d.now) }
    else d

/-- A change of mode as the outputs see it: AUX_TMASK governs in TRANSPORT, and up to the first 1 ms boundary after it
(R101). -/
def auxOnMode (old : Mode) (d : Dev) : Dev :=
  let d := if old = .transport then d.onAux fun x => { x with maskUntil := some ((d.now / 200000 + 1) * 200000) } else d
  auxFollow d

end Sys2Proof.Machine
end

