-- ==== Sys2Proof/Machine/ModeOps.lean ====
section
/-! DEFINITION. Entering a device mode (R96, R97, R98, R100): what every change does, requested or automatic. -/

namespace Sys2Proof.Machine
open Sys2Proof Reg

/-- The state of a pair (R296). -/
def Dev.pairSt (d : Dev) (p : Nat) : PairState := PairState.ofCode (d.get (LSS_PAIRST_ST p))

/-- A pair that is FAILED, SPLIT or RESET loses the roles of the window's agent and of owner of SP0 and of the CAN controllers
to the supervising pair (R359, chapter 17). -/
def loseRoles (p : Nat) (d : Dev) : Dev :=
  let d := if d.get SWC_CFG_AGENT = p then (d.put SWC_STAT_AGENTLOST 1).onWin fun w => { w with agentLost := true } else d
  let d := if d.get SP0_OWN_PAIR = p then (d.put SP0_STAT_OWNLOST 1).onSp0 fun s => { s with ownLost := true } else d
  d.each [0, 1, 2] fun c d => if d.get (CAN_OWN_PAIR c) = p then d.onCan c fun h => { h with ownLost := true } else d

/-- Put a pair into a state; LSS_SPLIT follows (R296, R312). -/
def setPairSt (p : Nat) (st : PairState) (d : Dev) : Dev :=
  let d := d.put (LSS_PAIRST_ST p) st.code
  let d := if st = .failed || st = .split || st = .reset then loseRoles p d else d
  if st = .split then d.setBit LSS_SPLIT p else d.clrBit LSS_SPLIT p

/-- A pair enters RESET: its registers take their reset values, its watchdog stops (R255, R298, R306). A split pair
raises PAIR_JOIN (R312). -/
def beginPairReset (p : Nat) (d : Dev) : Dev :=
  let d := if d.pairSt p = .split then raiseLss 11 d else d
  ((setPairSt p .reset d).onPair p fun _ => {}).onSsq fun q => { q with
    kicks := tset none q.kicks p none, resetEnd := if p ∈ q.resetEnd then q.resetEnd else q.resetEnd ++ [p] }

/-- Leaving SERVICE resets every split pair (R312). -/
def joinSplit (d : Dev) : Dev :=
  d.each (List.range 5) fun p d => if d.pairSt p = .split then beginPairReset p d else d

/-- Since when the device has been, without a break, in a mode that enters DORMANT by itself with the logic source not
LOGIC main (R102). -/
def autoTimer (m : Mode) (d : Dev) : Dev :=
  let due := (m = .standby || m = .transport || m = .safe) && d.get PSE_STAT_SRC ≠ 1
  d.onSys fun h => { h with autoSince := if due then (if h.autoSince.isSome then h.autoSince else some d.now) else none }

/-- The axes a mode does not permit in their present state (R99, R100). -/
def Dev.outOfBounds (d : Dev) (m : Mode) : List Nat := allAxes.filter fun a => !(d.axSt a).permitted m

/-- A change of mode (R97, R98, R100): PREV, MODE; a pending request is cancelled by an automatic change with reason 4;
a peal in its vote phase aborts (R110); the restart set is discarded (R305); sessions whose point the mode forbids abort
(R252); an automatic change knells the axes out of bounds; leaving SERVICE rejoins split pairs; MODE_CHANGE is raised
and the change journalled with its cause. -/
def enterMode (m : Mode) (auto : Bool) (cause : Nat) (d : Dev) : Dev :=
  let old := d.mode
  let pended := d.on SYS_MODE_PEND
  let d := ((d.put SYS_MODE_PREV old.code).put SYS_MODE_MODE m.code).put SYS_MODE_PEND 0
  let d := if pended && auto then d.put SYS_MODE_REFUSE 4 else d
  let d := d.onSys fun h => { h with pendSince := none, autoPend := false }
  let d := if d.peal.running && d.peal.tc = none then pealEnd 3 d.peal.mask 0 d else d
  let d := sessionsOnMode m (dropRestart d)
  let d := if auto && (d.outOfBounds m).length ≠ 0 then knell (d.outOfBounds m) d else d
  let d := auxOnMode old (if old = .service then joinSplit d else d)
  autoTimer m (journal 4 0 [old.code, m.code, cause] (raiseSys 0 d))

/-- A wake or warm reset changes the mode to SELFTEST (R97): PREV, MODE_CHANGE, and a MODE record once the journal is
mounted (DEDUCED, log 35). -/
def resetMode (old : Mode) (cause : Nat) (d : Dev) : Dev :=
  let d := raiseSys 0 (d.put SYS_MODE_PREV old.code)
  if d.sys.jnlOk then journal 4 0 [old.code, Mode.selftest.code, cause] d else d

/-- The automatic change to SAFE: from every mode but DORMANT, SELFTEST and LOCKOUT (R96). -/
def autoSafe (cause : Nat) (d : Dev) : Dev :=
  let m := d.mode
  if m = .dormant || m = .selftest || m = .lockout || m = .safe then d else enterMode .safe true cause d

/-- The automatic change to DEGRADED when a pair is lost with no spare left (R96, R97): taken at once from the modes that
admit it; in SAFE it is due when SAFE is left, as long as some axis has no host. -/
def autoDegraded (cause : Nat) (d : Dev) : Dev :=
  let m := d.mode
  if m = .standby || m = .armed || m = .run || m = .transport || m = .calibrate || m = .service then
    enterMode .degraded true cause d
  else d

end Sys2Proof.Machine
end

