-- ==== Sys2Proof/Machine/LockOps.lean ====
section
/-! DEFINITION. The recovery ladder of the safety sequencer: hosting, pair states, a pair's failure and what follows
(R296 to R305). -/

namespace Sys2Proof.Machine
open Sys2Proof Reg

/-- Give an axis a host: 0 to 4, or 7 for none (R303). -/
def setHost (a p : Nat) (d : Dev) : Dev := d.put (LSS_HOST_HOST (a / 8) (a % 8)) p

/-- A pair is healthy: ACTIVE or SPARE (R296). -/
def Dev.healthy (d : Dev) (p : Nat) : Bool := d.pairSt p = .active || d.pairSt p = .spare

/-- The spare: the lowest-numbered pair in SPARE (R296). -/
def Dev.spare (d : Dev) : Option Nat := (List.range 5).find? fun p => d.pairSt p = .spare

/-- Healthy pairs are ACTIVE while they host an axis or supervise, and SPARE otherwise (R296). -/
def updateRoles (d : Dev) : Dev :=
  d.each (List.range 5) fun p d =>
    if d.healthy p then setPairSt p (if d.sup = p || (d.hosted p).length ≠ 0 then .active else .spare) d else d

/-- Hold axes safe: their bits of SYS_AXSAFE are set (R100, R303). -/
def holdSafe (l : List Nat) (d : Dev) : Dev :=
  d.each l fun a d => d.setBit64 SYS_AXSAFE_LO SYS_AXSAFE_HI a

/-- Axes held safe by the ladder also have hosting NONE (R303). -/
def holdSafeNone (l : List Nat) (d : Dev) : Dev := (holdSafe l d).each l fun a d => setHost a 7 d

/-- Roles after a failure, with SPARE_NONE when no pair is left in SPARE that was in SPARE before (R303). -/
def rolesAfterFailure (d : Dev) : Dev :=
  let before := d.spare.isSome
  let d := updateRoles d
  if before && d.spare.isNone then raiseLss 6 d else d

/-- Move axes to a host at once, then the roles follow (R304). -/
def moveAll (l : List Nat) (p : Nat) (d : Dev) : Dev := rolesAfterFailure (d.each l fun a d => setHost a p d)

/-- The supervising pair has failed, its axes knelled (R303): the spare, or else the lowest-numbered ACTIVE pair,
supervises. With the spare it takes the axes; without, they are held safe and the device goes to DEGRADED. -/
def supervisorLost (p : Nat) (d : Dev) : Dev :=
  let axes := d.hosted p
  match d.spare with
  | some s => raiseLss 3 (moveAll axes s (d.put LSS_PAIRST_SUP s))
  | none =>
    match (List.range 5).find? fun m => d.pairSt m = .active with
    | some m => autoDegraded 3 (raiseLss 3 (updateRoles (holdSafeNone axes (d.put LSS_PAIRST_SUP m))))
    | none => autoSafe 4 (holdSafeNone allAxes (knell allAxes d))

/-- Begin the re-host of the failed pair at the head of the queue (R304): a destination already written for it is checked
now; with RHTO = 0 the sequencer decides at once; else the wait of step 1 runs. -/
def headDest (r : Rehost) (d : Dev) : Option Nat × Dev :=
  match r.dest with
  | some t => if d.pairSt t = .spare then (some t, d) else (none, d.put LSS_REHOST_ERR 1)
  | none => (if d.get LSS_CFG_RHTO = 0 then d.spare else none, d)

/-- Deal with the failed pairs at the head of the queue until one waits for its decision (R303, R304): the supervising
pair at once; another with the spare present is re-hosted as decided, or begins its wait of step 1; with the spare
exhausted its axes are knelled, if they still run, and held safe, and the device goes to DEGRADED. -/
def ladder : Nat → Dev → Dev
  | 0, d => d
  | fuel + 1, d =>
    match d.ssq.queue with
    | [] => d
    | r :: rest =>
      if r.since.isSome || d.ssq.moving then d
      else
        let pop := fun (d : Dev) => d.onSsq fun q => { q with queue := rest }
        let axes := d.hosted r.pair
        if d.sup = r.pair then ladder fuel (pop (supervisorLost r.pair d))
        else if (List.range 5).all (fun m => !d.healthy m) then
          ladder fuel (pop (autoSafe 4 (holdSafeNone allAxes (knell allAxes d))))
        else if d.spare.isSome then
          let (dest, d) := headDest r d
          let wait := { r with since := some d.now, dest := none } :: rest
          match dest with
          | some t =>
            if r.released || axes.length = 0 then ladder fuel (raiseLss 8 (pop (moveAll axes t d)))
            else d.onSsq fun q => { q with queue := wait, moving := true, moves := axes.map fun a => (a, t) }
          | none => d.onSsq fun q => { q with queue := wait }
        else
          let d := if r.released then d else knell axes d
          ladder fuel (pop (autoDegraded 3 (holdSafeNone axes d)))

/-- End a re-host: REHOST_DONE is raised, and the next failed pair is dealt with (R304, R313). -/
def rehostDone (d : Dev) : Dev :=
  ladder 6 (raiseLss 8 (d.onSsq fun q => { q with queue := q.queue.drop 1, moving := false, moves := [] }))

/-- Re-host the axes of the pair at the head of the queue onto a pair (R304): released axes move in the next cycle,
running axes each at its first period start. -/
def rehostOnto (dest : Nat) (d : Dev) : Dev :=
  match d.ssq.queue with
  | [] => d
  | r :: _ =>
    let axes := d.hosted r.pair
    if r.released || axes.length = 0 then rehostDone (moveAll axes dest d)
    else d.onSsq fun q => { q with moving := true, moves := axes.map fun a => (a, dest) }

/-- The event and LSS_FREC cause of a pair failure (R297, R298). -/
inductive FailCause where
  | mismatch | doubleFault | watchdog
  deriving DecidableEq, Repr

/-- The LSS_FREC.CAUSE code. -/
def FailCause.code : FailCause → Nat
  | .mismatch => 1 | .doubleFault => 2 | .watchdog => 3

/-- A migration to or from a failed pair ends ABORTED (R309). -/
def abortMigration (p : Nat) (d : Dev) : Dev :=
  match d.ssq.mig with
  | some m =>
    if m.dest = p || (axesOf m.left).any (fun a => d.host a = p) then
      (d.onSsq fun q => { q with mig := none }).put LSS_MIGRES_RES 7 |>.each (axesOf m.left) fun a d =>
        d.put (LSS_HOST_MIG (a / 8) (a % 8)) 0
    else d
  | none => d

/-- Pulse FAULT_N for a mismatch, when LSS_CFG.LINE is 1 (R297, R301). -/
def mismatchPulse (d : Dev) : Dev :=
  if d.on LSS_CFG_LINE then
    lineUpdate true (d.onSsq fun q => { q with pulseEnd := some (d.now + 200 * max 1 (d.get LSS_CFG_FLTW)) })
  else d

/-- A pair fails (R297, R298, R303): it stops and becomes FAILED; LSS_FREC, LSS_FTS, the event and a record tell of it;
on a mismatch its axes are released with LSM and knelled and FAULT_N is pulsed; a failed spare leaves only the next spare
to be found; any other failure goes to the ladder. A knell is not delayed by a re-host that still runs (R313); a spare that a
re-host is moving axes to goes to the ladder too. -/
def failPair (p : Nat) (c : FailCause) (d : Dev) : Dev :=
  let st := d.pairSt p
  if st = .failed || st = .reset then d
  else
    let axes := d.hosted p
    let taking := d.ssq.moves.any fun x => x.2 = p
    let wasSpare := st = .spare && !taking
    let d := (d.bump LSS_FREC_NFAIL 1).put LSS_FREC_CAUSE c.code |>.put LSS_FREC_PAIR p |>.put LSS_FTS_T d.now
    let d := raiseLss (c.code - 1) d
    let before := d.spare.isSome
    let d := (setPairSt p .failed d).onPair p fun h => { h with wait := .none_ }
    let d := d.onSsq fun q => { q with kicks := tset none q.kicks p none }
    let d := if c = .mismatch then knell axes (d.each axes fun a d => release a 5 (recordRestart a d)) else d
    let d := abortMigration p d
    let d := journal 3 0 [p, c.code] d
    let d := if c = .mismatch then mismatchPulse d else d
    if wasSpare then (if before && d.spare.isNone then raiseLss 6 d else d)
    else
      let knelled := d.spare.isNone || d.sup = p
      let d := if knelled && c ≠ .mismatch then knell axes d else d
      ladder 6 (d.onSsq fun q => { q with queue := q.queue ++ [{
        pair := p, released := (c = .mismatch || knelled) && !taking }] })

/-- Running axes of a re-host switch at their period start; the last one ends it (R304). -/
def moveAtStart (l : List Nat) (d : Dev) : Dev :=
  match d.ssq.moves.find? (fun m => m.1 ∈ l) with
  | none => d
  | some m =>
    let here := d.ssq.moves.filter fun x => x.1 ∈ l
    let left := d.ssq.moves.filter fun x => !(x.1 ∈ l)
    let d := (d.each here fun x d => setHost x.1 m.2 d).onSsq fun q => { q with moves := left }
    if left = [] then rehostDone (rolesAfterFailure d) else updateRoles d

/-- A migration's axes switch at their first period start at or after T_m; the last one ends it (R308, R309). -/
def migrateAtStart (l : List Nat) (d : Dev) : Dev :=
  match d.ssq.mig with
  | none => d
  | some m =>
    let here := l.filter fun a => m.left.testBit a
    if m.waitPeal || d.now < m.tm || here = [] then d
    else
      let left := maskOf ((axesOf m.left).filter fun a => !(a ∈ here))
      let d := d.each here fun a d => (setHost a m.dest d).put (LSS_HOST_MIG (a / 8) (a % 8)) 0
      let d := updateRoles (d.onSsq fun q => { q with mig := if left = 0 then none else some { m with left := left } })
      if left = 0 then raiseLss 9 (d.put LSS_MIGRES_RES 2) else d

/-- A pair may be halted for debug (R311): healthy, not supervising, hosting no axis or only axes held safe, no migration or
re-host of its axes running; and the mode is SERVICE. -/
def Dev.haltOk (d : Dev) (p : Nat) : Bool :=
  let axes := d.hosted p
  d.mode = .service && d.healthy p && d.sup ≠ p && axes.all d.heldSafe && axes.all (fun a => !d.migrating a)
    && !(d.ssq.queue.any fun r => r.pair = p)

/-- A halt splits a pair (R312): comparison stops, the leading half stops under debug control. -/
def splitPair (p : Nat) (d : Dev) : Dev :=
  let d := (setPairSt p .split d).onPair p fun h => { h with halted := true }
  let d := d.onSsq fun q => { q with kicks := tset none q.kicks p none }
  journal 5 0 [10, p] (raiseLss 10 d)

end Sys2Proof.Machine
end

