-- ==== Sys2Proof/Machine/Pwm.lean ====
section
/-! DEFINITION. Commands of the PWM generators (R114 to R133): period starts, load-all, capture, refresh, triggers, the
release of a bridge by its detectors, the clearing of PWM_FLT. -/

namespace Sys2Proof.Machine
open Sys2Proof Reg

/-- The start of a period of a drive (R114 to R124, R127, R161, R173, R205): loads and bridging, refreshes, the vector of
DTC-duty, the start regulator, the deceleration ramp, the sampling window. -/
def periodOfDrive (a : Nat) (d : Dev) : Dev :=
  let ms := d.members a
  let d := d.each ms fun m d => takeCeil m (capture m (followPhases m d))
  let d := d.onPwm a fun p => { p with bridge := match p.bridge with
    | some (s, l) => if s + l ≤ d.now then none else some (s, l)
    | none => none }
  let d := d.each ms fun m d =>
    match (d.pwmOf m).capt with
    | some (t, l) => if t ≤ d.now then applyLoad m l d else d
    | none => d
  let d := d.each ms fun m d =>
    let due := maskOf ([0, 1, 2].filter fun x => (d.pwmOf m).refDue.testBit x && ((d.pwmOf m).ph x).gate d.now = 2)
    let d := d.onPwm m fun p => { p with refDue := 0, refAt := if due = 0 then none else some (d.now, due) }
    if due = 0 then d else d.bump (PWM_STAT_BSREFS m) 1
  let st := d.axSt a
  let d := if st = .align then startRegulator a (d.get (CU_ALIGN_I a)) d
    else if st = .ramp then startRegulator a (d.get (CU_RAMP1_I a)) d else d
  let d := if d.inDtc a && d.duty a then vectorDuty a d else d
  let d := if d.sixOn a && (d.sixOf a).test.isNone then
      let d := if d.axSt a = .decel then decelUpdate a d else d
      let d := if d.ticking a then d else periodCurrent a d
      if d.sixOn a then beginWindow a (applyStep a d) else d
    else d
  d.each ms followPhases

/-- PERIOD_START (R92, R114): the period start of an axis's drive; migrations and re-hosts switch (R304, R308). The
other members of a bonded drive follow the lowest (R129). -/
def execPeriodStart (a : Fin 64) : State → Out :=
  onDev fun d =>
    if d.atStart a && d.lowest a = a then
      migrateAtStart (d.members a) (moveAtStart (d.members a) (periodOfDrive a d))
    else d

/-- The axes whose load-all bits a writer may strike (R22). -/
def Dev.ldRights (d : Dev) (m : Master) (a : Nat) : Bool :=
  match m with
  | .pair p => d.host a = p || d.sup = p
  | .engine e => a / 8 = e
  | .scu => (List.range 4).any fun s =>
      d.sessRunning s && d.get (SCU_STGT_POINT s) = 4 && d.sessAxis s = some a
  | .debug => true

/-- A load-all mask of a writer (R22, R123). -/
def loadMask (m : Master) (mask : Nat) (d : Dev) : Dev :=
  d.each ((axesOf mask).filter (d.ldRights m)) loadAll

/-- LOAD_ALL (R123): a write of PWM_LDALL_LO, or of PWM_LDALL_HI. -/
def execLoadAll (m : Master) (high : Bool) (mask : Word) : State → Out :=
  onDev (loadMask m (mask.toNat * (if high then 2 ^ 32 else 1)))

/-- LOAD_CAPTURE (R123): the capture instant of an armed load. -/
def execLoadCapture (a : Fin 64) : State → Out := onDev (capture a)

/-- The phases whose high gate has been on without a break for MAXON (R121). -/
def Dev.refreshDue (d : Dev) (a : Nat) : Nat :=
  let max_ := clampN 100 2000 (d.get (PWM_BSR_MAXON (d.lowest a))) * 200
  let p := d.pwmOf a
  maskOf ([0, 1, 2].filter fun x => (p.ph x).gate d.now = 2 && decide ((p.ph x).onAt + max_ ≤ d.now))

/-- BOOTSTRAP_REFRESH (R121): the refresh is due at the next period start, in every member of the drive. -/
def execBootstrapRefresh (a : Fin 64) : State → Out :=
  onDev fun d =>
    let m := d.refreshDue a
    if m = 0 then d else d.each (d.members a) fun j d => d.onPwm j fun p => { p with refDue := p.refDue ||| m }

/-- A trigger's source code. -/
def trigSrc (n : Nat) : ReqSrc := if n = 0 then .trig0 else .trig1

/-- TRIGGER_ANNOUNCE (R128, R144): at cnt = POS − ANN, or in the period before when that is negative. -/
def execTriggerAnnounce (a : Fin 64) (n : Fin 2) : State → Out :=
  onDev fun d =>
    let tr := d.now + d.trigAnn a n
    if d.trigOn a n && (d.bridging a d.now).isNone && d.cnt a tr = d.trigPos a n && (d.bridging a tr).isNone then
      announce (a / 4) { pos := a % 4, src := trigSrc n, tr := tr } d
    else d

/-- TRIGGER_FIRE (R128): at cnt = POS the urgent request is issued; not in a bridging period (R124). -/
def execTriggerFire (a : Fin 64) (n : Fin 2) : State → Out :=
  onDev fun d =>
    if d.trigOn a n && (d.bridging a d.now).isNone && d.cnt a d.now = d.trigPos a n then
      request (a / 4) { pos := a % 4, src := trigSrc n, tr := d.now } d
    else d

/-- DESATURATION (R130, R133): DESAT is latched, the drive faults with BRIDGE, BRIDGE_FAULT is raised. -/
def execDesaturation (a : Fin 64) : State → Out :=
  onDev fun d => raise (832 + 2 * (a / 4)) (detectorFault a 0 8 0 d)

/-- OVERCURRENT (R130, R133): the comparators on |i_U|, |i_W| and |i_U + i_W|, in 0.1 A, against PWM_OCTRIP. -/
def execOvercurrent (a : Fin 64) (iu iw : Int) : State → Out :=
  onDev fun d =>
    let t : Nat := clampN 50 499 (d.get (PWM_OCTRIP_TRIP a))
    let bit := fun (i : Int) (b : Nat) => if t < i.natAbs then b else 0
    let ph := bit iu 1 + bit (iu + iw) 2 + bit iw 4
    if ph = 0 then d
    else
      let first := if ph % 2 = 1 then 1 else if ph / 2 % 2 = 1 then 2 else 3
      raiseAx a 4 (detectorFault a 1 7 first (d.put (PWM_FLT_OCPH a) ph))

/-- GATE_SUPPLY_FAULT (R130, R133): GSUV is latched, the drive faults with BRIDGE, BRIDGE_FAULT is raised. -/
def execGateSupplyFault (a : Fin 64) : State → Out :=
  onDev fun d => raise (832 + 2 * (a / 4)) (detectorFault a 2 8 0 d)

/-! The cartridge link (R16). -/

/-- GATE_FRAME (R15, R16): a gate frame arrives at the cartridge of a slot. With a good check its gate states take effect
and the link watchdog starts over; else the last valid states stay and the failure is counted. -/
def execGateFrame (q : Fin 16) (crcOk : Bool) : State → Out :=
  onDev fun d =>
    if !d.present q then d
    else
      let d := d.each (quadAxes q) followPhases
      if crcOk then
        let d := d.each (quadAxes q) fun a d => d.onPwm a fun p => { p with
          gates := if p.held then 0 else p.gateBits d.now, src := p.src &&& 0x7F }
        d.onLink q fun l => { l with validAt := d.now }
      else linkBad q true d

/-- STATUS_FRAME (R16): the flags of a cartridge, per axis for desaturation, over-current and gate supply; a frame that
fails its check is discarded. A flag no longer shown is no longer asserted (R131). -/
def execStatusFrame (q : Fin 16) (desat oc gsuv : Fin 16) (fuse hot crcOk : Bool) : State → Out :=
  onDev fun d =>
    if !d.present q then d
    else if crcOk then
      let d := d.each [0, 1, 2, 3] fun p d => d.onPwm (4 * q + p) fun h => { h with
        src := (h.src &&& 0x80) ||| ((if desat.val.testBit p then 1 else 0) + (if oc.val.testBit p then 2 else 0)
          + (if gsuv.val.testBit p then 4 else 0)) }
      d.onLink q fun l => { l with fuse := fuse, hot := hot }
    else linkBad q false d

/-- GATE_REFRESH (R16): an idle gate frame leaves the core for a present cartridge. -/
def execGateRefresh (q : Fin 16) : State → Out :=
  onDev fun d => if d.present q then d.onLink q fun l => { l with sentAt := d.now } else d

/-- LINK_WATCHDOG (R16, R130, R133): 100 ns without a valid gate frame; every gate of the cartridge goes to high impedance
until a re-arm frame, LINK is latched on its four bridges, QUAD_FAULT is raised. -/
def execLinkWatchdog (q : Fin 16) : State → Out :=
  onDev fun d =>
    if d.present q && decide ((d.linkOf q).validAt + 20 ≤ d.now) then
      let d := d.each (quadAxes q) fun a d => detectorFault a 7 8 0 (d.onPwm a fun p => { p with held := true, gates := 0 })
      raise (833 + 2 * q) d
    else d

/-- LINK_ERROR_RATE (R16, R133, R180): 16 check failures of one direction within 1 ms fault the whole quad. -/
def execLinkErrorRate (q : Fin 16) : State → Out :=
  onDev fun d =>
    let l := d.linkOf q
    let n := fun (x : List Nat) => (x.filter fun t => d.now < t + 200000).length
    if 16 ≤ n l.badUp || 16 ≤ n l.badDown then
      raise (833 + 2 * q) ((d.each (quadAxes q) fun a d => faultOne a 11 0 d).onLink q fun l =>
        { l with badUp := [], badDown := [] })
    else d

end Sys2Proof.Machine
end

