-- ==== Sys2Proof/Machine/Exc.lean ====
section
/-! DEFINITION. Taking an exception in a pair, returning from one, and delivering a refused write to its writer
(R265, R270 to R272). -/

namespace Sys2Proof.Machine
open Sys2Proof Reg

/-- The reset word of a control word (R265): PSW holds SUP = 1, every other word 0. -/
def cwReset (i : Nat) : Word := if i = 0 then 1 else 0

/-- A control word of a pair. -/
def PairH.cwGet (h : PairH) (i : Nat) : Word := tget (cwReset i) h.cw i

/-- A pair with a control word replaced. -/
def PairH.cwSet (h : PairH) (i : Nat) (w : Word) : PairH := { h with cw := tset (cwReset i) h.cw i w }

/-- A general register of a pair; g0 reads 0 (R255). -/
def PairH.gr (h : PairH) (i : Nat) : Word := if i = 0 then 0 else tget 0 h.g i

/-- A pair with a general register replaced; writes of g0 are discarded (R255). -/
def PairH.setGr (h : PairH) (i : Nat) (w : Word) : PairH := if i = 0 then h else { h with g := tset 0 h.g i w }

/-- Enter an exception (R270): save PSW and the PC, name the cause and the address, raise the privilege, go to the
vector. `w`: the access was a write; `f`: it was a fetch. -/
def PairH.enter (h : PairH) (cause sub : Nat) (w f : Bool) (addr : Word) (epc : Word) : PairH :=
  let psw := h.cwGet 0
  let h := { h with wait := .none_, took := true }
  let h := ((h.cwSet 1 psw).cwSet 2 epc).cwSet 3
    (w32 (sub * 2 ^ 12 + (if w then 2 ^ 9 else 0) + (if f then 2 ^ 8 else 0) + cause))
  let h := (h.cwSet 4 addr).cwSet 0 5
  { h with pc := h.cwGet 5 + w32 (0x40 * cause) }

/-- Return from an exception (R266): PSW takes ESAVE and the PC takes EPC. -/
def PairH.leave (h : PairH) : PairH :=
  let h' := h.cwSet 0 (h.cwGet 1 &&& 7)
  { h' with pc := h.cwGet 2 }

/-- An exception in a pair; while EXL = 1 it is a double fault and the pair fails (R270, R272, R298). -/
def pairExc (p cause sub : Nat) (w f : Bool) (addr epc : Word) (d : Dev) : Dev :=
  let h := d.pairOf p
  if (h.cwGet 0).getLsbD 2 then failPair p .doubleFault d
  else d.onPair p fun h => h.enter cause sub w f addr epc

/-- A refused access of a master (R8, R270): a pair takes a bus-error exception with the subcause; an engine's, the
SCU's or the debug access's refused access changes nothing. -/
def busError (m : Master) (sub addr : Nat) (w : Bool) (d : Dev) : Dev :=
  match m with
  | .pair p => pairExc p 4 sub w false (w32 addr) (d.pairOf p).pc d
  | _ => d

end Sys2Proof.Machine
end

