-- ==== Sys2Proof/Machine/Rights.lean ====
section
/-! DEFINITION. Who may write what (R21, R54, R238, R241, R294, R315, R366 and the write rules of the chapters), and what a
refused write brings (R8, R270). -/

namespace Sys2Proof.Machine
open Sys2Proof Reg

/-- The session that lets the strike/capture unit write an axis: RUNNING with POINT TEST at that axis (R22, R245). -/
def Dev.scuTest (d : Dev) (a : Nat) : Bool :=
  (List.range 4).any fun s => d.sessRunning s && d.get (SCU_STGT_POINT s) = 4 && d.sessAxis s = some a

/-- The per-axis PWM and commutation blocks (R21). -/
def Dev.axisRights (d : Dev) (m : Master) (a : Nat) : Bool :=
  match m with
  | .pair p => d.host a = p || d.sup = p
  | .engine e => a / 8 = e
  | .scu => d.scuTest a
  | .debug => true

/-- A cluster's block: the supervising pair and any pair that hosts an axis of the quad (chapter 7); the debug access
(R47). -/
def Dev.clusterRights (d : Dev) (m : Master) (q : Nat) : Bool :=
  match m with
  | .pair p => d.sup = p || (quadAxes q).any (fun a => d.host a = p)
  | .debug => true
  | _ => false

/-- Blocks written by the supervising pair alone, and by the debug access (R47). -/
def Dev.supRights (d : Dev) (m : Master) : Bool :=
  match m with
  | .pair p => d.sup = p
  | .debug => true
  | _ => false

/-- Perform an axis-block action of a writer, or refuse it with SUB 3 (R21). -/
def asAxisWriter (m : Master) (a addr : Nat) (f : Dev → Dev) (d : Dev) : Dev :=
  if d.axisRights m a then f d else busError m 3 addr true d

end Sys2Proof.Machine
end

