-- ==== Sys2Proof/Machine/Adc.lean ====
section
/-! DEFINITION. Commands of the conversion clusters (R134 to R157). -/

namespace Sys2Proof.Machine
open Sys2Proof Reg

/-- SAMPLE_FRAME (R15, R16, R138): a sample frame of a slot reaches the core 17 counts after its sampling instant; with a
good check its result register takes the corrected value, else the register keeps what it holds. -/
def execSampleFrame (q : Fin 16) (dest : SampleDest) (raw : Fin 16384) (crcOk : Bool) : State → Out :=
  onDev fun d =>
    if !d.present q then d
    else match dest with
      | .seq x n =>
        match d.entryCh q x n (d.now - 17) with
        | some ch => if crcOk then seqResult q x n ch raw (d.now - 17) d else linkBad q false d
        | none => d
      | .urgent p k => urgResult q p k raw crcOk d

/-- PASS_START (R140, R152): a converter that serves starts a pass, under the hold-off of R144. -/
def execPassStart (q : Fin 16) (x : Fin 2) : State → Out :=
  onDev fun d => if d.present q && d.away q ≠ some x.val && d.holdFree q x d.now then passStart q x d else d

/-- HOUSEKEEPING_SLOT (R142): the result of a slot reaches the core. -/
def execHousekeepingSlot (q : Fin 16) (x : Fin 2) (raw : Fin 16384) (crcOk : Bool) : State → Out :=
  onDev fun d => if d.present q && d.hkDue q x then hkSlot q x raw crcOk d else d

/-- URGENT_ANNOUNCE (R144, R161, R181, R186): the commutation unit of an axis announces a request 20 counts ahead: for the
floating phase of the present period, or for the next tick. -/
def execUrgentAnnounce (a : Fin 64) (tick : Bool) : State → Out :=
  onDev fun d =>
    let tr := d.now + 20
    let h := d.sixOf a
    let due := if tick then d.ticking a && d.onTick a tr else d.sixOn a && h.cls = .opened && h.perReq = tr && h.test.isNone
    if d.lowest a = a && due then
      let r : UReq := { pos := a % 4, src := if tick then .tick else .cu, tr := tr }
      request (a / 4) r (announce (a / 4) r d)
    else d

/-- URGENT_REQUEST (R145): the requests of a cluster whose instant is now are served or dropped; with the slot empty they
are neither. -/
def execUrgentRequest (q : Fin 16) : State → Out :=
  onDev fun d => if d.present q then urgentNow q d else d

/-- ADC_DROP (R146): the drops of the present window have reached DROPTH. -/
def execAdcDrop (q : Fin 16) : State → Out :=
  onDev fun d =>
    let c := d.cluOf q
    let th := d.get (AC_DROPTH_TH q)
    if th ≠ 0 && c.win = d.now / 200000 && th ≤ c.drops && !c.dropRaised then
      raiseAdc q 0 (d.onClu q fun c => { c with dropRaised := true })
    else d

/-- REF_READY (R147): 400 µs after REFEN was set. -/
def execRefReady (q : Fin 16) : State → Out :=
  onDev fun d =>
    match (d.cluOf q).refAt with
    | some t => if t + 80000 ≤ d.now then d.put (AC_STAT_REFRDY q) 1 else d
    | none => d

/-- ADC_REF (R148): three consecutive REFMON readings of one converter out of window. -/
def execAdcRef (q : Fin 16) : State → Out :=
  onDev fun d =>
    let c := d.cluOf q
    if (3 ≤ c.a.bad || 3 ≤ c.b.bad) && !d.on (AC_STAT_REFBAD q) then
      faultDriving (quadAxes q) 5 0 (raiseAdc q 1 (d.put (AC_STAT_REFBAD q) 1))
    else d

/-- REFBAD_CLEAR (R148): both converters count 64 good REFMON readings or more. -/
def execRefbadClear (q : Fin 16) : State → Out :=
  onDev fun d =>
    let c := d.cluOf q
    if 64 ≤ c.a.good && 64 ≤ c.b.good then d.put (AC_STAT_REFBAD q) 0 else d

/-- A write of AC_CAL with GO (R155): a recalibration starts, or is refused with ERR. -/
def recalibrate (q : Nat) (conv : Nat) (skew : Bool) (d : Dev) : Dev :=
  let err := if d.on (AC_STAT_CALBUSY q) then 1
    else if !d.on (AC_STAT_REFRDY q) || d.on (AC_STAT_REFBAD q) then 2
    else if !d.present q then 3 else 0
  if err ≠ 0 then d.put (AC_CAL_ERR q) err
  else
    let d := ((d.put (AC_CAL_SKEW q) (if skew then 1 else 0)).put (AC_CAL_CONV q) conv).put (AC_CAL_ERR q) 0
    ((d.put (AC_STAT_CALBUSY q) 1).put (AC_CAL_PHASE q) 1).onClu q fun c => { c with calConv := conv, calSkew := skew }

/-- RECALIBRATE (R155). -/
def execRecalibrate (m : Master) (q : Fin 16) (conv : Fin 2) (skew : Bool) : State → Out :=
  onDev fun d => if d.clusterRights m q then recalibrate q conv skew d else busError m 3 (AC_CAL q) true d

/-- CAL_LEAVE (R155 steps 1 and 2): at a pass start of the partner. -/
def execCalLeave (q : Fin 16) : State → Out :=
  onDev fun d =>
    if d.get (AC_CAL_PHASE q) = 1 then
      ((d.put (AC_STAT_SPLIT q) ((d.cluOf q).calConv + 1)).put (AC_CAL_PHASE q) 2).onClu q fun c =>
        { c with calEnd := d.now + 2000 + 40960 }
    else d

/-- CAL_OFFSET_DONE (R155 step 3): the sum of the 4,096 raw GND codes gives the OFS that brings GND to 0. -/
def execCalOffsetDone (q : Fin 16) (sum : Nat) : State → Out :=
  onDev fun d =>
    if d.get (AC_CAL_PHASE q) = 2 && decide ((d.cluOf q).calEnd ≤ d.now) then
      (d.put (AC_CAL_PHASE q) 3).onClu q fun c => { c with
        calOfs := rha (((sum : Int) - 4096 * 8192) * 16) 4096, calEnd := d.now + 40960 }
    else d

/-- CAL_GAIN_DONE (R155 step 4): the sum of the 4,096 raw REFMON codes gives the GAIN that brings REFMON to 12,000. A sum
that leaves no positive reading makes the gain a free value. -/
def execCalGainDone (q : Fin 16) (sum : Nat) : State → Out :=
  onDev fun d =>
    if d.get (AC_CAL_PHASE q) = 3 && decide ((d.cluOf q).calEnd ≤ d.now) then
      let den : Int := (sum : Int) * 16 - (d.cluOf q).calOfs * 4096
      let f := if den ≤ 0 then d.freeVal else (0, d)
      let g := if den ≤ 0 then Config.freeInt f.1 else rhaI (262144 * 192000 * 4096 - 262144 * den) den
      let d := f.2.onClu q fun c => { c with calGain := g, calEnd := d.now + 2560 }
      if (d.cluOf q).calSkew then (d.put (AC_CAL_PHASE q) 4).put (AC_STAT_SKEWPH q) 1 else calAccept q d
    else d

/-- CAL_SKEW_DONE (R155 steps 5 and 6): the measured skew; the trims are accepted or discarded. -/
def execCalSkewDone (q : Fin 16) (skew : Int) : State → Out :=
  onDev fun d =>
    if d.get (AC_CAL_PHASE q) = 4 && decide ((d.cluOf q).calEnd ≤ d.now) then
      calAccept q (d.onClu q fun c => { c with calSk := skew })
    else d

/-- CAL_REJOIN (R155 step 7, R153, R156): at a pass start of the partner. -/
def execCalRejoin (q : Fin 16) : State → Out :=
  onDev fun d =>
    if d.get (AC_CAL_PHASE q) = 5 then
      let tdie := (resultValue (d.reg (AC_HK q 0 4))).toNat
      let d := ((d.put (AC_STAT_SPLIT q) 0).put (AC_STAT_CALBUSY q) 0).put (AC_CAL_PHASE q) 0
      let d := d.put (AC_CALT_TDIE q) tdie
      let d := if d.get (AC_CAL_ERR q) = 0 then d.put (AC_STAT_CALDUE q) 0 else d
      let d := if d.on (AC_STAT_INTLV q) then d.onClu q fun c => { c with stale := List.range 32 } else d
      raiseAdc q 2 d
    else d

end Sys2Proof.Machine
end

