-- ==== Sys2Proof/Machine/Lockstep.lean ====
section
/-! DEFINITION. Commands of lock-step and recovery (R296 to R315) and of the FAULT line (R46, R301). -/

namespace Sys2Proof.Machine
open Sys2Proof Reg

/-- A write of the LSS and SSQ block by the supervising pair, else SUB 6 (R315). -/
def asSup (m : Master) (addr : Nat) (f : Dev → Dev) (d : Dev) : Dev :=
  if d.supRights m then f d else busError m 6 addr true d

/-! Pair failures (R297, R298). -/

/-- PAIR_MISMATCH (R297): the halves of a pair disagree. A split pair is not compared (R312). -/
def execPairMismatch (p : Fin 5) : State → Out :=
  onDev fun d => if d.pairSt p = .split then d else failPair p .mismatch d

/-- The watchdog period in counts (R298). -/
def Dev.wdgCounts (d : Dev) : Nat := 200 * max 100 (d.get LSS_WDG_US)

/-- PAIR_WATCHDOG (R298): LSS_WDG.US microseconds without a kick. -/
def execPairWatchdog (p : Fin 5) : State → Out :=
  onDev fun d =>
    match tget none d.ssq.kicks p with
    | some t => if t + d.wdgCounts ≤ d.now && d.pairSt p ≠ .split then failPair p .watchdog d else d
    | none => d

/-- A kick counts for its writer only, and only while its watchdog runs (R298, R315). -/
def kick (m : Master) (d : Dev) : Dev :=
  match m with
  | .pair p => d.onSsq fun q => { q with
      kicks := if (tget none q.kicks p).isSome then tset none q.kicks p (some d.now) else q.kicks }
  | _ => d

/-- WATCHDOG_KICK (R298): a write of LSS_KICK. -/
def execWatchdogKick (m : Master) : State → Out := onDev (kick m)

/-! Knells and the line (R299, R301, R311). -/

/-- The axes named by a half mask. -/
def halfMask (high : Bool) (w : Word) : List Nat := axesOf (w.toNat * (if high then 2 ^ 32 else 1))

/-- A write of SSQ_KNELL (R299); an empty mask knells nothing. -/
def writeKnell (high : Bool) (w : Word) (d : Dev) : Dev := if w = 0 then d else knell (halfMask high w) d

/-- A write of SSQ_HOLD (R311): knelled and held safe, hosting kept. -/
def writeHold (high : Bool) (w : Word) (d : Dev) : Dev :=
  if w = 0 then d else holdSafe (halfMask high w) (knell (halfMask high w) d)

/-- KNELL_REQUEST (R299): a write of SSQ_KNELL_LO or _HI. -/
def execKnellRequest (m : Master) (high : Bool) (w : Word) : State → Out :=
  onDev (asSup m (if high then SSQ_KNELL_HI else SSQ_KNELL_LO) (writeKnell high w))

/-- HOLD_SAFE (R311): a write of SSQ_HOLD_LO or _HI. -/
def execHoldSafe (m : Master) (high : Bool) (w : Word) : State → Out :=
  onDev (asSup m (if high then SSQ_HOLD_HI else SSQ_HOLD_LO) (writeHold high w))

/-- A write of SSQ_LINE (R301, R305): driving the line by it discards the restart set. -/
def writeLine (on : Bool) (d : Dev) : Dev :=
  let d := d.put SSQ_LINE_ASSERT (if on then 1 else 0)
  lineUpdate false (if on then dropRestart d else d)

/-- LINE_ASSERT_WRITE (R301): a write of SSQ_LINE. -/
def execLineAssertWrite (m : Master) (on : Bool) : State → Out := onDev (asSup m SSQ_LINE (writeLine on))

/-- FAULT_PULSE_END (R301): the mismatch pulse has lasted FLTW microseconds. -/
def execFaultPulseEnd : State → Out :=
  onDev fun d =>
    match d.ssq.pulseEnd with
    | some t => if t ≤ d.now then lineUpdate false (d.onSsq fun q => { q with pulseEnd := none }) else d
    | none => d

/-- FAULT_LINE_ASSERT (R46, R301, R305): another device pulls FAULT_N low. -/
def execFaultLineAssert : State → Out :=
  onDev fun d => lineUpdate false (d.onSsq fun q => { q with extLine := true })

/-- FAULT_LINE_RELEASE (R46): the other devices let go of FAULT_N. -/
def execFaultLineRelease : State → Out :=
  onDev fun d => lineUpdate false (d.onSsq fun q => { q with extLine := false })

/-! Re-hosting (R303, R304). -/

/-- A write of LSS_REHOST with GO (R304, R313). -/
def writeRehost (from_ dest : Nat) (d : Dev) : Dev :=
  let err := fun (n : Nat) => d.put LSS_REHOST_ERR n
  if from_ = 7 then
    if d.spare.isSome then err 3
    else if 4 < dest || d.pairSt dest ≠ .active then err 1
    else updateRoles ((d.put LSS_REHOST_ERR 0).each (allAxes.filter d.heldSafe) fun a d => setHost a dest d)
  else
    match d.ssq.queue with
    | r :: rest =>
      if r.pair = from_ then
        if d.ssq.moving then err 2
        else if 4 < dest || d.pairSt dest ≠ .spare then err 1
        else rehostOnto dest (d.put LSS_REHOST_ERR 0)
      else if rest.any (fun x => x.pair = from_) then
        (d.put LSS_REHOST_ERR 0).onSsq fun q => { q with queue := q.queue.map fun x =>
          if x.pair = from_ then { x with dest := some dest } else x }
      else if 4 < from_ || d.pairSt from_ ≠ .failed then err 3
      else err 2
    | [] => if 4 < from_ || d.pairSt from_ ≠ .failed then err 3 else err 2

/-- REHOST (R304): a write of LSS_REHOST with GO. -/
def execRehost (m : Master) (from_ dest : Fin 8) : State → Out := onDev (asSup m LSS_REHOST (writeRehost from_ dest))

/-- REHOST_TIMEOUT (R304): RHTO milliseconds without a valid write; the sequencer re-hosts onto the spare itself, or, when
the spare has gone meanwhile, deals with the pair as with the spare exhausted (R303). -/
def execRehostTimeout : State → Out :=
  onDev fun d =>
    match d.ssq.queue with
    | r :: rest =>
      match r.since with
      | some t =>
        if d.ssq.moving || d.now < t + 200000 * d.get LSS_CFG_RHTO then d
        else match d.spare with
          | some s => rehostOnto s d
          | none => ladder 6 (d.onSsq fun q => { q with queue := { r with since := none } :: rest })
      | none => d
    | [] => d

/-! Restarting (R305). -/

/-- The conditions of a restart of an axis (R305). -/
def Dev.restartOk (d : Dev) (a : Nat) : Bool :=
  d.on LSS_CFG_RESTART && d.host a ≤ 4 && !d.heldSafe a && !d.on FLT_STAT_LEVEL && AxState.permitted .catch_ d.mode

/-- RESTART (R305): a drive of the restart set whose conditions hold: its KNELL, LSM and LINE bits clear, and START is
issued in the recorded direction, or its refusal stands. -/
def execRestart (a : Fin 64) : State → Out :=
  onDev fun d =>
    match d.ssq.restart.find? fun x => x.1 = a.val with
    | some (_, dir) =>
      let ms := d.members a
      if d.lowest a = a && d.restartOk a then
        let d := d.onSsq fun q => { q with restart := q.restart.filter fun x => !(x.1 ∈ ms) }
        if ms.any fun m => d.get ⟨PWM_FLT m, 0, 3⟩ ≠ 0 || d.get ⟨PWM_FLT m, 6, 2⟩ ≠ 0 then d
        else doStart a dir (d.each ms fun m d => d.put ⟨PWM_FLT m, 3, 3⟩ 0)
      else d
    | none => d

/-! Pair reset (R306), migration (R307 to R309), supervision (R310), halts (R311). -/

/-- A write of LSS_PRST (R306). -/
def writePrst (key p : Nat) (update : Bool) (d : Dev) : Dev :=
  if key ≠ 0x3A || 4 < p then d
  else if (d.pairSt p = .failed && !(p ∈ d.ssq.dead)) || (d.pairSt p = .spare && update) then beginPairReset p d
  else d

/-- PAIR_RESET (R306): a write of LSS_PRST. -/
def execPairReset (m : Master) (key : Fin 256) (p : Fin 8) (update : Bool) : State → Out :=
  onDev (asSup m LSS_PRST (writePrst key p update))

/-- The mask of a migration, whole drives (R307). -/
def Dev.migMask (d : Dev) : List Nat :=
  let l := axesOf (d.mask64 LSS_MIGMLO LSS_MIGMHI)
  allAxes.filter fun a => (d.members a).any fun m => m ∈ l

/-- The result code a migration request is refused with, 0 for not (R307). -/
def Dev.migRefusal (d : Dev) (m : Master) : Nat :=
  let asked := axesOf (d.mask64 LSS_MIGMLO LSS_MIGMHI)
  let l := d.migMask
  let dest := d.get LSS_MIGCTL_DEST
  let hosts := match m with
    | .pair p => d.sup = p || asked.all fun a => d.host a = p
    | .debug => true
    | _ => false
  if asked = [] || !hosts then 3
  else if 4 < dest || !d.healthy dest || l.any (fun a => d.host a = dest) then 4
  else if d.ssq.mig.isSome || d.ssq.queue ≠ [] then 5
  else 0

/-- A write of LSS_MIGCTL: DEST and LEAD, and with GO a migration (R307, R308, R315). -/
def writeMigctl (m : Master) (go : Bool) (dest lead : Nat) (d : Dev) : Dev :=
  match m with
  | .pair _ | .debug =>
    let d := (d.put LSS_MIGCTL_DEST dest).put LSS_MIGCTL_LEAD lead
    if !go then d
    else
      let c := d.migRefusal m
      if c ≠ 0 then d.put LSS_MIGRES_RES c
      else
        let l := d.migMask
        let lead := max 2 (d.get LSS_MIGCTL_LEAD)
        let tm := d.now + 200 * lead
        let wait := d.peal.running
        let d := d.onSsq fun q => { q with mig := some { left := maskOf l, dest := dest, lead := lead, tm := tm, waitPeal := wait } }
        let d := d.each l fun a d => d.put (LSS_HOST_MIG (a / 8) (a % 8)) 1
        if wait then d.put LSS_MIGRES_RES 6 else (d.put LSS_MIGRES_RES 1).put LSS_MIGTS_TM tm
  | _ => busError m 6 LSS_MIGCTL true d

/-- MIGRATE (R307): a write of LSS_MIGCTL with GO. -/
def execMigrate (m : Master) (dest : Fin 8) (lead : Fin 1024) : State → Out := onDev (writeMigctl m true dest lead)

/-- A write of LSS_SUPMV with GO (R310). -/
def writeSupmv (dest : Nat) (d : Dev) : Dev :=
  if 4 < dest || !d.healthy dest || d.ssq.queue ≠ [] || d.ssq.mig.isSome || d.ssq.resetEnd ≠ [] then d.put LSS_SUPMV_ERR 1
  else raiseLss 13 (updateRoles (d.put LSS_PAIRST_SUP dest))

/-- SUP_MOVED (R310): a write of LSS_SUPMV with GO. -/
def execSupMoved (m : Master) (dest : Fin 8) : State → Out := onDev (asSup m LSS_SUPMV (writeSupmv dest))

/-- DEBUG_HALT_REQUEST (R47, R311, R312): in SERVICE the debug access arms a pair for halting and requests its halt; what
R311 does not allow is refused. -/
def execDebugHaltRequest (p : Fin 5) : State → Out :=
  onDev fun d =>
    let d := if d.mode = .service then
        d.onSsq fun q => { q with armedHalt := if p.val ∈ q.armedHalt then q.armedHalt else q.armedHalt ++ [p.val] }
      else d
    if d.haltOk p then splitPair p d else d

end Sys2Proof.Machine
end

