-- ==== Sys2Proof/Machine/Clock.lean ====
section
/-! DEFINITION. Clocks, device time and references (R79 to R93, R383). -/

namespace Sys2Proof.Machine
open Sys2Proof Reg

/-! Oscillators and device time (R79 to R83). -/

/-- PLL_LOCK (R79): both PLLs lock from the RC oscillator. -/
def execPllLock : State → Out := onDev fun d => (d.put TRU_STAT_PLLALK 1).put TRU_STAT_PLLBLK 1

/-- DEVICE_TIME_START (R80, R81, R83): at a crystal tick with both PLLs locked, device time starts at 0, or resumes from the
accumulator, which has added `add` counts meanwhile. After an outage TIMEJUMP is set. -/
def execDeviceTimeStart (add : Nat) : State → Out :=
  onDev fun d =>
    if d.timeOn || !d.on TRU_STAT_PLLALK || !d.on TRU_STAT_PLLBLK then d
    else
      let d := { d with timeOn := true, now := if d.sys.aon then d.now + add else 0 }
      let d := d.onSys fun h => { h with aon := true }
      if d.tru.outage then (d.put TRU_STAT_TIMEJUMP 1).onTru fun t => { t with outage := false } else d

/-- PLL_LOSS (R83, R96, R97): TIME_FAULT, a knell to every axis, SAFE; device time waits for the relock. -/
def execPllLoss (a b : Bool) : State → Out :=
  onDev fun d =>
    if !(a || b) then d
    else
      let d := if a then d.put TRU_STAT_PLLALK 0 else d
      let d := if b then d.put TRU_STAT_PLLBLK 0 else d
      let d := autoSafe 1 (knell allAxes (raiseTru 3 d))
      { d.onTru fun t => { t with outage := true } with timeOn := false }

/-- The reader's place among the latches of R82: pairs 0 to 4, engines 5 to 12, the debug access 13; the SCU reads no
device time. -/
def readerOf (m : Master) : Nat :=
  match m with
  | .pair p => p
  | .engine e => 5 + e
  | .debug => 13
  | .scu => 14

/-- Read TRU_NOW_LO or TRU_SITS_LO (R82): the low half, the high half latched for the reader. -/
def readLo (m : Master) (sits : Bool) (d : Dev) : Word × Dev :=
  let t := if sits then d.tru.sits else d.now
  let hi := w32 (t / 2 ^ 32)
  let d := d.onTru fun h => if sits then { h with sitsHi := tset 0 h.sitsHi (readerOf m) hi }
    else { h with nowHi := tset 0 h.nowHi (readerOf m) hi }
  (w32 t, d)

/-- TRU_NOW_LO_READ (R82): a read of TRU_NOW_LO or TRU_SITS_LO. -/
def execTruNowLoRead (m : Master) (sits : Bool) : State → Out :=
  onDev fun d =>
    let r := readLo m sits d
    { r.2 with rdata := r.1 }

/-! References (R85, R86). 0 the internal crystal, 1 the private-link master, 2 SYNC IN. -/

/-- SIMODE and PLROLE as used: 3 is 0. -/
def Dev.siMode (d : Dev) : Nat := d.get TRU_CFG_SIMODE % 3
def Dev.plRole (d : Dev) : Nat := d.get TRU_CFG_PLROLE % 3

/-- The highest-ranked candidate, 3 for none (R85, R86). -/
def Dev.bestRef (d : Dev) : Nat :=
  if d.on TRU_STAT_SIQ && d.siMode ≠ 0 then 2
  else if d.on TRU_STAT_PLQ && d.plRole = 2 then 1
  else if d.on TRU_STAT_XQ then 0 else 3

/-- Selection follows the candidates (R86, R90): a change sets SLEWING and raises REF_SWITCH. The crystal has no phase error
and no rate of its own. -/
def reselect (d : Dev) : Dev :=
  let s := d.bestRef
  if s = d.get TRU_STAT_SEL then d
  else
    let d := ((d.put TRU_STAT_SEL s).put TRU_STAT_STATE 1).onTru fun t => { t with lockSince := none }
    let d := if s = 0 || s = 3 then (d.setReg TRU_FREF 0).setReg TRU_PHERR 0 else d
    raiseTru 1 d

/-- Give or take a reference its qualification (R85): REF_QUAL, and the count starts afresh after a loss. -/
def qualify (r : Nat) (on : Bool) (d : Dev) : Dev :=
  let f := if r = 2 then TRU_STAT_SIQ else if r = 1 then TRU_STAT_PLQ else TRU_STAT_XQ
  if d.on f = on then d
  else
    let d := (d.put f (if on then 1 else 0)).onTru fun t =>
      if on then t
      else if r = 2 then { t with siGood := 0, siBad := 0 }
      else if r = 1 then { t with plGood := 0 }
      else t
    reselect (raiseTru 0 d)

/-- CRYSTAL_FAIL (R83, R85): no crystal edge for 1 ms. -/
def execCrystalFail : State → Out :=
  onDev fun d => if d.on TRU_STAT_XTALFAIL then d else qualify 0 false (raiseTru 3 (d.put TRU_STAT_XTALFAIL 1))

/-- A write of TRU_CFG (R86): a change of SIMODE or PLROLE disqualifies the reference concerned. -/
def writeTruCfg (w : Word) (d : Dev) : Dev :=
  let si := d.siMode
  let pl := d.plRole
  let d := d.setReg TRU_CFG (w &&& 0xB3)
  let d := if d.siMode ≠ si then (qualify 2 false d).onTru fun t => { t with siGood := 0, siBad := 0, siEdge := none } else d
  let d := if d.plRole ≠ pl then (qualify 1 false d).onTru fun t => { t with plGood := 0, plAt := none } else d
  reselect d

/-- TRU_CFG_WRITE (R86): a write of TRU_CFG. -/
def execTruCfgWrite (m : Master) (w : Word) : State → Out :=
  onDev fun d => match m with
    | .pair _ | .debug => writeTruCfg w d
    | _ => d

/-- Reduce modulo M into −M/2 ≤ x < M/2 (chapter 4). -/
def fold (x : Int) (m : Nat) : Int := (x + (m / 2 : Nat)) % (m : Int) - (m / 2 : Nat)

/-- The mark period of SYNC IN (R85). -/
def Dev.siPeriod (d : Dev) : Nat := if d.siMode = 2 then 20000 else 200000

/-- An interval between SYNC IN edges, in ns of the crystal, lies inside the window (R85). -/
def Dev.siInside (d : Dev) (ns : Nat) : Bool :=
  if d.siMode = 2 then 99970 ≤ ns && ns ≤ 100030 else 999800000 ≤ ns && ns ≤ 1000200000

/-- Intervals inside the window that qualify SYNC IN (R85). -/
def Dev.siNeed (d : Dev) : Nat := if d.siMode = 2 then 100 else 3

/-- SYNC_IN_EDGE (R44, R85): a rising edge, `ns` after the one before by the crystal. It is timestamped; while SYNC IN is
enabled it is a mark of the phase error and counts towards qualification or loss. -/
def execSyncInEdge (ns : Nat) : State → Out :=
  onDev fun d =>
    let first := d.tru.siEdge.isNone
    let ok := d.siInside ns
    let d := d.onTru fun t => { t with sits := d.now }
    let d := d.setReg TRU_SITS_LO (w32 d.now)
    if d.siMode = 0 then d
    else
      let e := fold ((d.now : Int) - d.get TRU_SIOFS_OFS) d.siPeriod
      let d := d.onTru fun t => { t with
        siEdge := some d.now, siE9 := e * 1000000000, siEAt := d.now
        siGood := if first then 0 else if ok then t.siGood + 1 else 0
        siBad := if first || ok then 0 else t.siBad + 1 }
      if d.get TRU_STAT_SEL = 2 then d.setReg TRU_PHERR (w32i e) else d

/-- REF_QUAL (R85): a reference gains its qualification, or SYNC IN loses it by two intervals outside the window. -/
def execRefQual (r : Fin 3) : State → Out :=
  onDev fun d =>
    if r.val = 2 then
      if d.on TRU_STAT_SIQ then (if 2 ≤ d.tru.siBad then qualify 2 false d else d)
      else if d.siMode ≠ 0 && d.siNeed ≤ d.tru.siGood then qualify 2 true d else d
    else if r.val = 1 then
      if d.plRole = 2 && decide (4 ≤ d.tru.plGood) then qualify 1 true d else d
    else if d.on TRU_STAT_XTALFAIL then qualify 0 false d else qualify 0 true d

/-- REF_LOSS_TIMEOUT (R85): no edge of SYNC IN for 1.5 s or 150 µs, or no valid sync pair for 50 ms. -/
def execRefLossTimeout (si : Bool) : State → Out :=
  onDev fun d =>
    if si then
      match d.tru.siEdge with
      | some t =>
        if t + (if d.siMode = 2 then 30000 else 300000000) ≤ d.now then
          (qualify 2 false d).onTru fun t => { t with siGood := 0, siBad := 0, siEdge := none }
        else d
      | none => d
    else
      match d.tru.plAt with
      | some t =>
        if t + 10000000 ≤ d.now then (qualify 1 false d).onTru fun t => { t with plGood := 0, plAt := none } else d
      | none => d

/-! Steering (R88, R89). -/

/-- KP as used (chapter 4). -/
def Dev.kp (d : Dev) : Nat := clampN 1 4096 (d.get TRU_GAIN_KP)

/-- F in 0.001 ppm. -/
def Dev.fCorr (d : Dev) : Int := sx 32 (d.reg TRU_FCORR).toNat

/-- The phase error of the selected reference now, in 10⁻⁹ counts: its last mark, extrapolated by F − F_ref. -/
def Dev.phaseErr9 (d : Dev) (fref : Int) : Int :=
  match d.get TRU_STAT_SEL with
  | 2 => d.tru.siE9 + (d.fCorr - fref) * (d.now - d.tru.siEAt : Nat)
  | 1 => d.tru.plE9 + (d.fCorr - fref) * (d.now - d.tru.plEAt : Nat)
  | _ => 0

/-- One update of F (R88): from F, F_ref, e and KP, with whether the phase clamp acted. -/
def steer (f fref e : Int) (kp : Nat) : Int × Bool :=
  let corr := tdiv (-e * kp) 256
  let target := fref + clampI (-50000) 50000 corr
  let f := f + clampI (-100) 100 (target - f)
  (clampI (-300000) 300000 f, corr < -50000 || 50000 < corr)

/-- F_UPDATE (R88, R89): every 1 ms, with the TRU's estimate of the selected reference's rate; with none selected F is
held (R83). -/
def execFUpdate (fref : Int) : State → Out :=
  onDev fun d =>
    let sel := d.get TRU_STAT_SEL
    if !d.timeOn || d.now % 200000 ≠ 0 || sel = 3 then d
    else
      let fref := if sel = 0 then 0 else fref
      let e9 := d.phaseErr9 fref
      let e := tdiv e9 1000000000
      let d := d.onTru fun t => match sel with
        | 2 => { t with siE9 := e9, siEAt := d.now }
        | 1 => { t with plE9 := e9, plEAt := d.now }
        | _ => t
      let (f, cl) := steer d.fCorr fref e d.kp
      let d := (((d.setReg TRU_FCORR (w32i f)).setReg TRU_FREF (w32i fref)).setReg TRU_PHERR (w32i e)).put TRU_STAT_FCLAMP
        (if cl then 1 else 0)
      let held := decide (e.natAbs ≤ 5) && decide ((f - fref).natAbs ≤ 100)
      d.onTru fun t => { t with lockSince := if held then (if t.lockSince.isSome then t.lockSince else some d.now) else none }

/-- REF_LOCKED (R89): the conditions have held for 1 s; for the crystal, F = F_ref. -/
def execRefLocked : State → Out :=
  onDev fun d =>
    let sel := d.get TRU_STAT_SEL
    let ready := match d.tru.lockSince with | some t => decide (t + 200000000 ≤ d.now) | none => false
    if d.on TRU_STAT_STATE && ((sel = 0 && d.fCorr = 0) || ((sel = 1 || sel = 2) && ready)) then
      raiseTru 2 (d.put TRU_STAT_STATE 0)
    else d

/-! Private-link timing (R87, R383). `l`: 0 PL0, 1 PL1. -/

/-- SYNC_SEND (R87, R382): every 10 ms the timing master sends SYNC with the next counter on both links. -/
def execSyncSend : State → Out :=
  onDev fun d =>
    if d.timeOn && d.plRole = 1 && decide (d.now % 2000000 = 0) then
      d.onTru fun t =>
        let n := (t.txSeq + 1) % 256
        { t with txSeq := n, txSync := tset none (tset none t.txSync 0 (some n)) 1 (some n) }
    else d

/-- FOLLOW_UP_SEND (R87, R383): after the SYNC was sent on a link, the master sends the device time at which its start of
frame left. -/
def execFollowUpSend (l : Fin 2) (sof : Nat) : State → Out :=
  onDev fun d =>
    match tget none d.tru.txSync l with
    | some n =>
      if d.plRole = 1 then
        d.onTru fun t => { t with txSync := tset none t.txSync l none, sent := tset none t.sent l (some (n, sof)) }
      else d
    | none => d

/-- SYNC_RX (R87, R383): a SYNC of a node with its counter; a master sets MCONF and raises TIME_FAULT. -/
def execSyncRx (l : Fin 2) (node : Fin 32) (n : Fin 256) : State → Out :=
  onDev fun d =>
    if d.plRole = 1 then raiseTru 3 (d.put TRU_STAT_MCONF 1)
    else d.onTru fun t => { t with sync := tset none t.sync l (some (node.val, n.val, d.now)) }

/-- FOLLOW_UP_RX (R85, R87, R383): it is paired with its SYNC; a slave uses the first valid pair of a counter on either link,
`ns` after the pair before by the crystal. -/
def execFollowUpRx (l : Fin 2) (node : Fin 32) (n : Fin 256) (tm ns : Nat) : State → Out :=
  onDev fun d =>
    match tget none d.tru.sync l with
    | some (sn, sc, ts) =>
      if sn = node.val && sc = n.val && d.now ≤ ts + 400000 && d.plRole = 2 && d.tru.plLast ≠ some (sn, sc) then
        let e := fold ((ts : Int) - tm - d.get TRU_PLOFS_OFS) 200000
        let ok := 9998000 ≤ ns && ns ≤ 10002000
        let first := d.tru.plAt.isNone
        let d := d.put TRU_STAT_PLLINK l
        let d := d.onTru fun t => { t with
          plAt := some ts, plLast := some (sn, sc), plE9 := e * 1000000000, plEAt := ts
          plGood := if first || !ok then 1 else t.plGood + 1, sync := tset none t.sync l none }
        if d.get TRU_STAT_SEL = 1 then d.setReg TRU_PHERR (w32i e) else d
      else d
    | none => d

/-! SYNC OUT (R91). -/

/-- The period of SYNC OUT by its mode (R91). -/
def soPeriod (m : Nat) : Nat := if m = 0 then 200000000 else 20000

/-- An instant is an edge of a SYNC OUT setting (R91). -/
def soHit (m ofs t : Nat) : Bool := (t + soPeriod m - ofs % soPeriod m) % soPeriod m = 0

/-- With QUALONLY the output is held low unless the selected reference is external and LOCKED (R91). -/
def Dev.soAllowed (d : Dev) : Bool :=
  let sel := d.get TRU_STAT_SEL
  !d.on TRU_SOCFG_QUALONLY || ((sel = 1 || sel = 2) && !d.on TRU_STAT_STATE)

/-- SYNC_OUT_EDGE (R91): a rising edge leaves the pin. A changed setting takes effect at its first edge at least 1 ms after
the change; no edge comes closer than half a period to the one before. -/
def execSyncOutEdge : State → Out :=
  onDev fun d =>
    let m := d.get TRU_SOCFG_MODE
    let ofs := d.get TRU_SOOFS_OFS
    let new_ := soHit m ofs d.now && (decide (d.tru.soChg + 200000 ≤ d.now) || (m = d.tru.soMode && ofs = d.tru.soOfs))
    let old := soHit d.tru.soMode d.tru.soOfs d.now
    let p := soPeriod (if new_ then m else d.tru.soMode)
    let far := match d.tru.soEdge with | some t => decide (t + p / 2 ≤ d.now) | none => true
    if d.timeOn && d.on TRU_SOCFG_EN && d.soAllowed && (new_ || old) && far then
      d.onTru fun t => { t with
        soEdge := some d.now, soMode := if new_ then m else t.soMode, soOfs := if new_ then ofs else t.soOfs }
    else d

/-- SYNC OUT as it stands on the pin (R91). -/
def Dev.syncOut (d : Dev) : Bool :=
  match d.tru.soEdge with
  | some t => d.timeOn && d.sys.logicOn && d.on TRU_SOCFG_EN && d.soAllowed && d.now < t + (if d.tru.soMode = 0 then 20000000 else 10000)
  | none => false

end Sys2Proof.Machine
end

