-- ==== Sys2Proof/Machine/Image.lean ====
section
/-! DEFINITION. Images: the header, the section table, the validity rules of R278 to R280, and loading a firmware image. -/

namespace Sys2Proof.Machine
open Sys2Proof Reg

/-- Bytes from a key upwards. -/
def memBytes (m : List Host.Cell) (k n : Nat) : List Nat := (List.range n).map fun i => (memGet m (k + i)).toNat

/-- A word at a key. -/
def memWord (m : List Host.Cell) (k : Nat) : Nat := memRead m k 4

/-- A section of an image (R279), with the key of its data. -/
structure Section where
  kind : Nat
  flags : Nat
  target : Nat
  len : Nat
  crc : Nat
  data : Nat
  deriving DecidableEq, Repr

/-- The bytes a section has in the image: a ZERO section has none (R279). -/
def Section.stored (s : Section) : Nat := if s.kind = 3 then 0 else s.len

/-- Read `n` entries of a section table; `at_`: the next entry, `data`: where its data stand. -/
def readSections (m : List Host.Cell) : Nat → Nat → Nat → List Section
  | 0, _, _ => []
  | n + 1, at_, data =>
    let w := memWord m at_
    let s : Section := { kind := w % 256, flags := w / 256, target := memWord m (at_ + 4), len := memWord m (at_ + 8),
                         crc := memWord m (at_ + 12), data := data }
    s :: readSections m n (at_ + 16) (data + (s.stored + 3) / 4 * 4)

/-- The sections of an image at a key. -/
def sectionsOf (m : List Host.Cell) (b : Nat) : List Section :=
  let n := memWord m (b + 4) / 65536
  readSections m n (b + 32) (b + 32 + 16 * n)

/-- A section is allowed for the kind of image, has a valid target and ends within its region (R279, R280). -/
def sectionOk (kind : Nat) (s : Section) : Bool :=
  let e := s.target / 65536
  s.flags = 0 && s.len % 4 = 0 &&
    match s.kind with
    | 1 | 2 | 3 => kind = 1 && decide (s.target + s.len ≤ 0x40000)
    | 4 => kind = 2 && e < 8 && s.target % 65536 < 24 && s.len = 128
    | 5 => kind = 2 && e < 8 && s.target % 65536 < 24 && s.len = 1024
    | 6 => kind = 2 && e < 8 && s.target % 65536 = 0 && s.len = 512
    | 7 => s.target = 0
    | _ => false

/-- Two sections do not overlap at their targets (R280). -/
def sectionsApart (a b : Section) : Bool :=
  if a.kind = 7 || b.kind = 7 then true
  else if a.kind ≤ 3 then decide (a.target + a.len ≤ b.target) || decide (b.target + b.len ≤ a.target)
  else a.kind ≠ b.kind || a.target ≠ b.target

/-- Every pair of sections of a list is apart. -/
def allApart : List Section → Bool
  | [] => true
  | s :: t => t.all (sectionsApart s) && allApart t

/-- The length of an image (R278). -/
def imageLen (m : List Host.Cell) (b : Nat) : Nat := memWord m (b + 8)

/-- The bytes of an image with its CRC field taken as 0. -/
def imageBytes (m : List Host.Cell) (b : Nat) : List Nat :=
  memBytes m b 28 ++ [0, 0, 0, 0] ++ memBytes m (b + 32) (imageLen m b - 32)

/-- An image is valid (R280). The module step is C1 (SYS_ID). -/
def imageOk (m : List Host.Cell) (b : Nat) : Bool :=
  let w4 := memWord m (b + 4)
  let kind := w4 % 256
  let n := w4 / 65536
  let len := imageLen m b
  let entry := memWord m (b + 12)
  let step := memWord m (b + 20)
  let ss := sectionsOf m b
  let stop := match ss.getLast? with | some s => s.data + s.stored - b | none => 32
  memWord m b = 0x4C54494D && (kind = 1 || kind = 2) && w4 / 256 % 256 = 1 && 1 ≤ n && n ≤ 256 && len % 4 = 0
    && decide (32 + 16 * n ≤ len) && decide (stop ≤ len) && step < 256 && decide (step ≤ 0x31)
    && ss.all (sectionOk kind) && allApart ss
    && ss.all (fun s => crc32c (memBytes m s.data s.stored) = s.crc)
    && crc32c (imageBytes m b) = memWord m (b + 28)
    && (if kind = 1 then entry % 4 = 0 && ss.any (fun s => s.kind = 1 && s.target ≤ entry && entry < s.target + s.len)
        else entry = 0)

/-- Pair-local RAM of a pair, as keys of byte memory (R25). -/
def pairRam (p off : Nat) : Nat := 0x100000000 * (p + 1) + off

/-- Clear the RAM of a pair (R106). -/
def clearRam (p : Nat) (m : List Host.Cell) : List Host.Cell :=
  m.filter fun c => !(pairRam p 0 ≤ c.1 && c.1 < pairRam p 0 + 0x40000)

/-- Load a firmware image that stands at `b` of a memory into the RAM of a pair (R104, R279, R306). -/
def loadImage (p b : Nat) (src m : List Host.Cell) : List Host.Cell :=
  (sectionsOf src b).foldl (fun k s =>
    if s.kind = 1 || s.kind = 2 then memWriteBytes k (pairRam p s.target) (memBytes src s.data s.len)
    else if s.kind = 3 then memWriteBytes k (pairRam p s.target) (List.replicate s.len 0)
    else k) m

end Sys2Proof.Machine
end

