-- ==== Sys2Proof/Machine/JnlOps.lean ====
section
/-! DEFINITION. The journal controller's work on the store (R316 to R331): the block map, appends, wear and retirement,
liveness, metadata, sealing and mounting. -/

namespace Sys2Proof.Machine
open Sys2Proof Reg

/-- The block with its byte memories. -/
abbrev DM := Dev × List Host.Cell

/-- A meaning of whichever domain runs, on the block and its byte memories; the queue stays. -/
def onAnyDM (f : DM → DM) (s : State) : Out :=
  let r := f (s.dev, s.mem)
  .next { s with dev := r.1, mem := r.2 }

/-- A meaning that acts on the block and its byte memories; the queue stays. While the logic domain is off nothing of it
acts (chapter 1, R62, R102). -/
def onDM (f : DM → DM) (s : State) : Out := onAnyDM (fun x => if x.1.sys.logicOn then f x else x) s

/-- Act on the block alone. -/
def DM.dev (x : DM) (f : Dev → Dev) : DM := (f x.1, x.2)

/-- The physical block of a logical block (R316). -/
def JnlH.phys (j : JnlH) (l : Nat) : Nat := let v := tget 4096 j.map l; if v = 4096 then l else v

/-- The key of the first byte of a physical block in the read window. -/
def blockKey (b : Nat) : Nat := 0x20000000 + 0x1000 * b

/-- The logical block of log block `n` (R316). -/
def logBlk (n : Nat) : Nat := 424 + n

/-- The first logical block of image slot `s` (R316). -/
def slotBlk (s : Nat) : Nat := 16 + 68 * s

/-- The allocation count of a physical block (R326). -/
def JnlH.wearOf (j : JnlH) (b : Nat) : Nat := tget 0 j.wear b + j.wearBase

/-- The bytes of a record but for its CRC word (R318). -/
def JRec.body (r : JRec) : List Nat :=
  bytesLE 4 r.seq
    ++ bytesLE 4 (r.typ * 2 ^ 24 + r.srck % 16 * 2 ^ 20 + r.pair % 16 * 2 ^ 16 + r.slot % 256 * 2 ^ 8 + r.flags % 256)
    ++ bytesLE 4 (4 * r.payload.length * 2 ^ 16 + r.txn % 65536)
    ++ bytesLE 4 r.key ++ bytesLE 8 r.time ++ bytesLE 8 r.name
    ++ (r.payload.map (bytesLE 4)).flatten

/-- The bytes of a record (R318). -/
def JRec.bytes (r : JRec) : List Nat := r.body ++ bytesLE 4 (crc32c r.body)

/-- The bytes a record takes in the log. -/
def JRec.size (r : JRec) : Nat := 36 + 4 * r.payload.length

/-- The bytes of a log block header (chapter 15, Records). -/
def blockHeader (l use seq : Nat) : List Nat :=
  let b := bytesLE 4 0x4A424C4B ++ bytesLE 4 (l % 4096 + use % 2 ^ 20 * 4096) ++ bytesLE 4 seq
  b ++ bytesLE 4 (crc32c b)

/-- Free log blocks: those between head and tail, less the read-only ones (R324, R328). -/
def JnlH.freeBlks (j : JnlH) : Nat :=
  let n := (j.tailBlk + 3415 - j.headBlk) % 3416
  n - (j.ro.filter fun b => (List.range n).any fun i => j.phys (logBlk ((j.headBlk + 1 + i) % 3416)) = b).length

/-- The registers that show the controller's state (chapter 15, Registers). -/
def jnlMirror (d : Dev) : Dev :=
  let j := d.jnl
  let d := (d.put JNL_RING_HEAD j.headBlk).put JNL_RING_TAIL j.tailBlk
  let d := (d.put JNL_NEXTSEQ_SEQ j.nextSeq).put JNL_SPARE_LEFT (4096 - j.nextSpare)
  let d := (d.put JNL_SPARE_RETIRED j.retired).put JNL_WEAR_MAX ((j.wear.map (·.2)).foldl max 0 + j.wearBase)
  let d := d.put JNL_STAT_COMPACT (if j.compacting then 1 else 0)
  let d := d.put JNL_STAT_IMGBUSY (if j.img.isSome then 1 else 0)
  d.each (List.range 6) fun s d => d.put (JNL_IMGST_ST s) (tget 0 j.imgSt s)

/-- Set the state of an image slot (R326, R331). -/
def setSlot (s st : Nat) (d : Dev) : Dev := d.onJnl fun j => { j with imgSt := tset 0 j.imgSt s st }

/-! Liveness (R319, R324, R334). -/

/-- The place of a CFGSTAGE record among the items of its transaction. -/
def itemNo (log : List JRec) (r : JRec) : Nat :=
  (log.filter fun x => x.typ = 6 && x.txn = r.txn && x.seq < r.seq).length

/-- A CFGSTAGE record is committed: a CFGCOMMIT of its TXN with a higher SEQ has its bit set (R334). The payload of
CFGCOMMIT is the item count and the map, lowest word first. -/
def committed (log : List JRec) (r : JRec) : Bool :=
  let n := itemNo log r
  log.any fun c => c.typ = 7 && c.txn = r.txn && r.seq < c.seq && n < 256
    && (c.payload.getD (1 + n / 32) 0).testBit (n % 32)

/-- Two records set the same item: CFGLIVE stands for a committed CFGSTAGE (R319, R325). -/
def sameItem (a b : JRec) : Bool :=
  a.key = b.key && (a.typ = b.typ || ((a.typ = 6 || a.typ = 8) && (b.typ = 6 || b.typ = 8)))

/-- A record that can be live: keyed, and committed where its type needs it. -/
def eligible (log : List JRec) (r : JRec) : Bool := keyedType r.typ && (r.typ ≠ 6 || committed log r)

/-- A record is live (R324). -/
def isLive (log : List JRec) (r : JRec) : Bool :=
  eligible log r && !(log.any fun x => r.seq < x.seq && sameItem r x && eligible log x)

/-- The live record of a type and key. -/
def liveRec (log : List JRec) (typ key : Nat) : Option JRec :=
  log.find? fun r => r.typ = typ && r.key = key && isLive log r

/-- The forme is valid (R335). A FORME payload names the slot in its first word. -/
def Dev.formeValid (d : Dev) : Bool :=
  let log := d.jnl.log
  (log.any fun r => (r.typ = 6 || r.typ = 8) && r.key = 0xC0000000 && isLive log r)
    && log.all fun r => r.typ ≠ 9 || !isLive log r || tget 0 d.jnl.imgSt (r.payload.getD 0 0) = 2

/-! Wear, retirement, metadata (R326 to R329). -/

/-- Count an allocation of a physical block. -/
def allocate (b : Nat) (d : Dev) : Dev :=
  d.onJnl fun j => { j with wear := tset 0 j.wear b (tget 0 j.wear b + 1), allocs := j.allocs + 1 }

/-- Copy a block's bytes. -/
def copyBlock (a b : Nat) (m : List Host.Cell) : List Host.Cell := memWriteBytes m (blockKey b) (memBytes m (blockKey a) 4096)

/-- Enter CONSERVE (R328). -/
def enterConserve (d : Dev) : Dev :=
  if d.jnl.worn = 0 then raiseJnl 4 ((d.onJnl fun j => { j with worn := 1 }).put JNL_STAT_MODE 2) else d

/-- The log blocks the live records need. -/
def JnlH.liveBlks (j : JnlH) : Nat := (((j.log.filter (isLive j.log)).map JRec.size).foldl (· + ·) 0 + 4079) / 4080

/-- The journal becomes READONLY when the log or both metadata copies can no longer serve (R329). -/
def readonlyCheck (d : Dev) : Dev :=
  let j := d.jnl
  let bad := (List.range 3416).filter fun n => j.phys (logBlk n) ∈ j.ro
  if j.worn ≠ 0 && j.worn ≠ 2 && (3416 - bad.length < j.liveBlks + 16 || (0 ∈ j.metaBad && 1 ∈ j.metaBad)) then
    raiseJnl 5 ((d.onJnl fun j => { j with worn := 2 }).put JNL_STAT_MODE 3)
  else d

/-- Count and number a metadata copy: the one that is not the newer (R321, R326); with a copy read-only, the other. -/
def writeMeta (d : Dev) : Dev :=
  let c := if (1 - d.jnl.metaNew) ∈ d.jnl.metaBad then d.jnl.metaNew else 1 - d.jnl.metaNew
  if c ∈ d.jnl.metaBad then d
  else
    let d := d.each (List.range 8) fun i d => allocate (d.jnl.phys (8 * c + i)) d
    jnlMirror (d.onJnl fun j => { j with metaNew := c, metaSeq := j.metaSeq + 1, allocs := 0 })

/-- Retire the physical block of a logical block (R327, R328): onto the lowest-numbered spare, its content copied and a
metadata copy written; with no spare left the block stays read-only and the journal conserves. -/
def retire (l : Nat) (x : DM) : DM :=
  let j := x.1.jnl
  let b := j.phys l
  let d := raiseJnl 2 (x.1.onJnl fun j => { j with retired := j.retired + 1 })
  if j.nextSpare < 4096 then
    let s := j.nextSpare
    let d := d.onJnl fun j => { j with map := tset 4096 j.map l s, nextSpare := s + 1 }
    let d := if 4096 - (s + 1) ≤ d.get JNL_CCFG_SPLOW then raiseJnl 3 d else d
    (jnlMirror (writeMeta (allocate s d)), copyBlock b s x.2)
  else
    let d := d.onJnl fun j => { j with
      ro := b :: j.ro, metaBad := if l < 16 then (l / 8) :: j.metaBad else j.metaBad }
    let d := if 16 ≤ l && l < 424 then setSlot ((l - 16) / 68) 3 d else d
    (jnlMirror (readonlyCheck (enterConserve d)), x.2)

/-- The most-allocated of a list of logical blocks by its physical block. -/
def JnlH.hottest (j : JnlH) (l : List Nat) : Nat :=
  l.foldl (fun b x => if j.wearOf (j.phys b) < j.wearOf (j.phys x) then x else b) (l.headD 0)

/-- The least-allocated of a list of logical blocks by its physical block. -/
def JnlH.coldest (j : JnlH) (l : List Nat) : Nat :=
  l.foldl (fun b x => if j.wearOf (j.phys x) < j.wearOf (j.phys b) then x else b) (l.headD 0)

/-- Wear levelling at a head change (R326): the most-allocated block of the log and the least-allocated of the metadata
and image areas change places when their counts are too far apart. -/
def level (x : DM) : DM :=
  let j := x.1.jnl
  let gap := max 1 (x.1.get JNL_CCFG_WDELTA) * 65536
  if (j.wear.map (·.2)).foldl max 0 ≤ gap then x
  else
    let hot := j.hottest ((List.range 3416).map logBlk)
    let cold := j.coldest (List.range 424)
    let a := j.phys hot
    let b := j.phys cold
    if gap < j.wearOf a - j.wearOf b then
      let m := memWriteBytes x.2 (blockKey a) (memBytes x.2 (blockKey b) 4096)
      (x.1.onJnl fun j => { j with map := tset 4096 (tset 4096 j.map hot b) cold a },
        memWriteBytes m (blockKey b) (memBytes x.2 (blockKey a) 4096))
    else x

/-! Appending (R317, R318, R324). -/

/-- The next log block that can be written after a block, within `n` tries. -/
def JnlH.nextLog (j : JnlH) : Nat → Nat → Nat
  | 0, b => (b + 1) % 3416
  | n + 1, b =>
    let c := (b + 1) % 3416
    if j.phys (logBlk c) ∈ j.ro then j.nextLog n c else c

/-- A block that has reached its endurance is retired before its next allocation (R327). -/
def freshen (l : Nat) (x : DM) : DM := if 100000000 ≤ x.1.jnl.wearOf (x.1.jnl.phys l) then retire l x else x

/-- Write a metadata copy (R321, R326), each of its blocks fresh enough to be allocated (R327). -/
def writeMetaFresh (x : DM) : DM :=
  let c := if (1 - x.1.jnl.metaNew) ∈ x.1.jnl.metaBad then x.1.jnl.metaNew else 1 - x.1.jnl.metaNew
  ((List.range 8).foldl (fun x i => freshen (8 * c + i) x) x).dev writeMeta

/-- The log block that is to receive a record becomes the head (R324, R326): its header is written. -/
def openBlock (x : DM) : DM :=
  let j := x.1.jnl
  let b := if j.headOff = 0 then j.headBlk else j.nextLog 64 j.headBlk
  let x := freshen (logBlk b) (level x)
  let p := x.1.jnl.phys (logBlk b)
  let use := tget 0 x.1.jnl.useCnt b + 1
  let d := allocate p (x.1.onJnl fun j => { j with headBlk := b, headOff := 16, useCnt := tset 0 j.useCnt b use })
  let low := clampN 16 1024 (d.get JNL_CCFG_LOW)
  let d := if 4 * d.jnl.freeBlks < low && low ≤ 4 * x.1.jnl.freeBlks then raiseJnl 8 d else d
  (d, memWriteBytes x.2 (blockKey p) (blockHeader (logBlk b) use d.jnl.nextSeq))

/-- Append a record at the head (R317 to R320), giving it its SEQ. -/
def appendRec (r : JRec) (x : DM) : DM :=
  let x := if x.1.jnl.headOff = 0 || 4096 < x.1.jnl.headOff + r.size then openBlock x else x
  let j := x.1.jnl
  let r := { r with seq := j.nextSeq, block := j.headBlk, off := j.headOff }
  let d := x.1.onJnl fun j => { j with
    log := j.log ++ [r], headOff := j.headOff + r.size, nextSeq := (j.nextSeq + 1) % 2 ^ 32 }
  (jnlMirror d, memWriteBytes x.2 (blockKey (j.phys (logBlk j.headBlk)) + j.headOff) r.bytes)

/-- What an appended record brings about: its submitter's result, and VALID for an image (R320, R331). -/
def appended (q : JSub) (d : Dev) : Dev :=
  let d := match q.from_ with
    | some p => submitDone (some p) 0 (d.put (JNL_SEQ_SEQ p) (d.jnl.nextSeq + 2 ^ 32 - 1))
    | none => d
  if q.body.typ = 10 then jnlMirror (setSlot q.body.key 2 d) else d

/-- The journal appends records now: NORMAL or CONSERVE (R329). -/
def Dev.jnlOpen (d : Dev) : Bool := d.get JNL_STAT_MODE = 1 || d.get JNL_STAT_MODE = 2

/-- Append the record at the front of the queue. `bad`: a word of it reads back wrong, and its block is retired first. -/
def appendNext (bad : Bool) (x : DM) : DM :=
  match x.1.jnl.queue with
  | [] => x
  | q :: rest =>
    let x := x.dev fun d => d.onJnl fun j => { j with queue := rest, lastCopy := false }
    if q.ecc then x.dev fun d => submitDone q.from_ 6 (raiseJnl 0 d)
    else
      let x := if bad then retire (logBlk x.1.jnl.headBlk) x else x
      let x := if bad && x.1.jnl.phys (logBlk x.1.jnl.headBlk) ∈ x.1.jnl.ro then openBlock x else x
      (appendRec q.body x).dev (appended q)

/-- Append every queued record. -/
def appendAll : Nat → DM → DM
  | 0, x => x
  | n + 1, x => if x.1.jnl.queue = [] then x else appendAll n (appendNext false x)

/-! Sealing and mounting (R321, R322). -/

/-- A record of the controller. -/
def ctlRec (typ : Nat) (payload : List Nat) (d : Dev) : JRec := { typ := typ, payload := payload, time := d.now }

/-- Seal the journal (R321); in READONLY only the metadata copy is written (R329). An image write in progress is
abandoned. -/
def sealJournal (holdup : Bool) (x : DM) : DM :=
  let opened := x.1.jnlOpen
  let x := x.dev fun d => d.onJnl fun j => { j with sealing := true, img := none, compacting := false, copies := [] }
  let x := if opened then
      let x := appendAll 64 x
      let x := if holdup then appendRec (ctlRec 16 [] x.1) x else x
      appendRec (ctlRec 17 [] x.1) x
    else x
  if opened || x.1.get JNL_STAT_MODE = 3 then (writeMetaFresh x).dev fun d => d.put JNL_STAT_MODE 4 else x

/-- The LOCK record to restore after the always-on domain lost power (R107, R319). -/
def Dev.lockRecord (d : Dev) : Nat := ((liveRec d.jnl.log 13 0).map fun r => r.payload.getD 0 0).getD 0

/-- Mount the journal (R322). `ok`: a valid metadata copy and a valid log block header were found. -/
def mountJournal (ok : Bool) (x : DM) : DM :=
  let d := x.1.onJnl fun j => { j with sealing := false, queue := [], lastCopy := false }
  if !ok then (d.put JNL_STAT_MODE 5, x.2)
  else
    let last := d.jnl.log.getLast?
    let torn := match last with | some r => decide (r.typ ≠ 17) | none => false
    let d := d.put JNL_STAT_MODE (match d.jnl.worn with | 0 => 1 | 1 => 2 | _ => 3)
    let d := if torn then raiseJnl 7 ((d.onJnl fun j => { j with wearBase := j.wearBase + 4096 }).put JNL_STAT_UNSEALED 1)
      else d.put JNL_STAT_UNSEALED 0
    let d := d.each (List.range 6) fun s d => if tget 0 d.jnl.imgSt s = 1 then setSlot s 3 d else d
    let d := match liveRec d.jnl.log 11 0 with
      | some r => (d.setReg JNL_FWCUR (w32 (r.payload.getD 0 0))).setReg JNL_FWPREV (w32 (r.payload.getD 1 0))
      | none => (d.setReg JNL_FWCUR 0xFFFFF).setReg JNL_FWPREV 0xFFFFF
    let x : DM := (jnlMirror d, x.2)
    if d.jnlOpen then appendRec (ctlRec 18 [if torn then 1 else 0] x.1) x else x

end Sys2Proof.Machine
end

