-- ==== Sys2Proof/Machine/Journal.lean ====
section
/-! DEFINITION. Commands of the journal controller (R316 to R332): submissions, appends, compaction, metadata copies, image
writes, firmware selection, the block map. -/

namespace Sys2Proof.Machine
open Sys2Proof Reg

/-! Submissions (R318 to R320). -/

/-- The record staged at an address of shared SRAM (R318, R320). -/
def stagedRec (m : List Host.Cell) (a : Nat) : JRec :=
  let w4 := memWord m (a + 4)
  let w8 := memWord m (a + 8)
  { typ := w4 / 2 ^ 24, srck := w4 / 2 ^ 20 % 16, slot := w4 / 2 ^ 8 % 256, flags := w4 % 256, txn := w8 % 65536
    key := memWord m (a + 12), name := memRead m (a + 24) 8
    payload := (List.range (min 1000 (w8 / 65536 / 4))).map fun i => memWord m (a + 32 + 4 * i) }

/-- A staged record breaks the format (R318 to R320). -/
def stagedBad (m : List Host.Cell) (a : Nat) : Bool :=
  let r := stagedRec m a
  let len := memWord m (a + 8) / 65536
  a < 0x10000000 || 0x10400000 < a + 36 + len || controllerType r.typ || len % 4 ≠ 0 || 4000 < len
    || memWord m a ≠ 0 || memWord m (a + 4) / 2 ^ 16 % 16 ≠ 0 || r.flags ≠ 0
    || (r.txn ≠ 0 && r.typ ≠ 6 && r.typ ≠ 7) || (r.key ≠ 0 && !keyedType r.typ)
    || memRead m (a + 16) 8 ≠ 0 || (r.slot = 255 && r.name ≠ 0) || memWord m (a + 32 + len) ≠ 0

/-- A write of JNL_SUBMIT (R320). `ecc`: an uncorrectable error stands in the staged record (R28). -/
def writeSubmit (m : Master) (addr : Nat) (ecc : Bool) (x : DM) : DM :=
  match m with
  | .pair _ | .debug =>
    let p := match m with | .pair p => p.val | _ => x.1.get LSS_PAIRST_SUP
    x.dev (submitRec (some p) (stagedRec x.2 addr) (stagedBad x.2 addr) ecc)
  | _ => x

/-- SUBMIT (R320). -/
def execSubmit (m : Master) (addr : Fin 1073741824) (ecc : Bool) : State → Out := onDM (writeSubmit m (4 * addr) ecc)

/-- RECORD_APPEND (R317, R320): the submission at the front of the queue is appended and reported. While a copy waits too,
the two take turns (R325). `bad`: a word read back differs from the word written (R327). -/
def execRecordAppend (bad : Bool) : State → Out :=
  onDM fun x =>
    let j := x.1.jnl
    let turn := !(j.compacting && j.copies ≠ []) || j.lastCopy
    let size := match j.queue with | q :: _ => q.body.size | [] => 0
    let fits := j.headOff = 0 || j.headOff + size ≤ 4096 || 0 < j.freeBlks
    if x.1.jnlOpen && turn && fits then appendNext bad x else x

/-! Compaction (R325). -/

/-- The free-block threshold of compaction in force (R325). -/
def Dev.compactAt (d : Dev) : Nat := clampN 16 1024 (d.get JNL_CCFG_LOW) * (if d.jnl.worn = 1 then 4 else 1)

/-- Begin to compact the tail block. -/
def beginCompaction (d : Dev) : Dev :=
  let j := d.jnl
  let live := j.log.filter fun r => r.block = j.tailBlk && isLive j.log r
  jnlMirror (d.onJnl fun j => { j with compacting := true, copies := live, lastCopy := false })

/-- Append the copy of a live record: COPY set, a new SEQ, a committed CFGSTAGE as CFGLIVE (R325). -/
def copyRec (r : JRec) (x : DM) : DM :=
  appendRec { r with flags := r.flags ||| 1, typ := if r.typ = 6 then 8 else r.typ, txn := 0 } x

/-- End the compaction of the tail block: TAILMOVE, then the block is free (R325). -/
def endCompaction (x : DM) : DM :=
  let old := x.1.jnl.tailBlk
  let new := x.1.jnl.nextLog 64 old
  let x := appendRec (ctlRec 19 [new] x.1) x
  x.dev fun d => jnlMirror (d.onJnl fun j => { j with
    tailBlk := new, log := j.log.filter fun r => r.block ≠ old, compacting := false, copies := [] })

/-- COMPACTION (R325): it starts when the free log blocks fall below the threshold, and each further step copies one live
record of the tail block or, after the last one, moves the tail. -/
def execCompaction : State → Out :=
  onDM fun x =>
    let j := x.1.jnl
    if !x.1.jnlOpen || j.sealing then x
    else if j.compacting then
      match j.copies with
      | [] => endCompaction x
      | r :: rest =>
        if j.lastCopy && j.queue ≠ [] then x
        else copyRec r (x.dev fun d => d.onJnl fun j => { j with copies := rest, lastCopy := true })
    else if j.freeBlks < x.1.compactAt && j.tailBlk ≠ j.headBlk then x.dev beginCompaction
    else x

/-- METADATA_WRITE (R326, R327): after 4,096 allocations. `bad`: a block of the copy that reads back wrong. -/
def execMetadataWrite (bad : Option (Fin 8)) : State → Out :=
  onDM fun x =>
    if x.1.jnl.allocs < 4096 || !x.1.jnlOpen then x
    else
      let x := match bad with
        | some i => retire (8 * (1 - x.1.jnl.metaNew) + i) x
        | none => x
      writeMetaFresh x

/-! Images (R331, R332). -/

/-- The slot is named in JNL_FWCUR or JNL_FWPREV, or by a live FORME record (R331). -/
def Dev.slotInUse (d : Dev) (s : Nat) : Bool :=
  (List.range 5).any (fun p => d.get (JNL_FWCUR_SLOT p) = s || d.get (JNL_FWPREV_SLOT p) = s)
    || d.jnl.log.any fun r => r.typ = 9 && r.payload.getD 0 0 = s && isLive d.jnl.log r

/-- Why an image write is refused, 0 for not (R331). -/
def imageErr (s : Nat) (x : DM) : Nat :=
  let src := x.1.get JNL_IMGSRC_ADDR * 4
  if x.1.jnl.img.isSome then 1
  else if x.1.slotInUse s then 2
  else if 6 ≤ s || !(inSramKey src) || !imageOk x.2 src then 3
  else if x.1.get JNL_STAT_MODE ≠ 1 then 4
  else if 278528 < imageLen x.2 src then 5
  else 0
where
  /-- An address of shared SRAM (R25, R331). -/
  inSramKey (a : Nat) : Bool := 0x10000000 ≤ a && a < 0x10400000

/-- A write of JNL_IMGWR with GO (R331). -/
def startImage (s : Nat) (x : DM) : DM :=
  let e := imageErr s x
  x.dev fun d =>
    let d := (d.put JNL_IMGWR_SLOT s).put JNL_IMGWR_ERR e
    if e = 0 then
      let src := d.get JNL_IMGSRC_ADDR * 4
      jnlMirror (setSlot s 1 (d.onJnl fun j => { j with img := some (s, src) }))
    else d

/-- Writers of the journal block but for JNL_SUBMIT and JNL_MAPQ: the supervising pair, else SUB 6. -/
def asJnlWriter (m : Master) (addr : Nat) (f : DM → DM) (x : DM) : DM :=
  if x.1.supRights m then f x else x.dev (busError m 6 addr true)

/-- IMAGE_WRITE (R331): a write of JNL_IMGWR with GO. -/
def execImageWrite (m : Master) (s : Fin 8) : State → Out := onDM (asJnlWriter m JNL_IMGWR (startImage s))

/-- Copy the image into its slot, block by block (R326, R331). -/
def copyImage (s src : Nat) (x : DM) : DM :=
  let n := (imageLen x.2 src + 4095) / 4096
  (List.range n).foldl (fun x i =>
    let x := freshen (slotBlk s + i) x
    let p := x.1.jnl.phys (slotBlk s + i)
    let len := min 4096 (imageLen x.2 src - 4096 * i)
    (allocate p x.1, memWriteBytes x.2 (blockKey p) (memBytes x.2 (src + 4096 * i) len))) x

/-- IMAGE_WRITE_DONE (R331): `good`: the image read back from the store is valid. `bad`: a block of the slot that read
back a word wrong (R327). -/
def execImageWriteDone (good : Bool) (bad : Option (Fin 68)) : State → Out :=
  onDM fun x =>
    match x.1.jnl.img with
    | none => x
    | some (s, src) =>
      let x := match bad with
        | some i => retire (slotBlk s + i) x
        | none => x
      let x := copyImage s src x
      let ok := good && imageOk x.2 src && tget 0 x.1.jnl.imgSt s = 1
      let hdr := (List.range 8).map fun i => memWord x.2 (src + 4 * i)
      x.dev fun d =>
        let d := d.onJnl fun j => { j with img := none }
        let d := if ok then controllerRec { typ := 10, key := s, payload := hdr } d else setSlot s 3 d
        jnlMirror (raiseJnl 6 d)

/-- The KIND of the image in a slot (R278). -/
def slotKind (s : Nat) (x : DM) : Nat := memWord x.2 (blockKey (x.1.jnl.phys (slotBlk s)) + 4) % 256

/-- A write of JNL_FWCUR or JNL_FWPREV (R332): performed only if every slot it names is VALID FIRMWARE, or none. -/
def selectFirmware (prev : Bool) (w : Nat) (x : DM) : DM :=
  let ok := (List.range 5).all fun p =>
    let s := w / 16 ^ p % 16
    s = 15 || (s < 6 && tget 0 x.1.jnl.imgSt s = 2 && slotKind s x = 1)
  if ok then x.dev fun d =>
    let d := d.setReg (if prev then JNL_FWPREV else JNL_FWCUR) (w32 (w % 2 ^ 20))
    controllerRec { typ := 11, payload := [(d.reg JNL_FWCUR).toNat, (d.reg JNL_FWPREV).toNat] } d
  else x

/-- FIRMWARE_SELECT (R332). -/
def execFirmwareSelect (m : Master) (prev : Bool) (w : Word) : State → Out :=
  onDM (asJnlWriter m (if prev then JNL_FWPREV else JNL_FWCUR) (selectFirmware prev w.toNat))

/-- A write of JNL_MAPQ (R316, R328). -/
def mapQuery (l : Nat) (d : Dev) : Dev :=
  let d := d.put JNL_MAPQ_LOG l
  if 3840 ≤ l then ((d.put JNL_MAPQ_INVAL 1).put JNL_MAPQ_PHYS 0).put JNL_MAPQ_RO 0
  else
    let p := d.jnl.phys l
    ((d.put JNL_MAPQ_INVAL 0).put JNL_MAPQ_PHYS p).put JNL_MAPQ_RO (if p ∈ d.jnl.ro then 1 else 0)

/-- MAP_QUERY (R316): a write of JNL_MAPQ by any pair. -/
def execMapQuery (m : Master) (l : Fin 4096) : State → Out :=
  onDev fun d => match m with
    | .pair _ | .debug => mapQuery l d
    | _ => d

end Sys2Proof.Machine
end

