-- ==== Sys2Proof/Machine/PortOps.lean ====
section
/-! DEFINITION. Ports and slots: what a port's decoding says (R33 to R38), the auxiliary outputs (R40 to R43), what a slot
without an accepted cartridge means (R17), energised time (R338). -/

namespace Sys2Proof.Machine
open Sys2Proof Reg

/-! Port identity (R33, R34, R38). -/

/-- The nominal coding resistances of codes 1 to 14, in ohms (R33). -/
def codingOhms : List Nat :=
  [1000, 1500, 2200, 3300, 4700, 6800, 10000, 15000, 22000, 33000, 47000, 68000, 100000, 150000]

/-- What a measured resistance decodes to (R33): 0 NO_MOTOR, 1 to 14 within 8 % of a nominal value, 15 SHORT, 16 none. -/
def decodeOhms (r : Nat) : Decoded :=
  if 1000000 < r then 0
  else if r < 200 then 15
  else match codingOhms.findIdx? fun n => 92 * n ≤ 100 * r && 100 * r ≤ 108 * n with
    | some k => k + 1
    | none => 16

/-- The forme holds a motor record for a code: the live item of class 1 with it (R33, R334). -/
def Dev.motorRecord (d : Dev) (code : Nat) : Bool :=
  d.jnl.log.any fun r => (r.typ = 6 || r.typ = 8) && r.key = 2 ^ 30 + code && isLive d.jnl.log r

/-- The axes of the drive an axis will form when it next leaves OFF: the bond written in CU_BOND (R38, R200). -/
def Dev.wanted (d : Dev) (a : Nat) : List Nat := if d.axSt a = .off then (takeBond a d).members a else d.members a

/-- A decoding that gives one of the fourteen motor codes. -/
def motorCode (c : Decoded) : Bool := 1 ≤ c && c ≤ 14

/-- The port status an accepted decoding means (R33, R38): 0 NO_MOTOR, 1 IDENTIFIED, 2 ID_UNKNOWN, 3 SHORT, 4 ID_INVALID,
5 ID_MISMATCH. -/
def Dev.statusOf (d : Dev) (a : Nat) : Nat :=
  let c := (d.portOf a).accepted
  if c = 0 then 0
  else if c = 15 then 3
  else if !motorCode c then 4
  else if (d.wanted a).any (fun m => motorCode (d.portOf m).accepted && (d.portOf m).accepted ≠ c) then 5
  else if d.motorRecord c then 1 else 2

/-- Release a bridge that PROBE drives, without a verdict (R181). -/
def endProbe (a : Nat) (d : Dev) : Dev := setDriveState a .off d

/-- What leaving IDENTIFIED means to the axis (R176, R181). -/
def leftIdentified (a : Nat) (d : Dev) : Dev :=
  match d.axSt a with
  | .ramp | .sixstep | .handover | .dtc | .decel =>
    let d := d.onPort a fun p => { p with
      stand := some (d.now, d.get (CSL_PORT_CODE (a / 4) (a % 4)), tget none d.claim a), standOk := false }
    faultDrive a 2 7 (raiseAx a 3 d)
  | .probe => endProbe a d
  | .recover | .catch_ | .align => setDriveState a (d.restState a) d
  | _ => d

/-- Put a status and code into CSL_PORT; a change of status raises PORT_PLUG and has its consequences (R34, R36). -/
def putStatus (a st code : Nat) (d : Dev) : Dev :=
  let old := d.get (CSL_PORT_ST (a / 4) (a % 4))
  let d1 := if old = 1 && st ≠ 1 then leftIdentified a d else d
  let d1 := (d1.put (CSL_PORT_ST (a / 4) (a % 4)) st).put (CSL_PORT_CODE (a / 4) (a % 4)) code
  if old = st then d1 else raiseAx a 11 (d1.onPort a fun p => { p with probeDue := st = 1 })

/-- The code field of an accepted decoding: 0 where none is valid. -/
def codeField (c : Decoded) : Nat := if c ≤ 15 then c else 0

/-- The live standing-restart item of an axis: STANDTO in seconds and the direction (R339). The item number is the axis;
its first payload word holds STANDTO in bits 15:0 and the direction in bit 16. -/
def Dev.standing (d : Dev) (a : Nat) : Option (Nat × Nat) :=
  (d.jnl.log.find? fun r => (r.typ = 6 || r.typ = 8) && r.key = 3 * 2 ^ 30 + 1 + a && isLive d.jnl.log r).map fun r =>
    (clampN 1 600 (r.payload.getD 0 0 % 65536), r.payload.getD 0 0 / 65536 % 2)

/-- A port's return to IDENTIFIED with the same code within STANDTO seconds is noted for the standing restart (R339). -/
def noteReturn (a : Nat) (d : Dev) : Dev :=
  match (d.portOf a).stand, d.standing a with
  | some (t, c, _), some (sec, _) =>
    d.onPort a fun p => { p with standOk := p.accepted = c && d.now ≤ t + sec * 200000000 }
  | _, _ => d

/-- The third agreeing decoding of a port: its status and those of the ports it is bonded with follow (R34, R38). -/
def acceptDecoding (a : Nat) (d : Dev) : Dev :=
  let changed := (d.portOf a).accepted ≠ (d.portOf a).last
  let d := d.onPort a fun p => { p with accepted := p.last }
  let own := d.get (CSL_PORT_ST (a / 4) (a % 4))
  let st := if own = 6 && !changed then 6 else d.statusOf a
  let d := putStatus a st (codeField (d.portOf a).accepted) d
  let d := if st = 1 && own ≠ 1 then noteReturn a d else d
  d.each ((d.wanted a).filter (· ≠ a)) fun m d =>
    let o := d.get (CSL_PORT_ST (m / 4) (m % 4))
    if o = 1 || o = 2 || o = 5 then putStatus m (d.statusOf m) (codeField (d.portOf m).accepted) d else d

/-! Auxiliary outputs (R40, R43, R101). -/

/-- A write of AUX_OUT (R40). -/
def writeAuxOut (w : Word) (d : Dev) : Dev := auxFollow (d.put AUX_OUT_ON w.toNat)

/-- A write of AUX_TMASK (R101). -/
def writeAuxMask (w : Word) (d : Dev) : Dev := auxFollow (d.put AUX_TMASK_HOLD w.toNat)

/-- A write of AUX_TRIPCLR (R43): the named groups are enabled again. -/
def writeTripClr (w : Word) (d : Dev) : Dev :=
  d.each [0, 1, 2, 3] fun g d =>
    if w.toNat.testBit g then
      let d := d.put (AUX_GSTAT_TRIP g) 0
      if d.groupOn g then d.put (AUX_GSTAT_HSON g) 1 else d
    else d

/-! Slots (R17, R49 to R53, R338). -/

/-- The counts in an hour of device time. -/
def hourCounts : Nat := 720000000000

/-- Count the whole hours of energised time of a bridge into the identity memory of its cartridge (R338). -/
def countHours (a : Nat) (d : Dev) : Dev :=
  let p := d.portOf a
  let tot := p.enCnt + (match p.enAt with | some t => d.now - t | none => 0)
  let h := tot / hourCounts
  let d := d.onPort a fun p => { p with enCnt := tot % hourCounts, enAt := p.enAt.map fun _ => d.now }
  d.onSlot (a / 4) fun s => { s with ident := s.ident.map fun i => { i with
    hours := (List.range 4).map fun k => i.hours.getD k 0 + (if k = a % 4 then h else 0) } }

/-- A CARTRIDGE record: slot, serial number, step, reason, wear counters as last read (R338). -/
def cartridgeRecord (q : Nat) (d : Dev) : Dev :=
  let i := (d.slotOf q).ident.getD {}
  journal 15 0 ([q, i.serial % 2 ^ 32, i.letter * 16 + i.digit, d.get (CSL_STAT_REASON q)] ++ i.hours
    ++ [i.insertions, i.fuseStress]) d

/-- The slot ceases to hold an accepted cartridge (R17): axes ABSENT, ports NO_MOTOR and temperatures not valid at once,
results empty, a recalibration lost, the segment switch open, the reference buffer off, claims ended. -/
def vacate (q : Nat) (d : Dev) : Dev :=
  let d := d.each (quadAxes q) fun a d =>
    endClaim a ((setAxState a .absent d).onPort a fun _ => {})
  let d := d.each (quadAxes q) fun a d =>
    let old := d.get (CSL_PORT_ST q (a % 4))
    if old = 0 then d else raiseAx a 11 d
  let d := (d.setReg (CSL_PORT q) 0).setReg (CSL_NTC q) 0
  let d := refOff q (calLost q d)
  let d := d.each (resultRegs q ++ urgentRegs q) fun r d => { (d.setReg r (resetWord r)) with stamp := tset none d.stamp r none }
  let d := d.onClu q fun c => { c with idPos := [], idNeg := [] }
  let d := (d.put (CSL_STAT_SEGSW q) 0).clrBit PSE_SEG q
  { d.onSlot q fun s => { s with reclose := false } with bond := tset 0 d.bond q 0 }

/-- The sealed beginning of an acceptance, from the 10 ms row of R50: CHECKING and event 1010. -/
def beginCheck (q : Nat) (d : Dev) : Dev :=
  raise 1010 (((d.put (CSL_STAT_STATE q) 1).put (CSL_STAT_REASON q) 0).onSlot q fun s => { s with stage := .checking })

/-- Refuse a cartridge (R51): REFUSED with its reason, event 1012, lock and segment switch open, axes ABSENT. -/
def refuseCartridge (q reason : Nat) (d : Dev) : Dev :=
  let d := ((d.put (CSL_STAT_STATE q) 3).put (CSL_STAT_REASON q) reason).put (CSL_STAT_LOCK q) 0
  let d := (d.put (CSL_STAT_SEGSW q) 0).clrBit PSE_SEG q
  cartridgeRecord q (raise 1012 (d.onSlot q fun s => { s with stage := .idle, boot := false }))

/-- Load the trims of the identity memory into the cluster of a slot (R137, R156). -/
def loadTrims (q : Nat) (d : Dev) : Dev :=
  let i := (d.slotOf q).ident.getD {}
  let d := (((((d.put (AC_OFS_OFS q 0) i.ofsA).put (AC_GAIN_GAIN q 0) i.gainA).put (AC_OFS_OFS q 1) i.ofsB).put
    (AC_GAIN_GAIN q 1) i.gainB).put (AC_SKEW_SKEW q 1) i.skewB).put (AC_CALT_TDIE q) i.calt
  d.each ((List.range 36).filter chTrimmed) fun c d => d.setReg (AC_CHCAL q c) (w32 (i.chcal.getD c 0) &&& 0x0FFFFFFF)

/-- A release request of a slot (R52 step 2, R53): refused and journalled, or started. `src`: the journal's source. -/
def requestRelease (q src : Nat) (d : Dev) : Dev :=
  let other := (List.range 16).any fun x => x ≠ q && d.get (CSL_STAT_STATE x) = 4
  if other || d.get (CSL_STAT_STATE q) ≠ 2 then
    journal 2 src [q] ((d.put CSL_PANEL_RELREF 1).onSlot q fun s => { s with refusedAt := some d.now })
  else
    let d := raise 1009 (journal 5 src [1009, q] (d.put (CSL_STAT_STATE q) 4))
    let d := d.onSlot q fun s => { s with relAt := d.now }
    let d := d.each (quadAxes q) fun a d => countHours a d
    cartridgeRecord q (d.each (quadAxes q) fun a d => if d.lowest a = a then stopForChange a d else d)

/-- Abandon a release between steps 2 and 5 (R53): the slot is ACCEPTED again, its segment switch closes through
precharge, event 1009 reports it. -/
def abandonRelease (q : Nat) (d : Dev) : Dev :=
  let d := d.put (CSL_STAT_STATE q) 2
  let d := if d.on (CSL_STAT_SEGSW q) then d else d.onSlot q fun s => { s with reclose := true }
  raise 1009 (journal 5 0 [1009, q, 1] d)

/-- The lock closes on a quad that was not taken out, and acceptance runs again with the lock held closed (R49, R53). -/
def acceptAgain (q : Nat) (d : Dev) : Dev :=
  beginCheck q (vacate q (d.put (CSL_STAT_LOCK q) 1))

/-- A fault of the whole quad by its segment (R58, R59): FAULT with SEGMENT on every axis, event 1002. -/
def segmentFault (q : Nat) (d : Dev) : Dev :=
  raisePse 10 (d.each (quadAxes q) fun a d => faultOne a 10 0 d)

end Sys2Proof.Machine
end

