-- ==== Sys2Proof/Machine/Ports.lean ====
section
/-! DEFINITION. Events of the motor ports and PROBE (R33 to R39, R181, R339, R416), the auxiliary outputs (R40 to R43), the
ground-speed pulse (R44) and the test access port (R47). -/

namespace Sys2Proof.Machine
open Sys2Proof Reg

/-! Motor ports. -/

/-- ID_POLARITY_REVERSE (R416): at every multiple of 100,000 counts. The half a conversion falls in follows from its
sampling instant (R151), so the reversal itself leaves no other mark. -/
def execIdPolarityReverse : State → Out := onDev id

/-- The half of a port's pin-5 drive that ended `k` halves ago has a qualifying result (R151). -/
def Dev.halfFresh (d : Dev) (q p : Nat) (neg : Bool) : Bool :=
  let c := d.cluOf q
  let h := d.now / 100000
  match tget none (if neg then c.idNeg else c.idPos) p with
  | some (_, n) => decide (n + (if neg then 1 else 2) = h)
  | none => false

/-- ID_DECODE (R33, R34, R151, R416): at the end of a negative half a port is decoded into a coding resistance, in ohms
after the compensation of the diode, and a motor temperature, none when it is outside the motor record's range. Without a
qualifying result the decoding counts as not agreeing. -/
def execIdDecode (a : Fin 64) (ohms : Nat) (temp : Option Int) : State → Out :=
  onDev fun d =>
    let q := a / 4
    let p := a % 4
    if !d.present q || d.now % 200000 ≠ 0 then d
    else
      let d := if d.halfFresh q p true then
          d.put (CSL_NTC_TEMP q p) (match temp with | some t => (clampI 1 255 (t + 40)).toNat | none => 0)
        else d
      if d.halfFresh q p false then
        let c := decodeOhms ohms
        d.onPort a fun h => { h with
          last := c
          agree := if h.last = c then h.agree + 1 else 1
          noMotor := if c = 0 then h.noMotor + 1 else 0 }
      else d.onPort a fun h => { h with agree := 0, noMotor := 0 }

/-- PORT_PLUG (R34, R36, R38, R39, R176, R181): three decodings in a row agree, and the port status follows them. -/
def execPortPlug (a : Fin 64) : State → Out :=
  onDev fun d => if d.present (a / 4) && decide (3 ≤ (d.portOf a).agree) then acceptDecoding a d else d

/-- The ports of a drive allow PROBE: all IDENTIFIED with one code (R36, R38). -/
def Dev.probeReady (d : Dev) (a : Nat) : Bool :=
  (d.wanted a).all fun m => d.get (CSL_PORT_ST (m / 4) (m % 4)) = 1 && d.axSt m = .off
    && d.get (CSL_PORT_CODE (m / 4) (m % 4)) = d.get (CSL_PORT_CODE (a / 4) (a % 4))

/-- PROBE_START (R36, R37 step 1, R38): an OFF axis whose PROBE is due enters it, with the whole bond. -/
def execProbeStart (a : Fin 64) : State → Out :=
  onDev fun d =>
    if (d.wanted a).head? = some a.val && (d.wanted a).any (fun m => (d.portOf m).probeDue) && d.probeReady a
        && d.mode.power && !d.releasing a && !d.on FLT_STAT_LEVEL then
      let d := setDriveState a .probe d
      d.each (d.members a) fun m d => d.onPort m fun h => { h with probeDue := false, probe := .measuring d.now }
    else d

/-- The phases whose induced voltage is below 20 % of the largest, as a missing-phase code: 0 none, 1 U, 2 V, 3 W, 7 ALL
(R37 steps 2 and 5). -/
def missingInduced (u v w : Nat) : Nat :=
  let m := max u (max v w)
  let low := fun (x : Nat) => decide (5 * x < m)
  match low u, low v, low w with
  | false, false, false => 0
  | true, false, false => 1
  | false, true, false => 2
  | false, false, true => 3
  | _, _, _ => 7

/-- PROBE_MEASURE_END (R37 step 2): after 1 ms, with the mean back-EMF of the second half and the largest deviation of
each phase, in 4.4 mV steps. -/
def execProbeMeasureEnd (a : Fin 64) (e du dv dw : Fin 16384) : State → Out :=
  onDev fun d =>
    match (d.portOf a).probe with
    | .measuring t =>
      if t + 200000 ≤ d.now && d.axSt a = .probe then
        let n := missingInduced du dv dw
        let found : ProbeH := if e.val < 114 then .pulses d.now [] else if n = 0 then .passed d.now else .missing n d.now
        d.onPort a fun h => { h with probe := found }
      else d
    | _ => d

/-- A PROBE pulse passes (R37 step 4): the two driven phases carry at least 0.5 A of opposite sign and the third stays
below 0.2 A. Currents in 6.1 mA steps; the V current is −(U + W). -/
def pulsePasses (k : Nat) (iu iw : Int) : Bool :=
  let iv := -(iu + iw)
  let ok := fun (x y z : Int) => 5000 ≤ x.natAbs * 61 && 5000 ≤ y.natAbs * 61 && x * y < 0 && z.natAbs * 61 < 2000
  match k with
  | 0 => ok iu iv iw
  | 1 => ok iv iw iu
  | _ => ok iw iu iv

/-- PROBE_PULSE (R37 steps 3 and 4): the next of the pulses U to V, V to W, W to U, 200 µs after the one before, with the
phase currents it drove. -/
def execProbePulse (a : Fin 64) (iu iw : Int) : State → Out :=
  onDev fun d =>
    match (d.portOf a).probe with
    | .pulses t done =>
      if done.length < 3 && decide (t + 40000 * done.length ≤ d.now) && d.axSt a = .probe then
        d.onPort a fun h => { h with probe := .pulses t (done ++ [pulsePasses done.length iu iw]) }
      else d
    | _ => d

/-- What the findings of one bridge come to: nothing yet, passed, a missing phase, or PROBE_FAILED (R37 steps 5 and 6). -/
inductive Verdict where
  | pending | passed | missing (phase : Nat) | failed
  deriving DecidableEq, Repr

/-- The verdict on one bridge at an instant: 200 µs after the last pulse began. -/
def ProbeH.verdict (p : ProbeH) (now : Nat) : Verdict :=
  match p with
  | .passed _ => .passed
  | .missing n _ => .missing n
  | .pulses t done =>
    if now < t + 120000 then .pending
    else match done with
      | [true, true, true] => .passed
      | [false, false, false] => .missing 7
      | [false, true, false] => .missing 1
      | [false, false, true] => .missing 2
      | [true, false, false] => .missing 3
      | [_, _, _] => .failed
      | _ => .pending
  | _ => .pending

/-- A standing restart after a passed PROBE (R339): START in the recorded direction and a CHANGE record with the client's
slot. The client's NAME is the slot table's. -/
def standingRestart (a : Nat) (d : Dev) : Dev :=
  match (d.portOf a).stand, d.standing a with
  | some (_, _, some slot), some (_, dir) =>
    if (d.portOf a).standOk && d.mode = .run && tget none d.claim a = some slot then
      journalClient 1 slot (d.clientOf slot).name [a, dir] (doStart a dir (d.onPort a fun h => { h with stand := none, standOk := false }))
    else d
  | _, _ => d

/-- PROBE_VERDICT (R37, R38, R339): once every bridge of the drive has its verdict. -/
def execProbeVerdict (a : Fin 64) : State → Out :=
  onDev fun d =>
    let ms := d.members a
    let v := fun m => (d.portOf m).probe.verdict d.now
    if d.lowest a ≠ a || d.axSt a ≠ .probe || ms.any (fun m => v m = .pending) then d
    else
      let bad := ms.filterMap fun m => match v m with | .missing n => some (m, n) | _ => none
      match bad with
      | (m, n) :: _ => faultDrive m 2 n (raiseAx m 3 d)
      | [] =>
        let failed := ms.filter fun m => v m = .failed
        let d := setDriveState a .off d
        if failed = [] then standingRestart a d
        else d.each failed fun m d =>
          raiseAx m 11 (d.put (CSL_PORT_ST (m / 4) (m % 4)) 6)

/-- FAULT_CLEAR_NO_MOTOR (R39): three agreeing NO_MOTOR decodings since the entry into FAULT, on every port of the drive. -/
def execFaultClearNoMotor (a : Fin 64) : State → Out :=
  onDev fun d =>
    if d.lowest a = a && d.axSt a = .fault && (d.members a).all fun m => decide (3 ≤ (d.portOf m).noMotor) then
      setDriveState a .off d
    else d

/-- HALL_OVERLOAD (R35, R175): the Hall supply switches off; MISSING_PHASE with phase HALL when Hall commutation is in
use, else the overload shows in the port status. -/
def execHallOverload (a : Fin 64) : State → Out :=
  onDev fun d =>
    let d := d.onPort a fun h => { h with hallOff := some d.now }
    if d.hallMode a = 2 && (d.axSt a).driving then faultDrive a 2 4 (raiseAx a 3 d)
    else d.put (CSL_PORT_HALLOV (a / 4) (a % 4)) 1

/-- HALL_RETRY (R35): 100 ms after it switched off, a Hall supply comes on again. -/
def execHallRetry (a : Fin 64) : State → Out :=
  onDev fun d =>
    match (d.portOf a).hallOff with
    | some t =>
      if t + 20000000 ≤ d.now then
        (d.onPort a fun h => { h with hallOff := none }).put (CSL_PORT_HALLOV (a / 4) (a % 4)) 0
      else d
    | none => d

/-! Auxiliary outputs. -/

/-- A write of the AUX or cartridge-slot block by the supervising pair or the debug access, else SUB 6 (R54). -/
def asSlotWriter (m : Master) (addr : Nat) (f : Dev → Dev) (d : Dev) : Dev :=
  if d.supRights m then f d else busError m 6 addr true d

/-- AUX_OUT_WRITE (R40, R41, R54): a write of AUX_OUT. -/
def execAuxOutWrite (m : Master) (w : Word) : State → Out := onDev (asSlotWriter m AUX_OUT (writeAuxOut w))

/-- AUX_HIGHSIDE_OFF (R40): 1 ms after the last output of a group turned off. -/
def execAuxHighsideOff (g : Fin 4) : State → Out :=
  onDev fun d =>
    match tget none d.aux.offAt g with
    | some t => if t + 200000 ≤ d.now && !d.groupOn g then
        (d.put (AUX_GSTAT_HSON g) 0).onAux fun x => { x with offAt := tset none x.offAt g none }
      else d
    | none => d

/-- AUX_PULLIN_END (R41): an output has been on for its group's pull-in time; with a hold duty below 255 it switches. -/
def execAuxPullinEnd (n : Fin 16) : State → Out :=
  onDev fun d =>
    if d.aux.on.testBit n && decide (tget 0 d.aux.since n + d.get (AUX_GCFG_PULLIN (n / 4)) * 200000 ≤ d.now) then
      d.onAux fun x => { x with hold := x.hold ||| 2 ^ n.val }
    else d

/-- AUX_DIAG_RUN (R42): every 100 ms an idle group starts its diagnostics. -/
def execAuxDiagRun (g : Fin 4) : State → Out :=
  onDev fun d =>
    if !d.groupOn g && (tget none d.aux.diag g).isNone && decide (tget 0 d.aux.diagEnd g + 19600000 ≤ d.now) then
      d.onAux fun x => { x with diag := tset none x.diag g (some d.now) }
    else d

/-- AUX_DIAG_DONE (R42): a run of 2 ms completes, with the outputs of the group it found open; event 1014 tells of any. -/
def execAuxDiagDone (g : Fin 4) (found : Fin 16) : State → Out :=
  onDev fun d =>
    match tget none d.aux.diag g with
    | some t =>
      if t + 400000 ≤ d.now then
        let d := (d.put ⟨AUX_OLOAD, 4 * g, 4⟩ found).onAux fun x => { x with
          diag := tset none x.diag g none, diagEnd := tset 0 x.diagEnd g d.now }
        if found.val = 0 then d else raise 1014 d
      else d
    | none => d

/-- AUX_SHORT_TRIP (R43): the high side of a group trips, whichever member caused it. -/
def execAuxShortTrip (g : Fin 4) : State → Out :=
  onDev fun d => raise 1013 ((d.put (AUX_GSTAT_TRIP g) 1).put (AUX_GSTAT_HSON g) 0)

/-- AUX_TRIPCLR (R43, R54): a write of AUX_TRIPCLR. -/
def execAuxTripclr (m : Master) (w : Word) : State → Out := onDev (asSlotWriter m AUX_TRIPCLR (writeTripClr w))

/-! The ground-speed pulse (R44). -/

/-- GSP_EDGE (R44): a rising edge that has passed the glitch filter. -/
def execGspEdge : State → Out :=
  onDev fun d =>
    let d' := match d.gspAt with
      | some t => d.put GSP_PERIOD_PERIOD (min (2 ^ 32 - 1) (d.now - t))
      | none => d
    { d' with gspAt := some d.now }

/-- GSP_TIMEOUT (R44): 2 s without an edge. -/
def execGspTimeout : State → Out :=
  onDev fun d =>
    if (match d.gspAt with | some t => t | none => 0) + 400000000 ≤ d.now then d.setReg GSP_PERIOD 0xFFFFFFFF else d

/-! The test access port (R47). -/

/-- JTAG_BYPASS (R47). -/
def execJtagBypass : State → Out :=
  onDev fun d => { d with jtag := { d.jtag with ir := .bypass, dr := 0, driving := false } }

/-- JTAG_IDCODE (R47): the data register holds 0x0644_8D63. -/
def execJtagIdcode : State → Out :=
  onDev fun d => { d with jtag := { d.jtag with ir := .idcode, dr := 0x06448D63, driving := false } }

/-- JTAG_SAMPLE_PRELOAD (R47): the chain captures the pins, which are not modelled and hence a free value, and takes the
word shifted in for a later EXTEST. -/
def execJtagSamplePreload (w : Nat) : State → Out :=
  onDev fun d =>
    let f := d.freeVal
    { f.2 with jtag := { ir := .sample, dr := (Config.freeWord f.1).toNat, preload := w, driving := false } }

/-- JTAG_EXTEST (R47): the preloaded word drives the pins, in SERVICE with every axis OFF or ABSENT; otherwise the chain
behaves as BYPASS. -/
def execJtagExtest : State → Out :=
  onDev fun d =>
    if d.mode = .service && allAxes.all fun a => d.axSt a = .off || d.axSt a = .absent then
      { d with jtag := { d.jtag with ir := .extest, dr := d.jtag.preload, driving := true } }
    else { d with jtag := { d.jtag with ir := .bypass, dr := 0, driving := false } }

end Sys2Proof.Machine
end

