-- ==== Sys2Proof/Machine/Slots.lean ====
section
/-! DEFINITION. The operator panel, cartridge release and acceptance (R17, R48 to R53, R104, R137, R337, R338). -/

namespace Sys2Proof.Machine
open Sys2Proof Reg

/-- A slot is occupied: its presence contacts are made (R52). -/
def Dev.occupied (d : Dev) (q : Nat) : Bool := d.on (CSL_STAT_PRES q)

/-- Keys and lamps act in every mode but DORMANT, where a key only wakes (R48). A key raises event 1008 (R282, the
registers of the cartridge-slot block; DEDUCED, log 45). -/
def onPanel (keys : Fin 8) (f : Dev → Dev) (d : Dev) : Dev :=
  if d.mode = .dormant then d
  else
    let d := raise 1008 (d.put CSL_PANEL_KEYS keys)
    f { d with panel := { keyAt := some d.now } }

/-- The next occupied slot after the selected one, wrapping round; the lowest when none is selected (R52). -/
def Dev.nextSlot (d : Dev) : Option Nat :=
  let from_ := if d.on CSL_PANEL_SELVALID then d.get CSL_PANEL_SEL + 1 else 0
  ((List.range 16).map fun k => (from_ + k) % 16).find? d.occupied

/-- KEY_SELECT (R52 step 1), with the debounced keys after the press. -/
def execKeySelect (keys : Fin 8) : State → Out :=
  onDev (onPanel keys fun d =>
    match d.nextSlot with
    | some q => (d.put CSL_PANEL_SELVALID 1).put CSL_PANEL_SEL q
    | none => d)

/-- SELECTION_LAPSE (R52): 10 s after the last key press. -/
def execSelectionLapse : State → Out :=
  onDev fun d =>
    match d.panel.keyAt with
    | some t => if t + 2000000000 ≤ d.now then (d.put CSL_PANEL_SELVALID 0).put CSL_PANEL_SEL 0 else d
    | none => d

/-- RELEASE_HOLD (R52 step 2): RELEASE held for 2 s with a slot selected. -/
def execReleaseHold (keys : Fin 8) : State → Out :=
  onDev (onPanel keys fun d =>
    if d.on CSL_PANEL_SELVALID then requestRelease (d.get CSL_PANEL_SEL) 2 d else d)

/-- KEY_ACK (R52 step 6): ACK on a selected SAFE slot within 30 s of the quad becoming safe opens the lock. -/
def execKeyAck (keys : Fin 8) : State → Out :=
  onDev (onPanel keys fun d =>
    let q := d.get CSL_PANEL_SEL
    if d.on CSL_PANEL_SELVALID && d.get (CSL_STAT_STATE q) = 5 && decide (d.now ≤ (d.slotOf q).safeAt + 6000000000) then
      ((d.put (CSL_STAT_LOCK q) 0).put (CSL_STAT_STATE q) 6).onSlot q fun s => { s with openAt := d.now }
    else d)

/-- A write of CSL_REL (R52, R53). -/
def writeRel (w : Word) (d : Dev) : Dev :=
  if w.toNat.testBit 31 then requestRelease (w.toNat % 16) 0 d else d

/-- CSL_REL (R52, R54): a write of CSL_REL. -/
def execCslRel (m : Master) (w : Word) : State → Out := onDev (asSlotWriter m CSL_REL (writeRel w))

/-- SEGMENT_OPEN (R52 step 4): every axis at rest with its bridge in high impedance, and the back-EMF of the four ports
below 2 V for 100 ms. -/
def execSegmentOpen (q : Fin 16) : State → Out :=
  onDev fun d =>
    if d.get (CSL_STAT_STATE q) = 4 && d.on (CSL_STAT_SEGSW q) && (quadAxes q).all (fun a =>
        !(d.axSt a).driving && !d.bemfAtLeast a 455
          && decide (max (d.sixOf a).hotAt (d.sixOf a).restAt + 20000000 ≤ d.now)) then
      (d.put (CSL_STAT_SEGSW q) 0).clrBit PSE_SEG q
    else d

/-- QUAD_SAFE (R52 step 5): the segment is below 5 V. -/
def execQuadSafe (q : Fin 16) : State → Out :=
  onDev fun d =>
    if d.get (CSL_STAT_STATE q) = 4 && !d.on (CSL_STAT_SEGSW q) then
      (d.put (CSL_STAT_STATE q) 5).onSlot q fun s => { s with safeAt := d.now }
    else d

/-- RELEASE_TIMEOUT (R53): CSL_RTO seconds from step 2. -/
def execReleaseTimeout (q : Fin 16) : State → Out :=
  onDev fun d =>
    if d.get (CSL_STAT_STATE q) = 4 && decide ((d.slotOf q).relAt + max 1 (d.get CSL_RTO_SEC) * 200000000 ≤ d.now) then
      abandonRelease q d
    else d

/-- ACK_TIMEOUT (R53): 30 s in SAFE without ACK. -/
def execAckTimeout (q : Fin 16) : State → Out :=
  onDev fun d =>
    if d.get (CSL_STAT_STATE q) = 5 && decide ((d.slotOf q).safeAt + 6000000000 ≤ d.now) then acceptAgain q d else d

/-- WITHDRAW_TIMEOUT (R53): 60 s unlocked. -/
def execWithdrawTimeout (q : Fin 16) : State → Out :=
  onDev fun d =>
    if d.get (CSL_STAT_STATE q) = 6 && decide ((d.slotOf q).openAt + 12000000000 ≤ d.now) then acceptAgain q d else d

/-! Acceptance (R50, R51, R104). -/

/-- PRESENCE_MAKE (R50): a cartridge is seated; its identity memory comes with it. The always-on domain senses it in
DORMANT too. -/
def execPresenceMake (q : Fin 16) (i : Ident) : State → Out :=
  onAny fun d =>
    if d.occupied q then d
    else (d.put (CSL_STAT_PRES q) 1).onSlot q fun s => { s with ident := some i, stage := .presence, presAt := d.now }

/-- A boot's acceptances run one at a time in ascending slot order (R104). -/
def Dev.bootTurn (d : Dev) (q : Nat) : Bool :=
  !(d.slotOf q).boot || (List.range q).all fun x => !(d.slotOf x).boot

/-- CARTRIDGE_CHECK_START (R50, R104): presence has been stable for 10 ms and the device has left SELFTEST. -/
def execCartridgeCheckStart (q : Fin 16) : State → Out :=
  onDev fun d =>
    if (d.slotOf q).stage = .presence && d.occupied q && d.mode ≠ .selftest && d.mode ≠ .dormant
        && decide ((d.slotOf q).presAt + 2000000 ≤ d.now) && d.bootTurn q then beginCheck q d
    else d

/-- A step this module supports: B2 and the later steps with letter B (R1, R51). -/
def stepSupported (i : Ident) : Bool := i.letter = 2 && 2 ≤ i.digit

/-- IDENTITY_READ (R50, R51): the checks of the identity memory; then precharge begins, or waits for the link (R104). -/
def execIdentityRead (q : Fin 16) : State → Out :=
  onDev fun d =>
    match (d.slotOf q).stage, (d.slotOf q).ident with
    | .checking, some i =>
      if !i.crcOk then refuseCartridge q 1 d
      else
        let d := (d.put (CSL_STAT_STEPL q) i.letter).put (CSL_STAT_STEPD q) i.digit
        if !stepSupported i then refuseCartridge q 2 d
        else if !i.calOk then refuseCartridge q 3 d
        else d.onSlot q fun s => { s with stage := if d.get PSE_VLINK_VLINK < 16000 then .waitLink else .precharge }
    | _, _ => d

/-- ACCEPTANCE_RESUME (R104): the link, as measured, has reached 32.0 V. -/
def execAcceptanceResume (q : Fin 16) (v : Fin 65536) : State → Out :=
  onDev fun d =>
    let d := d.put PSE_VLINK_VLINK v
    if (d.slotOf q).stage = .waitLink && 16000 ≤ v.val then d.onSlot q fun s => { s with stage := .precharge } else d

/-- SEGMENT_PRECHARGE_DONE (R50, R51, R53, R58, R59): a segment's precharge ends. In an acceptance it is refused with reason
4 or, with an open fuse, 6; a reclosure closes the switch. -/
def execSegmentPrechargeDone (q : Fin 16) (ok fuse : Bool) : State → Out :=
  onDev fun d =>
    let close := fun (d : Dev) => (d.put (CSL_STAT_SEGSW q) 1).setBit PSE_SEG q
    if (d.slotOf q).stage = .precharge then
      let d := if fuse then d.setBit PSE_SEG (16 + q) else d.clrBit PSE_SEG (16 + q)
      if !ok then refuseCartridge q 4 d
      else if !fuse then refuseCartridge q 6 d
      else (close d).onSlot q fun s => { s with stage := .ready }
    else if (d.slotOf q).reclose then
      let d := d.onSlot q fun s => { s with reclose := false }
      if ok then close d else d
    else d

/-- CARTRIDGE_ACCEPT (R50, R49, R137, R147, R338): the gate supplies are up; with its link in service the cartridge is
accepted, else refused with reason 5. -/
def execCartridgeAccept (q : Fin 16) (linkOk : Bool) : State → Out :=
  onDev fun d =>
    if (d.slotOf q).stage ≠ .ready then d
    else if !linkOk then refuseCartridge q 5 d
    else
      let d := d.onSlot q fun s => { s with
        stage := .idle, boot := false
        ident := s.ident.map fun i => { i with insertions := i.insertions + 1 } }
      let d := (d.put (CSL_STAT_STATE q) 2).put (CSL_STAT_LOCK q) 1
      let d := setRefen q true (loadTrims q d)
      let d := d.onLink q fun _ => { sentAt := d.now, validAt := d.now }
      let d := d.each (quadAxes q) fun a d => setAxState a .off d
      cartridgeRecord q d

/-- A fault on a cartridge that left without the release procedure: LINK on its axes (R17, R180). -/
def pulledFault (q : Nat) (d : Dev) : Dev :=
  raise (833 + 2 * q) (d.each (quadAxes q) fun a d => detectorFault a 7 8 0 d)

/-- CARTRIDGE_REMOVED (R17, R52 step 7): the cartridge leaves its slot; pulled without the procedure its axes fault first.
Event 1011. -/
def execCartridgeRemoved (q : Fin 16) : State → Out :=
  onAny fun d =>
    if !d.occupied q then d
    else if !d.sys.logicOn then
      (d.put (CSL_STAT_PRES q) 0).onSlot q fun _ => {}
    else
      let st := d.get (CSL_STAT_STATE q)
      let d := if st = 2 || st = 4 then pulledFault q d else d
      let was := d.present q
      let d := cartridgeRecord q d
      let d := if was then vacate q d else d
      let d := ((d.setReg (CSL_STAT q) 0).clrBit PSE_SEG q).clrBit PSE_SEG (16 + q)
      let d := d.onSlot q fun _ => {}
      raise 1011 d

/-- WEAR_HOUR (R338): a whole hour of energised time of a bridge. -/
def execWearHour (a : Fin 64) : State → Out :=
  onDev fun d => if d.present (a / 4) then countHours a d else d

/-- The live TRIM record of a cartridge: OFS and GAIN of A and of B, SKEW of B and the calibration temperature, one word
each after the serial number (R337). -/
def trimOf (r : JRec) (i : Ident) : Ident :=
  { i with
    ofsA := r.payload.getD 1 0, gainA := r.payload.getD 2 0, ofsB := r.payload.getD 3 0, gainB := r.payload.getD 4 0
    skewB := r.payload.getD 5 0, calt := r.payload.getD 6 0 }

/-- CARTCAL (R337): in SERVICE, the console writes the live TRIM record of a cartridge into its identity memory, and is
journalled as the source. -/
def execCartcal (q : Fin 16) : State → Out :=
  onDev fun d =>
    match d.mode, (d.slotOf q).ident with
    | .service, some i =>
      match liveRec d.jnl.log 12 (i.serial % 2 ^ 32) with
      | some r => journal 1 3 [q] (d.onSlot q fun s => { s with ident := some (trimOf r i) })
      | none => d
    | _, _ => d

end Sys2Proof.Machine
end

