-- ==== Sys2Proof/Machine/SupplyOps.lean ====
section
/-! DEFINITION. Supplies and the power budget (R55 to R77): measurements, link conditions, credits, the allocation. -/

namespace Sys2Proof.Machine
open Sys2Proof Reg

/-! Measurements (R65, R67, R71). -/

/-- The two level bits of R67 as they follow the link and the thresholds. -/
def levelBits (d : Dev) : Dev :=
  (d.put PSE_STAT_VDECEL (if d.get PSE_VTHR0_VDECEL ≤ d.v10 then 1 else 0)).put PSE_STAT_REGEN0
    (if d.get PSE_VTHR0_VREGEN0 ≤ d.v10 then 1 else 0)

/-- The link voltage as measured: PSE_VLINK and the level bits of R67; VDECEL (event 996) on the upward crossing. -/
def setVlink (v : Nat) (d : Dev) : Dev :=
  let was := d.on PSE_STAT_VDECEL
  let d := levelBits (d.put PSE_VLINK_VLINK v)
  if d.on PSE_STAT_VDECEL && !was then raisePse 4 d else d

/-- P_CONT in W at a base-plate temperature in 0.1 °C (R71). -/
def pCont (t : Int) : Nat :=
  if t ≤ 600 then 10000 else if t ≤ 850 then 10000 - 20 * (t - 600).toNat else 5000

/-- P_PEAK in W (R71). -/
def pPeak (p : Nat) : Nat := p * 8 / 5

/-- The cap of the power credit in J (R71). -/
def powCap (p : Nat) : Nat := 3 * p

/-- The base-plate temperature as reported (R65, R71): PSE_TBASE, PSE_PLIM and the end of derating. -/
def setTbase (t : Int) (d : Dev) : Dev :=
  let d := d.putI PSE_TBASE_TBASE t
  let d := (d.put PSE_PLIM_PCONT (pCont t)).put PSE_PLIM_PPEAK (pPeak (pCont t))
  if t ≤ 600 then d.put PSE_STAT_DERATE 0 else d

/-- The base-plate temperature in 0.1 °C. -/
def Dev.tbase (d : Dev) : Int := d.getS PSE_TBASE_TBASE

/-- The terminal voltages; the backup is available at 30 V on the higher (R60). -/
def setTerminals (va vb vl : Nat) (d : Dev) : Dev :=
  (((d.put PSE_VIN_VDCA va).put PSE_VIN_VDCB vb).put PSE_LOGIC_VLOGIC vl).put PSE_STAT_BKAVAIL
    (if 15000 ≤ max va vb then 1 else 0)

/-! DC inputs (R55 to R57). `x`: 0 DCA, 1 DCB. -/

/-- PSE_STAT.INA or INB. -/
def inClosed (x : Nat) : Fld := if x = 0 then PSE_STAT_INA else PSE_STAT_INB
/-- PSE_STAT.OCA or OCB. -/
def inTripped (x : Nat) : Fld := if x = 0 then PSE_STAT_OCA else PSE_STAT_OCB
/-- PSE_STAT.REVA or REVB. -/
def inReverse (x : Nat) : Fld := if x = 0 then PSE_STAT_REVA else PSE_STAT_REVB
/-- PSE_CFG.REVA or REVB. -/
def inRevCfg (x : Nat) : Fld := if x = 0 then PSE_CFG_REVA else PSE_CFG_REVB
/-- The terminal voltage of an input. -/
def inVolt (x : Nat) : Fld := if x = 0 then PSE_VIN_VDCA else PSE_VIN_VDCB

/-- PSE_STAT.PRECH follows the inputs (R55). -/
def prechFlag (d : Dev) : Dev :=
  d.put PSE_STAT_PRECH (if (d.inputOf 0).preAt.isSome || (d.inputOf 1).preAt.isSome then 1 else 0)

/-- An input may be connected (R55): the mode is neither DORMANT nor LOCKOUT and hold-up is not running. -/
def Dev.inputsAllowed (d : Dev) : Bool := !(d.mode = .dormant) && !(d.mode = .lockout) && !d.on PSE_STAT_HOLDUP

/-- Begin to precharge through an input (R55). -/
def beginPrecharge (x : Nat) (d : Dev) : Dev :=
  prechFlag (d.onInput x fun h => { h with preAt := some d.now, retryAt := none })

/-- Open an input by a trip (R55, R57): OCx, INPUT_TRIP, a retry after 5 s. -/
def tripInput (x : Nat) (d : Dev) : Dev :=
  let d := d.onInput x fun h => { h with preAt := none, retryAt := some (d.now + 1000000000) }
  raisePse 9 (prechFlag (((d.put (inClosed x) 0).put (inReverse x) 0).put (inTripped x) 1))

/-- Open both main switches (R55). -/
def openInputs (d : Dev) : Dev :=
  prechFlag (d.each [0, 1] fun x d => ((d.put (inClosed x) 0).put (inReverse x) 0).onInput x fun _ => {})

/-! Link conditions (R66). -/

/-- The axes that drive. -/
def Dev.drivingAxes (d : Dev) : List Nat := allAxes.filter fun a => (d.axSt a).driving

/-- Fault every energised axis with LINK, remembering which (R66, R180). -/
def linkFault (d : Dev) : Dev :=
  let l := d.drivingAxes
  (faultDriving l 9 0 d).onPse fun p => { p with faulted := p.faulted ||| maskOf l }

/-! The allocation (R70 to R74). -/

/-- A drive in the allocation: its lowest axis, priority, floor, want and ceiling, in 10 mA. -/
structure AllocD where
  ax : Nat
  prio : Nat
  floor : Int
  want : Int
  ceil : Int := 0
  deriving DecidableEq, Repr

/-- Pass 1: floors by level, ascending axis (R74). -/
def floorsPass (level : Nat) : List AllocD → Int → List AllocD × Int
  | [], av => ([], av)
  | x :: l, av =>
    let g := if x.prio = level then min x.floor (min x.want av) else 0
    let x := if x.prio = level then { x with ceil := g } else x
    let (l, av) := floorsPass level l (av - g)
    (x :: l, av)

/-- One round of pass 2 at a level: every drive below its want takes up to a share (R74). -/
def shareRound (level : Nat) (share : Int) : List AllocD → Int → List AllocD × Int
  | [], av => ([], av)
  | x :: l, av =>
    if x.prio = level && x.ceil < x.want then
      let g := min share (x.want - x.ceil)
      let (l, av) := shareRound level share l (av - g)
      ({ x with ceil := x.ceil + g } :: l, av)
    else
      let (l, av) := shareRound level share l av
      (x :: l, av)

/-- Pass 2 at a level (R74): rounds until nothing is wanted, available or divisible. -/
def topUp (level : Nat) : Nat → List AllocD → Int → List AllocD × Int
  | 0, l, av => (l, av)
  | fuel + 1, l, av =>
    let n := (l.filter fun x => x.prio = level && decide (x.ceil < x.want)).length
    if n = 0 || av ≤ 0 then (l, av)
    else
      let share := tdiv av n
      if share = 0 then (l, av)
      else
        let (l, av) := shareRound level share l av
        topUp level fuel l av

/-- The levels, highest first. -/
def levels : List Nat := [7, 6, 5, 4, 3, 2, 1, 0]

/-- The ceilings of the drives that are not regenerating (R74). -/
def allocate74 (l : List AllocD) (avail : Int) : List AllocD :=
  let (l, av) := levels.foldl (fun (r : List AllocD × Int) n => floorsPass n r.1 r.2) (l, avail)
  (levels.foldl (fun (r : List AllocD × Int) n => topUp n 66 r.1 r.2) (l, av)).1

/-- The number of bridges of the drive of an axis. -/
def Dev.bridges (d : Dev) (a : Nat) : Nat := (d.members a).length

/-- The peak phase current of a drive in 10 mA (R74). -/
def Dev.ratedPeak (d : Dev) (a : Nat) : Nat := 3500 * d.bridges a
/-- The continuous current of a drive in 10 mA (R74). -/
def Dev.contCur (d : Dev) (a : Nat) : Nat := 800 * d.bridges a
/-- The headroom H of a drive in 10 mA, 12.5 % of the peak current (R74). -/
def Dev.headroom (d : Dev) (a : Nat) : Nat :=
  match d.bridges a with | 1 => 437 | 2 => 875 | _ => 1750

/-- The cap of a drive's peak credit, in 10⁻⁹ A²s (R74): (I_peak² − I_cont²) × 2 s. -/
def Dev.peakCap (d : Dev) (a : Nat) : Nat := (d.ratedPeak a ^ 2 - d.contCur a ^ 2) * 200000

/-- The peak credit of a drive is exhausted (R74). -/
def Dev.peakOut (d : Dev) (a : Nat) : Bool := d.peakCap a ≤ tget 0 d.pse.pkUsed a

/-- RATED of a drive (R74). -/
def Dev.ratedCur (d : Dev) (a : Nat) : Nat := if d.peakOut a then d.contCur a else d.ratedPeak a

/-- A credit's used part after a step of a signed draw, between 0 and its cap. -/
def creditStep (cap used : Nat) (draw : Int) : Nat := (clampI 0 cap (used + draw)).toNat

/-- The percentage left of a credit. -/
def creditPct (cap used : Nat) : Nat := 100 * (cap - used) / max 1 cap

/-- The square of the CLAMP current in A², at a link voltage in 10 mV, through RCLMP mΩ (R45, R69). -/
def Dev.clampSq (d : Dev) : Nat :=
  let r := d.get PSE_CLAMP_RCLMP
  if !d.on PSE_STAT_CLAMPON || r = 0 || r = 0xFFFF then 0 else (d.v10 * 10) ^ 2 / r ^ 2

/-- The cap of the CLAMP credit in 10⁻⁵ A²s (R69). -/
def clampCap : Nat := 1050000000

/-- The credits over 10 µs (R69, R71, R72, R74). The module power is the link voltage times the input currents. -/
def stepCredits (ia ib : Int) (rms : List Nat) (d : Dev) : Dev :=
  let pc := d.get PSE_PLIM_PCONT
  let p : Int := tdiv ((d.v10 : Int) * (ia + ib)) 10000
  let powCapU := powCap pc * 100000
  let i2 : Int := if d.on PSE_STAT_CLAMPON then (d.clampSq : Int) - 400 else -400
  let cl := if d.on PSE_STAT_CLAMPLIM && d.on PSE_STAT_CLAMPON then d.pse.clampUsed
    else creditStep clampCap d.pse.clampUsed i2
  let d := d.onPse fun h => { h with
    powLeft := creditStep powCapU h.powLeft (pc - p), aUsed := creditStep 3750000000 h.aUsed (ia - 12500)
    bUsed := creditStep 3750000000 h.bUsed (ib - 12500), clampUsed := cl }
  let d := d.each allAxes fun a d =>
    let draw : Int := (rms.getD a 0 : Int) ^ 2 - (d.contCur a : Int) ^ 2
    let used := creditStep (d.peakCap a) (tget 0 d.pse.pkUsed a) draw
    if d.lowest a = a then d.onPse fun h => { h with pkUsed := tset 0 h.pkUsed a used } else d
  let d := (d.put PSE_CREDIT_CRP (d.pse.powLeft / 100000)).put PSE_CREDIT_CRA (creditPct 3750000000 d.pse.aUsed)
  (d.put PSE_CREDIT_CRB (creditPct 3750000000 d.pse.bUsed)).put PSE_CLAMP_CRCL (creditPct clampCap d.pse.clampUsed)

/-- The input current limit I_INMAX in 10 mA (R72). -/
def Dev.inMax (d : Dev) : Nat :=
  let one := fun (x used : Nat) => if d.on (inClosed x) then (if used < 3750000000 then 20000 else 12500) else 0
  one 0 d.pse.aUsed + one 1 d.pse.bUsed

/-- The power limit in W after PUSER and RSCALE (R71, R73, R74). -/
def Dev.powerLimit (d : Dev) : Nat :=
  let p := if d.pse.powLeft ≠ 0 then d.get PSE_PLIM_PPEAK else d.get PSE_PLIM_PCONT
  let u := d.get PSE_PUSER_PUSER
  (if u ≠ 0 then min p u else p) * d.get PSE_RIPPLE_RSCALE / 100

/-- I_BUD in 10 mA (R74). -/
def Dev.iBud (d : Dev) : Nat := min (d.powerLimit * 10000 / max 2800 d.v10) d.inMax

/-- The level of a drive (R74). -/
def Dev.prio (d : Dev) (a : Nat) : Nat := d.get (PSE_AXPRIO_PRIO (a / 8) (a % 8))

/-- BUDGET follows the drives that are limited; its rising edge raises the event at most once per 100 ms (R74). -/
def budgetFlag (d : Dev) : Dev :=
  let lim := allAxes.any fun a => d.on (PSE_AXCEIL_LIMITED a)
  let was := d.on PSE_STAT_BUDGET
  let d := d.put PSE_STAT_BUDGET (if lim then 1 else 0)
  let due := match d.pse.budgetAt with | some t => decide (t + 20000000 ≤ d.now) | none => true
  if lim && !was && due then (raisePse 7 d).onPse fun p => { p with budgetAt := some d.now } else d

/-- Give a drive its ceiling: PSE_AXCEIL shows it, its commutation unit takes it up at its next tick or period start
(R70, R74). -/
def giveCeil (a c : Nat) (limited : Bool) (d : Dev) : Dev :=
  ((d.put (PSE_AXCEIL_CEIL a) c).put (PSE_AXCEIL_LIMITED a) (if limited then 1 else 0)).onPse fun p => { p with
    sent := tset none p.sent a (some c) }

/-- Allocate the ceilings of all drives from their link-side currents (R70, R74). -/
def arbitrate (link : List Int) (d : Dev) : Dev :=
  let low := allAxes.filter fun a => d.lowest a = a
  let part := low.filter fun a => (d.axSt a).driving
  let i := fun (a : Nat) => link.getD a 0
  let regen := part.filter fun a => decide (i a < 0)
  let avail : Int := d.iBud + (regen.map fun a => -(i a)).foldl (· + ·) 0
  let ds := (part.filter fun a => decide (0 ≤ i a)).map fun a => ({
    ax := a, prio := d.prio a, floor := d.get (PSE_AXLIM_FLOOR a)
    want := min (d.get (PSE_AXLIM_UCEIL a) : Int) (min (d.ratedCur a : Int) (i a + d.headroom a)) } : AllocD)
  let out := allocate74 ds avail
  let d := d.each allAxes fun a d =>
    let d := if d.lowest a = a then
        (d.put (PSE_AXCEIL_PKCR a) (creditPct (d.peakCap a) (tget 0 d.pse.pkUsed a))).put (PSE_AXCEIL_PEAKOUT a)
          (if d.peakOut a then 1 else 0)
      else d
    giveCeil a (if a ∈ regen then 0xFFFF else 0) false d
  budgetFlag (d.each out fun x d => giveCeil x.ax x.ceil.toNat (decide (x.ceil < x.want)) d)

/-- RSCALE returns towards 100 % by 1 % per 100 ms once the average ripple is below 150 A (R73). -/
def rippleReturn (d : Dev) : Dev :=
  let r := d.get PSE_RIPPLE_RSCALE
  if d.now % 20000000 = 0 && d.pse.ripAvg < 1500 && r < 100 then
    let d := d.put PSE_RIPPLE_RSCALE (r + 1)
    if r + 1 = 100 then d.put PSE_STAT_RIPPLE 0 else d
  else d

end Sys2Proof.Machine
end

