-- ==== Sys2Proof/Machine/Supply.lean ====
section
/-! DEFINITION. Events of the supplies, the DC link and the arbiter (R55 to R78). -/

namespace Sys2Proof.Machine
open Sys2Proof Reg

/-! DC inputs. `v`: the terminal as measured, `link`: the link, in 2 mV. -/

/-- INPUT_PRECHARGE_START (R55): an open input at 20 V or more, in a mode that connects inputs. -/
def execInputPrechargeStart (x : Fin 2) (v : Fin 65536) : State → Out :=
  onDev fun d =>
    let d := d.put (inVolt x) v
    if 10000 ≤ v.val && d.inputsAllowed && !d.on (inClosed x) && (d.inputOf x).preAt.isNone
        && (d.inputOf x).retryAt.isNone then beginPrecharge x d
    else d

/-- INPUT_CONNECT (R55): the link is within 1.0 V of the terminal; the main switch closes, OCx clears. -/
def execInputConnect (x : Fin 2) (v link : Fin 65536) : State → Out :=
  onDev fun d =>
    let d := setVlink link (d.put (inVolt x) v)
    if (d.inputOf x).preAt.isSome && decide (v.val ≤ link.val + 500) && decide (link.val ≤ v.val + 500) then
      prechFlag (((d.put (inClosed x) 1).put (inTripped x) 0).onInput x fun h => { h with preAt := none })
    else d

/-- PRECHARGE_TIMEOUT (R55): 250 ms of precharge without reaching the terminal. -/
def execPrechargeTimeout (x : Fin 2) : State → Out :=
  onDev fun d =>
    match (d.inputOf x).preAt with
    | some t => if t + 50000000 ≤ d.now then tripInput x d else d
    | none => d

/-- INPUT_RETRY (R55, R57): 5 s after opening, while the terminal is at 20 V or more. -/
def execInputRetry (x : Fin 2) (v : Fin 65536) : State → Out :=
  onDev fun d =>
    let d := d.put (inVolt x) v
    match (d.inputOf x).retryAt with
    | some t =>
      if d.now < t then d
      else if 10000 ≤ v.val && d.inputsAllowed then beginPrecharge x d
      else d.onInput x fun h => { h with retryAt := some (t + 1000000000) }
    | none => d

/-- INPUT_OVERCURRENT (R57): more than 250 A for 50 µs. -/
def execInputOvercurrent (x : Fin 2) : State → Out :=
  onDev fun d => if d.on (inClosed x) then tripInput x d else d

/-- REVERSE_CURRENT_BLOCK (R56): the allowed reverse current exceeds 50 A; it is blocked until the link is no longer above
the terminal. -/
def execReverseCurrentBlock (x : Fin 2) : State → Out :=
  onDev fun d =>
    if d.on (inClosed x) && d.on (inRevCfg x) then
      (d.put (inReverse x) 0).onInput x fun h => { h with block := true }
    else d

/-! Segments (R58, R59). -/

/-- SEGMENT_TRIP (R58, R338): more than 180 A for 10 µs opens the segment switch. -/
def execSegmentTrip (q : Fin 16) : State → Out :=
  onDev fun d =>
    if d.on (CSL_STAT_SEGSW q) then
      let d := (d.put (CSL_STAT_SEGSW q) 0).clrBit PSE_SEG q
      let d := d.onSlot q fun s => { s with ident := s.ident.map fun i => { i with fuseStress := i.fuseStress + 1 } }
      raise (833 + 2 * q) (segmentFault q d)
    else d

/-- A write of PSE_SEGRC (R58): precharge of each named open segment whose quad is OFF or in FAULT. -/
def writeSegrc (w : Word) (d : Dev) : Dev :=
  d.each (List.range 16) fun q d =>
    if w.toNat.testBit q && d.get (CSL_STAT_STATE q) = 2 && !d.on (CSL_STAT_SEGSW q)
        && (quadAxes q).all (fun a => d.axSt a = .off || d.axSt a = .fault) then
      d.onSlot q fun s => { s with reclose := true }
    else d

/-- SEGMENT_RECLOSE (R58): a write of PSE_SEGRC. -/
def execSegmentReclose (m : Master) (w : Word) : State → Out :=
  onDev fun d => match m with
    | .pair _ | .debug => writeSegrc w d
    | _ => d

/-- FUSE_OPEN (R59, R133): the segment falls below 5 V while the link stays above it. -/
def execFuseOpen (q : Fin 16) : State → Out :=
  onDev fun d =>
    if d.present q && d.on (CSL_STAT_SEGSW q) && 2500 ≤ d.get PSE_VLINK_VLINK then
      raise (833 + 2 * q) (segmentFault q (d.clrBit PSE_SEG (16 + q)))
    else d

/-! Logic supplies (R60, R61). -/

/-- SUPPLY_SWITCH (R60, R61): LOGIC main at 8.8 V or more, else the backup when it is available; journalled, and nothing
else changes. Voltages: LOGIC in mV, terminals in 2 mV. -/
def execSupplySwitch (main : Bool) (vlogic va vb : Fin 65536) : State → Out :=
  onDev fun d =>
    let d := setTerminals va vb vlogic d
    let src := d.get PSE_STAT_SRC
    if main && src = 2 && 8800 ≤ vlogic.val then
      autoTimer d.mode (journal 5 0 [992, 1] (raisePse 0 (d.put PSE_STAT_SRC 1)))
    else if !main && src = 1 && vlogic.val < 8000 && d.on PSE_STAT_BKAVAIL then
      autoTimer d.mode (journal 5 0 [992, 2] (raisePse 0 (d.put PSE_STAT_SRC 2)))
    else d

/-- Hold-up is confirmed (R62, R97): HOLDUP, a knell to every axis, a pending change cancelled, the journal sealed. -/
def holdup (x : DM) : DM :=
  let x := x.dev fun d =>
    let d := (d.put PSE_STAT_HOLDUP 1).put PSE_STAT_SRC 0
    let d := d.onPse fun p => { p with holdAt := d.now }
    let d := if d.on SYS_MODE_PEND then
        ((d.put SYS_MODE_PEND 0).put SYS_MODE_REFUSE 4).onSys fun h => { h with pendSince := none, autoPend := false }
      else d
    knell allAxes (raisePse 1 d)
  sealJournal true x

/-- HOLDUP (R62, R321): no logic source for 10 µs. -/
def execHoldup : State → Out :=
  onDM fun x => if x.1.on PSE_STAT_HOLDUP then x else holdup x

/-! Link conditions (R66, R67). `v`: the link in 2 mV. -/

/-- LINK_UV (R66): below 28.0 V for 100 µs; hold-up takes precedence. -/
def execLinkUv (v : Fin 65536) : State → Out :=
  onDev fun d =>
    let d := setVlink v d
    if v.val < 14000 && !d.on PSE_STAT_LINKUV && !d.on PSE_STAT_HOLDUP then
      linkFault (raisePse 2 (d.put PSE_STAT_LINKUV 1))
    else d

/-- LINK_OV (R66): above 65.0 V for 10 µs; every bridge goes to high impedance. -/
def execLinkOv (v : Fin 65536) : State → Out :=
  onDev fun d =>
    let d := setVlink v d
    if 32500 < v.val && !d.on PSE_STAT_LINKOV then
      (linkFault (raisePse 3 (d.put PSE_STAT_LINKOV 1))).each allAxes fun a d => setPat a 0 0 0 0 d
    else d

/-- LINK_CONDITION_CLEAR (R66): between 32.0 V and 60.0 V for 100 ms; the axes it faulted go to OFF. -/
def execLinkConditionClear (v : Fin 65536) : State → Out :=
  onDev fun d =>
    let d := setVlink v d
    if 16000 ≤ v.val && v.val ≤ 30000 && (d.on PSE_STAT_LINKUV || d.on PSE_STAT_LINKOV) then
      let l := axesOf d.pse.faulted
      let d := ((d.put PSE_STAT_LINKUV 0).put PSE_STAT_LINKOV 0).onPse fun p => { p with faulted := 0 }
      d.each l fun a d => if d.axSt a = .fault then setAxState a .off d else d
    else d

/-- VDECEL (R67): the link rises through V_DECEL. -/
def execVdecel (v : Fin 65536) : State → Out := onDev (setVlink v)

/-- REGEN0_CROSS (R67): the link crosses V_REGEN0 in either direction; regenerative torque follows PSE_VLINK (R206). -/
def execRegen0Cross (v : Fin 65536) : State → Out := onDev (setVlink v)

/-- CLAMP_ON (R67): the link reaches V_CLAMP_ON with CLMPEN set. -/
def execClampOn (v : Fin 65536) : State → Out :=
  onDev fun d =>
    let d := setVlink v d
    if d.on PSE_CFG_CLMPEN && d.get PSE_VTHR1_VCLON ≤ d.v10 && !d.on PSE_STAT_CLAMPON then
      raisePse 5 (d.put PSE_STAT_CLAMPON 1)
    else d

/-- CLAMP_OFF (R67): the link falls below V_CLAMP_OFF. -/
def execClampOff (v : Fin 65536) : State → Out :=
  onDev fun d =>
    let d := setVlink v d
    if d.v10 < d.get PSE_VTHR1_VCLOFF then d.put PSE_STAT_CLAMPON 0 else d

/-- The order of the thresholds, in 10 mV (R68). -/
def thresholdsOk (vdecel vregen vcloff vclon : Nat) : Bool :=
  5000 ≤ vdecel && vdecel < vregen && vregen < vcloff && vcloff < vclon && vclon ≤ 6200

/-- A write of PSE_VTHR0 or, with `one`, of PSE_VTHR1 (R68). -/
def writeThreshold (one : Bool) (w : Word) (d : Dev) : Dev :=
  let lo := w.toNat % 65536
  let hi := w.toNat / 65536
  let ok := if one then thresholdsOk (d.get PSE_VTHR0_VDECEL) (d.get PSE_VTHR0_VREGEN0) lo hi
    else thresholdsOk lo hi (d.get PSE_VTHR1_VCLOFF) (d.get PSE_VTHR1_VCLON)
  if ok then
    let d := (d.setReg (if one then PSE_VTHR1 else PSE_VTHR0) w).put PSE_STAT_THRERR 0
    levelBits d
  else d.put PSE_STAT_THRERR 1

/-- THRESHOLD_WRITE (R68): a write of PSE_VTHR0 or PSE_VTHR1. -/
def execThresholdWrite (m : Master) (one : Bool) (w : Word) : State → Out :=
  onDev fun d => match m with
    | .pair _ | .debug => writeThreshold one w d
    | _ => d

/-- CLAMP_FAULT (R69): the CLAMP credit is exhausted; CLAMPLIM makes every axis coast (R206). -/
def execClampFault : State → Out :=
  onDev fun d =>
    if d.on PSE_STAT_CLAMPON && !d.on PSE_STAT_CLAMPLIM then
      raisePse 6 (((d.put PSE_STAT_CLAMPLIM 1).put PSE_CLAMP_CRCL 0).onPse fun p => { p with clampUsed := clampCap })
    else d

/-- CLAMP_CREDIT_RESTORED (R69): the credit is back above 50 %. -/
def execClampCreditRestored : State → Out :=
  onDev fun d => if 2 * d.pse.clampUsed < clampCap then d.put PSE_STAT_CLAMPLIM 0 else d

/-! Temperature (R71). `t`: the reported base-plate temperature in 0.1 °C. -/

/-- THERMAL (R71): above 60 °C derating begins. -/
def execThermal (t : Int) : State → Out :=
  onDev fun d =>
    let d := setTbase t d
    if 600 < t && !d.on PSE_STAT_DERATE then raisePse 8 (d.put PSE_STAT_DERATE 1) else d

/-- Enter SAFE for over-temperature once the axes have been stopped by controlled deceleration (R71, R96, R97): at once
when every axis is at rest, else by a pending change that MODE_CHANGE_COMPLETE or STOP_TIMEOUT ends. -/
def overTemp (d : Dev) : Dev :=
  let m := d.mode
  if m = .dormant || m = .selftest || m = .lockout || m = .safe then d
  else
    let d := if d.on SYS_MODE_PEND then (d.put SYS_MODE_PEND 0).put SYS_MODE_REFUSE 4 else d
    let d := d.each allAxes fun a d => if d.lowest a = a then stopForChange a d else d
    if allAxes.all fun a => !(d.axSt a).driving then autoSafe 2 d
    else ((d.put SYS_MODE_PEND 1).put SYS_MODE_TARGET Mode.safe.code).onSys fun h => { h with
      pendSince := some d.now, autoPend := true }

/-- OVTEMP (R71): 90 °C. -/
def execOvtemp (t : Int) : State → Out :=
  onDev fun d =>
    let d := setTbase t d
    if 900 ≤ t && !d.on PSE_STAT_OVTEMP then overTemp (raisePse 8 (d.put PSE_STAT_OVTEMP 1)) else d

/-- OVTEMP_CLEAR (R71): below 80 °C. -/
def execOvtempClear (t : Int) : State → Out :=
  onDev fun d =>
    let d := setTbase t d
    if t < 800 then d.put PSE_STAT_OVTEMP 0 else d

/-! Credits and the arbiter (R71 to R75). -/

/-- POWER_CREDIT_EXHAUSTED (R71): the power limit is P_CONT from the next arbitration. -/
def execPowerCreditExhausted : State → Out :=
  onDev fun d => (d.put PSE_CREDIT_CRP 0).onPse fun p => { p with powLeft := 0 }

/-- INPUT_CREDIT_EXHAUSTED (R72): the limit of an input is 125 A. -/
def execInputCreditExhausted (x : Fin 2) : State → Out :=
  onDev fun d =>
    if x.val = 0 then (d.put PSE_CREDIT_CRA 0).onPse fun p => { p with aUsed := 3750000000 }
    else (d.put PSE_CREDIT_CRB 0).onPse fun p => { p with bUsed := 3750000000 }

/-- PEAK_CREDIT_EXHAUSTED (R74): RATED of a drive is its continuous current. -/
def execPeakCreditExhausted (a : Fin 64) : State → Out :=
  onDev fun d =>
    if d.lowest a = a then
      let d := d.onPse fun p => { p with pkUsed := tset 0 p.pkUsed a (d.peakCap a) }
      budgetFlag ((d.put (PSE_AXCEIL_PKCR a) 0).put (PSE_AXCEIL_PEAKOUT a) 1)
    else d

/-- RIPPLE (R73): the bank's ripple over 1 ms and its average over 100 ms, in 0.1 A. -/
def execRipple (irip avg : Fin 65536) : State → Out :=
  onDev fun d =>
    let d := (d.put PSE_RIPPLE_IRIP irip).onPse fun p => { p with ripAvg := avg }
    if 1500 < avg.val then
      let d := d.put PSE_RIPPLE_RSCALE (150000 / avg)
      if d.on PSE_STAT_RIPPLE then d else raisePse 11 (d.put PSE_STAT_RIPPLE 1)
    else d

/-- What one round of measurements brings (R56, R65): voltages, currents, temperature, the direction of the inputs. -/
def takeMeas (v : PseMeas) (d : Dev) : Dev :=
  let d := setTbase v.tbase (setVlink v.vlink (setTerminals v.vdca v.vdcb v.vlogic d))
  let d := (d.putI PSE_IIN_IDCA v.ia).putI PSE_IIN_IDCB v.ib
  d.each [0, 1] fun x d =>
    let i := if x = 0 then v.ia else v.ib
    let above := decide (d.get (inVolt x) < v.vlink.val)
    let d := if above then d else d.onInput x fun h => { h with block := false }
    d.put (inReverse x) (if d.on (inClosed x) && d.on (inRevCfg x) && !(d.inputOf x).block && i < 0 then 1 else 0)

/-- ARBITRATION (R65, R70 to R75): every 10 µs, from the measurements of that instant. -/
def execArbitration (v : PseMeas) : State → Out :=
  onDev fun d =>
    if d.timeOn && d.now % 2000 = 0 then
      arbitrate v.link (rippleReturn (stepCredits v.ia v.ib v.rms (takeMeas v d)))
    else d

end Sys2Proof.Machine
end

