-- ==== Sys2Proof/Machine/Boot.lean ====
section
/-! DEFINITION. Resets and start-up (R104 to R107, R255, R302, R306, R322, R332): what each kind of reset keeps, loading
firmware, the outcome of SELFTEST, LOCKOUT. -/

namespace Sys2Proof.Machine
open Sys2Proof Reg

/-! Firmware (R104, R280, R306, R332). -/

/-- The image of a slot brought together at key 0, block by block through the block map (R316, R331). -/
def gatherImage (s : Nat) (x : DM) : List Host.Cell :=
  (List.range 68).foldl (fun m i =>
    memWriteBytes m (4096 * i) (memBytes x.2 (blockKey (x.1.jnl.phys (slotBlk s + i))) 4096)) []

/-- A slot holds a VALID FIRMWARE image that passes R280. -/
def firmwareOk (s : Nat) (x : DM) : Bool :=
  s < 6 && tget 0 x.1.jnl.imgSt s = 2 && slotKind s x = 1 && imageOk (gatherImage s x) 0

/-- The slot a pair loads: its current image, or the previous one when that fails (R332). -/
def firmwareSlot (p : Nat) (x : DM) : Option Nat :=
  [x.1.get (JNL_FWCUR_SLOT p), x.1.get (JNL_FWPREV_SLOT p)].find? fun s => firmwareOk s x

/-- Load a pair's firmware and start it (R104, R255, R298, R306): registers at reset, RAM initialised and loaded, the PC at
the entry, the watchdog running. -/
def startPair (p s : Nat) (x : DM) : DM :=
  let img := gatherImage s x
  let d := x.1.onPair p fun _ => { pc := w32 (memWord img 12), started := true }
  (d.onSsq fun q => { q with kicks := tset none q.kicks p (some d.now) }, loadImage p 0 img (clearRam p x.2))

/-- PAIR_RESET_DONE (R306): `ok`: the comparator and RAM tests of the pair passed. -/
def execPairResetDone (p : Fin 5) (ok : Bool) : State → Out :=
  onDM fun x =>
    if !(p.val ∈ x.1.ssq.resetEnd) then x
    else
      let x := x.dev fun d => d.onSsq fun q => { q with resetEnd := q.resetEnd.filter (· ≠ p.val) }
      match ok, firmwareSlot p x with
      | true, some s => (startPair p s x).dev fun d => raiseLss 12 ((setPairSt p .spare d).put LSS_FREC_RESULT 1)
      | _, _ => x.dev fun d => raiseLss 12 (((setPairSt p .failed d).put LSS_FREC_RESULT 2).onSsq fun q => { q with
          dead := q.dead ++ [p.val] })

/-! LOCKOUT (R107, R302). -/

/-- The LOCK record the controller writes when LATCH or PORSEEN changes (R319). -/
def lockRecord (d : Dev) : Dev := controllerRec { typ := 13, key := 0, payload := [(d.reg SYS_LOCK).toNat] } d

/-- Enter LOCKOUT (R107): the latch with its cause unless it is set, FAULT_N driven, the inputs open. -/
def lockOut (cause : Nat) (d : Dev) : Dev :=
  let d := if d.on SYS_LOCK_LATCH then d else lockRecord (((d.put SYS_LOCK_LATCH 1).put SYS_LOCK_PORSEEN 0).put SYS_LOCK_CAUSE cause)
  openInputs (lineUpdate false (if d.mode = .lockout then d else enterMode .lockout true cause d))

/-- SSQ_XCHK (R107, R132, R302): the two sequencer copies disagree. -/
def execSsqXchk : State → Out :=
  onDev fun d =>
    if d.mode = .dormant then d
    else
      let d := d.each allAxes fun a d => releasedState a (pealAxisFault a (strikeAbort a 12 (release a 6 d)))
      lockOut 1 (raiseLss 5 (d.onSsq fun q => { q with xfail := true }))

/-! What a reset keeps (R106). -/

/-- The store, which no reset alters. -/
def keepStore (m : List Host.Cell) : List Host.Cell := m.filter fun c => 0x20000000 ≤ c.1 && c.1 < 0x21000000

/-- Shared SRAM, capture RAM and the store: what a warm reset keeps. -/
def keepWarm (m : List Host.Cell) : List Host.Cell := m.filter fun c => 0x10000000 ≤ c.1 && c.1 < 0x21000000

/-- Keep some registers of a block over a reset. -/
def keepRegs (old : Dev) (l : List Nat) (d : Dev) : Dev := d.each l fun r d => d.setReg r (old.reg r)

/-- The always-on record: SYS_WAKEEN, SYS_DLY, SYS_LOCK, the measured RC error, and the switch of the terminating
bias circuit (R368). The ISOBUS address last held is in it too (R373). -/
def alwaysOnRegs : List Nat := [SYS_WAKEEN, SYS_DLY, SYS_LOCK, TRU_RCERR, CAN_TBC 0]

/-- Measurements read again from their source: terminal and link voltages, base-plate temperature. -/
def sensedRegs : List Nat := [PSE_VLINK, PSE_VIN, PSE_LOGIC, PSE_TBASE]

/-- The slots after a reset that repeats acceptance: presence and identity stay with the cartridge, and each present slot
waits for its turn (R104). -/
def slotsAfresh (old d : Dev) : Dev :=
  d.each (List.range 16) fun q d =>
    if old.occupied q then
      (d.put (CSL_STAT_PRES q) 1).onSlot q fun _ => {
        ident := (old.slotOf q).ident, stage := .presence, presAt := d.now, boot := true }
    else d

/-- The block after a power-on or wake reset (R106). `kept`: the always-on domain kept its record. -/
def coldDev (kept : Bool) (old : Dev) : Dev :=
  let d : Dev := { now := if kept then old.now else 0, jnl := old.jnl, free := old.free }
  let d := keepRegs old sensedRegs d
  let d := if kept then (keepRegs old alwaysOnRegs d).onBus fun b => { b with lastAddr := old.bus.lastAddr } else d
  let d := (d.onSys fun h => { h with aon := kept, full := true }).onSsq fun q => { q with extLine := old.ssq.extLine }
  lineUpdate false (slotsAfresh old d)

/-- Mount the journal in a boot and remember the outcome (R104, R322). -/
def bootMount (ok : Bool) (x : DM) : DM :=
  let x := mountJournal ok x
  x.dev fun d => d.onSys fun h => { h with jnlOk := ok }

/-- PORSEEN at a power-on reset with LATCH set; the latch is restored from the journal when the always-on domain lost it
(R107). -/
def restoreLock (kept : Bool) (d : Dev) : Dev :=
  let d := if kept then d
    else
      let w := d.lockRecord
      (d.put SYS_LOCK_LATCH (w / 2 ^ 31)).put SYS_LOCK_CAUSE w
  if d.on SYS_LOCK_LATCH && !d.on SYS_LOCK_PORSEEN then lockRecord (d.put SYS_LOCK_PORSEEN 1) else d

/-- The power-on reset from a logic source (R63, R104, R106, R107). -/
def powerOn (src : Supply) (jnlOk : Bool) (x : DM) : DM :=
  let old := x.1
  let kept := old.sys.aon
  let held := old.on PSE_STAT_HOLDUP && kept
  let d := coldDev kept old
  let d := (d.put PSE_STAT_SRC src.code).put PSE_STAT_BKAVAIL (if 15000 ≤ max (d.get PSE_VIN_VDCA) (d.get PSE_VIN_VDCB) then 1 else 0)
  let d := d.setReg SYS_RCAUSE (if held then 0x11 else 0x01)
  (bootMount jnlOk (d, keepStore x.2)).dev (restoreLock kept)

/-- POWER_ON_RESET (R104): a logic source qualifies while the logic domain is off, or has just come up. -/
def execPowerOnReset (main : Bool) (jnlOk : Bool) : State → Out :=
  onAnyDM fun x =>
    if !x.1.sys.logicOn || (x.1.mode = .selftest && !x.1.timeOn) then powerOn (if main then .main else .backup) jnlOk x else x

/-- The logic domain goes off (R62, R80, R102): both main switches open, the PLLs stop, device time goes on in the
accumulator. -/
def logicOff (d : Dev) : Dev :=
  let d := ((openInputs d).put TRU_STAT_PLLALK 0).put TRU_STAT_PLLBLK 0
  { d.onSys fun h => { h with logicOn := false, aon := true } with timeOn := false }

/-- HOLDUP_END (R62, R63): 12 ms of hold-up; a power-on reset from the source present then, or the logic domain off. -/
def execHoldupEnd (src : Supply) (jnlOk : Bool) : State → Out :=
  onDM fun x =>
    if x.1.on PSE_STAT_HOLDUP && decide (x.1.pse.holdAt + 2400000 ≤ x.1.now) then
      let x := x.dev logicOff
      if src = .none_ then x else powerOn src jnlOk x
    else x

/-- ALWAYS_ON_LOSS (R63, R81): both domains are without power; device time and the always-on record are lost. -/
def execAlwaysOnLoss : State → Out :=
  onAny fun d => if d.sys.logicOn then d else { d.onSys fun h => { h with aon := false } with now := 0 }

/-! DORMANT and wake (R102, R103). -/

/-- Begin DORMANT entry (R102): the mode, the record, the seal. -/
def enterDormant (auto : Bool) (cause : Nat) (x : DM) : DM :=
  let x := x.dev fun d => (enterMode .dormant auto cause d).onSys fun h => { h with wakeLatch := 0 }
  sealJournal false x

/-- The wake reset (R80, R103, R106). TIMEJUMP stays: a power-on reset alone clears it (R83). -/
def wakeUp (srcs : Nat) (jnlOk : Bool) (x : DM) : DM :=
  let old := x.1
  let d := keepRegs old [TRU_FCORR] (coldDev true old)
  let d := (d.put PSE_STAT_SRC (old.get PSE_STAT_SRC)).put PSE_STAT_BKAVAIL (old.get PSE_STAT_BKAVAIL)
  let d := d.put TRU_STAT_TIMEJUMP (old.get TRU_STAT_TIMEJUMP)
  let d := ((d.setReg SYS_RCAUSE 2).setReg SYS_WAKESRC (w32 srcs)).onSys fun h => { h with full := d.on SYS_WAKEEN_FULLBIST }
  (bootMount jnlOk (d, keepStore x.2)).dev (resetMode .dormant 6)

/-- The wake sources that are enabled (R103): SYS_WAKEEN and, for SYNC IN, TRU_CFG.SIWAKE. -/
def Dev.wakeEnabled (d : Dev) (srcs : Nat) : Nat :=
  srcs &&& (((d.reg SYS_WAKEEN).toNat &&& 0x7F) + (if d.on TRU_CFG_SIWAKE then 0x80 else 0))

/-- Wake sources act (R102, R103): during DORMANT entry they are latched; with the logic domain off they wake it. -/
def wake (srcs : Nat) (jnlOk : Bool) (x : DM) : DM :=
  let on := x.1.wakeEnabled srcs
  if x.1.mode ≠ .dormant || on = 0 then x
  else if x.1.sys.logicOn then x.dev fun d => d.onSys fun h => { h with wakeLatch := h.wakeLatch ||| on }
  else wakeUp (x.1.sys.wakeLatch ||| on) jnlOk x

/-- WAKE (R103): sources by their bits of SYS_WAKESRC. -/
def execWake (srcs : Fin 256) (jnlOk : Bool) : State → Out := onAnyDM (wake srcs jnlOk)

/-- MOTOR_WAKE_TEST (R103): the always-on domain finds pin 5 of a port open or loaded; a change is the MOTOR source. -/
def execMotorWakeTest (a : Fin 64) (loaded jnlOk : Bool) : State → Out :=
  onAnyDM fun x =>
    let d := x.1
    if d.mode = .dormant && !d.sys.logicOn && d.sys.slots.testBit (a / 4) && d.sys.motorPins.testBit a ≠ loaded then
      wake 0x40 jnlOk (x.dev fun d => d.onSys fun h => { h with motorPins := h.motorPins ^^^ 2 ^ a.val })
    else x

/-- DORMANT_ENTRY_DONE (R80, R102): the logic domain goes off; sources latched meanwhile wake it at once. -/
def execDormantEntryDone (jnlOk : Bool) : State → Out :=
  onDM fun x =>
    if x.1.mode ≠ .dormant then x
    else
      let d := x.1
      let slots := maskOf ((List.range 16).filter d.present)
      let pins := maskOf (allAxes.filter fun a => (d.portOf a).accepted ≠ 0)
      let d := d.each (List.range 16) fun q d => refOff q d
      let d := logicOff (d.onSys fun h => { h with slots := slots, motorPins := pins })
      let x : DM := (d, x.2)
      if d.sys.wakeLatch = 0 then x else wakeUp d.sys.wakeLatch jnlOk x

/-! Warm reset (R53, R106, R107). -/

/-- The registers a warm reset keeps: the TRU, the credits and measurements of the PSE, the slot states. -/
def warmRegs : List Nat :=
  [TRU_STAT, TRU_CFG, TRU_FCORR, TRU_FREF, TRU_PHERR, TRU_GAIN, TRU_SIOFS, TRU_PLOFS, TRU_SOCFG, TRU_SOOFS, TRU_SITS_LO,
    TRU_SITS_HI, TRU_EVT, PSE_STAT, PSE_VLINK, PSE_VIN, PSE_IIN, PSE_LOGIC, PSE_TBASE, PSE_PLIM, PSE_CREDIT, PSE_RIPPLE,
    PSE_CLAMP, PSE_SEG] ++ alwaysOnRegs ++ (List.range 16).map CSL_STAT

/-- The axis state a warm reset leaves: OFF, FAULT or ABSENT (R106). -/
def warmAxis (old : Dev) (a : Nat) (d : Dev) : Dev :=
  d.put (CU_STATE_STATE a) (old.axSt a).code

/-- A quad over a warm reset (R53, R106): the reference buffer and trims of an accepted cartridge stay; a release between
its steps 2 and 5 is abandoned. -/
def warmSlot (old : Dev) (q : Nat) (d : Dev) : Dev :=
  if !old.present q then d
  else
    let d := ((loadTrims q d).put (AC_CTL_REFEN q) (old.get (AC_CTL_REFEN q))).put (AC_STAT_REFRDY q) (old.get (AC_STAT_REFRDY q))
    let c := old.cluOf q
    let d := d.onClu q fun h => { h with refAt := c.refAt, refWas := c.refWas }
    let d := { d with link := tset {} d.link q (old.linkOf q) }
    if d.get (CSL_STAT_STATE q) = 4 then
      let d := (d.put (CSL_STAT_STATE q) 2).onSys fun h => { h with relDone := true }
      if d.on (CSL_STAT_SEGSW q) then d else d.onSlot q fun s => { s with reclose := true }
    else d

/-- The block after a warm reset (R106). `cause`: the bit of SYS_RCAUSE; `full`: FULLBIST forced. -/
def warmDev (cause : Nat) (full : Bool) (old : Dev) : Dev :=
  let d : Dev := { now := old.now, timeOn := old.timeOn, jnl := old.jnl, free := old.free, tru := old.tru, pse := old.pse
                   inputs := old.inputs, slots := old.slots, aux := { diagEnd := old.aux.diagEnd } }
  let d := (keepRegs old warmRegs d).onBus fun b => { b with lastAddr := old.bus.lastAddr }
  let d := (d.onSys fun h => { h with aon := true, full := full || d.on SYS_WAKEEN_FULLBIST }).onSsq fun q => { q with
    extLine := old.ssq.extLine }
  let d := d.each allAxes fun a d => warmAxis old a d
  let d := d.each (List.range 16) fun q d => warmSlot old q d
  lineUpdate false (d.put ⟨SYS_RCAUSE, 0, 6⟩ cause)

/-- Perform a warm reset (R106): seal, reset, remount. -/
def warmReset (cause : Nat) (full jnlOk : Bool) (x : DM) : DM :=
  let x := sealJournal false x
  (bootMount jnlOk (warmDev cause full x.1, keepWarm x.2)).dev (resetMode x.1.mode 7)

/-- A warm reset is refused (R106): an axis not OFF, FAULT or ABSENT, or DORMANT, SELFTEST or LOCKOUT. -/
def Dev.warmRefused (d : Dev) : Bool :=
  d.mode = .dormant || d.mode = .selftest || d.mode = .lockout || !(allAxes.all fun a => (d.axSt a).atRest)

/-- A requested warm reset (R106): performed, or refused and journalled. -/
def requestWarm (cause src : Nat) (jnlOk : Bool) (x : DM) : DM :=
  if x.1.warmRefused then x.dev (journal 2 src [SYS_RESET]) else warmReset cause false jnlOk x

/-- A write of SYS_RESET (R106): without the key or GO it has no effect. -/
def writeReset (w : Word) (jnlOk : Bool) (x : DM) : DM :=
  if wordGet w 24 8 = 0xC5 && w.toNat.testBit 0 then requestWarm 4 0 jnlOk x else x

/-- WARM_RESET (R106): a write of SYS_RESET. -/
def execWarmReset (m : Master) (w : Word) (jnlOk : Bool) : State → Out :=
  onDM fun x => match m with
    | .pair _ | .debug => writeReset w jnlOk x
    | _ => x

/-- CONSOLE_WARM_RESET (R106). -/
def execConsoleWarmReset (jnlOk : Bool) : State → Out := onDM (requestWarm 8 3 jnlOk)

/-- UNLOCK (R107): the console command with the last six digits of the module serial number, in LOCKOUT with PORSEEN. -/
def execUnlock (digits : Fin 1000000) (jnlOk : Bool) : State → Out :=
  onDM fun x =>
    let d := x.1
    if d.mode = .lockout && d.on SYS_LOCK_PORSEEN && digits.val = Config.serialNumber % 1000000 then
      let x := x.dev fun d => journal 5 3 [SYS_LOCK] (lockRecord ((d.put SYS_LOCK_LATCH 0).put SYS_LOCK_PORSEEN 0))
      warmReset 0x20 true jnlOk (x.dev fun d => d.onSsq fun q => { q with xfail := false })
    else x

/-! The outcome of SELFTEST (R105). -/

/-- Roles and hosting after the pair tests (R20, R105): who hosts the axes of each initial pair (7 none), and who
supervises. -/
def bootRoles (passed : Nat → Bool) : (Nat → Nat) × Nat :=
  let failed := (List.range 4).filter fun p => !passed p
  let taken := if passed 4 then failed.head? else none
  let host := fun (p : Nat) => if passed p then p else if taken = some p then 4 else 7
  let sup := if passed 0 then 0 else if taken = some 0 then 4 else (([1, 2, 3].find? passed)).getD 0
  (host, sup)

/-- The pairs that passed take up their roles; axes without a host are held safe (R105, R303). -/
def takeRoles (passed : Nat → Bool) (d : Dev) : Dev :=
  let (host, sup) := bootRoles passed
  let d := d.put LSS_PAIRST_SUP sup
  let d := d.each (List.range 5) fun p d => setPairSt p (if passed p then .spare else .failed) d
  let d := d.each allAxes fun a d =>
    let h := host (a / 16)
    let d := setHost a h d
    if h = 7 then holdSafe [a] d else d
  updateRoles d

/-- The mode SELFTEST ends in, with the LOCKOUT cause (R105, R107). -/
def bootOutcome (t : SelfTest) (passed : Nat → Bool) (d : Dev) : Mode × Nat :=
  let untaken := (List.range 4).any fun p => (bootRoles passed).1 p = 7
  if !t.ssqOk then (.lockout, 2)
  else if d.on SYS_LOCK_LATCH then (.lockout, d.get SYS_LOCK_CAUSE)
  else if !((List.range 5).any passed) then (.lockout, 3)
  else if untaken then (.degraded, 0)
  else if !t.ramOk || !d.sys.jnlOk then (.safe, 0)
  else if !d.formeValid then (.configure, 0)
  else (.standby, 0)

/-- What SELFTEST records in SYS_BOOT (R105). -/
def putBoot (t : SelfTest) (passed : Nat → Bool) (d : Dev) : Dev :=
  let b := fun (c : Bool) => if c then 1 else 0
  let d := (((d.put SYS_BOOT_BTIME (min 255 t.ms)).put SYS_BOOT_FULL (b d.sys.full)).put SYS_BOOT_CAPOK (b t.capOk)).put
    SYS_BOOT_FORME (b d.formeValid)
  (((d.put SYS_BOOT_JNLOK (b d.sys.jnlOk)).put SYS_BOOT_RAMOK (b t.ramOk)).put SYS_BOOT_SSQOK (b t.ssqOk)).put
    SYS_BOOT_PAIROK (maskOf ((List.range 5).filter passed))

/-- SELFTEST_END (R104, R105): the outcome, BOOT_FAULT where it is not STANDBY or CONFIGURE or capture RAM failed, firmware
started in every pair that passed, and acceptance may begin. A release a warm reset abandoned is reported. -/
def execSelftestEnd (t : SelfTest) : State → Out :=
  onDM fun x =>
    if x.1.mode ≠ .selftest || !x.1.timeOn then x
    else
      let slots := (List.range 5).map fun p => firmwareSlot p x
      let passed := fun (p : Nat) => t.pairOk.val.testBit p && (slots.getD p none).isSome
      let (m, cause) := bootOutcome t passed x.1
      let x := (List.range 5).foldl (fun x p =>
        match passed p, slots.getD p none with
        | true, some s => startPair p s x
        | _, _ => x) x
      x.dev fun d =>
        let d := putBoot t passed (takeRoles passed d)
        let d := d.onSys fun h => { h with bootFault := m = .safe, relDone := false }
        let d := if x.1.sys.relDone then raise 1009 d else d
        let d := if (m ≠ .standby && m ≠ .configure) || !t.capOk then raiseSys 2 d else d
        if m = .lockout then lockOut cause d else enterMode m false 0 d

end Sys2Proof.Machine
end

