-- ==== Sys2Proof/Machine/Evc.lean ====
section
/-! DEFINITION. The event controller (R282 to R295): routing and presentation to pairs, software raises, acknowledgement,
ageing and configuration. -/

namespace Sys2Proof.Machine
open Sys2Proof Reg

/-- The axis whose host receives an event under HOST, if any (R287). -/
def hostAxis (n : Nat) : Option Nat :=
  if n < 768 then some (n / 12)
  else if n < 832 then some (4 * ((n - 768) / 4))
  else if n < 864 then some (4 * ((n - 832) / 2))
  else if n < 896 then some (8 * ((n - 864) / 4))
  else none

/-- The pair an event's TARGET names or resolves to; none for ENGINE, and for an axis that has no host (R286, R287). -/
def Dev.namedPair (d : Dev) (n : Nat) : Option Nat :=
  let t := if safetyEvent n then 6 else d.get (EVC_CFG_TARGET n)
  if t ≤ 4 then some t
  else if t = 5 then
    match hostAxis n with
    | some a => some (d.host a)
    | none => some d.sup
  else if t = 6 then some d.sup
  else none

/-- A pair takes no delivery: it is marked failed, or holds no role (R287). A pair number of 7 is no pair. -/
def Dev.noRole (d : Dev) (p : Nat) : Bool :=
  4 < p || d.pairSt p = .failed || d.pairSt p = .reset || (d.pairSt p = .spare && d.sup ≠ p)

/-- The pair an event is presently routed to, and whether it was redirected to the supervising pair (R287). -/
def Dev.routedTo (d : Dev) (n : Nat) : Option (Nat × Bool) :=
  match d.namedPair n with
  | none => none
  | some p => if d.noRole p then some (d.sup, true) else some (p, false)

/-- An event is enabled: safety events always (R288). -/
def Dev.evOn (d : Dev) (n : Nat) : Bool := safetyEvent n || d.on (EVC_CFG_EN n)

/-- An event is delivered for waiting (R286); a safety event never is (R288). -/
def Dev.evWait (d : Dev) (n : Nat) : Bool := !safetyEvent n && d.on (EVC_CFG_DELIV n)

/-- The pending events of a list of numbers that stand for a pair, with or without waiting (R289). -/
def Dev.candidates (d : Dev) (p : Nat) (wait : Bool) : List Nat :=
  (List.range 1024).filter fun n => d.pend n && d.evOn n && d.evWait n = wait
    && (match d.routedTo n with | some (q, _) => q = p | none => false)

/-- The highest of a list of events by effective priority, the lowest number among equals (R289). -/
def Dev.highest (d : Dev) (l : List Nat) : Option Nat :=
  l.foldl (fun b n => match b with
    | none => some n
    | some m => if d.evEff m < d.evEff n then some n else some m) none

/-- The interrupt event presented to a pair (R289): at or above its threshold, or a safety event. A split pair is
presented none (R287). -/
def Dev.presented (d : Dev) (p : Nat) : Option Nat :=
  if d.pairSt p = .split then none
  else match d.highest (d.candidates p false) with
    | some n => if safetyEvent n || d.get (EVC_THR_THR p) ≤ d.evEff n then some n else none
    | none => none

/-- The event WEV of a pair would return (R289). -/
def Dev.waiting (d : Dev) (p : Nat) : Option Nat :=
  if d.pairSt p = .split then none else d.highest (d.candidates p true)

/-- EVC_TOP or EVC_WTOP of an event (R289). -/
def Dev.topWord (d : Dev) (e : Option Nat) : Word :=
  match e with
  | some n => w32 (2 ^ 31 + d.evEff n * 2 ^ 16 + n)
  | none => 0

/-- An event has been delivered: a redirection is recorded (R287). -/
def noteRedir (n : Nat) (d : Dev) : Dev :=
  match d.routedTo n with
  | some (_, true) => d.put EVC_STAT_REDIR 1
  | _ => d

/-- EVC_CFG of an event as read: PEND and EFF are computed (R284, R290). -/
def Dev.viewCfg (d : Dev) (n : Nat) : Word :=
  wordPut (wordPut (d.reg (EVC_CFG n)) 28 1 (if d.pend n then 1 else 0)) 24 4 (d.evEff n)

/-- An EVC register as read. -/
def Dev.viewEvc (d : Dev) (off addr : Nat) : Word :=
  if 0x40 ≤ off && off < 0x54 then d.topWord (d.presented ((off - 0x40) / 4))
  else if 0x60 ≤ off && off < 0x74 then d.topWord (d.waiting ((off - 0x60) / 4))
  else if 0x1000 ≤ off && off < 0x2000 then d.viewCfg ((off - 0x1000) / 4)
  else d.reg addr

/-- A software raise (R285). -/
def softRaise (n : Nat) (d : Dev) : Dev := if safetyEvent n then d.put EVC_STAT_SWREF 1 else raise n d

/-- A master that is a pair, or the debug access writing as the supervising pair (R47, R294). -/
def isPair : Master → Bool
  | .pair _ => true
  | .debug => true
  | _ => false

/-- SOFTWARE_RAISE (R285, R294): a write of EVC_RAISE. -/
def execSoftwareRaise (m : Master) (n : Fin 1024) : State → Out :=
  onDev fun d => if isPair m then softRaise n d else d

/-- The pair a master writes as; the debug access writes as the supervising pair (R47). -/
def Dev.asPair (d : Dev) (m : Master) : Option Nat :=
  match m with
  | .pair p => some p
  | .debug => some d.sup
  | _ => none

/-- A write of EVC_ACK (R291): by the pair the event is routed to, by a pair that has taken it, by the supervising pair;
any other write sets ACKREJ. -/
def writeAck (m : Master) (n : Nat) (d : Dev) : Dev :=
  match d.asPair m with
  | some p =>
    let routed := match d.routedTo n with | some (q, _) => q = p | none => false
    if routed || p ∈ (d.evOf n).takenBy || d.sup = p then ackEvent n d else d.put EVC_STAT_ACKREJ 1
  | none => d

/-- EVENT_ACK (R291). -/
def execEventAck (m : Master) (n : Fin 1024) : State → Out := onDev (writeAck m n)

/-- AGEING_STEP (R290): on a boundary of device time, once AGE boundaries have been counted since the last step. -/
def execAgeingStep (n : Fin 1024) : State → Out :=
  onDev fun d =>
    let h := d.evOf n
    if d.timeOn && d.now % 200 = 0 && d.pend n && d.evOn n && d.on (EVC_CFG_AGEN n) && d.evPrio n ≤ 13
        && decide (h.base + d.evAge ≤ d.boundaries) then
      d.onEv n fun h => { h with base := h.base + d.evAge, steps := h.steps + 1 }
    else d

/-- Whether a master may write EVC_CFGn (R294). -/
def Dev.cfgRights (d : Dev) (m : Master) (n : Nat) : Bool :=
  match m with
  | .debug => true
  | .pair p => d.sup = p || (n < 768 && d.host (n / 12) = p)
  | _ => false

/-- Store EVC_CFGn (R284, R288, R290, R295): the read-only fields of a safety event stay; PRIO 15 is 14; enabling a pending
event starts its ageing as if raised now. -/
def storeCfg (n : Nat) (w : Word) (d : Dev) : Dev :=
  let old := d.reg (EVC_CFG n)
  let keep := fun (v : Word) => (old &&& ~~~0xE0FEFF00#32) ||| (v &&& 0xE0FEFF00#32)
  if safetyEvent n then d.setReg (EVC_CFG n) ((old &&& ~~~0x4000FF00#32) ||| (w &&& 0x4000FF00#32))
  else
    let d1 := d.setReg (EVC_CFG n) (keep (wordPut w 20 4 (min 14 (wordGet w 20 4))))
    if d.pend n && !d.on (EVC_CFG_EN n) && w.getLsbD 31 then
      d1.onEv n fun h => { h with base := d.boundaries + 1, steps := 0 }
    else d1

/-- A write of EVC_CFGn, or its refusal with SUB 6 (R294). -/
def writeCfg (m : Master) (n : Nat) (w : Word) (d : Dev) : Dev :=
  if d.cfgRights m n then storeCfg n w d else busError m 6 (EVC_CFG n) true d

/-- EVENT_CONFIG_WRITE (R294, R295). -/
def execEventConfigWrite (m : Master) (n : Fin 1024) (w : Word) : State → Out := onDev (writeCfg m n w)

end Sys2Proof.Machine
end

