-- ==== Sys2Proof/Machine/Serial.lean ====
section
/-! DEFINITION. The serial ports SP0 and SP1 (R341 to R357, R363 to R366): the SP0 queue and its frames, execution in
place, the cross-connection, SP1 transactions and FIFOs. Frame timing is outside the model: the commands say when a frame,
a word or a ready stretch ends. -/

namespace Sys2Proof.Machine
open Sys2Proof Reg

/-- Raise an SP0 event 912 + n (R365). -/
def raiseSp0 (n : Nat) (d : Dev) : Dev := raiseIn SP0_EVT 912 n d

/-- Raise an SP1 event 920 + n (R365). -/
def raiseSp1 (n : Nat) (d : Dev) : Dev := raiseIn SP1_EVT 920 n d

/-- The pair that owns the SP0 queue (R359). -/
def Dev.sp0Owner (d : Dev) : Nat := let p := d.get SP0_OWN_PAIR; if d.sp0.ownLost || 4 < p then d.sup else p

/-- The agent pair of the shared window (R359). -/
def Dev.agent (d : Dev) : Nat := let p := d.get SWC_CFG_AGENT; if d.win.agentLost || 4 < p then d.sup else p

/-- The SP0 owner and the supervising pair (R366). -/
def Dev.sp0Rights (d : Dev) (m : Master) : Bool :=
  match d.asPair m with
  | some p => p = d.sp0Owner || p = d.sup
  | none => false

/-- The agent and the supervising pair (R366). -/
def Dev.sp1Rights (d : Dev) (m : Master) : Bool :=
  match d.asPair m with
  | some p => p = d.agent || p = d.sup
  | none => false

/-- Perform a queue action of a writer, or refuse it with SUB 6 (R366). -/
def asOwner (m : Master) (addr : Nat) (f : Dev → Dev) (d : Dev) : Dev :=
  if d.sp0Rights m then f d else busError m 6 addr true d

/-- Perform an SP1 action of a writer, or refuse it with SUB 6 (R354, R366). -/
def asAgent (m : Master) (addr : Nat) (w : Bool) (f : Dev → Dev) (d : Dev) : Dev :=
  if d.sp1Rights m then f d else busError m 6 addr w d

/-! The SP0 queue (R346 to R349). -/

/-- Queued entries, SP0_QBUF and SP0_QADDR as they stood at the start of the present cycle (R346). -/
def Dev.sp0AtStart (d : Dev) : Nat × Nat × Nat :=
  let cur := (d.sp0.queue.length, d.get SP0_QBUF_ADDR, d.get SP0_QADDR_ADDR)
  match d.sp0.snap with
  | some (t, n, b, a) => if t = d.now then (n, b, a) else cur
  | none => cur

/-- Keep what stood at the start of the cycle, before the first change in it (R346). -/
def sp0Snap (d : Dev) : Dev :=
  let (n, b, a) := d.sp0AtStart
  d.onSp0 fun h => { h with snap := some (d.now, n, b, a) }

/-- SP0_STAT shows the queue. -/
def sp0Mirror (d : Dev) : Dev :=
  let d := (d.put SP0_STAT_QCNT d.sp0.queue.length).put SP0_STAT_BUSY (if d.sp0.run then 1 else 0)
  let d := d.put SP0_STAT_CSON (if d.sp0.run || d.on SP0_STAT_XIPBUSY then 1 else 0)
  match d.sp0.queue with
  | e :: _ => if d.sp0.run then d.put SP0_STAT_CS e.cs
      else if d.on SP0_STAT_XIPBUSY then d.put SP0_STAT_CS (d.get SP0_XIPCFG_CS) else d.put SP0_STAT_CS 0
  | [] => d.put SP0_STAT_CS (if d.on SP0_STAT_XIPBUSY then d.get SP0_XIPCFG_CS else 0)

/-- Both ports are idle: nothing queued, no select asserted, CS_N high (R357). -/
def Dev.serialIdle (d : Dev) : Bool :=
  d.sp0.queue.isEmpty && !d.sp0.run && !d.on SP0_STAT_XIPBUSY && !d.on SP1_STAT_CSACT

/-- A separation that waited is carried out once both ports are idle (R357). -/
def partPorts (d : Dev) : Dev :=
  if d.sp0.parting && d.serialIdle then (d.put SP1_STAT_XCON 0).onSp0 fun h => { h with parting := false } else d

/-- Start the entry at the head of the queue unless the queue is halted (R349); an entry with direction write empties the
line buffer of the same select (R350). -/
def sp0Next (d : Dev) : Dev :=
  match d.sp0.queue with
  | e :: _ =>
    if d.sp0.run || d.on SP0_STAT_HALT then sp0Mirror d
    else
      let purge := d.get (SP0_FDP_DIR e.fd) = 2 && e.cs = d.get SP0_XIPCFG_CS
      sp0Mirror (d.onSp0 fun h => { h with run := true, lines := if purge then [] else h.lines })
  | [] => partPorts (sp0Mirror (d.onSp0 fun h => { h with run := false }))

/-- A descriptor holds no reserved code (R345). -/
def Dev.descOk (d : Dev) (fd : Nat) : Bool := d.get (SP0_FDC_CW fd) ≠ 3 && d.get (SP0_FDP_DIR fd) ≠ 3

/-- A frame the cross-connection carries: CS3, at most four lanes in each phase it has, DIV at least 1 (R357). -/
def Dev.xconOk (d : Dev) (cs fd len : Nat) : Bool :=
  cs = 3 && 1 ≤ d.get SP0_CFG_DIV && (d.get (SP0_FDC_CW fd) = 0 || d.get (SP0_FDC_CLN fd) ≠ 3)
    && (d.get (SP0_FDP_AW fd) = 0 || d.get (SP0_FDP_ALN fd) ≠ 3) && (len = 0 || d.get (SP0_FDP_DLN fd) ≠ 3)

/-- The result code of a push (R346). -/
def Dev.pushCode (d : Dev) (w : Word) : Nat :=
  let (n, b, _) := d.sp0AtStart
  let len := wordGet w 16 12
  let ws := wordGet w 8 2
  let fd := wordGet w 0 3
  if 16 ≤ n then 1
  else if len ≠ 0 && (b < 0x10000000 || 0x10400000 < b + len) then 2
  else if ws ≠ 3 && len % 2 ^ ws ≠ 0 then 3
  else if ws = 3 || !d.descOk fd || (d.get (SP0_FDP_DIR fd) = 0 && len ≠ 0)
      || (d.on SP0_XCON_EN && !d.xconOk (wordGet w 4 2) fd len) then 4
  else 0

/-- A write of SP0_QCTL (R346). -/
def pushQueue (w : Word) (d : Dev) : Dev :=
  let code := d.pushCode w
  let (_, b, a) := d.sp0AtStart
  let d := (sp0Snap d).put SP0_QRES_ERR code
  if code = 0 then
    let e : QEntry := { buf := b, addr := a, len := wordGet w 16 12, irq := w.getLsbD 10, wsize := 2 ^ wordGet w 8 2,
                        cont := w.getLsbD 6, cs := wordGet w 4 2, fd := wordGet w 0 3 }
    sp0Next (d.onSp0 fun h => { h with queue := h.queue ++ [e] })
  else d

/-- QUEUE_PUSH (R346). -/
def execQueuePush (m : Master) (w : Word) : State → Out := onDev (asOwner m SP0_QCTL (pushQueue w))

/-- The head entry ends, with the select raised; the next one starts. -/
def sp0Pop (d : Dev) : Dev := sp0Next (d.onSp0 fun h => { h with queue := h.queue.tail, run := false })

/-- An error halts the queue (R349). -/
def sp0Error (code : Nat) (d : Dev) : Dev := raiseSp0 1 ((d.put SP0_STAT_HALT 1).put SP0_STAT_ERR code)

/-- A list of bytes with each group of `w` reversed, last groups first: words go most significant byte first on the wire and
stand little-endian in memory (R343). -/
def swapWords (w : Nat) : Nat → List Nat → List Nat
  | 0, _ => []
  | n + 1, l => (l.take w).reverse ++ swapWords w n (l.drop w)

/-- Command and address bytes of a frame, most significant first (R345). -/
def Dev.frameHead (d : Dev) (fd addr : Nat) : List Nat :=
  let c := d.get (SP0_FDC_CMD fd)
  let cmd := match d.get (SP0_FDC_CW fd) with | 1 => [c / 256] | 2 => [c / 256, c % 256] | _ => []
  let n := match d.get (SP0_FDP_AW fd) with | 0 => 0 | k => k + 1
  cmd ++ (bytesLE n addr).reverse

/-- Bytes of data the next frame of an entry carries (R347); for an entry cut short with CONT = 1, the bytes moved up to
the end of its present word (R349). -/
def QEntry.frameBytes (e : QEntry) (moved : Nat) : Nat :=
  if !e.cont then min e.wsize (e.len - e.done) else if e.cut then min (moved / e.wsize * e.wsize) (e.len - e.done)
  else e.len - e.done

/-- A frame of the head entry ends (R347, R349): a read stores its bytes, a write has sent them from memory; an entry whose
data are all moved completes. -/
def frameDone (data : List Nat) (ecc : Bool) (x : DM) : DM :=
  let d := x.1
  match d.sp0.queue with
  | [] => x
  | e :: rest =>
    if !d.sp0.run then x
    else
      let dir := d.get (SP0_FDP_DIR e.fd)
      let n := e.frameBytes data.length
      if dir = 1 && data.length ≠ n then x
      else
        let head := d.frameHead e.fd (e.addr + (if e.cont then 0 else e.done))
        if dir = 2 && ecc then
          (sp0Pop (sp0Error 2 (d.onSp0 fun h => { h with sent := head })), x.2)
        else
          let words := n / e.wsize
          let out := if dir = 2 then swapWords e.wsize words (memBytes x.2 (e.buf + e.done) n) else []
          let m := if dir = 1 then memWriteBytes x.2 (e.buf + e.done) (swapWords e.wsize words data) else x.2
          let e' := { e with done := e.done + n }
          let d := d.onSp0 fun h => { h with sent := head ++ out, queue := e' :: rest }
          if e.cut then (sp0Pop d, m)
          else if e'.done < e.len then (d, m)
          else
            let d := d.put SP0_QRES_DONE (d.get SP0_QRES_DONE + 1)
            (sp0Pop (if e.irq then raiseSp0 0 d else d), m)

/-- SP0_FRAME_DONE (R347): `data` are the bytes a read frame brought, in wire order; `ecc`: an uncorrectable error met in
the write buffer (R28). -/
def execSp0FrameDone (data : List (Fin 256)) (ecc : Bool) : State → Out :=
  onDM (frameDone (data.map (·.val)) ecc)

/-- Pairs that wait for the line of a window offset. -/
def Dev.lineWaiters (d : Dev) (line : Nat) : List Nat :=
  (List.range 5).filter fun p => match (d.pairOf p).wait with
    | .line _ _ _ a => a % 0x4000000 / 32 = line
    | _ => false

/-- A line read ends without data (R351). -/
def lineFailed (d : Dev) : Dev :=
  let ps := (List.range 5).filter fun p => match (d.pairOf p).wait with | .line _ _ _ _ => true | _ => false
  d.each ps fun p d => match (d.pairOf p).wait with
    | .line _ _ _ a => pairExc p 4 9 false false (w32 a) (d.pairOf p).pc d
    | _ => d

/-- READY_TIMEOUT (R348, R349, R351): SP0_RDY stayed low longer than RDYTO, in the data phase of the running entry or in
a line read (`xip`). -/
def execReadyTimeout (xip : Bool) : State → Out :=
  onDev fun d =>
    if !d.on SP0_CFG_RDYEN then d
    else if xip then
      if !d.on SP0_STAT_XIPBUSY then d
      else
        let d := raiseSp0 2 (((sp0Error 1 d).put SP0_XIPCFG_EN 0).put SP0_STAT_XIPBUSY 0)
        sp0Next (lineFailed (d.onSp0 fun h => { h with lines := [], discard := false }))
    else
      match d.sp0.queue with
      | e :: _ => if d.sp0.run && e.len ≠ 0 then sp0Pop (sp0Error 1 d) else d
      | [] => d

/-- READY_STRETCH_END (R348): SP0_RDY reads high again and SCK resumes; the frame goes on, and its end is a command of its
own. -/
def execReadyStretchEnd : State → Out := onDev fun d => d

/-- A write of SP0_CTL.RESUME (R349). -/
def queueResume (d : Dev) : Dev := if d.on SP0_STAT_HALT then sp0Next (d.put SP0_STAT_HALT 0) else d

/-- QUEUE_RESUME (R349). -/
def execQueueResume (m : Master) : State → Out := onDev (asOwner m SP0_CTL queueResume)

/-- A write of SP0_CTL.FLUSH (R349, R363): queued entries go; a running one ends after its present word. A push in the same
cycle finds the queue empty. -/
def queueFlush (d : Dev) : Dev :=
  let (_, b, a) := d.sp0AtStart
  let d := d.onSp0 fun h => { h with
    snap := some (d.now, 0, b, a)
    queue := if h.run then (h.queue.take 1).map fun e => { e with cut := true } else [] }
  partPorts (sp0Mirror d)

/-- QUEUE_FLUSH (R349). -/
def execQueueFlush (m : Master) : State → Out := onDev (asOwner m SP0_CTL queueFlush)

/-- A write of SP0_CTL: the flush acts before the restart. -/
def writeSp0Ctl (w : Word) (d : Dev) : Dev :=
  let d := if w.getLsbD 1 then queueFlush d else d
  if w.getLsbD 0 then queueResume d else d

/-! Execution in place (R350 to R352). -/

/-- The device address of a window offset (R350). -/
def Dev.xipAddr (d : Dev) (o : Nat) : Nat := d.get SP0_XIPCFG_XBASE * 4096 + o / 32 * 32

/-- The width of the address phase of a descriptor (R345). -/
def Dev.addrBits (d : Dev) (fd : Nat) : Nat := match d.get (SP0_FDP_AW fd) with | 0 => 0 | k => 8 * (k + 1)

/-- The subcause of a read of the window, 0 when it is served (R350, R351). -/
def Dev.xipSub (d : Dev) (o : Nat) (fetch : Bool) : Nat :=
  let fd := d.get SP0_XIPCFG_FD
  if !d.on SP0_XIPCFG_EN || 2 ^ d.addrBits fd ≤ d.xipAddr o || d.get (SP0_FDP_DIR fd) ≠ 1 || !d.descOk fd then 9
  else if fetch && !d.on SP0_XIPCFG_EXEC then 7
  else 0

/-- The bytes of a buffered line (R350). -/
def Dev.lineAt (d : Dev) (o : Nat) : Option (List Nat) := (d.sp0.lines.find? fun l => l.1 = o / 32).map (·.2)

/-- A word, halfword or byte of a line, little-endian. -/
def lineWord (l : List Nat) (o size : Nat) : Nat := ofBytesLE ((l.drop (o % 32)).take size)

/-- Buffer a line; a ninth replaces the line filled longest ago (R350). -/
def bufferLine (line : Nat) (data : List Nat) (d : Dev) : Dev :=
  d.onSp0 fun h =>
    let l := (h.lines.filter fun x => x.1 ≠ line) ++ [(line, data)]
    { h with lines := l.drop (l.length - 8) }

/-- A waiting load takes its data: its register is written and the pair goes on after it. -/
def lineServe (data : List Nat) (p : Nat) (d : Dev) : Dev :=
  match (d.pairOf p).wait with
  | .line rd size signed a =>
    let v := lineWord data a size
    let v := if signed then ux 32 (sx (8 * size) v) else v
    d.onPair p fun h => { h.setGr rd (w32 v) with wait := .none_, pc := h.pc + 4, retired := h.retired + 1 }
  | _ => d

/-- A line read at a window offset ends with 32 bytes (R350, R363): the waiting loads of the line are served, and the line
is buffered unless SP0_XIPCFG was written meanwhile. An access of its own that no mapping serves is refused (R351). -/
def lineRead (m : Master) (o : Nat) (data : List Nat) (d : Dev) : Dev :=
  let ps := d.lineWaiters (o / 32)
  if data.length ≠ 32 then d
  else if ps = [] && d.xipSub o false ≠ 0 then busError m (d.xipSub o false) (0x30000000 + o) false d
  else if ps = [] && (d.lineAt o).isSome then { d with rdata := w32 (lineWord ((d.lineAt o).getD []) o 4) }
  else
    let d := d.each ps (lineServe data)
    let d := if ps = [] then { d with rdata := w32 (lineWord data o 4) } else d
    let left := (List.range 5).any fun p => match (d.pairOf p).wait with | .line _ _ _ _ => true | _ => false
    let d := if d.sp0.discard then d else bufferLine (o / 32) data d
    let fd := d.get SP0_XIPCFG_FD
    let head := d.frameHead fd (d.xipAddr o)
    let d := d.onSp0 fun h => { h with sent := head, discard := h.discard && left }
    sp0Next (d.put SP0_STAT_XIPBUSY (if left then 1 else 0))

/-- XIP_LINE_READ (R350, R352): the read of the window at an offset, with the 32 bytes of its line. -/
def execXipLineRead (m : Master) (o : Fin 67108864) (data : List (Fin 256)) : State → Out :=
  onDev (lineRead m (o.val / 4 * 4) (data.map (·.val)))

/-- Empty the line buffer (R350). -/
def xipPurge (d : Dev) : Dev := d.onSp0 fun h => { h with lines := [] }

/-- XIP_INVALIDATE (R350): a write of SP0_XIPINV. -/
def execXipInvalidate (m : Master) : State → Out := onDev (asOwner m SP0_XIPINV xipPurge)

/-- A write of SP0_XIPCFG empties the line buffer; a running line read completes under the old mapping and is not buffered
(R350, R363). -/
def writeXipcfg (w : Word) (d : Dev) : Dev :=
  (xipPurge (d.setReg SP0_XIPCFG (w &&& 0xFFFFF733#32))).onSp0 fun h => { h with discard := d.on SP0_STAT_XIPBUSY }

/-! The cross-connection (R357). -/

/-- A write of SP0_XCON. -/
def writeXcon (w : Word) (d : Dev) : Dev :=
  let d := if w.getLsbD 1 then d.put SP0_XCON_ERR 0 else d
  if w.getLsbD 0 then
    if d.serialIdle then
      ((d.put SP0_XCON_EN 1).put SP1_STAT_XCON 1).onSp0 fun h => { h with parting := false }
    else d.put SP0_XCON_ERR 1
  else if d.on SP0_XCON_EN then
    partPorts ((d.put SP0_XCON_EN 0).onSp0 fun h => { h with parting := true })
  else d

/-- CROSS_CONNECT (R357). -/
def execCrossConnect (m : Master) (w : Word) : State → Out :=
  onDev fun d => if d.supRights m then writeXcon w d else busError m 6 SP0_XCON true d

/-! SP1 (R353 to R356). While the ports are joined the words below are those SP0 carries. -/

/-- The lanes latched: full duplex on one lane (R353). -/
def Sp1H.duplex (h : Sp1H) : Bool := h.cfg % 4 = 0

/-- The word size latched, in bits (R353). -/
def Sp1H.bits (h : Sp1H) : Nat := match h.cfg / 16 % 4 with | 0 => 8 | 1 => 16 | _ => 32

/-- The levels that raise SP1_RX and SP1_TX (R356). -/
def Sp1H.rxTh (h : Sp1H) : Nat := max 1 (h.cfg / 2 ^ 16 % 64)
/-- See `Sp1H.rxTh`. -/
def Sp1H.txTh (h : Sp1H) : Nat := h.cfg / 2 ^ 24 % 64

/-- SP1_RDY is low (R355). -/
def Dev.rdyLow (d : Dev) : Bool :=
  let h := d.sp1
  let receives := h.duplex || !h.reads
  let sends := h.duplex || h.reads
  h.cfg / 256 % 2 = 1 && d.on SP1_STAT_CSACT
    && ((receives && 64 ≤ h.rx.length) || (sends && h.tx.isEmpty && h.cur.isNone))

/-- SP1_RXHEAD of the head word (R354). -/
def headFlags : List RxWord → Nat
  | [] => 0
  | r :: _ => 2 ^ 29 + (if r.first then 2 ^ 31 else 0) + (match r.bits with | some n => 2 ^ 30 + n % 64 | none => 0)

/-- SP1_STAT and SP1_RXHEAD show the FIFOs. -/
def sp1Mirror (d : Dev) : Dev :=
  let d := (d.put SP1_STAT_RXCNT d.sp1.rx.length).put SP1_STAT_TXCNT d.sp1.tx.length
  (d.setReg SP1_RXHEAD (w32 (headFlags d.sp1.rx))).put SP1_STAT_RDYLO (if d.rdyLow then 1 else 0)

/-- Replace the TX FIFO; SP1_TX is raised when its count falls to TXTH (R356). -/
def setTx (l : List Nat) (d : Dev) : Dev :=
  let n := d.sp1.tx.length
  let d := d.onSp1 fun h => { h with tx := l }
  if d.sp1.txTh < n && l.length ≤ d.sp1.txTh then raiseSp1 1 d else d

/-- The next word to send is taken (R353, R355): from the TX FIFO, or the busy pattern when it is empty or, in full duplex,
while the RX FIFO is full. -/
def takeTx (d : Dev) : Dev :=
  if d.sp1.duplex && 64 ≤ d.sp1.rx.length then d.onSp1 fun h => { h with cur := none }
  else
    match d.sp1.tx with
    | [] => d.onSp1 fun h => { h with cur := none }
    | w :: t => setTx t (d.onSp1 fun h => { h with cur := some (w % 2 ^ h.bits) })

/-- A word enters the RX FIFO, or is lost (R354, R355). -/
def pushRx (r : RxWord) (d : Dev) : Dev :=
  if 64 ≤ d.sp1.rx.length then raiseSp1 3 ((d.bump ⟨SP1_OVFCNT, 0, 16⟩ 1).put SP1_STAT_OVF 1)
  else
    let d := d.onSp1 fun h => { h with rx := h.rx ++ [r] }
    if d.sp1.rx.length = d.sp1.rxTh then raiseSp1 0 d else d

/-- CS_FALL (R353): a transaction begins; SP1_CFG takes effect; in full duplex the first word to send is taken. -/
def execCsFall : State → Out :=
  onDev fun d =>
    if d.on SP1_STAT_CSACT then d
    else
      let cfg := (d.reg SP1_CFG).toNat
      let d := (d.put SP1_STAT_CSACT 1).onSp1 fun h => { h with cfg := cfg, first := true, reads := false, cur := none }
      sp1Mirror (if d.sp1.duplex then takeTx d else d)

/-- SP1_WORD_RECEIVED (R353, R354): a word received from the host; the first one of a half-duplex transaction is its
header, whose most significant bit selects the direction. -/
def execSp1WordReceived (w : Word) : State → Out :=
  onDev fun d =>
    let h := d.sp1
    if !d.on SP1_STAT_CSACT || (!h.duplex && h.reads) then d
    else
      let v := w.toNat % 2 ^ h.bits
      let d := pushRx { word := v, first := h.first } d
      sp1Mirror (d.onSp1 fun h => { h with first := false, reads := !h.duplex && (h.reads || (h.first && v.testBit (h.bits - 1))) })

/-- SP1_WORD_SENT (R353, R355): SP1 takes the next word to send. -/
def execSp1WordSent : State → Out :=
  onDev fun d =>
    if d.on SP1_STAT_CSACT && (d.sp1.duplex || d.sp1.reads) then sp1Mirror (takeTx d) else d

/-- CS_RISE (R356): CS_N rises with `n` bits of a word received (`w` holds them) and the word being sent cut or not begun. -/
def execCsRise (n : Fin 32) (w : Word) (cut : Bool) : State → Out :=
  onDev fun d =>
    if !d.on SP1_STAT_CSACT then d
    else
      let h := d.sp1
      let d := match h.cur with
        | some v => if cut then d.put SP1_STAT_TXCUT 1 else d.onSp1 fun h => { h with tx := v :: h.tx }
        | none => d
      let d := if 0 < n.val && n.val < h.bits && (h.duplex || !h.reads) then
          pushRx { word := w.toNat % 2 ^ n.val * 2 ^ (h.bits - n.val), first := h.first, bits := some n.val } d
        else d
      let d := (d.put SP1_STAT_CSACT 0).onSp1 fun h => { h with first := false, reads := false, cur := none }
      let d := d.put ⟨SP1_TCNT, 0, 32⟩ (d.get ⟨SP1_TCNT, 0, 32⟩ + 1)
      partPorts (raiseSp1 2 (sp1Mirror d))

/-- A read of SP1_RX (R354): the head word goes out; an empty FIFO answers 0 and sets UNF. -/
def popRx (d : Dev) : Word × Dev :=
  match d.sp1.rx with
  | r :: t => (w32 r.word, sp1Mirror (d.onSp1 fun h => { h with rx := t }))
  | [] => (0, d.put SP1_STAT_UNF 1)

/-- SP1_POP (R354). -/
def execSp1Pop (m : Master) : State → Out :=
  onDev (asAgent m SP1_RX false fun d => let (w, d) := popRx d; { d with rdata := w })

/-- A word is about to be sent with none to send, and SP1_RDY holds the host (R355). -/
def Dev.txHeld (d : Dev) : Bool :=
  d.sp1.cfg / 256 % 2 = 1 && d.on SP1_STAT_CSACT && (d.sp1.duplex || d.sp1.reads) && d.sp1.tx.isEmpty && d.sp1.cur.isNone

/-- A write of SP1_TX (R354); a send that SP1_RDY holds takes the word at once (R355). -/
def pushTx (w : Word) (d : Dev) : Dev :=
  if 64 ≤ d.sp1.tx.length then d.put SP1_STAT_TXFULLW 1
  else
    let d1 := d.onSp1 fun h => { h with tx := h.tx ++ [w.toNat] }
    sp1Mirror (if d.txHeld then takeTx d1 else d1)

/-- SP1_PUSH (R354). -/
def execSp1Push (m : Master) (w : Word) : State → Out := onDev (asAgent m SP1_TX true (pushTx w))

/-- A write of SP1_CTL (R356, R363): ATTN, and emptying either FIFO; a word in progress completes. -/
def writeSp1Ctl (w : Word) (d : Dev) : Dev :=
  let d := d.put SP1_CTL_ATTN (wordGet w 0 1)
  let d := if w.getLsbD 9 then setTx [] d else d
  sp1Mirror (if w.getLsbD 8 then d.onSp1 fun h => { h with rx := [] } else d)

/-- FLUSHTX (R363): a write of SP1_CTL with FLUSHTX set. -/
def execFlushtx (m : Master) (w : Word) : State → Out :=
  onDev (asAgent m SP1_CTL true (writeSp1Ctl (w ||| 0x200#32)))

/-- FLUSHRX (R354): a write of SP1_CTL with FLUSHRX set. -/
def execFlushrx (m : Master) (w : Word) : State → Out :=
  onDev (asAgent m SP1_CTL true (writeSp1Ctl (w ||| 0x100#32)))

end Sys2Proof.Machine
end

