-- ==== Sys2Proof/Machine/Can.lean ====
section
/-! DEFINITION. The CAN controllers (R367 to R369, R374, R395 to R399) and the loss of a client (R386, R393), which a
controller's bus-off brings. -/

namespace Sys2Proof.Machine
open Sys2Proof Reg

/-- Raise event n of a CAN controller (R399). -/
def raiseCan (c n : Nat) (d : Dev) : Dev := raiseIn (CAN_EVT c) (944 + 8 * c) n d

/-! Loss of a client (R386, R393). -/

/-- A slot enters loss (R393): its device claim ends at once, axes that do not drive lose their claims, each driving axis
keeps its claim for its HOLD; the entry is journalled (R391). -/
def enterLoss (s : Nat) (d : Dev) : Dev :=
  let c := d.clientOf s
  if !c.used || c.loss then d
  else
    let d := journalClient 1 s c.name [2, s] (d.onClient s fun c => { c with loss := true })
    let d := if d.devClaim = some s then { d with devClaim := none } else d
    let d := d.each allAxes fun a d =>
      if tget none d.claim a ≠ some s then d
      else if (d.axSt a).driving then
        { d with holdEnd := tset none d.holdEnd a (some (d.now + 200000 * (tget (2000, 0) d.policy a).1)) }
      else endClaim a d
    freeIdle s d

/-- Every slot of a controller's link enters loss. -/
def linkLoss (c : Nat) (d : Dev) : Dev :=
  d.each (List.range 64) fun s d => if (d.clientOf s).used && (d.clientOf s).link = c then enterLoss s d else d

/-! Address claim, as far as a controller's recovery starts it (R372, R373). -/

/-- A live class-3 item by its number: the first payload word, or its reset value (R334, DESIGN CHOICE, log 30). -/
def Dev.item (d : Dev) (n dflt : Nat) : Nat :=
  match d.jnl.log.find? fun r => (r.typ = 6 || r.typ = 8) && r.key = 3 * 2 ^ 30 + n && isLive d.jnl.log r with
  | some r => r.payload.getD 0 dflt
  | none => dflt

/-- The module's NAME (R372): identity number, manufacturer code, and the integrator's fields from bit 32 up; device class
4, industry group 2 and self-configurable at reset. -/
def Dev.ownName (d : Dev) : Nat :=
  let hi := d.item 0x101 (4 * 2 ^ 17 + 2 * 2 ^ 28)
  Config.serialNumber % 2 ^ 21 + Config.manufacturerCode % 2 ^ 11 * 2 ^ 21 + hi % 2 ^ 31 * 2 ^ 32 + 2 ^ 63

/-- The preferred address (R372). -/
def Dev.preferred (d : Dev) : Nat := clampN 128 247 (d.item 0x102 168)

/-- The firmware sends a message on ISOBUS from the address in use or being claimed, or from 254 without one (R373). -/
def busSend (pgn dst : Nat) (data : List Nat) (d : Dev) : Dev :=
  d.onBus fun b => { b with sent := some {
    src := b.addr.getD (if b.claimAt.isSome then b.cand else 254), pgn := pgn, dst := dst, data := data } }

/-- Transmit Address claimed for an address, or Cannot claim from 254 (R373). -/
def sendClaim (d : Dev) : Dev := busSend 60928 255 (bytesLE 8 d.ownName) d

/-- Start the address claim with the address last held, or the preferred one (R373). -/
def claimStart (d : Dev) : Dev :=
  sendClaim (d.onBus fun b => { b with
    addr := none, cand := b.lastAddr.getD d.preferred, claimAt := some d.now, lost := [], retryAt := none })

/-! The controllers. -/

/-- The owner of a controller (chapter 17, Registers). -/
def Dev.canOwner (d : Dev) (c : Nat) : Nat := let p := d.get (CAN_OWN_PAIR c); if (d.canOf c).ownLost || 4 < p then d.sup else p

/-- The owner and the supervising pair write a controller's registers. -/
def Dev.canRights (d : Dev) (m : Master) (c : Nat) : Bool :=
  match d.asPair m with
  | some p => p = d.canOwner c || p = d.sup
  | none => false

/-- Perform a write of a controller, or refuse it with SUB 6. -/
def asCan (m : Master) (c addr : Nat) (f : Dev → Dev) (d : Dev) : Dev :=
  if d.canRights m c then f d else busError m 6 addr true d

/-- On the bus: enabled and not bus-off. -/
def Dev.canLive (d : Dev) (c : Nat) : Bool := d.on (CAN_CFG_EN c) && d.get (CAN_STAT_STATE c) ≠ 2

/-- Change a controller's state; ERRSTATE reports it (R399). -/
def setCanState (c st : Nat) (d : Dev) : Dev :=
  if d.get (CAN_STAT_STATE c) = st then d else raiseCan c 2 (d.put (CAN_STAT_STATE c) st)

/-- Set the error counters; the controller is error-passive while one has passed 127 (ISO 11898-1). -/
def setErrc (c tec rxe : Nat) (d : Dev) : Dev :=
  let d := (d.put (CAN_ERRC_TEC c) (min 511 tec)).put (CAN_ERRC_REC c) (min 255 rxe)
  if d.get (CAN_STAT_STATE c) = 2 then d else setCanState c (if 127 < tec || 127 < rxe then 1 else 0) d

/-- A mailbox of a controller. -/
def Dev.mbOf (d : Dev) (c m : Nat) : MbH := tget {} (d.canOf c).mb m
/-- Replace hidden state of a mailbox. -/
def Dev.onMb (d : Dev) (c m : Nat) (f : MbH → MbH) : Dev :=
  d.onCan c fun h => { h with mb := tset {} h.mb m (f (tget {} h.mb m)) }

/-- A mailbox is pending (R395). -/
def Dev.mbPend (d : Dev) (c m : Nat) : Bool := d.bit (CAN_TXPEND c) m

/-- Write a mailbox's result: it is no longer pending, TXDONE reports it (R395, R399). -/
def mbEnd (c res : Nat) (d : Dev) (m : Nat) : Dev :=
  let att := (d.mbOf c m).att
  let d := (d.put (CAN_TXRES_RES c m) res).put (CAN_TXRES_ATT c m) (min 255 att)
  raiseCan c 1 ((d.clrBit (CAN_TXPEND c) m).onMb c m fun h => { h with att := 0, late := false })

/-- The mailboxes named by a mask. -/
def mailboxes (w : Nat) : List Nat := (List.range 8).filter fun m => w.testBit m

/-- A write of CAN_TXREQ (R395): a mailbox already pending is not affected; one aborted in the same cycle is CANCELLED
(R396). -/
def txRequest (c w : Nat) (d : Dev) : Dev :=
  d.each (mailboxes w) fun m d =>
    if d.mbPend c m then d
    else
      let cut := (d.mbOf c m).abortAt = some d.now
      let d := (d.setBit (CAN_TXPEND c) m).onMb c m fun h => { h with reqAt := d.now, att := 0, late := false }
      if cut then mbEnd c 3 d m else d

/-- TX_REQUEST (R395). -/
def execTxRequest (m : Master) (c : Fin 3) (w : Word) : State → Out :=
  onDev fun d => asCan m c (CAN_TXREQ c) (txRequest c w.toNat) d

/-- The rank of an identifier in arbitration: the base part first, then base frames before extended ones. -/
def arbRank (ide : Bool) (id : Nat) : Nat := if ide then id * 2 + 1 else id % 2048 * 2 ^ 19

/-- The mailbox that contends at an instant: the lowest identifier among those requested by then, the lower number among
equals (R395). -/
def Dev.contender (d : Dev) (c t : Nat) : Option Nat :=
  let rank := fun m => arbRank (d.on (CAN_TXID_IDE c m)) (d.get (CAN_TXID_ID c m))
  ((List.range 8).filter fun m => d.mbPend c m && decide ((d.mbOf c m).reqAt ≤ t)).foldl (fun b m => match b with
    | none => some m
    | some x => if rank m < rank x then some m else some x) none

/-- Bytes of a data length code: of a classical frame, or of an FD frame (ISO 11898-1). -/
def dlcLen (fd : Bool) (dlc : Nat) : Nat :=
  if dlc ≤ 8 || !fd then min 8 dlc else [12, 16, 20, 24, 32, 48, 64].getD (dlc - 9) 64

/-- The registers of the receive head show the oldest frame (R397). -/
def rxMirror (c : Nat) (d : Dev) : Dev :=
  let l := (d.canOf c).rx
  let d := d.put (CAN_RXSTAT_COUNT c) l.length
  let f := l.head?.getD { id := 0 }
  let d := ((d.put (CAN_RXID_IDE c) (if f.ide then 1 else 0)).put (CAN_RXID_ID c) f.id).put (CAN_RXTS_T c) f.ts
  let w := (if f.fdf then 2 ^ 31 else 0) + (if f.brs then 2 ^ 30 else 0) + (if f.esi then 2 ^ 29 else 0)
    + (if l.isEmpty then 0 else 2 ^ 16) + f.flt * 256 + f.dlc
  (d.setReg (CAN_RXCTL c) (w32 w)).each (List.range 16) fun k d =>
    d.setReg (CAN_RXDATA c k) (w32 (ofBytesLE ((f.data.drop (4 * k)).take 4)))

/-- The filter that passes a frame: the lowest enabled one that matches (R397). -/
def Dev.filterOf (d : Dev) (c : Nat) (ide : Bool) (id : Nat) : Option Nat :=
  (List.range 16).find? fun f =>
    let k := d.get (CAN_FLTMSK_ID c f)
    d.on (CAN_FLTID_EN c f) && (d.on (CAN_FLTID_IDE c f) = ide) && (id &&& k = d.get (CAN_FLTID_ID c f) &&& k)

/-- A frame enters the receive FIFO, or is lost (R397). -/
def rxIn (c : Nat) (f : RxFrame) (d : Dev) : Dev :=
  match d.filterOf c f.ide f.id with
  | none => d
  | some n =>
    let l := (d.canOf c).rx
    if 64 ≤ l.length then raiseCan c 3 (d.put (CAN_RXSTAT_OVR c) 1)
    else
      let d := rxMirror c (d.onCan c fun h => { h with rx := l ++ [{ f with flt := n }] })
      if l.isEmpty then raiseCan c 0 d else d

/-- The frame a mailbox holds. -/
def Dev.mbFrame (d : Dev) (c m t : Nat) : RxFrame :=
  let fd := d.on (CAN_TXCTL_FDF c m)
  let n := dlcLen fd (d.get (CAN_TXCTL_DLC c m))
  { id := d.get (CAN_TXID_ID c m), ide := d.on (CAN_TXID_IDE c m), fdf := fd, brs := d.on (CAN_TXCTL_BRS c m)
    dlc := d.get (CAN_TXCTL_DLC c m), ts := t % 2 ^ 32
    data := ((List.range 16).map fun k => bytesLE 4 (d.get (CAN_TXDATA_DATA c m k))).flatten.take n }

/-- An attempt that did not succeed: after a late abort it ends ABORTED_ERROR, under BUS_ALONE the sixteenth ends FAILED,
else the frame is retransmitted (R374, R395, R396). -/
def mbRetry (c m : Nat) (d : Dev) : Dev :=
  if (d.mbOf c m).late then mbEnd c 5 d m
  else if d.on (CAN_STAT_ALONE c) && 16 ≤ (d.mbOf c m).att then mbEnd c 4 d m
  else d

/-- FRAME_TRANSMITTED (R395): an attempt whose start of frame lies `ago` counts back has ended. -/
def execFrameTransmitted (c : Fin 3) (ago : Nat) (e : TxEnd) : State → Out :=
  onDev fun d =>
    if !d.canLive c || d.on (CAN_CFG_LISTEN c) then d
    else match d.contender c (d.now - ago) with
      | none => d
      | some m =>
        let d := d.onMb c m fun h => { h with att := h.att + 1 }
        let tec := d.get (CAN_ERRC_TEC c)
        let rxe := d.get (CAN_ERRC_REC c)
        match e with
        | .sent =>
          let f := d.mbFrame c m (d.now - ago)
          let d := (setErrc c (tec - 1) rxe d).put (CAN_TXTS_T c m) (d.now - ago)
          let d := if d.on (CAN_CFG_LOOP c) then rxIn c f d else d
          mbEnd c (if (d.mbOf c m).late then 2 else 1) d m
        | .lostArb => mbRetry c m d
        | .ackError =>
          let passive := d.get (CAN_STAT_STATE c) = 1
          mbRetry c m (setErrc c (if passive then tec else tec + 8) rxe (d.put (CAN_STAT_LEC c) 3))
        | .error lec => mbRetry c m (setErrc c (tec + 8) rxe (d.put (CAN_STAT_LEC c) lec))

/-- A write of CAN_TXABORT (R396). `busy`: the mailbox whose frame is on the bus at or after the sample point of its last
arbitration bit. -/
def txAbort (c w : Nat) (busy : Option Nat) (d : Dev) : Dev :=
  d.each (mailboxes w) fun m d =>
    let same := (d.mbOf c m).reqAt = d.now
    let d := d.onMb c m fun h => { h with abortAt := some d.now }
    if !d.mbPend c m then d
    else if busy = some m && !same then d.onMb c m fun h => { h with late := true }
    else mbEnd c 3 d m

/-- TX_ABORT (R396). -/
def execTxAbort (m : Master) (c : Fin 3) (w : Word) (busy : Option (Fin 8)) : State → Out :=
  onDev fun d => asCan m c (CAN_TXABORT c) (txAbort c w.toNat (busy.map (·.val))) d

/-- FRAME_RECEIVED (R367, R397): a frame whose start lies `ago` counts back. Remote frames are ignored; an FD frame where
none is allowed is a form error. -/
def execFrameReceived (c : Fin 3) (id : Fin 536870912) (ide fdf brs esi rtr : Bool) (dlc : Fin 16) (data : List (Fin 256))
    (ago : Nat) : State → Out :=
  onDev fun d =>
    if !d.canLive c then d
    else
      let tec := d.get (CAN_ERRC_TEC c)
      let rxe := d.get (CAN_ERRC_REC c)
      if fdf && (c.val = 0 || !d.on (CAN_CFG_FD c)) then setErrc c tec (rxe + 1) (d.put (CAN_STAT_LEC c) 2)
      else
        let d := setErrc c tec (if 127 < rxe then 127 else rxe - 1) d
        if rtr then d
        else
          let n := dlcLen fdf dlc
          let bytes := (data.map (·.val)).take n
          let f : RxFrame := { id := if ide then id.val else id.val % 2048, ide := ide, fdf := fdf, brs := brs, esi := esi, dlc := dlc.val, ts := (d.now - ago) % 2 ^ 32, data := bytes }
          rxIn c f d

/-- A write of CAN_RXPOP (R397). -/
def rxPop (c : Nat) (d : Dev) : Dev := rxMirror c (d.onCan c fun h => { h with rx := h.rx.tail })

/-- RX_POP (R397). -/
def execRxPop (m : Master) (c : Fin 3) : State → Out := onDev fun d => asCan m c (CAN_RXPOP c) (rxPop c) d

/-- BUS_OFF (R386, R395): every pending frame ends with BUSOFF; the slots of the link enter loss. -/
def execBusOff (c : Fin 3) : State → Out :=
  onDev fun d =>
    if !d.canLive c then d
    else
      let d := setCanState c 2 (d.put (CAN_ERRC_TEC c) (max 256 (d.get (CAN_ERRC_TEC c))))
      let d := ((List.range 8).filter (d.mbPend c)).foldl (mbEnd c 6) d
      linkLoss c d

/-- BUS_OFF_RECOVERY (R395): with AUTOREC the controller recovers; ISO claims its address again (R373). -/
def execBusOffRecovery (c : Fin 3) : State → Out :=
  onDev fun d =>
    if d.get (CAN_STAT_STATE c) = 2 && d.on (CAN_CFG_EN c) && d.on (CAN_CFG_AUTOREC c) then
      let d := setErrc c 0 0 (setCanState c 0 d)
      if c.val = 0 then claimStart d else d
    else d

/-- A write of CAN_TBC (R368). -/
def writeTbc (w : Word) (d : Dev) : Dev := d.put (CAN_TBC_EN 0) (wordGet w 0 1)

/-- TBC_SWITCH (R368). -/
def execTbcSwitch (m : Master) (on : Bool) : State → Out :=
  onDev (asCan m 0 (CAN_TBC 0) (writeTbc (if on then 1 else 0)))

/-- A write of CAN_CFG (R369): TDCO changes only while EN is 0. -/
def writeCanCfg (c : Nat) (w : Word) (d : Dev) : Dev :=
  let rw : Word := if c = 0 then 0x9C000000 else 0xFE1F0000
  let old := d.reg (CAN_CFG c)
  let d1 := d.setReg (CAN_CFG c) ((old &&& ~~~rw) ||| (w &&& rw))
  if c = 0 || wordGet w 8 8 = wordGet old 8 8 then d1
  else if old.getLsbD 31 then d1.put (CAN_STAT_CFGERR c) 1
  else d1.put (CAN_CFG_TDCO c) (wordGet w 8 8)

/-- A write of CAN_NBT or CAN_DBT of a private link (R369). -/
def writeCanTiming (c addr : Nat) (w : Word) (d : Dev) : Dev :=
  if d.on (CAN_CFG_EN c) then d.put (CAN_STAT_CFGERR c) 1 else d.setReg addr w

/-- BUS_ALONE (R374): the ISO controller is error-passive through acknowledgement errors; frames that have had sixteen
attempts fail, every ISOBUS slot enters loss. -/
def execBusAlone : State → Out :=
  onDev fun d =>
    if d.on (CAN_STAT_ALONE 0) || d.get (CAN_STAT_STATE 0) ≠ 1 || d.get (CAN_ERRC_TEC 0) ≤ 127 || d.get (CAN_STAT_LEC 0) ≠ 3 then d
    else
      let d := raiseCan 0 4 (d.put (CAN_STAT_ALONE 0) 1)
      let d := ((List.range 8).filter fun m => d.mbPend 0 m && decide (16 ≤ (d.mbOf 0 m).att)).foldl (mbEnd 0 4) d
      linkLoss 0 d

/-- BUS_ALONE_CLEAR (R374): a frame is acknowledged or received; the address claim runs afresh. -/
def execBusAloneClear : State → Out :=
  onDev fun d =>
    if d.on (CAN_STAT_ALONE 0) then claimStart (raiseCan 0 4 (d.put (CAN_STAT_ALONE 0) 0)) else d

end Sys2Proof.Machine
end

