-- ==== Sys2Proof/Machine/LawArith.lean ====
section
/-! DEFINITION. The arithmetic of the loop law (R214, R218, R220, R227, R230, R231) in both number formats, on plain
values: what one run computes from its coefficients, its state and its inputs. -/

namespace Sys2Proof.Machine

/-- A value with the count of saturations met so far. -/
abbrev Sat (α : Type) := α × Nat

/-- Saturate to 64 bits, counting a change (R218). -/
def sat64 (v : Int) : Sat Int := let c := satS 64 v; (c, if c = v then 0 else 1)

/-- Saturate to 32 bits, counting a change (R218). -/
def sat32 (v : Int) : Sat Int := let c := satS 32 v; (c, if c = v then 0 else 1)

/-- `x × 2^k`, rounded half away from zero when `k` is negative. -/
def scale2 (x k : Int) : Int := if k < 0 then rha x (2 ^ k.natAbs) else x * 2 ^ k.toNat

/-! Fixed point (R218). -/

/-- A fixed-point coefficient: its mantissa and its shift. -/
structure Coef where
  m : Int
  s : Int
  deriving DecidableEq, Repr

/-- A coefficient with its sign changed. -/
def Coef.neg (c : Coef) : Coef := { c with m := -c.m }

/-- Add one term to an accumulator in units of 2^-31 (R218). -/
def fixTerm (acc : Sat Int) (t : Coef × Int) : Sat Int :=
  let p := t.1.m * t.2
  let t' : Sat Int := if t.1.s < 0 then (rha p (2 ^ t.1.s.natAbs), 0) else sat64 (p * 2 ^ t.1.s.toNat)
  let a := sat64 (acc.1 + t'.1)
  (a.1, acc.2 + t'.2 + a.2)

/-- A row's accumulator over its terms, from a starting value. -/
def fixRow (start : Int) (terms : List (Coef × Int)) : Sat Int := terms.foldl fixTerm (start, 0)

/-- The result of a row. -/
def fixOut (acc : Sat Int) : Sat Int := let r := sat32 (rha acc.1 (2 ^ 31)); (r.1, acc.2 + r.2)

/-- The program of a run: sizes, format, coefficients by their place in the record, matrix exponents, limits, the
measurement of each integrator, thresholds. Places: A 0, B 64, C 80, L 112, K 144, N 160, KI 164, SEEDK 166. -/
structure Law where
  n : Nat
  p : Nat
  m : Nat
  block : Bool
  coef : List Coef
  exps : List Int
  umin : List Int
  umax : List Int
  zmin : List Int
  zmax : List Int
  iy : List Nat
  rth : List Nat
  deriving DecidableEq, Repr

/-- A coefficient of the program. -/
def Law.c (l : Law) (i : Nat) : Coef := l.coef.getD i ⟨0, 0⟩

/-- The state a run starts from and ends in: states and integrators (their mantissas in block floating point, with the
two exponents). -/
structure LawState where
  x : List Int
  z : List Int
  ex : Int := -128
  ez : Int := -128
  deriving DecidableEq, Repr

/-- The inputs of a run: measurements with their validity, references, the manual outputs in manual mode, the previous
outputs of a preset, the outputs that drive the observer where they are not the run's own (R236), and the strike values
added to the outputs (R244). -/
structure LawIn where
  y : List Int
  ok : List Bool
  r : List Int
  man : Option (List Int)
  prev : Option (List Int)
  drive : Option (List Int)
  inj : List Int := [0, 0]
  deriving DecidableEq, Repr

/-- What a run yields: residuals (as 32-bit values) and whether each exceeds its threshold, outputs, the new state, the
saturations counted, and whether a preset was clamped. -/
structure LawOut where
  e : List Int
  beyond : List Bool
  u : List Int
  st : LawState
  sat : Nat
  clip : Bool
  deriving DecidableEq, Repr

/-- Element `i` of a list of integers, 0 beyond its end. -/
def el (l : List Int) (i : Nat) : Int := l.getD i 0

/-- Gather results with their saturation counts. -/
def gather (l : List (Sat Int)) : Sat (List Int) := (l.map (·.1), (l.map (·.2)).foldl (· + ·) 0)

/-- The terms of row `i` of a matrix of row length `w` at a place of the record, over the first `k` columns. -/
def Law.terms (l : Law) (place w i k : Nat) (v : List Int) : List (Coef × Int) :=
  (List.range k).map fun j => (l.c (place + w * i + j), el v j)

/-- The same with the signs changed. -/
def Law.negTerms (l : Law) (place w i k : Nat) (v : List Int) : List (Coef × Int) :=
  (l.terms place w i k v).map fun t => (t.1.neg, t.2)

/-- The measurement of integrator `i` is named and valid (R214, R231). -/
def Law.intOn (l : Law) (i : Nat) (ok : List Bool) : Bool :=
  let j := l.iy.getD i 15
  j < l.p && ok.getD j false

/-- One run in fixed point (R214, R218). -/
def Law.fixed (l : Law) (s : LawState) (i : LawIn) : LawOut :=
  let e := gather ((List.range l.p).map fun j =>
    if i.ok.getD j false then fixOut (fixRow (el i.y j * 2 ^ 31) (l.negTerms 80 8 j l.n s.x)) else (0, 0))
  let v := gather ((List.range l.m).map fun k =>
    fixRow 0 (l.negTerms 144 8 k l.n s.x ++ l.terms 160 2 k l.m i.r))
  let lim := fun (k : Nat) (z : Int) => clipI (el l.zmin k * 2 ^ 31) (el l.zmax k * 2 ^ 31) z
  let z : Sat (List Int) := gather ((List.range 2).map fun k =>
    if l.m ≤ k || i.man.isSome then (el s.z k, 0)
    else match i.prev with
      | some u => (lim k (el u k * 2 ^ 31 - el v.1 k), 0)
      | none =>
        if l.intOn k i.ok then
          let err := sat32 (el i.r k - el i.y (l.iy.getD k 15))
          let a := fixRow (el s.z k) [(l.c (164 + k), err.1)]
          (lim k a.1, err.2 + a.2)
        else (el s.z k, 0))
  let clip := match i.man, i.prev with
    | none, some u => (List.range l.m).any fun k => el z.1 k ≠ el u k * 2 ^ 31 - el v.1 k
    | _, _ => false
  let raw := gather ((List.range l.m).map fun k =>
    match i.man with
    | some w => (el w k, 0)
    | none =>
      let a := sat64 (el v.1 k + el z.1 k + el i.inj k * 2 ^ 31)
      fixOut (a.1, a.2))
  let u := (List.range l.m).map fun k => clipI (el l.umin k) (el l.umax k) (el raw.1 k)
  let b := i.drive.getD u
  let x := gather ((List.range 8).map fun k =>
    if l.n ≤ k then (el s.x k, 0)
    else fixOut (fixRow 0 (l.terms 0 8 k l.n s.x ++ l.terms 64 2 k l.m b ++ l.terms 112 4 k l.p e.1)))
  { e := e.1
    beyond := (List.range 4).map fun j =>
      j < l.p && l.rth.getD j 0 ≠ 0 && i.ok.getD j false && decide (l.rth.getD j 0 < (el e.1 j).natAbs)
    u := u, st := { x := x.1, z := z.1 }, sat := e.2 + v.2 + z.2 + raw.2 + x.2, clip := clip }

/-! Block floating point (R220). -/

/-- A block vector: mantissas and exponent. -/
structure Block where
  m : List Int
  e : Int
  deriving DecidableEq, Repr

/-- The binary logarithm of a positive number, truncated; 0 for 0. -/
def log2N : Nat → Nat → Nat
  | 0, _ => 0
  | f + 1, n => if n < 2 then 0 else 1 + log2N f (n / 2)

/-- Renormalise accumulators in units of 2^emax (R220). -/
def renorm (acc : List Int) (emax : Int) : Sat Block :=
  let big := (acc.map Int.natAbs).foldl max 0
  if big = 0 then ({ m := acc.map fun _ => 0, e := -128 }, 0)
  else
    let s0 : Int := (log2N 600 big : Int) - 22
    let m0 := acc.map fun a => scale2 a (-s0)
    let s := if m0.any (fun x => x.natAbs = 2 ^ 23) then s0 + 1 else s0
    let m := acc.map fun a => scale2 a (-s)
    let e := emax + s
    if e > 127 then ({ m := m.map fun x => clipI (-(2 ^ 23 - 1)) (2 ^ 23 - 1) x, e := 127 }, 1)
    else if e < -128 then ({ m := acc.map fun a => scale2 a (128 + emax), e := -128 }, 0)
    else ({ m := m, e := e }, 0)

/-- A 32-bit input vector as a block (R220). -/
def toBlock (v : List Int) : Block := (renorm v 0).1

/-- A term group of a stage: its exponent and, per row, its products. -/
structure Group where
  e : Int
  rows : List (List Int)
  deriving DecidableEq, Repr

/-- A stage: the sum of its groups, aligned to the largest exponent and renormalised (R220). -/
def stage (rows : Nat) (gs : List Group) : Sat Block :=
  let emax := (gs.map (·.e)).foldl max (-512)
  let part := fun (g : Group) (k : Nat) =>
    let sh := (emax - g.e).toNat
    if 64 ≤ sh then 0 else ((g.rows.getD k []).map fun p => rha p (2 ^ sh)).foldl (· + ·) 0
  renorm ((List.range rows).map fun k => (gs.map fun g => part g k).foldl (· + ·) 0) emax

/-- The value of an element as a 32-bit integer (R220). -/
def blockOut (b : Block) (k : Nat) : Sat Int := sat32 (scale2 (el b.m k) b.e)

/-- A vector as a group with coefficient 1 or −1. -/
def unitGroup (b : Block) (rows : Nat) (neg : Bool) : Group :=
  { e := b.e, rows := (List.range rows).map fun k => [if neg then -el b.m k else el b.m k] }

/-- A matrix times a vector as a group: matrix number, place, row length, rows, columns. -/
def Law.group (l : Law) (mat place w rows cols : Nat) (b : Block) (neg : Bool) : Group :=
  { e := el l.exps mat + b.e
    rows := (List.range rows).map fun i => (List.range cols).map fun j =>
      let p := (l.c (place + w * i + j)).m * el b.m j
      if neg then -p else p }

/-- Clamp a block vector by value between integers (R220); whether a value changed. -/
def clampBlock (b : Block) (lo hi : List Int) (rows : Nat) : Sat (Block × Bool) :=
  let e := min b.e 0
  let exact := (List.range rows).map fun k => el b.m k * 2 ^ (b.e - e).toNat
  let one : Int := 2 ^ e.natAbs
  let c := (List.range rows).map fun k => clipI (el lo k * one) (el hi k * one) (el exact k)
  if c = exact then ((b, false), 0) else let r := renorm c e; ((r.1, true), r.2)

/-- One run in block floating point (R214, R220). -/
def Law.blockRun (l : Law) (s : LawState) (i : LawIn) : LawOut :=
  let xb : Block := ⟨s.x, s.ex⟩
  let zb : Block := ⟨s.z, s.ez⟩
  let yb := toBlock ((List.range l.p).map (el i.y))
  let rb := toBlock ((List.range l.m).map (el i.r))
  let okRow := fun (g : Group) (j : Nat) => if i.ok.getD j false then g.rows.getD j [] else []
  let okRows := fun (g : Group) => (⟨g.e, (List.range l.p).map (okRow g)⟩ : Group)
  let e := stage l.p [okRows (unitGroup yb l.p false), okRows (l.group 2 80 8 l.p l.n xb true)]
  let eb : Block := e.1
  let vg := [l.group 4 144 8 l.m l.n xb true, l.group 5 160 2 l.m l.m rb false]
  let z : Sat (Block × Bool) :=
    if i.man.isSome then ((zb, false), 0)
    else match i.prev with
      | some u =>
        let v := stage l.m vg
        let w := stage l.m [unitGroup (toBlock ((List.range l.m).map (el u))) l.m false, unitGroup v.1 l.m true]
        let c := clampBlock w.1 l.zmin l.zmax l.m
        (c.1, v.2 + w.2 + c.2)
      | none =>
        let err := toBlock ((List.range l.m).map fun k =>
          if l.intOn k i.ok then el i.r k - el i.y (l.iy.getD k 15) else 0)
        let ki : Group := { e := el l.exps 6 + err.e, rows := (List.range l.m).map fun k =>
          [(l.c (164 + k)).m * el err.m k] }
        let w := stage l.m [unitGroup zb l.m false, ki]
        let c := clampBlock w.1 l.zmin l.zmax l.m
        ((c.1.1, false), w.2 + c.2)
  let ub := stage l.m (vg ++ [unitGroup z.1.1 l.m false])
  let raw := gather ((List.range l.m).map fun k =>
    match i.man, i.prev with
    | some w, _ => (el w k, 0)
    | none, p =>
      let b := if z.1.2 || p.isNone then blockOut ub.1 k else (el (p.getD []) k, 0)
      let a := sat32 (b.1 + el i.inj k)
      (a.1, b.2 + a.2))
  let u := (List.range l.m).map fun k => clipI (el l.umin k) (el l.umax k) (el raw.1 k)
  let b := toBlock ((List.range l.m).map (el (i.drive.getD u)))
  let x := stage l.n [l.group 0 0 8 l.n l.n xb false, l.group 1 64 2 l.n l.m b false, l.group 3 112 4 l.n l.p eb false]
  let e32 := (List.range l.p).map fun j => (blockOut eb j).1
  let above := fun (j : Nat) =>
    let m : Int := ((el eb.m j).natAbs : Int)
    let t : Int := l.rth.getD j 0
    if eb.e < 0 then decide (t * 2 ^ eb.e.natAbs < m) else decide (t < m * 2 ^ eb.e.toNat)
  { e := e32
    beyond := (List.range 4).map fun j => j < l.p && l.rth.getD j 0 ≠ 0 && i.ok.getD j false && above j
    u := u
    st := { x := (List.range 8).map fun k => if l.n ≤ k then 0 else el x.1.m k, z := (List.range 2).map (el z.1.1.m)
            ex := x.1.e, ez := z.1.1.e }
    sat := e.2 + z.2 + (if i.man.isSome then 0 else ub.2 + raw.2) + x.2
    clip := z.1.2 }

/-- One run of the law in the loop's format. -/
def Law.run (l : Law) (s : LawState) (i : LawIn) : LawOut := if l.block then l.blockRun s i else l.fixed s i

end Sys2Proof.Machine
end

