-- ==== Sys2Proof/Machine/ScuSig.lean ====
section
/-! DEFINITION. The strike signal of a session (R243) and where it acts at a run (R244). -/

namespace Sys2Proof.Machine
open Sys2Proof Reg

/-- Cosine and sine of 2π·2^b / 4096 in units of 2^-60, b = 0 to 9. -/
def turnTab : List (Int × Int) := [
  (1152920148139012899, 1768558744408523),
  (1152916078738702569, 3537113327227485),
  (1152899801185339687, 7074193361797233),
  (1152834691737939372, 14148120384212745),
  (1152574266204915294, 28294110113536504),
  (1151532760162549490, 56571176913125535),
  (1147369872436662991, 113006068906017470),
  (1130768441178740757, 224923827593068887),
  (1065160580698383124, 441203958630471860),
  (815238614083298888, 815238614083298888)]

/-- Turn a vector by the bits of an index below 1,024. -/
def turnBy : List (Int × Int) → Nat → Int × Int → Int × Int
  | [], _, v => v
  | (c, s) :: t, n, (x, y) =>
    turnBy t (n / 2) (if n % 2 = 1 then ((x * c - y * s) / 2 ^ 60, (x * s + y * c) / 2 ^ 60) else (x, y))

/-- `round(32767 × sin(2π × i / 4096))`, the table of R243. -/
def sinTab (i : Nat) : Int :=
  let q := i % 4096 / 1024
  let (c, s) := turnBy turnTab (i % 1024) (2 ^ 60, 0)
  let v := if q = 0 then s else if q = 1 then c else if q = 2 then -s else -c
  rha (v * 32767) (2 ^ 60)

/-- The order of the PRBS generator (R243). -/
def Dev.prbsOrder (d : Dev) (s : Nat) : Nat :=
  let n := d.get (SCU_SSIG_ORDER s)
  if 7 ≤ n && n ≤ 15 then n else 15

/-- The taps of the PRBS generator (R243). -/
def prbsTaps : Nat → List Nat
  | 7 => [7, 6]
  | 8 => [8, 6, 5, 4]
  | 9 => [9, 5]
  | 10 => [10, 7]
  | 11 => [11, 9]
  | 12 => [12, 11, 10, 4]
  | 13 => [13, 12, 11, 8]
  | 14 => [14, 13, 12, 2]
  | _ => [15, 14]

/-- One shift of the generator: stage 1 takes the exclusive-or of the tapped stages (R243). -/
def prbsShift (n r : Nat) : Nat :=
  let b := ((prbsTaps n).map fun t => r / 2 ^ (t - 1) % 2).foldl (· + ·) 0 % 2
  (2 * r + b) % 2 ^ n

/-- The generator's seed (R243). -/
def Dev.prbsSeed (d : Dev) (s : Nat) : Nat := max 1 (d.get (SCU_SSIG_SEED s) % 2 ^ d.prbsOrder s)

/-- The index of the strike sample at the session's next clock (R246). -/
def Dev.strikeIdx (d : Dev) (s : Nat) : Int := ((d.sessOf s).clocks : Int) - d.get (SCU_SLEN_PRE s)

/-- A sample of the strike stands at the next clock. -/
def Dev.striking (d : Dev) (s : Nat) : Bool :=
  let k := d.strikeIdx s
  (d.sessOf s).strikeOn && decide (0 ≤ k) && decide (k < (d.get (SCU_SLEN_NSTK s) : Int))

/-- The strike value at the next clock (R243). -/
def Dev.strikeVal (d : Dev) (s : Nat) : Int :=
  if !d.striking s then 0
  else
    let amp := sx 32 (d.reg (SCU_SAMP s)).toNat
    let h := d.sessOf s
    match d.get (SCU_SSIG_TYPE s) with
    | 1 => amp
    | 2 => satS 32 (if h.lfsr / 2 ^ (d.prbsOrder s - 1) % 2 = 1 then amp else -amp)
    | 3 => rha (amp * sinTab (h.phase / 2 ^ 20)) 32768
    | 4 => rha (amp * sinTab (h.phase / 2 ^ 20)) 32768
    | _ => 0

/-- Bring the generators to the next sample (R243). -/
def strikeAdvance (s : Nat) (d : Dev) : Dev :=
  if !d.striking s then d
  else
    let k := d.strikeIdx s
    let n : Int := d.get (SCU_SLEN_NSTK s)
    let p0 : Int := (d.reg (SCU_SPINC0 s)).toNat
    let p1 : Int := (d.reg (SCU_SPINC1 s)).toNat
    let inc := if d.get (SCU_SSIG_TYPE s) = 3 && k + 1 < n then p0 + (p1 - p0) * k / (n - 1) else p0
    let ord := d.prbsOrder s
    let hold := d.get (SCU_SSIG_HOLD s)
    d.onSess s fun h => { h with
      phase := ux 32 (h.phase + inc)
      lfsr := if h.bitLeft = 0 then prbsShift ord h.lfsr else h.lfsr
      bitLeft := if h.bitLeft = 0 then hold else h.bitLeft - 1 }

/-- The strike ends after its last sample (R243, R252). Called at the clock, before it is counted. -/
def strikeEnd (s : Nat) (d : Dev) : Dev :=
  let k := d.strikeIdx s
  let n : Int := d.get (SCU_SLEN_NSTK s)
  if decide (0 ≤ k) && decide (n ≤ k + 1) then d.onSess s fun h => { h with strikeOn := false } else d

/-- The strikes that act at a run of loop `k` of engine `e` that starts now: point, index, value (R244, R246). -/
def Dev.injections (d : Dev) (e k : Nat) : List (Nat × Nat × Int) :=
  ((List.range 4).filter fun s =>
    d.sessRunning s && d.get (SCU_STGT_ENG s) = e && d.get (SCU_STGT_LOOP s) = k && d.get (SCU_SCLK_SRC s) = 0
      && 1 ≤ d.get (SCU_STGT_POINT s) && d.get (SCU_STGT_POINT s) ≤ 3 && (d.sessOf s).strikeOn
      && decide ((d.sessOf s).go + 100 ≤ d.now)).map fun s =>
        (d.get (SCU_STGT_POINT s), d.get (SCU_STGT_IDX s), d.strikeVal s)

/-- The sum injected at a point and index. -/
def injAt (l : List (Nat × Nat × Int)) (point i : Nat) : Int :=
  ((l.filter fun x => x.1 = point && x.2.1 = i).map (·.2.2)).foldl (· + ·) 0

/-- A strike runs on a measurement: its residual is neither counted nor does it reset the count (R244). -/
def injMeas (l : List (Nat × Nat × Int)) (j : Nat) : Bool := l.any fun x => x.1 = 3 && x.2.1 = j

end Sys2Proof.Machine
end

