-- ==== Sys2Proof/Machine/Views.lean ====
section
/-! DEFINITION. Registers whose contents a read computes from other state: generator status and counter, conversion
results with their age, axis states. Every other register reads as it is held. -/

namespace Sys2Proof.Machine
open Sys2Proof Reg

/-- PWM_STAT of an axis as read (R17, R119, R123, R124, R130). -/
def Dev.viewPwmStat (d : Dev) (a : Nat) : Word :=
  let flt := d.get ⟨PWM_FLT a, 0, 8⟩ ≠ 0
  let off := (List.range 3).all fun x => d.phaseMode a x = 0 || 6 ≤ d.phaseMode a x
  let b := fun (c : Bool) (n : Nat) => if c then 2 ^ n else 0
  w32 (d.get (PWM_STAT_BSREFS a) * 256 + b (!d.present (a / 4)) 7 + b (d.on (PWM_STAT_LDLOST a)) 6
    + b (d.on (PWM_STAT_PERCLIP a)) 5 + b (d.bridging a d.now).isSome 4 + b (d.axSt (d.lowest a)).split 3
    + b (d.ldPend a) 2 + b (flt || off) 1 + b flt 0)

/-- A result register as read: AGE at the moment of the read, ABSENT and value 0 without an accepted cartridge, the
entry's channel before the first result (R17, R138). -/
def Dev.viewResult (d : Dev) (q addr ch : Nat) : Word :=
  let w := d.reg addr
  let age := match tget none d.stamp addr with
    | some t => min 127 ((d.now - t) / 10)
    | none => 127
  let w := wordPut w 20 7 age
  let w := if (tget none d.stamp addr).isNone then wordPut w 14 6 ch else w
  if d.present q then w else wordPut (wordPut w 31 1 1) 0 14 0

/-- A cluster register as read. -/
def Dev.viewAc (d : Dev) (q off addr : Nat) : Word :=
  let x := if 0x300 ≤ off then 1 else 0
  let o := off - 0x200 * x
  if off = 4 then wordPut (d.reg addr) 15 1 (if d.present q then 0 else 1)
  else if 0x120 ≤ o && o < 0x138 && off < 0x500 then d.viewResult q addr (hkChannel x ((o - 0x120) / 4))
  else if 0x1C0 ≤ o && o < 0x240 && off < 0x500 then d.viewResult q addr (d.get (AC_SEQ_CH q x ((o - 0x1C0) / 4)))
  else if 0x500 ≤ off && off < 0x580 then d.viewResult q addr (wordGet (d.reg addr) 14 6)
  else d.reg addr

/-- Thirty-two bits, bit n from a property of axis base + n. -/
def bitsFrom (base : Nat) (f : Nat → Bool) : Word := w32 (maskOf ((List.range 32).filter fun n => f (base + n)))

/-- A register of the axis, cluster and generator blocks as read. -/
def Dev.viewCore (d : Dev) (addr : Nat) : Word :=
  if 0x40100000 ≤ addr && addr < 0x40110000 then d.viewAc ((addr - 0x40100000) / 0x1000) (addr % 0x1000) addr
  else if addr = PWM_LDPEND_LO then bitsFrom 0 d.ldPend
  else if addr = PWM_LDPEND_HI then bitsFrom 32 d.ldPend
  else if addr = PWM_FLTSUM_LO then bitsFrom 0 fun a => d.get ⟨PWM_FLT a, 0, 8⟩ ≠ 0
  else if addr = PWM_FLTSUM_HI then bitsFrom 32 fun a => d.get ⟨PWM_FLT a, 0, 8⟩ ≠ 0
  else if 0x40200000 ≤ addr && addr < 0x40210000 then
    let a := (addr - 0x40200000) / 0x400
    if addr % 0x400 = 0 then d.viewPwmStat a
    else if addr % 0x400 = 0xA0 then w32 (d.cnt a d.now)
    else d.reg addr
  else d.reg addr

end Sys2Proof.Machine
end

