-- ==== Sys2Proof/Machine/LoopRun.lean ====
section
/-! DEFINITION. One run of a loop (R214 to R233, R236, R237): inputs, region, presets, outputs, supervision, commits, and
the runs of a proof. -/

namespace Sys2Proof.Machine
open Sys2Proof Reg

/-- Shared SRAM (R25). -/
def inSram (addr : Nat) : Bool := 0x10000000 ≤ addr && addr < 0x10400000

/-- The addresses an engine reaches (chapter 1, Who reaches what). -/
def leReach (e addr : Nat) : Bool :=
  inSram addr || (leBase e ≤ addr && addr < leBase e + 0x10000)
    || (0x40200000 + 0x2000 * e ≤ addr && addr < 0x40200000 + 0x2000 * (e + 1) && addr < 0x4020FF00)
    || (0x40300000 + 0x4000 * e ≤ addr && addr < 0x40300000 + 0x4000 * (e + 1))
    || (0x40100000 + 0x2000 * e ≤ addr && addr < 0x40100000 + 0x2000 * (e + 1))

/-- The read-clears bits of a register (R10). -/
def rcMask (addr : Nat) : Word := match rowAt addr with | some r => w32 r.rc | none => 0

/-- A word an engine reads: shared SRAM, a register with its read-clears, or a word of its memory; outside its reach the
spec states no value. -/
def engRead (e addr : Nat) (m : List Host.Cell) (d : Dev) : Nat × Dev :=
  let addr := addr / 4 * 4
  if !leReach e addr then
    let f := d.freeVal
    ((Config.freeWord f.1).toNat, f.2)
  else if inSram addr then (memRead m addr 4, d)
  else
    let w := d.viewCore addr
    let rc := rcMask addr
    (w.toNat, if rc = 0 then d else d.setReg addr (d.reg addr &&& ~~~rc))

/-! State memory. -/

/-- The state memory of a loop (R213 to R229). -/
def stBase (e k : Nat) : Nat := leBase e + 0x1000 + 0x80 * k

/-- The state memory of the running proof. -/
def proofBase (e : Nat) : Nat := leBase e + 0x1C00

/-- A signed word at an address. -/
def Dev.sword (d : Dev) (addr : Nat) : Int := sx 32 (d.reg addr).toNat

/-- The state held in a state memory; in fixed point the integrators are 64-bit. -/
def Dev.lawState (d : Dev) (base : Nat) (block : Bool) : LawState :=
  let ex := (d.reg (base + 0x60)).toNat
  { x := (List.range 8).map fun i => d.sword (base + 4 * i)
    z := (List.range 2).map fun i =>
      if block then d.sword (base + 0x20 + 8 * i)
      else sx 64 ((d.reg (base + 0x20 + 8 * i)).toNat + 2 ^ 32 * (d.reg (base + 0x24 + 8 * i)).toNat)
    ex := sx 8 ex, ez := sx 8 (ex / 256) }

/-- Write a list of words from an address upwards. -/
def putWords (addr : Nat) (l : List Int) (d : Dev) : Dev :=
  d.each ((List.range l.length).map fun i => (addr + 4 * i, l.getD i 0)) fun x d => d.setReg x.1 (w32i x.2)

/-- Write a state back to a state memory. -/
def putLawState (base : Nat) (block : Bool) (s : LawState) (d : Dev) : Dev :=
  let d := putWords base s.x d
  let d := d.each [0, 1] fun i d =>
    let z := el s.z i
    (d.setReg (base + 0x20 + 8 * i) (w32i z)).setReg (base + 0x24 + 8 * i) (if block then 0 else w32i (z / 2 ^ 32))
  d.setReg (base + 0x60) (if block then w32 (ux 8 s.ex + 256 * ux 8 s.ez) else 0)

/-! The program. -/

/-- The first word of a coefficient record. -/
def recBase (e b r : Nat) : Nat := bankBase e b + 0x1000 + 0x400 * r

/-- A byte of the engine's memory. -/
def Dev.byteAt (d : Dev) (addr : Nat) : Nat := wordGet (d.reg (addr / 4 * 4)) (8 * (addr % 4)) 8

/-- The program of a loop in a bank with a record. -/
def Dev.lawOf (d : Dev) (e b k r : Nat) : Law :=
  let rb := recBase e b r
  let bf := d.loopBf e b k
  let man := fun (i : Nat) =>
    let w := (d.reg (rb + 4 * i)).toNat
    if bf then sx 24 w else sx 32 w
  { n := d.loopN e b k, p := d.loopP e b k, m := d.loopM e b k, block := bf
    coef := (List.range 167).map fun i => ⟨man i, if bf then 0 else sx 6 (d.byteAt (rb + 0x2A0 + i))⟩
    exps := if bf then (List.range 8).map fun i => sx 8 (d.byteAt (rb + 0x2A0 + i)) else []
    umin := [d.sword (rb + 0x350), d.sword (rb + 0x358)], umax := [d.sword (rb + 0x354), d.sword (rb + 0x35C)]
    zmin := [d.sword (rb + 0x360), d.sword (rb + 0x368)], zmax := [d.sword (rb + 0x364), d.sword (rb + 0x36C)]
    iy := [d.descF e b k 0x50 16 4, d.descF e b k 0x50 20 4]
    rth := [d.descF e b k 0x48 0 16, d.descF e b k 0x48 16 16, d.descF e b k 0x4C 0 16, d.descF e b k 0x4C 16 16] }

/-! Inputs (R215, R216, R226). -/

/-- The loop and output an address of a LOOPOUT measurement or reference names (R215, R216). -/
def outputAt (e addr : Nat) : Option (Nat × Nat) :=
  let o := addr - leBase e
  if leBase e + 0x1000 ≤ addr && o < 0x1C00 && (o % 0x80 = 0x30 || o % 0x80 = 0x34) then
    some ((o - 0x1000) / 0x80, (o % 0x80 - 0x30) / 4)
  else none

/-- What reading one measurement yields: value, validity, sampling instant of a RESULT. -/
structure Meas where
  v : Int
  ok : Bool
  ts : Option Nat := none
  deriving DecidableEq, Repr

/-- Read a measurement of a program (R215). -/
def readMeas (e b k j : Nat) (m : List Host.Cell) (d : Dev) : Meas × Dev :=
  let addr := d.desc e b k (0x30 + 4 * j)
  let a := 8 * e + k
  match d.descF e b k 0x40 (4 * j) 4 with
  | 1 =>
    let r := engRead e addr m d
    let w := w32 r.1
    let ok := wordGet w 30 2 = 0 && wordGet w 20 7 ≤ d.descF e b k 0x44 (8 * j) 8
    ({ v := resultValue w, ok := ok, ts := tget none d.stamp (addr / 4 * 4) }, r.2)
  | 2 =>
    if k < 8 then ({ v := sx 32 (d.reg (CU_SPEED a)).toNat, ok := !d.on (CU_STAT_STALE a) }, d)
    else
      let f := d.freeVal
      ({ v := Config.freeInt f.1, ok := false }, f.2)
  | 3 =>
    let r := engRead e addr m d
    let v := r.1 / 2 ^ (8 * d.descF e b k 0x40 (16 + 2 * j) 2) % 256
    ({ v := v, ok := v ≠ 0 }, r.2)
  | 4 =>
    let r := engRead e addr m d
    let ok := match outputAt e addr with | some (l, _) => (d.loopOf e l).delivered | none => false
    ({ v := sx 32 r.1, ok := ok }, r.2)
  | _ =>
    let r := engRead e addr m d
    ({ v := sx 32 r.1, ok := true }, r.2)

/-- Read the measurements of a program. -/
def readAll (e b k : Nat) (m : List Host.Cell) (d : Dev) : List Meas × Dev :=
  (List.range (d.loopP e b k)).foldl (fun s j => let r := readMeas e b k j m s.2; (s.1 ++ [r.1], r.2)) ([], d)

/-- The reference of a program (R216); in DECEL the one named by RSPD is CU_DECREF. -/
def readRef (e b k i : Nat) (m : List Host.Cell) (d : Dev) : Int × Dev :=
  let a := 8 * e + k
  if k < 8 && d.axSt a = .decel && d.descF e b k 0 16 2 = i + 1 then (sx 32 (d.reg (CU_DECREF a)).toNat, d)
  else
    let src := d.descF e b k 0x54 (2 * i) 2
    if src = 1 || src = 2 then
      let r := engRead e (d.desc e b k (0x58 + 4 * i)) m d
      (sx 32 r.1, r.2)
    else (el (d.loopOf e k).refs i, d)

/-- The references of a program. -/
def readRefs (e b k : Nat) (m : List Host.Cell) (d : Dev) : List Int × Dev :=
  (List.range (d.loopM e b k)).foldl (fun s i => let r := readRef e b k i m s.2; (s.1 ++ [r.1], r.2)) ([], d)

/-- The scheduling variable of a program (R226). `base`: the state memory its SVIDX speaks of. -/
def Dev.schedVar (d : Dev) (e b k base : Nat) : Int :=
  let a := 8 * e + k
  let v : Int := match d.descF e b k 4 0 3 with
    | 1 => if k < 8 then sx 32 (d.reg (CU_SPEED a)).toNat else 0
    | 2 =>
      let s := d.lawState base (d.loopBf e b k)
      let i := d.descF e b k 4 4 4 % 8
      if d.loopBf e b k then satS 32 (scale2 (el s.x i) s.ex) else el s.x i
    | 3 => d.get PSE_VLINK_VLINK
    | 4 => d.getS PSE_TBASE_TBASE
    | 5 => if k < 8 then d.get (CSL_NTC_TEMP (a / 4) (a % 4)) else 0
    | _ => 0
  if d.descF e b k 4 3 1 = 1 then v.natAbs else v

/-- Move up over boundaries (R226). -/
def regionUp (bnd : Nat → Int) (sv hys : Int) : List Nat → Nat → Nat
  | [], r => r
  | n :: t, r => if n ≤ r then regionUp bnd sv hys t r
    else if sv ≥ bnd n + hys then regionUp bnd sv hys t n else r

/-- Move down over boundaries; the list descends (R226). -/
def regionDown (bnd : Nat → Int) (sv hys : Int) : List Nat → Nat → Nat
  | [], r => r
  | p :: t, r => if r ≤ p then regionDown bnd sv hys t r
    else if sv < bnd r - hys then regionDown bnd sv hys t p else r

/-- The region of a run (R226): from the present region of the class, or from its lowest after a change of class. -/
def Dev.pickRegion (d : Dev) (e b k cls cur : Nat) (fresh : Bool) (sv : Int) : Nat :=
  let l := d.regionsOf e b k cls
  let low := (l.head?).getD 0
  let src := d.descF e b k 4 0 3
  if src = 0 || 6 ≤ src then low
  else
    let bnd := fun (i : Nat) => if i = 0 then 0 else d.sword (bankBase e b + 0x200 + 0x80 * k + 0x0C + 4 * (i - 1))
    let hys := d.sword (bankBase e b + 0x200 + 0x80 * k + 8)
    let r0 := if fresh || !(cur ∈ l) then low else cur
    regionDown bnd sv hys l.reverse (regionUp bnd sv hys l r0)

/-! Outputs and presets (R217, R227, R228). -/

/-- The destination of output `i` in a class (R217). -/
def Dev.dest (d : Dev) (e b k cls i : Nat) : Nat := d.descF e b k 0x60 (8 * (2 * cls + i)) 8

/-- The key of an output's destination among the last values delivered (R228). -/
def Dev.destKey (d : Dev) (e b k cls i : Nat) : Nat :=
  let c := d.dest e b k cls i
  if c = 0 then i else if 5 ≤ c then c * 2 ^ 32 + d.desc e b k (0x64 + 4 * i) else c * 2 ^ 32

/-- The previous output a preset uses (R228). -/
def Dev.uPrev (d : Dev) (e b k cls i : Nat) : Int :=
  let l := d.loopOf e k
  let last := tget 0 l.last (d.destKey e b k cls i)
  let asLeft := sx 32 (d.reg (CU_TREF (8 * e + k))).toNat
  match d.dest e b k cls i, l.preset with
  | 1, .values v _ => v
  | 2, .values v _ => v
  | 3, .values _ (some v) => v
  | 3, _ => asLeft
  | _, _ => last

/-- Do something at a later instant of device time. -/
def Dev.after (d : Dev) (n : Nat) (f : Dev → Dev) : Dev :=
  let t := d.now
  { f { d with now := t + n } with now := t }

/-- Whether an engine may write a word of shared SRAM: inside the window LE must be 1 and the segment not FREE (R358). -/
def Dev.leWindowOk (d : Dev) (addr : Nat) : Bool :=
  if addr < 0x103C0000 then true
  else
    let n := (addr - 0x103C0000) / 0x1000
    d.on (SWC_SEG_LE n) && d.get (SWC_SEG_OWN n) ≠ 0

/-- Words a run writes to shared SRAM. -/
abbrev Writes := List (Nat × Nat)

/-- Deliver output `i` two cycles after its computation cycle (R217, R223). -/
def deliver (e b k cls i : Nat) (v : Int) (s : Dev × Writes) : Dev × Writes :=
  let d := s.1
  let a := 8 * e + k
  let n := d.outc e b k + 2
  let key := d.destKey e b k cls i
  let d := d.onLoop e k fun l => { l with last := tset 0 l.last key v }
  let cmp := fun (r : Nat) => (d.after n (writeShadow a r (w32 (ux 16 v)))).after (n + 1) (loadAll a)
  match d.dest e b k cls i with
  | 1 => (cmp (PWM_CMPU a), s.2)
  | 2 => (cmp (PWM_CMPD a), s.2)
  | 3 => (d.after n (writeTref a (w32i v)), s.2)
  | 4 => (d.setReg (CU_PSIREF a) (w32i v), s.2)
  | 5 =>
    let addr := d.desc e b k (0x64 + 4 * i) / 4 * 4
    if !inSram addr then (d, s.2)
    else if d.leWindowOk addr then (d, s.2 ++ [(addr, ux 32 v)])
    else (d.put SWC_STAT_LEDROP 1, s.2)
  | 6 =>
    let w := d.desc e b k (0x64 + 4 * i)
    if w % 32 < 24 then
      (d.onLoop e (w % 32) fun l => { l with refs := if w / 256 % 2 = 0 then [v, el l.refs 1] else [el l.refs 0, v] }, s.2)
    else (d, s.2)
  | _ => (d, s.2)

/-! Supervision (R230 to R233). -/

/-- A loop holds (R232): manual mode at its last outputs. -/
def holdLoop (e k : Nat) (d : Dev) : Dev :=
  let d := ((d.put (LE_LCTL_AUTO e k) 0).put (LE_LSTAT_HOLD e k) 1)
  (d.setReg (LE_MAN0 e k) (d.reg (stBase e k + 0x30))).setReg (LE_MAN1 e k) (d.reg (stBase e k + 0x34))

/-- The FAULT reaction (R232): the axis faults with LOOP, or the process loop stops. -/
def faultLoop (e k : Nat) (d : Dev) : Dev :=
  if k < 8 then faultDrive (8 * e + k) 15 0 d
  else (d.onLoop e k fun l => { l with stop := true, delivered := false }).put (LE_LSTAT_HOLD e k) 1

/-- A finding takes its reaction (R232). -/
def react (e k sub : Nat) (d : Dev) : Dev :=
  let d := d.put (LE_LSTAT_SUB e k) sub
  let d := if d.descF e (d.formeBank e k) k 0 28 2 = 0 then d else loopAbort e k d
  match d.descF e (d.formeBank e k) k 0 28 2 with
  | 0 => d
  | 1 => holdLoop e k d
  | _ => faultLoop e k d

/-- The event of an implausible loop (R230). -/
def implEvent (e k : Nat) (d : Dev) : Dev := if k < 8 then raiseAx (8 * e + k) 9 d else raiseLe e 0 d

/-- An uncorrectable error in a word a run reads (R233). -/
def memError (e k off : Nat) (d : Dev) : Dev :=
  let d := (d.put (LE_STAT_MEMADDR e) off).put (LE_LSTAT_SUB e k) 3
  raiseLe e 2 (loopAbort e k <| faultLoop e k (d.onLoop e k fun l => { l with memStop := true, delivered := false }))

/-- Count saturations (R218, R220, R240). -/
def countSat (e k n : Nat) (d : Dev) : Dev :=
  if n = 0 then d
  else
    let d := d.bump (LE_LSTAT_SATCNT e k) n
    let f := (d.engOf e).frameNo
    if (d.engOf e).satFrame = some f then d
    else raiseLe e 1 (d.onEng e fun g => { g with satFrame := some f })

/-- The consecutive count of one measurement (R230): it restarts at a finding and on a run within the threshold, and stands
still on an invalid run. -/
def implStep (rn : Nat) (beyond ok : Bool) (c : Nat) : Nat × Bool :=
  if !ok then (c, false)
  else if beyond then (if max 1 rn ≤ c + 1 then (0, true) else (c + 1, false))
  else (0, false)

/-- The counts of R230 for four measurements, and the mask of findings. -/
def implCounts (rn : Nat) (beyond ok : List Bool) (c : List Nat) : List Nat × Nat :=
  let r := (List.range 4).map fun j => implStep rn (beyond.getD j false) (ok.getD j false) (c.getD j 0)
  (r.map (·.1), maskOf ((List.range 4).filter fun j => (r.getD j (0, false)).2))

/-! Commits (R237). -/

/-- A requested commit of a loop at the start of its run: the switch, or CMTERR (R237). -/
def commitLoop (e k len : Nat) (d : Dev) : Dev :=
  let b := d.formeBank e k
  let clr := fun (m : Nat) => m &&& (2 ^ 24 - 1 - 2 ^ k)
  let d := d.onEng e fun g => { g with
    commits := clr g.commits, pealMask := if g.pealAt ≤ d.now then clr g.pealMask else g.pealMask }
  if (d.get (LE_PROVED_PROVED e)).testBit k && d.cyc e (1 - b) k ≤ len then
    let d := (d.put (LE_BANK_BANK e) (d.get (LE_BANK_BANK e) ^^^ 2 ^ k)).put (LE_PROVED_PROVED e)
      (clr (d.get (LE_PROVED_PROVED e)))
    let bf := d.loopBf e (1 - b) k
    let d := if d.get (LE_PROOFRES_LOOP e) = k && d.get (LE_PROOFRES_RES e) = 1 then
        putLawState (stBase e k) bf (d.lawState (proofBase e) bf) d
      else d
    raiseLe e 3 (d.onLoop e k fun l => { l with
      memStop := false, preset := if l.preset = .none_ then .last else l.preset })
  else (d.put (LE_STAT_CMTERR e) 1).put (LE_STAT_CMTLOOP e) k

/-- A commit of the loop is due at a run that starts now (R111, R237). -/
def Dev.commitDue (d : Dev) (e k : Nat) : Bool :=
  let g := d.engOf e
  g.commits.testBit k || (g.pealMask.testBit k && decide (g.pealAt ≤ d.now))

/-! The run. -/

/-- An axis loop's axis is in one of the active states (R228); process loops always are. -/
def Dev.runActive (d : Dev) (e k : Nat) : Bool :=
  let st := d.axSt (8 * e + k)
  8 ≤ k || st = .sixstep || st = .handover || st = .dtc || st = .decel

/-- The class of a run (R217). -/
def Dev.runClass (d : Dev) (e k : Nat) : Nat := if k < 8 then d.axClass (8 * e + k) else 0

/-- The axis enters an active state (R228): x̂ is 0, a seeded state takes rha(SEEDK × CU_SPEED), a preset is due. -/
def seedLoop (e b k : Nat) (law : Law) (d : Dev) : Dev :=
  let base := stBase e k
  let sx' := d.descF e b k 0 24 4
  let spd := sx 32 (d.reg (CU_SPEED (8 * e + k))).toNat
  let r := fixOut (fixRow 0 [(law.c 166, spd)])
  let d := putWords base ((List.range 8).map fun i => if i = sx' then r.1 else 0) d
  let d := if law.block then d.setReg (base + 0x60) (wordPut (d.reg (base + 0x60)) 0 8 (ux 8 (-128))) else d
  let d := if sx' < 8 then countSat e k r.2 d else d
  d.onLoop e k fun l => { l with wasActive := true, preset := if l.preset = .none_ then .last else l.preset }

/-- References committed before this run take effect (R216). -/
def takeRefs (e k : Nat) (d : Dev) : Dev :=
  d.onLoop e k fun l => match l.refGo with
    | some (t, v) => if t < d.now then { l with refGo := none, refs := v } else l
    | none => l

/-- The delay of a run from its oldest RESULT input, or from its start, to the arrival of its output (R225). -/
def putLat (e b k : Nat) (ms : List Meas) (d : Dev) : Dev :=
  let from_ := (ms.filterMap (·.ts)).foldl min d.now
  let lat := min 65535 (d.now + d.outc e b k + 2 - from_)
  (d.put (LE_LAT_LAST e k) lat).put (LE_LAT_MAX e k) (max lat (d.get (LE_LAT_MAX e k)))

/-- The body of a run of an active loop: its law, its deliveries, its record (R214 to R231). -/
def runBody (e b k : Nat) (m : List Host.Cell) (d : Dev) : Dev × Writes :=
  let cls := d.runClass e k
  let base := stBase e k
  let sv := d.schedVar e b k base
  let fresh := d.get (LE_LSTAT_CLASS e k) ≠ cls
  let reg := d.pickRegion e b k cls (d.get (LE_LSTAT_REGION e k)) fresh sv
  let law := d.lawOf e b k (d.regionRec e b k reg)
  let d := if 8 ≤ k || (d.loopOf e k).wasActive then d else seedLoop e b k law d
  let auto := d.on (LE_LCTL_AUTO e k)
  let change := fresh || reg ≠ d.get (LE_LSTAT_REGION e k) || (auto && !(d.loopOf e k).auto)
  let d := takeRefs e k (d.onLoop e k fun l => { l with
    sv := sv, auto := auto, preset := if change && l.preset = .none_ then .last else l.preset })
  let (ms, d) := readAll e b k m d
  let (rs, d) := readRefs e b k m d
  let inj := d.injections e k
  let ms := (List.range ms.length).map fun j => let x := ms.getD j ⟨0, false, none⟩; { x with v := satS 32 (x.v + injAt inj 3 j) }
  let rs := (List.range rs.length).map fun i => satS 32 (el rs i + injAt inj 1 i)
  let man := if auto then none else some [sx 32 (d.reg (LE_MAN0 e k)).toNat, sx 32 (d.reg (LE_MAN1 e k)).toNat]
  let prev := if (d.loopOf e k).preset = .none_ || !auto then none else some [d.uPrev e b k cls 0, d.uPrev e b k cls 1]
  let ok := ms.map (·.ok)
  let o := law.run (d.lawState base law.block)
    { y := ms.map (·.v), ok := ok, r := rs, man := man, prev := prev, drive := none, inj := [injAt inj 2 0, injAt inj 2 1] }
  let d := (d.put (LE_LSTAT_CLASS e k) cls).put (LE_LSTAT_REGION e k) reg
  let d := ((d.put (LE_LSTAT_NOCLASS e k) 0).put (LE_LSTAT_ACTIVE e k) (if k < 8 && d.loopActive (8 * e + k) then 1 else 0)).put
    (LE_LSTAT_INVAL e k) (maskOf ((List.range 4).filter fun j => j < law.p && !(ok.getD j true)))
  let d := if o.clip then d.put (LE_LSTAT_PRECLIP e k) 1 else d
  let d := countSat e k o.sat d
  let counted := (List.range 4).map fun j => ok.getD j false && !injMeas inj j
  let ic := implCounts (d.descF e b k 0x50 0 8) o.beyond counted (d.loopOf e k).implCnt
  let inv := (List.range 4).map fun j => if ok.getD j true then 0 else (d.loopOf e k).invCnt.getD j 0 + 1
  let late := inv.any fun c => d.descF e b k 0x50 8 8 < c
  let d := d.onLoop e k fun l => { l with
    preset := if auto then .none_ else l.preset, implCnt := ic.1, impl := l.impl ||| ic.2
    invCnt := if late then [0, 0, 0, 0] else inv, inval := l.inval || late, delivered := true
    ranAt := some d.now, inj := inj }
  let d := putLawState base law.block o.st d
  let d := putWords (base + 0x30) o.u d
  let d := putWords (base + 0x50) o.e (putWords (base + 0x40) (ms.map (·.v)) (putWords (base + 0x38) rs d))
  let t := w32 (d.now + d.outc e b k + 2)
  let d := d.setReg (LE_OUTTS e k) t
  let d := if law.m = 2 then d.setReg (base + 0x64) t else d
  (List.range law.m).foldl (fun s i => deliver e b k cls i (el o.u i) s) (putLat e b k ms d, [])

/-- A loop that does not deliver in its scheduled run. -/
def idleRun (e k : Nat) (act : Bool) (d : Dev) : Dev :=
  (d.onLoop e k fun l => { l with delivered := false, wasActive := l.wasActive && act }).put (LE_LSTAT_ACTIVE e k) 0

/-- A scheduled run of a loop (R213, R214, R226, R228, R233, R237, R239). `ecc`: the offset of a word the run reads that
has an uncorrectable error. -/
def loopRun (e k len : Nat) (ecc : Option Nat) (m : List Host.Cell) (d : Dev) : Dev × Writes :=
  if 24 ≤ k || (k < 8 && d.lowest (8 * e + k) ≠ 8 * e + k) then (d, [])
  else
    let d := if d.commitDue e k && ecc.isNone then commitLoop e k len d else d
    let b := d.formeBank e k
    let l := d.loopOf e k
    if !d.loopEn e b k || l.memStop || l.stop then (idleRun e k false d, [])
    else match ecc with
    | some off => (memError e k off d, [])
    | none =>
      if (d.regionsOf e b k (d.runClass e k)).length = 0 then
        ((idleRun e k true d).put (LE_LSTAT_NOCLASS e k) 1, [])
      else if !d.runActive e k then (idleRun e k false d, [])
      else runBody e b k m d

/-! Proof runs (R236). -/

/-- End a proof with its result (R236). -/
def proofEnd (e cause : Nat) (d : Dev) : Dev :=
  match (d.engOf e).proof with
  | none => d
  | some p =>
    let d := (d.onEng e fun g => { g with proof := none }).put (LE_STAT_PRFBUSY e) 0
    let d := ((d.put (LE_PROOFRES_RES e) (if cause = 0 then 1 else 2)).put (LE_PROOFRES_CAUSE e) cause).put
      (LE_PROOFRES_LOOP e) p.loop
    let d := if cause = 0 then d.put (LE_PROVED_PROVED e) (d.get (LE_PROVED_PROVED e) ||| 2 ^ p.loop) else d
    raiseLe e 3 d

/-- The proof's starting state: the forme's x̂ where the sizes are equal, else 0 (R236). -/
def proofStart (e k : Nat) (d : Dev) : Dev :=
  let f := d.formeBank e k
  let g := 1 - f
  let same := d.loopEn e f k && d.loopN e f k = d.loopN e g k && d.loopP e f k = d.loopP e g k
    && d.loopM e f k = d.loopM e g k && d.loopBf e f k = d.loopBf e g k
  let s := d.lawState (stBase e k) (d.loopBf e g k)
  putLawState (proofBase e) (d.loopBf e g k)
    (if same then s else { x := [0, 0, 0, 0, 0, 0, 0, 0], z := [0, 0] }) d

/-- One run of the proof entry (R236). -/
def proofRun (e : Nat) (ecc : Option Nat) (m : List Host.Cell) (d : Dev) : Dev :=
  match (d.engOf e).proof with
  | none => d
  | some p =>
    let k := p.loop
    let f := d.formeBank e k
    let g := 1 - f
    let put := fun (q : ProofH) (d : Dev) => d.onEng e fun h => { h with proof := some q }
    let cls := d.runClass e k
    if p.cause ≠ 0 || p.n ≤ p.done || (d.regionsOf e g k cls).length = 0 then d
    else match ecc with
    | some off => put { p with cause := 9, done := p.done + 1 } (d.put (LE_STAT_MEMADDR e) off)
    | none =>
      let d := if p.started then d else proofStart e k d
      let live := d.loopEn e f k
      let sv := if live then (d.loopOf e k).sv else d.schedVar e g k (proofBase e)
      let fresh := !p.started || p.cls ≠ cls
      let reg := d.pickRegion e g k cls p.reg fresh sv
      let law := d.lawOf e g k (d.regionRec e g k reg)
      let (own, d) := readAll e g k m d
      let (ownR, d) := readRefs e g k m d
      let had := d.loopP e f k
      let ms := (List.range law.p).map fun j =>
        if live && j < had then
          (⟨d.sword (stBase e k + 0x40 + 4 * j), !(d.get (LE_LSTAT_INVAL e k)).testBit j, none⟩ : Meas)
        else own.getD j ⟨0, false, none⟩
      let rs := (List.range law.m).map fun i =>
        if live && i < d.loopM e f k then d.sword (stBase e k + 0x38 + 4 * i) else el ownR i
      let uf := (List.range 2).map fun i => d.sword (stBase e k + 0x30 + 4 * i)
      let man := if d.on (LE_LCTL_AUTO e k) then none else some [d.sword (LE_MAN0 e k), d.sword (LE_MAN1 e k)]
      let prev := if man.isNone && (fresh || reg ≠ p.reg) then some uf else none
      let ok := ms.map (·.ok)
      let inj := (d.loopOf e k).inj
      let counted := (List.range 4).map fun j => ok.getD j false && !(live && injMeas inj j)
      let o := law.run (d.lawState (proofBase e) law.block)
        { y := ms.map (·.v), ok := ok, r := rs, man := man, prev := prev
          inj := if live then [injAt inj 2 0, injAt inj 2 1] else [0, 0]
          drive := if live && (d.loopOf e k).delivered then some uf else none }
      let ic := implCounts (d.descF e g k 0x50 0 8) o.beyond counted p.implCnt
      let diff := live && (List.range (min law.m (d.loopM e f k))).any fun i =>
        d.get (if i = 0 then LE_PDIFF_PDIFF0 e else LE_PDIFF_PDIFF1 e) < (el o.u i - el uf i).natAbs
      let cause := if o.sat ≠ 0 then 7 else if ic.2 ≠ 0 then 8 else if diff then 10 else 0
      let d := putLawState (proofBase e) law.block o.st (countSat e k o.sat d)
      let pb := proofBase e
      let d := putWords (pb + 0x50) o.e (putWords (pb + 0x40) (ms.map (·.v)) (putWords (pb + 0x38) rs
        (putWords (pb + 0x30) o.u d)))
      put { p with done := p.done + 1, started := true, cause := cause, implCnt := ic.1, cls := cls, reg := reg } d

end Sys2Proof.Machine
end

