-- ==== Sys2Proof/Machine/LoopEngine.lean ====
section
/-! DEFINITION. Commands of the loop engines (R213 to R240, R292). -/

namespace Sys2Proof.Machine
open Sys2Proof Reg

/-! Who writes what (R235, R238). -/

/-- The writers of a loop: its axis's host, or the pair named in LE_PLOWN, and the supervising pair; the debug access
writes as the supervising pair (R47, R238). -/
def Dev.loopRights (d : Dev) (m : Master) (e k : Nat) : Bool :=
  match m with
  | .debug => true
  | .pair p => d.sup = p ||
      (if k < 8 then d.host (8 * e + k) = p
       else if k < 16 then d.get (LE_PLOWN0_OWN e (k - 8)) = p else d.get (LE_PLOWN1_OWN e (k - 16)) = p)
  | _ => false

/-- The loop that owns a record: 24 to 255 none (R238). -/
def Dev.recOwner (d : Dev) (e r : Nat) : Nat := d.get (LE_RECOWN_OWN e (r / 4) (r % 4))

/-- The writers of a record (R238). -/
def Dev.recRights (d : Dev) (m : Master) (e r : Nat) : Bool :=
  if d.recOwner e r < 24 then d.loopRights m e (d.recOwner e r) else d.supRights m

/-- Whether a pair reaches an engine block at all: the supervising pair, and each pair that hosts one of its axes (R21). -/
def Dev.engineRights (d : Dev) (m : Master) (e : Nat) : Bool :=
  match m with
  | .debug => true
  | .pair p => d.sup = p || (List.range 8).any fun k => d.host (8 * e + k) = p
  | _ => false

/-- Perform a write of an engine block, or refuse it with SUB 3 (R21) or SUB 6 (R238). -/
def asEngineWriter (m : Master) (e addr : Nat) (ok : Bool) (f : Dev → Dev) (d : Dev) : Dev :=
  if !d.engineRights m e then busError m 3 addr true d
  else if ok then f d
  else busError m 6 addr true d

/-- The loop a word of a bank belongs to: its descriptor's, or the owner of its record (R235). -/
def Dev.bankLoop (d : Dev) (e off : Nat) : Nat :=
  if off < 0x200 then 24 else if off < 0xE00 then (off - 0x200) / 0x80 else d.recOwner e ((off - 0x1000) / 0x400)

/-- A word of a bank exists at this offset. -/
def bankWord (off : Nat) : Bool := off % 4 = 0 && (off < 0xE00 || (0x1000 ≤ off && off < 0x7000))

/-- Whether a writer may write a word of a bank (R235, R238). -/
def Dev.bankRights (d : Dev) (m : Master) (e b off : Nat) : Bool :=
  if off < 0x200 then
    d.supRights m && (d.get (LE_CTL_SCHBANK e) ≠ b || !d.on (LE_CTL_EN e))
  else
    let k := d.bankLoop e off
    let free := 24 ≤ k || d.formeBank e k ≠ b || !d.loopEn e b k
    free && (if off < 0xE00 then d.loopRights m e k else d.recRights m e ((off - 0x1000) / 0x400))

/-- Store a word of a bank; a write to a loop's galley clears PROVED and ends the loop's proof with WRITE (R235). -/
def writeBank (e b off : Nat) (w : Word) (d : Dev) : Dev :=
  let k := d.bankLoop e off
  let d := d.setReg (bankBase e b + off) w
  if off < 0x200 || 24 ≤ k || d.formeBank e k = b then d
  else
    let d := d.put (LE_PROVED_PROVED e) (d.get (LE_PROVED_PROVED e) &&& (2 ^ 24 - 1 - 2 ^ k))
    match (d.engOf e).proof with
    | some p => if p.loop = k then proofEnd e 11 d else d
    | none => d

/-- GALLEY_WRITE (R235): a write of word `i` of a bank. -/
def execGalleyWrite (m : Master) (e : Fin 8) (b : Fin 2) (i : Fin 7168) (w : Word) : State → Out :=
  onDev fun d =>
    let off := 4 * i.val
    if bankWord off then
      asEngineWriter m e (bankBase e b + off) (d.bankRights m e b off) (writeBank e b off w) d
    else d

/-! Schedule (R222, R224, R237). -/

/-- Two entries never share cycles, or are told apart by their phases (R224). -/
def entriesApart (a b : SchedEntry) : Bool :=
  decide (a.start + a.len ≤ b.start) || decide (b.start + b.len ≤ a.start) || (a.div = b.div && a.ph ≠ b.ph)

/-- Every pair of a list satisfies a relation. -/
def allPairs (r : SchedEntry → SchedEntry → Bool) : List SchedEntry → Bool
  | [] => true
  | x :: t => t.all (r x) && allPairs r t

/-- The first failing check of a schedule, 0 for none (R224). -/
def Dev.schedErr (d : Dev) (e b : Nat) : Nat :=
  let l := d.schedule e b
  let len := d.get (LE_FRAME_LEN e)
  if !l.all (fun x => 32 ≤ x.start && x.start + x.len ≤ len) then 1
  else if !allPairs entriesApart l then 2
  else if !l.all (fun x =>
      if x.kind = 1 then decide (24 ≤ x.loop) || decide (d.cyc e (d.formeBank e x.loop) x.loop ≤ x.len)
      else match (d.engOf e).proof with
        | some p => decide (d.cyc e (1 - d.formeBank e p.loop) p.loop ≤ x.len)
        | none => true) then 3
  else if !(l.all (fun x => x.ph < x.div) && (List.range 24).all (fun k =>
      !d.loopEn e (d.formeBank e k) k || (l.filter fun x => x.kind = 1 && x.loop = k).length = 1)) then 4
  else 0

/-- Write LE_CTL.EN (R224): setting it checks the schedule in force; clearing it stops the engine. -/
def setEngine (e : Nat) (on : Bool) (d : Dev) : Dev :=
  if on then
    let c := d.schedErr e (d.get (LE_CTL_SCHBANK e))
    let d := d.put (LE_STAT_SCHERR e) c
    if c = 0 then (d.put (LE_CTL_EN e) 1).put (LE_STAT_RUN e) 1 else d
  else (d.put (LE_CTL_EN e) 0).put (LE_STAT_RUN e) 0

/-- ENGINE_ENABLE (R224): a write of LE_CTL. -/
def execEngineEnable (m : Master) (e : Fin 8) (on : Bool) : State → Out :=
  onDev fun d => asEngineWriter m e (LE_CTL e) (d.supRights m) (setEngine e on) d

/-- Check the galley schedule and take it up at the next frame start (R237). -/
def commitSchedule (e : Nat) (d : Dev) : Dev :=
  let c := d.schedErr e (1 - d.get (LE_CTL_SCHBANK e))
  let d := d.put (LE_STAT_SCHERR e) c
  if c = 0 then d.onEng e fun g => { g with schPend := true } else d

/-- SCHEDULE_COMMIT (R224, R237): a write of LE_SCHCMT. -/
def execScheduleCommit (m : Master) (e : Fin 8) (go : Bool) : State → Out :=
  onDev fun d => asEngineWriter m e (LE_SCHCMT e) (d.supRights m) (fun d => if go then commitSchedule e d else d) d

/-- A frame of the settings in force starts now (R222). -/
def Dev.frameStart (d : Dev) (e : Nat) : Bool :=
  let g := d.engOf e
  d.on (LE_STAT_RUN e) && d.timeOn && (d.now + g.len - g.ofs % g.len) % g.len = 0

/-- FRAME_START (R222, R237). -/
def execFrameStart (e : Fin 8) : State → Out :=
  onDev fun d =>
    if d.frameStart e then
      let g := d.engOf e
      let flip := g.schPend
      let d := d.onEng e fun g => { g with
        frameAt := d.now, frameNo := (d.now - g.ofs % g.len) / g.len, len := d.get (LE_FRAME_LEN e), ofs := d.get (LE_FOFS_OFS e), schPend := false }
      if flip then raiseLe e 3 (d.put (LE_CTL_SCHBANK e) (1 - d.get (LE_CTL_SCHBANK e))) else d
    else d

/-- An entry of the schedule in force runs now (R222). -/
def Dev.entryNow (d : Dev) (e i : Nat) : Bool :=
  let g := d.engOf e
  let x := d.schedEntry e (d.get (LE_CTL_SCHBANK e)) i
  d.sys.logicOn && d.on (LE_STAT_RUN e) && d.now = g.frameAt + x.start && g.frameNo % x.div = x.ph

/-- LOOP_RUN (R214, R222): entry `i` of the schedule in force runs its loop, or a run of the proof. `ecc`: the offset of a
word the run reads that has an uncorrectable error (R233). -/
def execLoopRun (e : Fin 8) (i : Fin 64) (ecc : Option (Fin 65536)) (s : State) : Out :=
  let d := s.dev
  let x := d.schedEntry e (d.get (LE_CTL_SCHBANK e)) i
  let bad := ecc.map Fin.val
  if !d.entryNow e i then .next s
  else if x.kind = 1 then
    let r := loopRun e x.loop x.len bad s.mem d
    .next { s with dev := r.1, mem := r.2.foldl (fun m w => memWrite m w.1 4 w.2) s.mem }
  else if x.kind = 2 then .next { s with dev := proofRun e bad s.mem d }
  else .next s

/-! Findings (R230, R231). -/

/-- IMPLAUSIBLE (R230, R232): a residual beyond its threshold for RN runs. -/
def execImplausible (e : Fin 8) (k : Fin 24) : State → Out :=
  onDev fun d =>
    let l := d.loopOf e k
    if l.impl = 0 then d
    else
      let d := d.onLoop e k fun l => { l with impl := 0 }
      react e k 1 (implEvent e k (d.put (LE_LSTAT_RESID e k) (d.get (LE_LSTAT_RESID e k) ||| l.impl)))

/-- INVALID_TOO_LONG (R231, R232): a measurement invalid for more than INVN runs. -/
def execInvalidTooLong (e : Fin 8) (k : Fin 24) : State → Out :=
  onDev fun d =>
    if (d.loopOf e k).inval then react e k 2 (implEvent e k (d.onLoop e k fun l => { l with inval := false })) else d

/-! Sharing trims (R234). -/

/-- The sense of a drive for its sharing trims: +1 while it drives the motors, −1 while it regenerates; at rest the rule
states neither. -/
def trimSense (a : Nat) (d : Dev) : Int × Dev :=
  let st := d.axSt a
  let t := sx 32 (d.reg (CU_TEST a)).toNat
  let w := sx 32 (d.reg (CU_SPEED a)).toNat
  if st = .dtc || (st = .decel && (d.dtcOf a).fromDtc) then
    if t * w > 0 then (1, d)
    else if t * w < 0 then (-1, d)
    else
      let f := d.freeVal
      (if (Config.freeWord f.1).toNat % 2 = 0 then 1 else -1, f.2)
  else (if st = .decel then -1 else 1, d)

/-- New trims of a bonded drive (R234). -/
def shareTrims (e a : Nat) (d : Dev) : Dev :=
  let ms := d.members a
  let ksh : Int := d.get (LE_BOND_KSH e)
  if ksh = 0 || ms.length = 1 || d.lowest a ≠ a then d
  else
    let (s, d) := trimSense a d
    let st := d.axSt a
    let direct := (st = .dtc || (st = .decel && (d.dtcOf a).fromDtc)) && !d.duty a
    let tmax : Int := if direct then min 63 (d.get (LE_BOND_TMAX e)) else d.get (LE_BOND_TMAX e)
    let raw := ms.map fun j => d.getS (PWM_BTRIM_TRIM j) + s * rha (ksh * (128 - d.get (CU_BSHARE_SH a (j % 4)))) 128
    let c := rha (raw.foldl (· + ·) 0) ms.length
    let d := d.each ((List.range ms.length).map fun i => (ms.getD i 0, raw.getD i 0)) fun x d =>
      writeShadow x.1 (PWM_BTRIM x.1) (w32 (ux 12 (clampI (-tmax) tmax (x.2 - c)))) d
    loadAll a d

/-- SHARE_TRIM_UPDATE (R222, R234): in the reserved cycles of the first frame after an update of CU_BSHARE. -/
def execShareTrimUpdate (e : Fin 8) : State → Out :=
  onDev fun d =>
    let g := d.engOf e
    if d.on (LE_STAT_RUN e) && g.frameAt ≤ d.now && d.now < g.frameAt + 32 then
      (d.each g.shares fun a d => shareTrims e a d).onEng e fun g => { g with shares := [] }
    else d

/-! Loop commits and proofs (R236, R237). -/

/-- LOOP_COMMIT (R237): a write of LE_COMMIT; the loops switch, or CMTERR tells why not, at their next run. -/
def execLoopCommit (m : Master) (e : Fin 8) (loops : Fin 16777216) : State → Out :=
  onDev fun d =>
    let ls := (List.range 24).filter fun k => loops.val.testBit k
    asEngineWriter m e (LE_COMMIT e) (ls.all (d.loopRights m e))
      (fun d => d.onEng e fun g => { g with commits := g.commits ||| loops.val }) d

/-- The galley descriptor breaks R213 (R236). -/
def Dev.badFormat (d : Dev) (e b k : Nat) : Bool :=
  let n := d.descF e b k 0 0 4
  let p := d.descF e b k 0 4 3
  let m := d.descF e b k 0 8 2
  !(1 ≤ n && n ≤ 8 && 1 ≤ p && p ≤ 4 && 1 ≤ m && m ≤ 2) || (k < 8 && d.loopBf e b k)

/-- The galley descriptor names an address or a destination its engine or loop does not have (R215, R217, R236). -/
def Dev.badAddress (d : Dev) (e b k : Nat) : Bool :=
  (List.range (d.loopP e b k)).any (fun j =>
    let kind := d.descF e b k 0x40 (4 * j) 4
    let a := d.desc e b k (0x30 + 4 * j)
    if kind = 2 then decide (8 ≤ k)
    else !leReach e a || (kind = 4 && (outputAt e a).isNone))
  || [0, 1].any (fun c => (List.range (d.loopM e b k)).any fun i =>
    let x := d.dest e b k c i
    decide (6 < x) || (decide (8 ≤ k) && decide (1 ≤ x) && decide (x ≤ 4))
      || (x = 5 && !inSram (d.desc e b k (0x64 + 4 * i))))

/-- Boundaries of a list of regions rise by more than 2 × HYS (R226). -/
def risesBy (bnd : Nat → Int) (hys : Int) : List Nat → Bool
  | a :: b :: t => decide (bnd b - bnd a > 2 * hys) && risesBy bnd hys (b :: t)
  | _ => true

/-- The galley descriptor breaks R226 (R236). The lowest region of a class has no lower boundary. -/
def Dev.badRegion (d : Dev) (e b k : Nat) : Bool :=
  let bnd := fun (i : Nat) => if i = 0 then 0 else d.sword (bankBase e b + 0x200 + 0x80 * k + 0x0C + 4 * (i - 1))
  let hys := d.sword (bankBase e b + 0x200 + 0x80 * k + 8)
  !(risesBy bnd hys ((d.regionsOf e b k 0).drop 1) && risesBy bnd hys ((d.regionsOf e b k 1).drop 1))
    || (8 ≤ k && (d.regionsOf e b k 1).length ≠ 0)

/-- The galley descriptor names a record owned by another loop (R236). -/
def Dev.badOwner (d : Dev) (e b k : Nat) : Bool :=
  (List.range (d.nreg e b k)).any fun r =>
    let c := d.regionRec e b k r
    c < 24 && d.recOwner e c < 24 && d.recOwner e c ≠ k

/-- Why a proof of a loop is refused, 0 for not (R236). -/
def Dev.proofRefusal (d : Dev) (e k : Nat) : Nat :=
  let g := 1 - d.formeBank e k
  if (d.engOf e).proof.isSome then 1
  else if !(d.schedule e (d.get (LE_CTL_SCHBANK e))).any (fun x => x.kind = 2 && d.cyc e g k ≤ x.len) then 2
  else if 24 ≤ k || d.badFormat e g k then 3
  else if d.badAddress e g k then 4
  else if d.badRegion e g k then 5
  else if d.badOwner e g k then 6
  else 0

/-- Start a proof, or refuse it with its cause (R236). -/
def startProof (e k n : Nat) (d : Dev) : Dev :=
  let c := d.proofRefusal e k
  if c ≠ 0 then
    ((d.put (LE_PROOFRES_RES e) 3).put (LE_PROOFRES_CAUSE e) c).put (LE_PROOFRES_LOOP e) k
  else
    (((d.put (LE_PROOFRES_RES e) 0).put (LE_PROOFRES_CAUSE e) 0).put (LE_PROOFRES_LOOP e) k).put (LE_STAT_PRFBUSY e) 1
      |>.onEng e fun g => { g with proof := some { loop := k, n := max 1 n } }

/-- PROOF_START (R236): a write of LE_PROOF. -/
def execProofStart (m : Master) (e : Fin 8) (go : Bool) (n : Fin 65536) (k : Fin 32) : State → Out :=
  onDev fun d =>
    asEngineWriter m e (LE_PROOF e) (d.loopRights m e k) (fun d =>
      let d := (d.put (LE_PROOF_N e) n).put (LE_PROOF_LOOP e) k
      if go then startProof e k n d else d) d

/-- PROOF_END (R236): all runs are done, or one has failed. -/
def execProofEnd (e : Fin 8) : State → Out :=
  onDev fun d =>
    match (d.engOf e).proof with
    | some p => if p.cause ≠ 0 || p.n ≤ p.done then proofEnd e p.cause d else d
    | none => d

/-! References and modes of a loop (R216, R229, R239). -/

/-- The staged references as they stood at the start of the present cycle (R239). -/
def Dev.stagedAtCycle (d : Dev) (e k : Nat) : List Int :=
  match (d.loopOf e k).refWr with
  | some (t, l) => if t = d.now then l else [d.sword (LE_REF0 e k), d.sword (LE_REF1 e k)]
  | none => [d.sword (LE_REF0 e k), d.sword (LE_REF1 e k)]

/-- Commit the staged references (R216): they take effect at the loop's first run that starts after this. A write of the
same cycle stays staged (R239). -/
def commitRefs (e k : Nat) (d : Dev) : Dev :=
  let v := d.stagedAtCycle e k
  let same := match (d.loopOf e k).refWr with | some (t, _) => decide (t = d.now) | none => false
  let d := d.onLoop e k fun l => { l with refGo := some (d.now, v) }
  if same then d else d.put (LE_LCTL_STAGED e k) 0

/-- Stage a reference (R216). -/
def stageRef (e k i : Nat) (w : Word) (d : Dev) : Dev :=
  let old := d.stagedAtCycle e k
  let d := d.onLoop e k fun l => { l with refWr := some (d.now, old) }
  (d.setReg (if i = 0 then LE_REF0 e k else LE_REF1 e k) w).put (LE_LCTL_STAGED e k) 1

/-- Stage a reference and commit it in a later cycle, as firmware does for a message (R379, R390). -/
def setRef (e k i : Nat) (w : Word) (d : Dev) : Dev :=
  commitRefs e k ((stageRef e k i w d).onLoop e k fun l => { l with refWr := none })

/-- Write LE_LCTL.AUTO (R229, R232): effective at the next run; a 1 also ends HOLD. -/
def writeAuto (e k : Nat) (on : Bool) (d : Dev) : Dev :=
  let d := d.put (LE_LCTL_AUTO e k) (if on then 1 else 0)
  if on then (d.put (LE_LSTAT_HOLD e k) 0).onLoop e k fun l => { l with stop := false } else d

/-- REFGO (R216): a write of LE_LCTL.REFGO. -/
def execRefgo (m : Master) (e : Fin 8) (k : Fin 24) : State → Out :=
  onDev fun d => asEngineWriter m e (LE_LCTL e k) (d.loopRights m e k) (commitRefs e k) d

/-- REF_STAGE (R216): a write of LE_REF. -/
def execRefStage (m : Master) (e : Fin 8) (k : Fin 24) (i : Fin 2) (w : Word) : State → Out :=
  onDev fun d => asEngineWriter m e (if i.val = 0 then LE_REF0 e k else LE_REF1 e k) (d.loopRights m e k)
    (stageRef e k i w) d

/-- AUTO_MANUAL (R229): a write of LE_LCTL.AUTO. -/
def execAutoManual (m : Master) (e : Fin 8) (k : Fin 24) (auto : Bool) : State → Out :=
  onDev fun d => asEngineWriter m e (LE_LCTL e k) (d.loopRights m e k) (writeAuto e k auto) d

/-! Events routed to an engine (R292). -/

/-- A loop that an ENGINE event finds held, not enabled or not scheduled (R292). -/
def Dev.engineDeaf (d : Dev) (e k : Nat) : Bool :=
  24 ≤ k || d.on (LE_LSTAT_HOLD e k) || !d.loopEn e (d.formeBank e k) k || (d.runEntry e k).isNone

/-- ENGINE_EVENT_HOLD (R292): an enabled pending event routed to ENGINE, at the loop's first run that starts at least two
counts after the raise. -/
def execEngineEventHold (n : Fin 1024) : State → Out :=
  onDev fun d =>
    let e := d.get (EVC_CFG_ENG n)
    let k := d.get (EVC_CFG_LOOP n)
    if d.pend n && d.on (EVC_CFG_EN n) && d.get (EVC_CFG_TARGET n) = 7 then
      if d.engineDeaf e k then ackEvent n d
      else
        let due := (List.range 64).any fun i =>
          let x := d.schedEntry e (d.get (LE_CTL_SCHBANK e)) i
          x.kind = 1 && x.loop = k && d.entryNow e i
        if due && decide ((d.evOf n).at_ + 2 ≤ d.now) then ackEvent n (holdLoop e k d) else d
    else d

end Sys2Proof.Machine
end

