-- ==== Sys2Proof/Machine/Bus.lean ====
section
/-! DEFINITION. What the firmware does on ISOBUS and the private links below control messages: address claim, requests,
transport sessions, ground speed, the task-controller client, DM1, HELLO (R370 to R384). -/

namespace Sys2Proof.Machine
open Sys2Proof Reg

/-! Address claim (R373). -/

/-- ADDRESS_CLAIM_START (R373): at the end of SELFTEST, without an address and with no claim under way. -/
def execAddressClaimStart : State → Out :=
  onDev fun d =>
    if d.mode ≠ .selftest && d.bus.addr.isNone && d.bus.claimAt.isNone && d.bus.retryAt.isNone then claimStart d else d

/-- ADDRESS_CLAIM_TIMEOUT (R373): 250 ms without a contending claim. -/
def execAddressClaimTimeout : State → Out :=
  onDev fun d =>
    match d.bus.claimAt with
    | some t =>
      if t + 50000000 ≤ d.now then
        journal 5 0 [948, d.bus.cand] (d.onBus fun b => { b with
          addr := some b.cand, lastAddr := some b.cand, claimAt := none })
      else d
    | none => d

/-- The address after one, in 128 to 247, wrapping round. -/
def addrAfter (a : Nat) : Nat := if 128 ≤ a && a < 247 then a + 1 else 128

/-- The next address nobody else has claimed, within `n` tries (R373). -/
def BusH.nextAddr (b : BusH) : Nat → Nat → Option Nat
  | 0, _ => none
  | n + 1, a =>
    let c := addrAfter a
    if (tget none b.names c).isSome || c ∈ b.lost then b.nextAddr n c else some c

/-- The address is lost to a lower NAME (R373): the next one is claimed, or none is left. -/
def moveAddr (src : Nat) (d : Dev) : Dev :=
  let b := { d.bus with addr := none, lost := d.bus.lost ++ [src] }
  sendClaim (match b.nextAddr 120 src with
    | some c => { d with bus := { b with cand := c, claimAt := some d.now } }
    | none => { d with bus := { b with claimAt := none, retryAt := some (d.now + 2000000000) } })

/-- The address being used or claimed. -/
def Dev.busAddr (d : Dev) : Option Nat := if d.bus.addr.isSome then d.bus.addr else if d.bus.claimAt.isSome then some d.bus.cand else none

/-- The slot that holds a NAME. -/
def Dev.slotOfName (d : Dev) (name : Nat) : Option Nat :=
  (List.range 64).find? fun s => (d.clientOf s).used && (d.clientOf s).name = name

/-- An ISOBUS client loses its slot's hold when another NAME claims its address or it cannot claim (R386). -/
def nameLost (name : Nat) (d : Dev) : Dev :=
  match d.slotOfName name with
  | some s => if (d.clientOf s).link = 0 then enterLoss s d else d
  | none => d

/-- Another node's claim changes the table of NAMEs: a NAME has one address, an address one NAME; 254 is no address. -/
def noteName (src name : Nat) (d : Dev) : Dev :=
  let d := match tget none d.bus.names src with
    | some n => if n ≠ name then nameLost n d else d
    | none => d
  let d := if src = 254 then nameLost name d else d
  d.onBus fun b =>
    let l := b.names.filter fun e => e.2 ≠ some name
    { b with names := if src = 254 then l else tset none l src (some name) }

/-- ADDRESS_CLAIMED_RX (R373, R386): a claim from 254 is Cannot claim. -/
def execAddressClaimedRx (src : Fin 256) (name : BitVec 64) : State → Out :=
  onDev fun d =>
    if name.toNat = d.ownName then d
    else
      let d := noteName src name.toNat d
      if d.busAddr = some src.val then
        (if name.toNat < d.ownName then moveAddr src d else sendClaim d)
      else d

/-- CLAIM_RETRY (R373): 10 s after Cannot claim the procedure repeats. -/
def execClaimRetry : State → Out :=
  onDev fun d =>
    match d.bus.retryAt with
    | some t => if t ≤ d.now then claimStart d else d
    | none => d

/-! DM1 (R380, R381). -/

/-- The FMI of each code of CU_FLT. -/
def axisFmi (code : Nat) : Nat := [0, 2, 5, 7, 7, 13, 2, 6, 12, 4, 5, 9, 2, 2, 31, 2].getD code 31

/-- The trouble codes of the device that are active, by SPN. -/
def Dev.deviceDtcs (d : Dev) : List (Nat × Nat) :=
  let j := d.get JNL_STAT_MODE
  let failed := (List.range 5).any fun p => d.pairSt p = .failed
  [(520272, 4, d.on PSE_STAT_LINKUV), (520272, 3, d.on PSE_STAT_LINKOV), (520273, 18, decide (d.get PSE_STAT_SRC = 2)),
    (520274, 16, d.on PSE_STAT_DERATE), (520274, 0, d.on PSE_STAT_OVTEMP),
    (520275, 5, decide (d.get PSE_CLAMP_RCLMP = 0xFFFF)), (520275, 0, d.on PSE_STAT_CLAMPLIM),
    (520276, 31, decide (j = 2)), (520276, 12, decide (j = 3 || j = 5)),
    (520277, 12, failed), (520277, 31, d.spare.isNone), (520278, 12, d.on SYS_LOCK_LATCH),
    (520279, 2, d.on TRU_STAT_XTALFAIL || d.on TRU_STAT_TIMEJUMP)].filterMap fun e =>
      if e.2.2 then some (e.1, e.2.1) else none

/-- The trouble codes that are active, lowest SPN first, at most 64. -/
def Dev.dtcs (d : Dev) : List (Nat × Nat) :=
  let axes := allAxes.filterMap fun a =>
    if d.axSt a = .fault then some (520192 + a, axisFmi (d.get (CU_FLT_CODE a))) else none
  let slots := ((List.range 16).map fun q =>
    let st := d.get (CSL_STAT_STATE q)
    (if st = 2 && (!d.bit PSE_SEG (16 + q) || !d.on (CSL_STAT_SEGSW q)) then [(520256 + q, 5)] else [])
      ++ (if st = 3 then [(520256 + q, 12)] else [])).flatten
  let aux := ((List.range 4).map fun g =>
    (if d.on (AUX_GSTAT_TRIP g) then [(520280 + g, 6)] else [])
      ++ (if d.get ⟨AUX_OLOAD, 4 * g, 4⟩ ≠ 0 then [(520280 + g, 5)] else [])).flatten
  (axes ++ slots ++ d.deviceDtcs ++ aux).take 64

/-- The lamps of DM1: bit 0 red stop, bit 1 amber warning. -/
def Dev.dm1Lamps (d : Dev) (l : List (Nat × Nat)) : Nat :=
  (if d.mode = .safe || d.mode = .degraded || d.mode = .lockout then 1 else 0) + (if l.isEmpty then 0 else 2)

/-- The data bytes of DM1 (PRESUMED, log 40): lamp states, flash fields, four bytes for each code; SPN, FMI and count 0 for none. -/
def dm1Data (lamps : Nat) (l : List Dtc1) : List Nat :=
  [lamps % 2 * 16 + lamps / 2 * 4, 255] ++ (if l.isEmpty then [0, 0, 0, 0]
    else (l.map fun c => [c.spn % 256, c.spn / 256 % 256, c.spn / 65536 * 32 + c.fmi, c.oc]).flatten)

/-- The codes of a new DM1 with their occurrence counts: one more for each code that was not active before. -/
def countDtcs (d : Dev) : List Dtc1 × Tab Nat :=
  let l := d.dtcs
  let old := d.bus.dm1
  let occ := l.foldl (fun o e =>
    let k := e.1 * 32 + e.2
    if old.any (fun c => c.spn = e.1 && c.fmi = e.2) then o else tset 0 o k (min 126 (tget 0 o k + 1))) d.bus.occ
  (l.map fun e => { spn := e.1, fmi := e.2, oc := tget 0 occ (e.1 * 32 + e.2) }, occ)

/-- Send DM1. -/
def sendDm1 (d : Dev) : Dev :=
  let r := countDtcs d
  let lamps := d.dm1Lamps d.dtcs
  busSend 65226 255 (dm1Data lamps r.1) (d.onBus fun b => { b with dm1 := r.1, occ := r.2, lamps := lamps, dm1At := some d.now })

/-- DM1_TRANSMIT (R380): once per second, and on a change of the active list, with 100 ms between two. -/
def execDm1Transmit : State → Out :=
  onDev fun d =>
    let changed := d.dtcs ≠ d.bus.dm1.map fun c => (c.spn, c.fmi)
    let due := match d.bus.dm1At with
      | some t => decide (t + 200000000 ≤ d.now) || (changed && decide (t + 20000000 ≤ d.now))
      | none => true
    if d.bus.addr.isSome && due then sendDm1 d else d

/-! Requests and transport sessions (R370, R371, R375). -/

/-- The PGNs the device transmits (R371). -/
def txPgns : List Nat := [59904, 59392, 60928, 60416, 60160, 51968, 65037, 65226, 61184]

/-- A PGN of R371. -/
def knownPgn (n : Nat) : Bool := n ∈ txPgns || n ∈ [51200, 50944, 65096, 65097, 61474]

/-- Answer a Request: Address claimed in every state; DM1 and the working set master; a negative acknowledgement to a Request
for any other PGN that was sent to the device alone (DESIGN CHOICE, log 42). -/
def answer (src dst pgn : Nat) (d : Dev) : Dev :=
  if pgn = 60928 then (if dst = 255 || d.busAddr = some dst || dst = 254 then sendClaim d else d)
  else if d.bus.addr.isNone || (dst ≠ 255 && d.bus.addr ≠ some dst) then d
  else if pgn = 65226 then sendDm1 d
  else if pgn = 65037 then busSend 65037 255 [1, 255, 255, 255, 255, 255, 255, 255] d
  else if dst = 255 then d
  else busSend 59392 255 ([1, 255, 255, 255, src] ++ bytesLE 3 pgn) d

/-- REQUEST_RX (R370, R373, R375). -/
def execRequestRx (src dst : Fin 256) (pgn : Fin 262144) : State → Out := onDev (answer src dst pgn)

/-- A session may be opened (R370, R375): the size its transport carries, ETP for IMAGESEG only, at most four from
different sources. -/
def Dev.tpOk (d : Dev) (src size : Nat) (etp imageSeg : Bool) : Bool :=
  !(src ∈ d.bus.tp) && d.bus.tp.length < 4
    && (if etp then imageSeg && 1786 ≤ size && size ≤ 278560 else 9 ≤ size && size ≤ 1785)

/-- TP_SESSION (R370, R375): a session is opened, refused with connection abort, or a broadcast not received; a session
ends, and what was received whole arrives as its own command. -/
def execTpSession (src : Fin 256) (e : TpEvent) : State → Out :=
  onDev fun d =>
    match e with
    | .request size etp bam imageSeg pgn =>
      if bam then
        (if knownPgn pgn && d.tpOk src size etp imageSeg then d.onBus fun b => { b with tp := b.tp ++ [src.val] } else d)
      else if d.bus.addr.isNone then d
      else if d.tpOk src size etp imageSeg then d.onBus fun b => { b with tp := b.tp ++ [src.val] }
      else busSend (if etp then 51200 else 60416) src ([255, 1, 255, 255, 255] ++ bytesLE 3 pgn) d
    | .done | .abort => d.onBus fun b => { b with tp := b.tp.filter (· ≠ src.val) }

/-! Ground speed (R376, R377). -/

/-- SPEED_MESSAGE (R376): a speed in mm/s, none for "error" and "not available". Kinds: 0 machine selected, 1 ground-based,
2 wheel-based. -/
def execSpeedMessage (kind : Fin 3) (speed : Option Int) : State → Out :=
  onDev fun d => d.onBus fun b => { b with speed := tset none b.speed kind (speed.map fun v => (v, d.now)) }

/-- The speed of GSP in mm/s (R376). -/
def Dev.gspSpeed (d : Dev) : Option Int :=
  let p := d.get GSP_PERIOD_PERIOD
  if p = 0xFFFFFFFF then none else some ((d.item 0x104 0 * 200000 / p : Nat) : Int)

/-- The selected speed and its source (R376). -/
def Dev.speedNow (d : Dev) : Int × Nat :=
  let den := d.item 0x103 15
  let bus := fun (k : Nat) => match tget none d.bus.speed k with
    | some (v, t) => if den.testBit k && decide (d.now ≤ t + 60000000) then some v else none
    | none => none
  match bus 0, bus 1, bus 2, d.gspSpeed with
  | some v, _, _, _ => (v, 1)
  | none, some v, _, _ => (v, 2)
  | none, none, some v, _ => (v, 3)
  | none, none, none, some v => if den.testBit 3 then (v, 4) else (0, 0)
  | none, none, none, none => (0, 0)

/-- SPEED_SELECT (R376, R377): every 10 ms; speed, source and instant go to shared SRAM. -/
def execSpeedSelect : State → Out :=
  onDM fun x =>
    let due := match x.1.bus.spdAt with | some t => decide (t + 2000000 ≤ x.1.now) | none => true
    if due && x.1.mode ≠ .selftest then
      let r := x.1.speedNow
      let m := memWrite (memWrite x.2 0x103BFF00 4 (w32i r.1).toNat) 0x103BFF04 4 r.2
      (x.1.onBus fun b => { b with spdAt := some x.1.now }, memWrite m 0x103BFF08 4 (x.1.now % 2 ^ 32))
    else x

/-! The task-controller client (R378, R379). -/

/-- The class-3 item TCMASK. -/
def Dev.tcMask (d : Dev) : Nat := d.item 0x105 0 % 2 ^ 32 + d.item 0x106 0 % 2 ^ 32 * 2 ^ 32

/-- The axis of a bin element. -/
def Dev.elemAxis (d : Dev) (elem : Nat) : Option Nat :=
  if 16 ≤ elem && elem < 80 && d.tcMask.testBit (elem - 16) then some (elem - 16) else none

/-- The process loop TCMAP names for an axis: engine and loop. -/
def Dev.tcLoop (d : Dev) (a : Nat) : Option (Nat × Nat) :=
  let v := d.item (0x140 + a) 0
  if 8 ≤ v % 32 && v % 32 < 24 && v / 32 < 8 then some (v / 32, v % 32) else none

/-- The DDIs of setpoints. -/
def setpointDdi (n : Nat) : Bool := n = 1 || n = 6 || n = 11

/-- The axis works (DDI 141). -/
def Dev.works (d : Dev) (a : Nat) : Bool := d.axSt a = .sixstep || d.axSt a = .handover || d.axSt a = .dtc

/-- The device's values: none for a DDI it has not, `some none` for "not available" (R379). -/
def Dev.pdValue (d : Dev) (elem ddi : Nat) : Option (Option Int) :=
  let axes := axesOf d.tcMask
  if elem = 0 then
    (if ddi = 141 then some (some (if axes.any d.works then 1 else 0))
     else if ddi = 161 then some (some ((List.range 16).foldl (fun (v : Int) i => v + 4 ^ i * (match axes[i]? with
        | some a => if d.works a then 1 else 0
        | none => 3)) 0))
     else if ddi = 0xE004 then some (some (d.get PSE_VLINK_VLINK))
     else none)
  else match d.elemAxis elem with
    | none => none
    | some a =>
      if ddi = 2 || ddi = 7 || ddi = 12 then
        some (match d.tcLoop a with
          | some (e, k) => if (d.loopOf e k).delivered then some (d.reg (stBase e k + 0x30)).toInt else none
          | none => none)
      else if ddi = 0xE000 then some (some (d.axSt a).code)
      else if ddi = 0xE001 then some (some (d.get (CU_FLT_CODE a)))
      else if ddi = 0xE002 then some (some (d.getS (CU_SPEED_SPEED a)))
      else if ddi = 0xE003 then some (some (d.getS (CU_IDC_IDC a)))
      else if ddi = 0xE005 then
        let t := d.get (CSL_NTC_TEMP (a / 4) (a % 4))
        some (if t = 0 then none else some (t : Int))
      else none

/-- Send a process-data message. -/
def pdSend (m : PdMsg) (d : Dev) : Dev := d.onBus fun b => { b with pd := some m }

/-- A negative Process Data Acknowledge. -/
def pdNack (elem ddi : Nat) (d : Dev) : Dev := pdSend { cmd := .negative, elem := elem, ddi := ddi } d

/-- A process-data command from the connected task controller; others are ignored. -/
def fromTc (src : Nat) (f : Dev → Dev) (d : Dev) : Dev :=
  if d.bus.addr.isSome && d.bus.tcSrc = some src && d.bus.tcSlot.isSome then f d else d

/-- The lowest free client slot. -/
def Dev.freeSlot (d : Dev) : Option Nat := (List.range 64).find? fun s => !(d.clientOf s).used

/-- A client takes a slot: a full bucket of CMDBURST tokens (R392). -/
def openClient (s name link node : Nat) (tc : Bool) (beat seq : Nat) (d : Dev) : Dev :=
  d.onClient s fun _ => { used := true, name := name, link := link, node := node, tc := tc, beat := beat, heard := d.now
                          expect := (seq + 1) % 256, tok := d.item 0x108 40 * 200000000, tokAt := d.now }

/-- The records a message brings are accepted (R391). -/
def Dev.wouldAccept (d : Dev) (slot : Nat) : Bool := submitCode { typ := 1, slot := slot } false false d = 0

/-- The task controller takes its slot, or resumes one in loss, and claims the free axes of TCMASK (R378, R394). -/
def tcClaim (src name s : Nat) (d : Dev) : Dev :=
  let d := if (d.clientOf s).used then
      journalClient 1 s name [3, s] { d.onClient s (fun c => { c with loss := false, tc := true, heard := d.now }) with
        holdEnd := d.holdEnd.filter fun e => tget none d.claim e.1 ≠ some s }
    else journalClient 1 s name [0, s] (openClient s name 0 src true 1000 255 d)
  let free := (axesOf d.tcMask).filter fun a => (tget none d.claim a).isNone && d.axSt a ≠ .absent
  let d := if free = [] then d else journalClient 1 s name [0x10, maskOf free % 2 ^ 32, maskOf free / 2 ^ 32] d
  let d := d.each free fun a d => { d with claim := tset none d.claim a (some s) }
  d.onBus fun b => { b with tcSrc := some src, tcSlot := some s, tcAt := d.now, trig := []
                            ddop := 0 :: (axesOf d.tcMask).map (· + 16) }

/-- TC_CONNECT (R378): a task controller's status message while the own address is in use: the client connects, unless it
is connected, the sender's NAME is unknown, or no slot is free. -/
def execTcConnect (src : Fin 256) : State → Out :=
  onDev fun d =>
    if d.bus.addr.isNone then d
    else if d.bus.tcSrc.isSome then (if d.bus.tcSrc = some src.val then d.onBus fun b => { b with tcAt := d.now } else d)
    else match tget none d.bus.names src with
      | none => d
      | some name =>
        match (match d.slotOfName name with | some s => some s | none => d.freeSlot) with
        | some s => if d.wouldAccept s then tcClaim src name s d else d
        | none => d

/-- TC_LOSS (R378, R386): 6 s without a status message. -/
def execTcLoss : State → Out :=
  onDev fun d =>
    if d.bus.tcSrc.isSome && decide (d.bus.tcAt + 1200000000 ≤ d.now) then
      let s := d.bus.tcSlot
      let d := d.onBus fun b => { b with tcSrc := none, trig := [] }
      match s with
      | some s => enterLoss s d
      | none => d
    else d

/-- TECHNICAL_CAPABILITIES (R370, R378): answered with the task-controller version. -/
def execTechnicalCapabilities (src : Fin 256) : State → Out :=
  onDev (fromTc src (pdSend { cmd := .technicalCapabilities, value := some 4 }))

/-- DEVICE_DESCRIPTOR (R378): the DDOP is built from the forme and uploaded. -/
def execDeviceDescriptor (src : Fin 256) : State → Out :=
  onDev (fromTc src fun d =>
    pdSend { cmd := .deviceDescriptor } (d.onBus fun b => { b with ddop := 0 :: (axesOf d.tcMask).map (· + 16) }))

/-- REQUEST_VALUE (R378, R379). -/
def execRequestValue (src : Fin 256) (elem ddi : Fin 65536) : State → Out :=
  onDev (fromTc src fun d =>
    match d.pdValue elem ddi with
    | some v => pdSend { cmd := .value, elem := elem, ddi := ddi, value := v } d
    | none => pdNack elem ddi d)

/-- A setpoint for an axis (R378, R379): staged and committed in the loop TCMAP names; refused, and journalled as refused,
for an axis the task controller does not hold. `ack`: it is acknowledged when carried out. -/
def setValue (ack : Bool) (elem ddi : Nat) (v : Word) (d : Dev) : Dev :=
  let s := d.bus.tcSlot.getD 0
  let name := (d.clientOf s).name
  match d.elemAxis elem with
  | none => pdNack elem ddi d
  | some a =>
    if !setpointDdi ddi then pdNack elem ddi d
    else if tget none d.claim a ≠ some s then pdNack elem ddi (journalClient 2 s name [elem, ddi, v.toNat] d)
    else match d.tcLoop a with
      | none => pdNack elem ddi d
      | some (e, k) =>
        if !d.wouldAccept s then pdNack elem ddi (journalClient 1 s name [elem, ddi, v.toNat] d)
        else
          let d := setRef e k 0 v (journalClient 1 s name [elem, ddi, v.toNat] d)
          if ack then pdSend { cmd := .acknowledge, elem := elem, ddi := ddi } d else d

/-- VALUE (R378, R379): a value command that sets a setpoint is not acknowledged. -/
def execValue (src : Fin 256) (elem ddi : Fin 65536) (v : Word) : State → Out :=
  onDev (fromTc src (setValue false elem ddi v))

/-- SET_VALUE (R378, R379): set value and acknowledge. -/
def execSetValue (src : Fin 256) (elem ddi : Fin 65536) (v : Word) : State → Out :=
  onDev (fromTc src (setValue true elem ddi v))

/-- Set up a measurement trigger (R378): at most 128, and only for a value the device sends. -/
def setTrigger (kind : PdCmd) (elem ddi : Nat) (par : Int) (d : Dev) : Dev :=
  match d.pdValue elem ddi with
  | none => pdNack elem ddi d
  | some v =>
    let rest := d.bus.trig.filter fun t => !(t.kind = kind && t.elem = elem && t.ddi = ddi)
    if 128 ≤ rest.length then pdNack elem ddi d
    else d.onBus fun b => { b with trig := rest ++ [{ kind := kind, elem := elem, ddi := ddi, par := par, at_ := d.now, last := v.getD 0 }] }

/-- MEASUREMENT_TIME_INTERVAL (R378): in ms, 100 at least. -/
def execMeasurementTimeInterval (src : Fin 256) (elem ddi : Fin 65536) (ms : Word) : State → Out :=
  onDev (fromTc src (setTrigger .timeInterval elem ddi (max 100 ms.toNat : Nat)))

/-- MEASUREMENT_DISTANCE_INTERVAL (R378). -/
def execMeasurementDistanceInterval (src : Fin 256) (elem ddi : Fin 65536) (mm : Word) : State → Out :=
  onDev (fromTc src (setTrigger .distanceInterval elem ddi mm.toNat))

/-- MEASUREMENT_MINIMUM_THRESHOLD (R378). -/
def execMeasurementMinimumThreshold (src : Fin 256) (elem ddi : Fin 65536) (v : Word) : State → Out :=
  onDev (fromTc src (setTrigger .minimum elem ddi v.toInt))

/-- MEASUREMENT_MAXIMUM_THRESHOLD (R378). -/
def execMeasurementMaximumThreshold (src : Fin 256) (elem ddi : Fin 65536) (v : Word) : State → Out :=
  onDev (fromTc src (setTrigger .maximum elem ddi v.toInt))

/-- MEASUREMENT_CHANGE_THRESHOLD (R378). -/
def execMeasurementChangeThreshold (src : Fin 256) (elem ddi : Fin 65536) (v : Word) : State → Out :=
  onDev (fromTc src (setTrigger .change elem ddi v.toNat))

/-- PROCESS_DATA_ACKNOWLEDGE (R378): an acknowledgement from the task controller is received; nothing waits for one. -/
def execProcessDataAcknowledge (src : Fin 256) (elem ddi : Fin 65536) : State → Out :=
  onDev (fromTc src fun d => d.onBus fun b => { b with ackRx := some (elem.val, ddi.val) })

/-- TASK_STATUS (R378): the task controller's status. -/
def execTaskStatus (src : Fin 256) (status : Word) : State → Out :=
  onDev (fromTc src fun d => d.onBus fun b => { b with tcAt := d.now, task := status.toNat })

/-- A trigger's condition holds (PRESUMED, log 41); a distance is the environment's to judge. -/
def Dev.fires (d : Dev) (t : Trigger) (v : Int) : Bool :=
  match t.kind with
  | .timeInterval => decide (t.at_ + 200000 * t.par.toNat ≤ d.now)
  | .minimum => decide (t.par ≤ v)
  | .maximum => decide (v ≤ t.par)
  | .change => decide (t.par ≤ ((v - t.last).natAbs : Int))
  | _ => true

/-- MEASUREMENT_TRIGGER (R378): an active trigger fires and its value is sent. -/
def execMeasurementTrigger (i : Fin 128) : State → Out :=
  onDev fun d =>
    match d.bus.trig[i.val]? with
    | none => d
    | some t =>
      match d.pdValue t.elem t.ddi with
      | none => d
      | some v =>
        if d.fires t (v.getD 0) then
          pdSend { cmd := .value, elem := t.elem, ddi := t.ddi, value := v } (d.onBus fun b => { b with
            trig := b.trig.set i.val { t with at_ := d.now, last := v.getD 0 } })
        else d

/-! HELLO (R382, R384). -/

/-- HELLO_TX (R382): every 100 ms on each private link; `l` is 0 for PL0 and 1 for PL1. -/
def execHelloTx (l : Fin 2) : State → Out :=
  onDev fun d =>
    let due := match tget none d.bus.hello l with | some (t, _) => decide (t + 20000000 ≤ d.now) | none => true
    if due && d.canLive (1 + l) then
      d.onBus fun b => { b with
        hello := tset none b.hello l (some (d.now, bytesLE 8 d.ownName ++ [0, d.get TRU_CFG_PLROLE, 0, 0])) }
    else d

/-- HELLO_RX (R384): a node is present; the own NODE under another NAME is a conflict, journalled as a FAULT record. -/
def execHelloRx (l : Fin 2) (node : Fin 32) (name : BitVec 64) : State → Out :=
  onDev fun d =>
    if node.val = d.get (CAN_CFG_NODE (1 + l)) then
      (if name.toNat = d.ownName then d
       else journal 3 0 [1 + l.val, node.val] (d.onBus fun b => { b with conflict := tset none b.conflict l (some d.now) }))
    else d.onBus fun b => { b with nodes := tset none b.nodes (32 * l.val + node.val) (some (name.toNat, d.now)) }

/-- NODE_ABSENT (R384, R386): 300 ms without a HELLO. -/
def execNodeAbsent (l : Fin 2) (node : Fin 32) : State → Out :=
  onDev fun d =>
    match tget none d.bus.nodes (32 * l.val + node.val) with
    | some (name, t) =>
      if t + 60000000 ≤ d.now then
        let d := d.onBus fun b => { b with nodes := tset none b.nodes (32 * l.val + node.val) none }
        match d.slotOfName name with
        | some s => if (d.clientOf s).link = 1 + l.val then enterLoss s d else d
        | none => d
      else d
    | none => d

end Sys2Proof.Machine
end

