-- ==== Sys2Proof/Machine/SixStep.lean ====
section
/-! DEFINITION. Commands of six-step commutation, catch and start (R158 to R183). -/

namespace Sys2Proof.Machine
open Sys2Proof Reg

/-- COMMUTATION (R158 to R160, R174, R175): at the scheduled instant the phase modes change to the next step; in RAMP the
next interval follows the frequency. -/
def execCommutation (a : Fin 64) : State → Out :=
  onDev fun d =>
    let h := d.sixOf a
    if h.nextC = some d.now && d.sixOn a && h.test.isNone then
      let s := h.nextS.getD (nextStep (d.step6 a) (d.dir a))
      let ok := if h.rampHit then h.rampOk else 0
      let d := revolutionStep a (beginStep a (applyStep a (d.put (CU_STATE_STEP a) s)))
      if d.axSt a = .ramp then
        let iv := d.rampInterval a d.now
        let d := d.onSix a fun h => { h with rampOk := ok }
        if d.hallDrives a then d
        else scheduleAt a (d.now + iv) none (d.onSix a fun h => { h with rampOld := h.rampC, rampC := iv })
      else d
    else d

/-- EXPECTED_CROSSING (R166): t_exp has come with no crossing observed. -/
def execExpectedCrossing (a : Fin 64) : State → Out := onDev (expected a)

/-- BLIND (R167): the eighth consecutive prediction. -/
def execBlind (a : Fin 64) : State → Out :=
  onDev fun d => if d.sixOn a && d.get (CU_STAT_NPRED a) = 8 then faultDrive a 1 0 (raiseAx a 2 d) else d

/-- LATE_WINDOW_EXPIRY (R166): no crossing by t_exp + T_pred/2 after a VALID sample begins the phase test; an open class
still waited for is settled as at t_exp. -/
def execLateWindowExpiry (a : Fin 64) : State → Out :=
  onDev fun d =>
    match (d.sixOf a).lateEnd with
    | some t => if t ≤ d.now && d.sixOn a && !(d.sixOf a).crossed then beginTest a .late d else d
    | none => expected a d

/-- PHASE_TEST_DONE (R177): which of the pulses U to V, V to W and W to U passed. One failed pulse alone is left open by
the spec: the fault's code is a free value. -/
def execPhaseTestDone (a : Fin 64) (uv vw wu : Bool) : State → Out :=
  onDev fun d =>
    match (d.sixOf a).test with
    | none => d
    | some o =>
      let missing := fun (ph : Nat) (d : Dev) => faultDrive a 2 ph (raiseAx a 3 d)
      match uv, vw, wu with
      | true, true, true => faultDrive a (match o with | .late => 3 | .align => 4) 0 d
      | false, false, false => missing 7 d
      | false, true, false => missing 1 d
      | false, false, true => missing 2 d
      | true, false, false => missing 3 d
      | _, _, _ =>
        let f := d.freeVal
        faultDrive a ((Config.freeWord f.1).toNat % 16) 0 f.2

/-- CATCH_WINDOW_END (R170, R171): what the window measured: mean magnitude, θ at its end, the unwrapped change and the
counts it took. -/
def execCatchWindowEnd (a : Fin 64) (e : Fin 16384) (th : Fin 65536) (dth : Int) (dt : Nat) : State → Out :=
  onDev fun d =>
    let h := d.sixOf a
    if d.axSt a = .catch_ && h.joinAt.isNone && decide (h.catchAt + h.catchLen * (h.catchExt + 1) ≤ d.now) then
      catchEnd a e { th := th, dth := dth, dt := dt, at_ := d.now } d
    else d

/-- CATCH_JOIN (R171): after the recharge, at the next period start. -/
def execCatchJoin (a : Fin 64) : State → Out :=
  onDev fun d =>
    match (d.sixOf a).joinAt with
    | some t => if t ≤ d.now && d.atStart a && d.axSt a = .catch_ then catchJoin a d else d
    | none => d

/-- RECOVER_DONE (R172): the recharge is complete; CATCH begins. -/
def execRecoverDone (a : Fin 64) : State → Out :=
  onDev fun d =>
    match (d.sixOf a).recoverEnd with
    | some t => if t ≤ d.now && d.axSt a = .recover then enterCatch a (d.onSix a fun h => { h with recoverEnd := none }) else d
    | none => d

/-- ALIGN_END (R173, R174): ALIGN.T has elapsed; RAMP begins two steps on. -/
def execAlignEnd (a : Fin 64) : State → Out :=
  onDev fun d =>
    match (d.sixOf a).alignEnd with
    | some t =>
      if t ≤ d.now && d.axSt a = .align then
        enterRamp a ((d.alignStep a + (if d.dir a = 0 then 2 else 4)) % 6) d
      else d
    | none => d

/-- ALIGN_NO_CURRENT (R173): 10 ms at the maximum compare without current. -/
def execAlignNoCurrent (a : Fin 64) : State → Out :=
  onDev fun d =>
    match (d.sixOf a).noCurSince with
    | some t => if t + 2000000 ≤ d.now && d.axSt a = .align then beginTest a .align d else d
    | none => d

/-- RAMP_LOCK (R174): RAMPN steps with centred crossings, and the next crossing observed. -/
def execRampLock (a : Fin 64) : State → Out :=
  onDev fun d =>
    match (d.sixOf a).rampX with
    | some t => if d.axSt a = .ramp then rampLock a t d else d
    | none => d

/-- RAMP_TIMEOUT (R174): RAMPT has elapsed without lock. -/
def execRampTimeout (a : Fin 64) : State → Out :=
  onDev fun d =>
    if d.axSt a = .ramp && decide ((d.sixOf a).rampAt + max 1 (d.get (CU_RAMP1_T a)) * 200000 ≤ d.now) then
      faultDrive a 4 0 d
    else d

/-- MISSING_PHASE (R176, R182): two revolutions with one and the same phase low, on the member that shows it. -/
def execMissingPhase (a : Fin 64) : State → Out :=
  onDev fun d =>
    let m := (d.sixOf a).lowBoth
    let st := d.axSt a
    if m ≠ 0 && (st = .sixstep || st = .handover || st = .dtc || st = .decel) then
      faultDrive a 2 (if m % 2 = 1 then 1 else if m / 2 % 2 = 1 then 2 else 3)
        (raiseAx a 3 (d.onSix a fun h => { h with lowBoth := 0 }))
    else d

/-- HALL_EDGE (R175): a filtered edge brings a Hall code. -/
def execHallEdge (a : Fin 64) (code : Fin 8) : State → Out := onDev (hallEdge a code)

/-- HALL_INVALID (R175): an invalid code held for 10 µs while Hall commutation is in use. -/
def execHallInvalid (a : Fin 64) : State → Out :=
  onDev fun d =>
    match (d.sixOf a).hallBad with
    | some t => if t + 2000 ≤ d.now && d.hallMode a ≠ 0 && (d.axSt a).driving then faultDrive a 6 0 d else d
    | none => d

/-! Commands (R178): writes of CU_CMD. The registers of a bonded drive's other members are ignored (R182). -/

/-- A command of a writer at an axis (R21, R178, R182); an axis about to leave OFF is judged under the bond it takes
(R200). -/
def command (m : Master) (a : Nat) (c : CuCmd) (dir : Nat) (d : Dev) : Dev :=
  asAxisWriter m a (CU_CMD a) (fun d =>
    let b := if d.axSt a = .off then takeBond a d else d
    if b.lowest a = a then doCmd a c dir d else d) d

/-- START (R178). -/
def execStart (m : Master) (a : Fin 64) (dir : Fin 2) : State → Out := onDev (command m a .start dir)

/-- STOP (R178, R205). -/
def execStop (m : Master) (a : Fin 64) : State → Out := onDev (command m a .stop 0)

/-- COAST (R178). -/
def execCoast (m : Master) (a : Fin 64) : State → Out := onDev (command m a .coast 0)

/-- CLEAR (R178). -/
def execClear (m : Master) (a : Fin 64) : State → Out := onDev (command m a .clear 0)

/-- REVERSE (R178, R209, R210). -/
def execReverse (m : Master) (a : Fin 64) : State → Out := onDev (command m a .reverse 0)

/-- PWM_FLT_CLEAR (R131): a W1C write of PWM_FLT. -/
def execPwmFltClear (m : Master) (a : Fin 64) (w : Word) : State → Out :=
  onDev (asAxisWriter m a (PWM_FLT a) (clearFlt a w.toNat))

end Sys2Proof.Machine
end

