-- ==== Sys2Proof/Machine/Dtc.lean ====
section
/-! DEFINITION. Commands of direct torque control, bonding and reversal (R184 to R212). -/

namespace Sys2Proof.Machine
open Sys2Proof Reg

/-- The currents of a tick with their age at its start: the served urgent pair, else the freshest pair (R18, R186). -/
def Dev.tickCurrents (d : Dev) (a s : Nat) : Option (Int × Int × Nat) :=
  let q := a / 4
  let p := a % 4
  let good := fun (k : Nat) => tget none d.stamp (AC_UR q p k) = some s && wordGet (d.reg (AC_UR q p k)) 30 2 = 0
  if (d.dtcOf a).served && good 4 && good 5 then
    some (resultValue (d.reg (AC_UR q p 4)), resultValue (d.reg (AC_UR q p 5)), 0)
  else match d.freshPair a with
    | some (u, w) => some (u.value, w.value, s + 17 - u.ts)
    | none => none

/-- A current of a bonded drive from its lowest member's (R201). Before the first revolution no share is stated: a free
value stands in for it. -/
def driveCurrent (a : Nat) (i : Int) (d : Dev) : Int × Dev :=
  let m := (d.members a).length
  if m = 1 then (i, d)
  else
    let sh := d.get (CU_BSHARE_SH a (a % 4))
    if sh = 0 then
      let f := d.freeVal
      (Config.freeInt f.1, f.2)
    else (tdiv (i * m * 128) sh, d)

/-- A flux sector's number; the zero vector has none, and takes a free value. -/
def takeSector (a : Nat) (d : Dev) : Nat × Dev :=
  let t := d.dtcOf a
  match fluxSector t.psiA t.psiB with
  | some s => (s, d)
  | none =>
    let f := d.freeVal
    ((Config.freeWord f.1).toNat % 6, f.2)

/-- The estimator's part of a tick (R187 to R189): integration, reports, counts of R189. `iu`, `iw`: the lowest member's
currents; `du`, `dw`: the drive's (R201). -/
def estimateTick (a s : Nat) (iu iw du dw : Int) (age : Nat) (d : Dev) : Dev :=
  let t := d.dtcOf a
  let n := s - t.prevAt
  let d := integrate a du dw n t.hi d
  let psi := d.psiMag a
  let p0 := d.psi0 a
  let tq := d.torque a du dw
  let d := d.onDtc a fun t => { t with
    prevAt := s, prevIU := iu, prevIW := iw, tickAge := age, noInt := 0
    psiBad := if psi * 4 < p0 || 2 * p0 < psi then t.psiBad + 1 else 0
    tHist := (t.tHist ++ [tq]).drop (t.tHist.length + 1 - 8) }
  let x := tdiv (d.dtcOf a).psiA 65536
  let y := tdiv (d.dtcOf a).psiB 65536
  ((d.setReg (CU_PSIA a) (w32i x)).setReg (CU_PSIB a) (w32i y)).setReg (CU_TEST a) (w32i tq)

/-- In DTC a crossing of a sector boundary counts as a crossing (R176, R199). -/
def sectorCross (a s sect : Nat) (d : Dev) : Dev :=
  if d.get (CU_DTCSTAT_SECT a) = sect then d
  else
    let iv := s - (d.sixOf a).tZc
    revolutionStep a (speedIn a iv false (d.onSix a fun h => { h with tZc := s }))

/-- Comparators, table and delivery of a tick (R190 to R194). -/
def steerTick (a s sect : Nat) (iu iw du dw idc : Int) (d : Dev) : Dev :=
  let d := slewFlux a d
  let d := compareTick a (d.torque a du dw) (d.psiMag a) (d.peakCur a iu iw) idc d
  let v := d.tableVec a sect s
  let d := (d.put (CU_DTCSTAT_SECT a) sect).put (CU_STATE_STEP a) sect
  if d.duty a then deliverDuty a v d
  else
    let (v, d) := dwell a v d
    vectorDirect a v d

/-- A tick's whole work (R186 to R199, R205 to R208). -/
def dtcTick (a s : Nat) (d : Dev) : Dev :=
  let t := d.dtcOf a
  let n := s - t.prevAt
  match d.tickCurrents a s with
  | none => d.onDtc a fun t => { t with noInt := t.noInt + 1, tickAt := none, prevAt := s }
  | some (iu, iw, age) =>
    let d := if age = 0 then takePeak a 1 (iu + iw) d else d
    let (du, d) := driveCurrent a iu d
    let (dw, d) := driveCurrent a iw d
    let d := (estimateTick a s iu iw du dw age d).onDtc a fun t => { t with tickAt := none }
    let idc := linkCur du dw n t.hi
    let d := d.put (CU_IDC_IDC a) (ux 16 idc)
    let (sect, d) := takeSector a d
    let psi := d.psiMag a
    let slow := decide ((d.speed a).natAbs < d.dnSpd a)
    if d.axSt a = .handover then
      if psi * 2 < d.psi0 a || 2 * d.psi0 a < psi || slow then abandonHandover a d
      else if (d.dtcOf a).hoReady then
        let d := (takeOver a psi d).put (CU_DTCSTAT_SECT a) sect
        let held := (d.dtcOf a).tHeld.getD 0
        steerTick a s sect iu iw du dw idc (d.onDtc a fun t => { t with tSnap := held })
      else d
    else
      let d := sectorCross a s sect d
      let d := decelUpdate a d
      if !d.inDtc a then d
      else if slow && d.isQuad a then setDriveState a .hiz d
      else if slow then handback a d
      else steerTick a s sect iu iw du dw idc d

/-- DTC_TICK (R18, R186): the vector of the tick whose sampling instant lay 45 counts ago reaches the drivers, or in
DTC-duty, 38 counts ago, the generator. -/
def execDtcTick (a : Fin 64) : State → Out :=
  onDev fun d =>
    match (d.dtcOf a).tickAt with
    | some s =>
      if d.ticking a && d.lowest a = a && d.now = s + (if d.duty a then 38 else 45) then dtcTick a s d else d
    | none => d

/-- FLUX_LOST (R189, R212): 64 ticks out of range, or without integration. -/
def execFluxLost (a : Fin 64) : State → Out :=
  onDev fun d =>
    let t := d.dtcOf a
    if d.ticking a && (64 ≤ t.psiBad || 64 ≤ t.noInt) then faultDrive a 13 0 d else d

/-- HANDOVER_TIMEOUT (R198): 4 × T_pred without two passed checks. -/
def execHandoverTimeout (a : Fin 64) : State → Out :=
  onDev fun d =>
    let t := d.dtcOf a
    if d.axSt a = .handover && !t.hoReady && decide (t.hoAt + 4 * d.get (CU_TPRED_T a) ≤ d.now) then abandonHandover a d
    else d

/-- The bonding of a quad is written (R200): in CONFIGURE only, and never QUAD with a PAIR bit (R3); the register of the
other three axes is a read-only copy. -/
def writeBond (a w : Nat) (d : Dev) : Dev :=
  if a % 4 ≠ 0 then d
  else if d.mode ≠ .configure || (w.testBit 2 && w % 4 ≠ 0) then d.put (CU_DTCSTAT_BONDERR a) 1
  else d.put ⟨CU_BOND a, 0, 3⟩ (w % 8)

/-- BOND_WRITE (R200). -/
def execBondWrite (m : Master) (a : Fin 64) (w : Word) : State → Out :=
  onDev (asAxisWriter m a (CU_BOND a) (writeBond a w.toNat))

/-- BOND_SHARE (R203, R204): a share out of tolerance for SHN revolutions; the member SHMEM names records code 12. -/
def execBondShare (a : Fin 64) : State → Out :=
  onDev fun d =>
    if max 1 (d.get (CU_BTOL_SHN a)) ≤ (d.dtcOf a).shBad && d.lowest a = a then
      faultDrive (4 * (a / 4) + d.get (CU_DTCSTAT_SHMEM a)) 12 0 (d.onDtc a fun t => { t with shBad := 0 })
    else d

/-- REVERSAL_WAIT_END (R209): back-EMF below BEMFMIN for WAIT ms; the axis starts in the other direction, under the
conditions of START (R178). -/
def execReversalWaitEnd (a : Fin 64) : State → Out :=
  onDev fun d =>
    let t := d.dtcOf a
    match t.revLow with
    | some l =>
      if t.revWaiting && decide (l + d.get (CU_REV_WAIT a) * 200000 ≤ d.now) then
        let r := d.startReason a
        if r = 0 then reversalRestart a d
        else (d.put (CU_STAT_REFUSE a) r).onDtc a fun t => { t with revWaiting := false, revOn := false }
      else d
    | none => d

end Sys2Proof.Machine
end

