-- ==== Sys2Proof/Machine/PealOps.lean ====
section
/-! DEFINITION. The coordinated mode change, or peal (R108 to R112, R268). -/

namespace Sys2Proof.Machine
open Sys2Proof Reg

/-- A migration of the axis is pending or in progress (R109). -/
def Dev.pealMigrating (d : Dev) (a : Nat) : Bool := d.migrating a

/-- The axis votes in hardware to refuse an action (R109). -/
def Dev.pealRefuses (d : Dev) (act a : Nat) : Bool :=
  let st := d.axSt a
  d.pealMigrating a || match act with
    | 0 => !(st = .off || st = .hiz) || d.get (CSL_PORT_ST (a / 4) (a % 4)) ≠ 1 || d.heldSafe a || d.releasing a
        || !AxState.permitted .catch_ d.mode
    | 1 => st = .off || st = .fault || st = .absent
    | 2 => st = .fault || st = .absent
    | 3 => !d.on (LE_LCTL_STAGED (a / 8) (a % 8)) || !(st = .sixstep || st = .handover || st = .dtc)
    | 4 => !(st = .sixstep || st = .dtc) || d.quadTooFast a
    | _ => !(d.get (LE_PROVED_PROVED (a / 8))).testBit (a % 8)

/-- The mask of SYS_PEAL_MLO and MHI. -/
def Dev.pealMask (d : Dev) : Nat := d.mask64 SYS_PEAL_MLO SYS_PEAL_MHI

/-- The writer hosts or supervises every axis of a mask (R108). -/
def Dev.pealHosts (d : Dev) (m : Master) (l : List Nat) : Bool :=
  match m with
  | .pair p => d.sup = p || l.all fun a => d.host a = p
  | .debug => true
  | _ => false

/-- A write of SYS_PEAL_CTL (R108, R109): ACTION and LEAD, and with GO a peal: refused outright, aborted by the hardware
checks, or voting. -/
def writePeal (m : Master) (w : Word) (d : Dev) : Dev :=
  let act := wordGet w 16 4
  let d := (d.put SYS_PEAL_CTL_ACTION act).put SYS_PEAL_CTL_LEAD (wordGet w 0 10)
  let l := axesOf d.pealMask
  if !w.toNat.testBit 31 then d
  else if d.peal.running then d.put SYS_PEAL_RES_RES 6
  else if l = [] || 5 < act || !d.pealHosts m l then (d.put SYS_PEAL_RES_NBAD 0).put SYS_PEAL_RES_RES 7
  else
    let d := ((d.setMask64 SYS_PEAL_FLO SYS_PEAL_FHI 0).setMask64 SYS_PEAL_XLO SYS_PEAL_XHI 0).put SYS_PEAL_RES_NBAD 0
    let d := (d.put SYS_PEAL_RES_RES 1).onPeal fun _ => {
      running := true, mask := d.pealMask, action := act, lead := max 2 (d.get SYS_PEAL_CTL_LEAD), goAt := d.now }
    let d := d.each l fun a d => if act = 4 && d.quadTooFast a then raiseAx a 8 d else d
    let bad := maskOf (l.filter (d.pealRefuses act))
    if bad = 0 then d else pealEnd 3 bad 0 d

/-- Every axis of the mask has its vote (R110). -/
def Dev.allVoted (d : Dev) : Bool := (axesOf d.peal.mask).all fun a => d.host a ∈ d.peal.voted

/-- A vote of a pair (R110, R111, R268): the code the PEAL instruction answers, and what the vote does. -/
def castVote (p : Nat) (accept : Bool) (d : Dev) : Nat × Dev :=
  let mine := (axesOf d.peal.mask).filter fun a => d.host a = p
  if mine = [] then (1, d)
  else if p ∈ d.peal.voted then (if d.peal.running then (3, d) else (1, d))
  else if !d.peal.running || d.peal.tc.isSome || d.peal.goAt + 20000 < d.now then (2, d)
  else
    let d := d.onPeal fun x => { x with voted := x.voted ++ [p] }
    if !accept then (0, pealEnd 3 (maskOf mine) 0 d)
    else if d.allVoted then
      let tc := d.now + 200 * d.peal.lead
      (0, (d.onPeal fun x => { x with tc := some tc }).put SYS_PEAL_TC_TC tc)
    else (0, d)

/-- PEAL_START (R108, R109): a write of SYS_PEAL_CTL. -/
def execPealStart (m : Master) (w : Word) : State → Out :=
  onDev fun d => match m with
    | .pair _ | .debug => writePeal m w d
    | _ => d

/-- PEAL_TIMEOUT (R110): 100 µs pass without every vote. -/
def execPealTimeout : State → Out :=
  onDev fun d =>
    if d.peal.running && d.peal.tc.isNone && decide (d.peal.goAt + 20000 ≤ d.now) then
      pealEnd 4 (maskOf ((axesOf d.peal.mask).filter fun a => !(d.host a ∈ d.peal.voted))) 0 d
    else d

/-- An axis applies the action at T_c (R111). A FORME action switches at its loop's first run at or after T_c. -/
def pealApply (act a tc : Nat) (d : Dev) : Dev :=
  match act with
  | 0 => if d.lowest a = a then doCmd a .start (d.get (CU_STATE_DIR a)) d else d
  | 1 => if d.lowest a = a then doCmd a .stop 0 d else d
  | 2 => if d.lowest a = a then doCmd a .coast 0 d else d
  | 3 => commitRefs (a / 8) (a % 8) d
  | 4 => if d.lowest a = a then doCmd a .reverse 0 d else d
  | _ => d.onEng (a / 8) fun g => { g with pealMask := g.pealMask ||| 2 ^ (a % 8), pealAt := tc }

/-- PEAL_COMMIT (R111, R112): at T_c every axis of the mask that has not taken its fault path starts the action. -/
def execPealCommit : State → Out :=
  onDev fun d =>
    match d.peal.running, d.peal.tc with
    | true, some tc =>
      if tc ≤ d.now then
        let mixed := d.peal.mixed
        let act := d.peal.action
        let l := (axesOf d.peal.mask).filter fun a => !mixed.testBit a
        let d := d.onPeal fun x => { x with running := false }
        pealEnd (if mixed = 0 then 2 else 5) 0 mixed (d.each l fun a d => pealApply act a tc d)
      else d
    | _, _ => d

end Sys2Proof.Machine
end

