-- ==== Sys2Proof/Machine/Modes.lean ====
section
/-! DEFINITION. Requests for a device mode and their completion (R45, R94 to R102). -/

namespace Sys2Proof.Machine
open Sys2Proof Reg

/-- The requested transitions that exist (R96). -/
def mayRequest (from_ dest : Mode) : Bool :=
  match from_, dest with
  | .configure, .standby => true
  | .standby, .configure | .standby, .armed | .standby, .transport | .standby, .calibrate | .standby, .service
  | .standby, .dormant => true
  | .transport, .dormant | .safe, .dormant => true
  | .armed, .run | .armed, .standby | .armed, .transport => true
  | .run, .armed | .run, .standby | .run, .transport => true
  | .transport, .standby | .calibrate, .standby | .service, .standby => true
  | .safe, .standby => true
  | .configure, .safe | .standby, .safe | .armed, .safe | .run, .safe | .transport, .safe | .calibrate, .safe
  | .service, .safe | .degraded, .safe => true
  | _, _ => false

/-- The target needs every axis OFF, FAULT or ABSENT (R96). -/
def needsRest (dest : Mode) : Bool := dest = .calibrate || dest = .service

/-- A cause of SAFE is present (R95). -/
def Dev.causePresent (d : Dev) : Bool :=
  d.on PSE_STAT_OVTEMP || !d.on TRU_STAT_PLLALK || !d.on TRU_STAT_PLLBLK || d.on FLT_STAT_LEVEL

/-- The reason a request is refused, 0 for not: the lowest code that applies (R95, R96). -/
def Dev.modeRefusal (d : Dev) (dest : Mode) : Nat :=
  if !mayRequest d.mode dest then 1
  else if needsRest dest && !(allAxes.all fun a => (d.axSt a).atRest) then 2
  else if d.mode = .safe && dest = .standby && d.causePresent then 3
  else if d.on SYS_MODE_PEND then 4
  else if dest = .configure && d.get JNL_STAT_MODE = 2 then 5
  else if d.mode = .configure && dest = .standby && !d.formeValid then 7
  else 0

/-- Some axis has no host: a pair has been lost with no spare left (R96, R97). -/
def Dev.pairLost (d : Dev) : Bool := allAxes.any fun a => d.host a = 7

/-- The test of the CLAMP resistor on entry to ARMED, with the resistance it finds in mΩ, 0xFFFF for open (R45, R69). -/
def clampTest (r : Nat) (d : Dev) : Dev :=
  if d.on PSE_CFG_CLMPEN then
    let d := d.put PSE_CLAMP_RCLMP r
    if r = 0xFFFF then raisePse 6 d else d
  else d

/-- Entry to ARMED (R45, R104): the CLAMP test, then PROBE falls due on every identified port. -/
def enterArmed (r : Nat) (d : Dev) : Dev :=
  (clampTest r d).each allAxes fun a d =>
    if d.get (CSL_PORT_ST (a / 4) (a % 4)) = 1 && d.axSt a = .off then d.onPort a fun p => { p with probeDue := true } else d

/-- Enter a requested mode now. SAFE left for STANDBY with a pair lost leads to DEGRADED (R96). -/
def enterRequested (dest : Mode) (r : Nat) (x : DM) : DM :=
  let dest := if x.1.mode = .safe && dest = .standby && x.1.pairLost then .degraded else dest
  if dest = .dormant then enterDormant false 0 x
  else x.dev fun d =>
    let d := enterMode dest false 0 d
    if dest = .armed then enterArmed r d else d

/-- The axes must come to rest before the target is entered (R98, R100): out of RUN, out of SERVICE with axes turning, and
wherever an axis stands in a state the target does not permit. -/
def Dev.mustStop (d : Dev) (dest : Mode) : Bool :=
  d.mode = .run || (d.mode = .service && !(allAxes.all fun a => (d.axSt a).atRest))
    || allAxes.any fun a => !(d.axSt a).atRest && !(d.axSt a).permitted dest

/-- A request for a mode (R95, R96, R98). `src`: the journal's source; `r`: what the CLAMP test would find. -/
def requestMode (dest : Option Mode) (src r : Nat) (x : DM) : DM :=
  let refuse := fun (c : Nat) => x.dev fun d => journal 2 src [SYS_MODEREQ, c] (d.put SYS_MODE_REFUSE c)
  match dest with
  | none => refuse 1
  | some m =>
    let c := x.1.modeRefusal m
    if c ≠ 0 then refuse c
    else if x.1.mustStop m then
      x.dev fun d =>
        let d := ((d.put SYS_MODE_PEND 1).put SYS_MODE_TARGET m.code).onSys fun h => { h with
          pendSince := some d.now, autoPend := false }
        d.each allAxes fun a d => if d.lowest a = a then stopForChange a d else d
    else enterRequested m r x

/-- A write of SYS_MODEREQ (R95): without GO it requests nothing. -/
def writeModeReq (w : Word) (r : Nat) (x : DM) : DM :=
  if w.toNat.testBit 31 then requestMode (Mode.ofCode (wordGet w 0 4)) 0 r x else x

/-- MODE_REQUEST (R95, R96, R98): a write of SYS_MODEREQ. -/
def execModeRequest (m : Master) (w : Word) (r : Fin 65536) : State → Out :=
  onDM fun x => match m with
    | .pair _ | .debug => writeModeReq w r x
    | _ => x

/-- CONSOLE_MODE_REQUEST (R95): the SERVICE console requests SERVICE or STANDBY. -/
def execConsoleModeRequest (service : Bool) : State → Out :=
  onDM fun x => requestMode (some (if service then .service else .standby)) 3 0 x

/-- MODE_CHANGE_COMPLETE (R98): every axis is OFF, FAULT or ABSENT, and the pending target is entered. -/
def execModeChangeComplete (r : Fin 65536) : State → Out :=
  onDM fun x =>
    if x.1.on SYS_MODE_PEND && allAxes.all fun a => (x.1.axSt a).atRest then
      if x.1.sys.autoPend then x.dev fun d => autoSafe 2 (d.put SYS_MODE_PEND 0)
      else match Mode.ofCode (x.1.get SYS_MODE_TARGET) with
        | some m => enterRequested m r x
        | none => x
    else x

/-- STOP_TIMEOUT (R71, R98): the axes are not at rest within SYS_STOPTO; the change is abandoned with reason 6. The
automatic change of an over-temperature is made all the same. -/
def execStopTimeout : State → Out :=
  onDev fun d =>
    match d.sys.pendSince with
    | some t =>
      if d.on SYS_MODE_PEND && decide (t + max 1 (d.get SYS_STOPTO_MS) * 200000 ≤ d.now) then
        if d.sys.autoPend then autoSafe 2 (d.put SYS_MODE_PEND 0)
        else journal 2 0 [SYS_MODEREQ, 6] (((d.put SYS_MODE_PEND 0).put SYS_MODE_REFUSE 6).onSys fun h => { h with
          pendSince := none })
      else d
    | none => d

/-- HIZ_TIMEOUT (R100): the back-EMF of the drive has stayed below 0.5 V for 10 ms. -/
def execHizTimeout (a : Fin 64) : State → Out :=
  onDev fun d =>
    let low := fun (m : Nat) => match (d.sixOf m).bemfLow with | some t => decide (t + 2000000 ≤ d.now) | none => false
    if d.axSt a = .hiz && d.lowest a = a && (d.members a).all low then setDriveState a .off d else d

/-- DORMANT_AUTO (R102): SYS_DLY seconds in STANDBY, TRANSPORT or SAFE without LOGIC main. -/
def execDormantAuto : State → Out :=
  onDM fun x =>
    match x.1.sys.autoSince with
    | some t =>
      let s := x.1.get SYS_DLY_SEC
      if s ≠ 0 && decide (t + s * 200000000 ≤ x.1.now) then enterDormant true 5 x else x
    | none => x

end Sys2Proof.Machine
end

