-- ==== Sys2Proof/Machine/Scu.lean ====
section
/-! DEFINITION. Commands of the strike/capture unit (R241 to R254): starting and aborting a session, its sample clock, the
compressed blocks it writes to capture RAM. -/

namespace Sys2Proof.Machine
open Sys2Proof Reg

/-! Compressed blocks (R248, R249). -/

/-- The closed-loop deltas of samples after the first with shift `s`, up to the first that does not fit. -/
def deltas (s : Nat) : Int → List Int → List Int
  | _, [] => []
  | rec, x :: t =>
    let dk := rha (x - rec) (2 ^ s)
    if dk.natAbs ≤ 127 then dk :: deltas s (rec + dk * 2 ^ s) t else []

/-- The shift and the deltas of a block of at most 16 samples (R249). -/
def encodeBlock (smax : Nat) (xs : List Int) : Nat × List Int :=
  match xs with
  | [] => (0, [])
  | x :: t =>
    let t := t.take 15
    match (List.range (smax + 1)).find? fun s => (deltas s x t).length = t.length with
    | some s => (s, deltas s x t)
    | none => (smax, deltas smax x t)

/-- The bytes of a data block (R248). -/
def blockBytes (x0 : Int) (s : Nat) (ds : List Int) (fin : Bool) (c count : Nat) : List Nat :=
  let pad := ds.map (ux 8) ++ List.replicate (15 - ds.length) 0x80
  [ux 8 x0, ux 16 x0 / 256, s + (if fin then 16 else 0), c] ++ pad ++ [count % 256]

/-! The buffer (R251). -/

/-- The bytes of a session's buffer that hold blocks. -/
def Dev.bufLen (d : Dev) (s : Nat) : Nat := d.get (SCU_CBUF_SIZE s) * 4096 / 20 * 20

/-- The address of a session's buffer. -/
def Dev.bufBase (d : Dev) (s : Nat) : Nat := 0x18000000 + d.get (SCU_CBUF_BASE s) * 4096

/-- Bytes to write: the address and the bytes of each block. -/
abbrev Blocks := List (Nat × List Nat)

/-- Write a block at the write pointer and move past it (R251): a full ONESHOT buffer ends the capture, a RING wraps;
SCU_RING marks the middle and the end. -/
def putBlock (s : Nat) (bs : List Nat) (x : Dev × Blocks) : Dev × Blocks :=
  let d := x.1
  let n := d.bufLen s
  let p := d.get (SCU_CWPTR_PTR s)
  if !(d.sessOf s).capOn || n < p + 20 then x
  else
    let w := x.2 ++ [(d.bufBase s + p, bs)]
    let q := p + 20
    let atEnd := q = n
    let d := d.put (SCU_CWPTR_PTR s) q
    if d.on (SCU_SCTL_RING s) then
      let d := if atEnd || (p < n / 2 && n / 2 ≤ q) then raiseScu s 2 d else d
      (if atEnd then (d.put (SCU_CWPTR_PTR s) 0).put (SCU_CWPTR_LAP s) (d.get (SCU_CWPTR_LAP s) + 1) else d, w)
    else (if atEnd then (d.put (SCU_SSTAT_FULL s) 1).onSess s fun h => { h with capOn := false } else d, w)

/-- Channel `c` of a session. -/
def Dev.chanOf (d : Dev) (s c : Nat) : ChanH := tget {} (d.sessOf s).chans c

/-- Replace a channel of a session. -/
def onChan (s c : Nat) (f : ChanH → ChanH) (d : Dev) : Dev :=
  d.onSess s fun h => { h with chans := tset {} h.chans c (f (tget {} h.chans c)) }

/-- Write the next block of a channel's open samples; `fin`: the segment closes. -/
def putChan (s c : Nat) (fin : Bool) (x : Dev × Blocks) : Dev × Blocks :=
  let h := x.1.chanOf s c
  match h.open_ with
  | [] => x
  | x0 :: _ =>
    let e := encodeBlock (min 8 (x.1.get (SCU_CCFG_SMAX s c))) h.open_
    let rest := h.open_.drop (e.2.length + 1)
    let bs := blockBytes x0 e.1 e.2 (fin && rest.isEmpty) c h.count
    putBlock s bs (onChan s c (fun h => { h with open_ := rest, count := (h.count + 1) % 256 }) x.1, x.2)

/-- Close a channel's open block with END (R250). -/
def closeChan (s c : Nat) : Nat → Dev × Blocks → Dev × Blocks
  | 0, x => x
  | n + 1, x => if (x.1.chanOf s c).open_ = [] then x else closeChan s c n (putChan s c true x)

/-- The enabled channels of a session. -/
def Dev.chanMask (d : Dev) (s : Nat) : List Nat := (List.range 4).filter fun c => d.on (SCU_CCFG_EN s c)

/-- Close every channel of a segment. -/
def closeAll (s : Nat) (x : Dev × Blocks) : Dev × Blocks := [0, 1, 2, 3].foldl (fun x c => closeChan s c 17 x) x

/-- The nominal period of a session's clock in counts (R250). -/
def Dev.nomPeriod (d : Dev) (s : Nat) : Nat :=
  let e := d.get (SCU_STGT_ENG s)
  let k := d.get (SCU_STGT_LOOP s)
  let a := 8 * e + k
  match d.get (SCU_SCLK_SRC s) with
  | 0 => (match d.runEntry e k with | some x => (d.engOf e).len * x.div | none => 0)
  | 1 => d.per (a % 64)
  | 2 => if d.duty (a % 64) then d.per (a % 64) else d.tickPer (a % 64)
  | _ => max 50 (d.get (SCU_SCLK_DIV s))

/-- The header of a segment (R250). -/
def headerBytes (s : Nat) (d : Dev) : List Nat :=
  let h := d.sessOf s
  bytesLE 2 (min 65535 h.dropped) ++ [0xFF, maskOf (d.chanMask s) + 16 * d.get (SCU_SCLK_SRC s)]
    ++ bytesLE 8 d.now ++ bytesLE 4 (d.nomPeriod s) ++ bytesLE 4 (ux 32 (d.strikeIdx s))

/-! The sample clock (R246, R247, R251). -/

/-- Whether a clock of the session falls now (R246). -/
def Dev.clockNow (d : Dev) (s : Nat) : Bool :=
  let h := d.sessOf s
  let e := d.get (SCU_STGT_ENG s)
  let k := d.get (SCU_STGT_LOOP s)
  let a := (8 * e + k) % 64
  d.sys.logicOn && (h.strikeOn || h.capOn || d.sessRunning s) && h.clkAt ≠ some d.now && decide (h.go + 100 ≤ d.now) &&
    match d.get (SCU_SCLK_SRC s) with
    | 0 => (d.loopOf e k).ranAt = some d.now
    | 1 => k < 8 && d.atStart a
    | 2 => k < 8 && d.inDtc a && d.onTick a d.now
    | _ => (d.now - (h.go + 100)) % max 50 (d.get (SCU_SCLK_DIV s)) = 0

/-- The sample of a channel (R247). -/
def sampleOf (s c : Nat) (d : Dev) : Int × Dev :=
  let shr := d.get (SCU_CCFG_SHR s c)
  let kind := d.get (SCU_CCFG_KIND s c)
  if kind = 2 then (satS 16 (rha (d.strikeVal s) (2 ^ shr)), d)
  else
    let addr := (d.reg (SCU_CSRC s c)).toNat / 4 * 4
    let w := d.viewCore addr
    let rc := rcMask addr
    let d := if rc = 0 then d else d.setReg addr (d.reg addr &&& ~~~rc)
    if kind = 1 then (resultValue w, d) else (satS 16 (rha (sx 32 w.toNat) (2 ^ shr)), d)

/-- Capture at a clock: the window's limit, a new segment where one opens, one sample of every enabled channel. -/
def captureClock (s : Nat) (x : Dev × Blocks) : Dev × Blocks :=
  let d := x.1
  let h := d.sessOf s
  let cs := d.chanMask s
  let win := d.now / 200000
  let d := if h.win = win then d else d.onSess s fun h => { h with win := win, taken := 0, dropRaised := false }
  let h := d.sessOf s
  if min 4000 (d.get (SCU_CBW_BWMAX s)) < h.taken + cs.length then
    let d := if h.dropRaised then d else raiseScu s 1 d
    ((d.bump (SCU_CDROP_CNT s) 1).onSess s fun h => { h with dropRaised := true, dropped := h.dropped + 1 }, x.2)
  else
    let per := d.nomPeriod s
    let fresh := h.period = 0 || h.dropped ≠ 0 || h.period ≠ per
    let y := if fresh && cs ≠ [] then
        let y := closeAll s (d, x.2)
        let y := putBlock s (headerBytes s y.1) y
        (y.1.onSess s fun h => { h with period := max 1 per, dropped := 0 }, y.2)
      else (d, x.2)
    let y := cs.foldl (fun y c =>
      let v := sampleOf s c y.1
      let d := onChan s c (fun h => { h with open_ := h.open_ ++ [v.1] }) v.2
      if 16 ≤ (d.chanOf s c).open_.length then putChan s c false (d, y.2) else (d, y.2)) y
    (y.1.onSess s fun h => { h with taken := h.taken + cs.length, captured := h.captured + 1 }, y.2)

/-- The end of a ONESHOT capture after NCAP clocks (R251). -/
def captureEnd (s : Nat) (x : Dev × Blocks) : Dev × Blocks :=
  let h := x.1.sessOf s
  if h.capOn && !x.1.on (SCU_SCTL_RING s) && decide (x.1.get (SCU_CNCAP_NCAP s) ≤ h.captured) then
    let y := closeAll s x
    (y.1.onSess s fun h => { h with capOn := false }, y.2)
  else x

/-- Apply sample `k` of a TEST strike (R244, R245). -/
def testStrike (s : Nat) (d : Dev) : Dev :=
  match d.sessAxis s with
  | some a =>
    if d.sessRunning s && d.get (SCU_STGT_POINT s) = 4 && d.axSt a = .test then
      let v := clampI 0 (d.per a) (sx 32 (d.reg (SCU_SBIAS s)).toNat + d.strikeVal s)
      let w := w32 v.toNat
      loadAll a (writeShadow a (PWM_CMPW a) w (writeShadow a (PWM_CMPV a) w (writeShadow a (PWM_CMPU a) w d)))
    else d
  | none => d

/-- A session is DONE when its strike and its capture have ended (R252). -/
def sessDone (s : Nat) (d : Dev) : Dev :=
  let h := d.sessOf s
  if d.sessRunning s && !h.strikeOn && !h.capOn && !d.on (SCU_SCTL_RING s) then
    raiseScu s 0 ((d.put (SCU_SSTAT_STATE s) 2).onSess s fun h => { h with doneAt := some d.now })
  else d

/-- A clock of a session (R243 to R252). -/
def sampleClock (s : Nat) (d : Dev) : Dev × Blocks :=
  let d := testStrike s d
  let x := if (d.sessOf s).capOn then captureEnd s (captureClock s (d, [])) else (d, [])
  let d := strikeEnd s (strikeAdvance s x.1)
  (sessDone s (d.onSess s fun h => { h with clocks := h.clocks + 1, clkAt := some d.now }), x.2)

/-- SAMPLE_CLOCK (R246): a session clock applies the strike sample and captures every enabled channel. -/
def execSampleClock (i : Fin 4) (s : State) : Out :=
  if s.dev.clockNow i then
    let x := sampleClock i s.dev
    .next { s with dev := x.1, mem := x.2.foldl (fun m b => memWriteBytes m b.1 b.2) s.mem }
  else .next s

/-! Starting and aborting (R241, R242, R252). -/

/-- The bytes of capture RAM a session's buffer occupies, as first and end. -/
def Dev.bufSpan (d : Dev) (s : Nat) : Nat × Nat :=
  let b := d.get (SCU_CBUF_BASE s) * 4096
  (b, b + d.get (SCU_CBUF_SIZE s) * 4096)

/-- A channel source lies in a cluster block, or in the registers and state memory of a loop engine (R247). -/
def chanSource (addr : Nat) : Bool :=
  (0x40100000 ≤ addr && addr < 0x40110000)
    || (0x40400000 ≤ addr && addr < 0x40480000 && addr % 0x10000 < 0x1C00)

/-- The session has a target loop or axis: its point strikes, or its clock is the target's (R244, R246). -/
def Dev.hasTarget (d : Dev) (s : Nat) : Bool := d.get (SCU_STGT_POINT s) ≠ 0 || d.get (SCU_SCLK_SRC s) ≠ 3

/-- The owner may strike at the target (R242). -/
def Dev.scuHosts (d : Dev) (s : Nat) : Bool :=
  let o := d.get (SCU_SCTL_OWN s)
  let e := d.get (SCU_STGT_ENG s)
  let k := d.get (SCU_STGT_LOOP s)
  if k < 8 then o ≤ 4 && (d.host (8 * e + k) = o || d.sup = o)
  else o ≤ 4 && (if k < 16 then d.get (LE_PLOWN0_OWN e (k - 8)) = o else k < 24 && d.get (LE_PLOWN1_OWN e (k - 16)) = o)

/-- The point is permitted in the present mode and axis state (R244). -/
def Dev.pointOk (d : Dev) (s : Nat) : Bool :=
  let p := d.get (SCU_STGT_POINT s)
  match d.sessAxis s with
  | some a => pointMode p d.mode && pointPermits p (d.axSt a)
  | none => p ≤ 3 && (p ≠ 0 || d.mode ≠ .dormant)

/-- The clock source suits the point (R246). -/
def Dev.clockOk (d : Dev) (s : Nat) : Bool :=
  let p := d.get (SCU_STGT_POINT s)
  match d.get (SCU_SCLK_SRC s) with
  | 0 => p ≤ 3
  | 1 => p = 0 || p = 4
  | _ => p = 0

/-- The target runs (R242): its loop is enabled in the forme, and its axis is the lowest member of its drive. -/
def Dev.targetOk (d : Dev) (s : Nat) : Bool :=
  let e := d.get (SCU_STGT_ENG s)
  let k := d.get (SCU_STGT_LOOP s)
  let p := d.get (SCU_STGT_POINT s)
  let loop := (1 ≤ p && p ≤ 3) || d.get (SCU_SCLK_SRC s) = 0
  (!loop || (k < 24 && d.loopEn e (d.formeBank e k) k)) && (8 ≤ k || d.lowest (8 * e + k) = 8 * e + k)

/-- Why a start is refused, 0 for not (R242). -/
def Dev.startCause (d : Dev) (s : Nat) : Nat :=
  let others := (List.range 4).filter fun t => t ≠ s && d.sessRunning t
  let same := others.any fun t => d.reg (SCU_STGT t) = d.reg (SCU_STGT s) && d.get (SCU_STGT_POINT s) ≠ 0
  let chans := d.chanMask s
  let (b, e) := d.bufSpan s
  let used := d.on (SCU_SCTL_RING s) || d.get (SCU_CNCAP_NCAP s) ≠ 0
  if d.sessRunning s then 1
  else if d.hasTarget s && !d.scuHosts s then 2
  else if same then 3
  else if d.nomPeriod s ≠ 0 && d.nomPeriod s < 50 * chans.length then 4
  else if !d.pointOk s then 5
  else if !d.clockOk s then 6
  else if d.hasTarget s && !d.targetOk s then 7
  else if chans.any fun c => d.get (SCU_CCFG_KIND s c) ≠ 2 && !chanSource (d.reg (SCU_CSRC s c)).toNat then 8
  else if used && chans ≠ [] && (2048 * 4096 < e || d.bufLen s < 40
      || others.any fun t => decide ((d.bufSpan t).1 < e) && decide (b < (d.bufSpan t).2)) then 9
  else 0

/-- Start a session, or refuse it with its cause (R242). -/
def startSess (s : Nat) (d : Dev) : Dev :=
  let c := d.startCause s
  if c ≠ 0 then
    if c = 1 then d.put (SCU_SSTAT_CAUSE s) c else (d.put (SCU_SSTAT_STATE s) 4).put (SCU_SSTAT_CAUSE s) c
  else
    let d := (((d.put (SCU_SSTAT_STATE s) 1).put (SCU_SSTAT_CAUSE s) 0).put (SCU_SSTAT_FULL s) 0).setReg (SCU_CWPTR s) 0
    let cap := d.on (SCU_SCTL_RING s) || d.get (SCU_CNCAP_NCAP s) ≠ 0
    let seed := d.prbsSeed s
    let hold := d.get (SCU_SSIG_HOLD s)
    d.onSess s fun _ => { go := d.now, strikeOn := true, capOn := cap, lfsr := seed, bitLeft := hold }

/-- Abort a session by its user (R252): a RING session ends DONE. -/
def userAbort (s : Nat) (d : Dev) : Dev :=
  if d.sessRunning s && d.on (SCU_SCTL_RING s) then
    raiseScu s 0 (((d.put (SCU_SSTAT_STATE s) 2).put (SCU_SSTAT_CAUSE s) 10).onSess s fun h =>
      { h with strikeOn := false, capOn := false })
  else sessAbort s 10 d

/-- The writers of a session's registers (R241): the owning pair and the supervising pair; OWN itself changes only by the
supervising pair. -/
def Dev.sessRights (d : Dev) (m : Master) (s : Nat) : Bool :=
  match m with
  | .debug => true
  | .pair p => d.sup = p || d.get (SCU_SCTL_OWN s) = p
  | _ => false

/-- A write of SCU_SCTL (R241, R242, R252, R253): RING and OWN take the word, ABORT wins over GO. -/
def writeSctl (m : Master) (s : Nat) (w : Word) (d : Dev) : Dev :=
  let ownOk := d.supRights m || wordGet w 0 3 = d.get (SCU_SCTL_OWN s)
  if d.sessRights m s && ownOk then
    let d := (d.put (SCU_SCTL_RING s) (wordGet w 8 1)).put (SCU_SCTL_OWN s) (wordGet w 0 3)
    if w.getLsbD 30 then userAbort s d else if w.getLsbD 31 then startSess s d else d
  else busError m 6 (SCU_SCTL s) true d

/-- SESSION_START (R242): a write of SCU_SCTL with GO. -/
def execSessionStart (m : Master) (s : Fin 4) (ring : Bool) (own : Fin 8) : State → Out :=
  onDev (writeSctl m s (w32 (0x80000000 + (if ring then 256 else 0) + own.val)))

/-- SESSION_ABORT (R252, R253): a write of SCU_SCTL with ABORT. -/
def execSessionAbort (m : Master) (s : Fin 4) (go ring : Bool) (own : Fin 8) : State → Out :=
  onDev (writeSctl m s (w32 ((if go then 0x80000000 else 0) + 0x40000000 + (if ring then 256 else 0) + own.val)))

/-- SESSION_FAULT_ABORT (R252): the target of a running session has faulted, left the permitted states or gone, or the
mode forbids the point. -/
def execSessionFaultAbort (s : Fin 4) : State → Out :=
  onDev fun d =>
    if !d.sessRunning s || d.get (SCU_STGT_POINT s) = 0 then d
    else match d.sessAxis s with
      | some a =>
        let st := d.axSt a
        let p := d.get (SCU_STGT_POINT s)
        if st = .absent then sessAbort s 14 d
        else if st = .fault then sessAbort s 12 d
        else if !pointMode p d.mode then sessAbort s 13 d
        else if !pointPermits p st then sessAbort s 11 d
        else d
      | none =>
        if d.on (LE_LSTAT_HOLD (d.get (SCU_STGT_ENG s)) (d.get (SCU_STGT_LOOP s))) then sessAbort s 12 d else d

end Sys2Proof.Machine
end

