-- ==== Sys2Proof/Machine/Window.lean ====
section
/-! DEFINITION. The shared-window controller (R358, R359, R363) and the window protocol the agent serves (R360 to R362). -/

namespace Sys2Proof.Machine
open Sys2Proof Reg

/-- Raise an SWC event 928 + n (R365). -/
def raiseSwc (n : Nat) (d : Dev) : Dev := raiseIn SWC_EVT 928 n d

/-- A segment word's OWN (R358). -/
def segOwn (w : Word) : Nat := wordGet w 0 2
/-- A segment word's PAIR (R358). -/
def segPair (w : Word) : Nat := wordGet w 4 3

/-- A segment word as it stood at the start of the present cycle (R358, R363). -/
def Dev.segAtStart (d : Dev) (n : Nat) : Word :=
  match tget none d.win.prev n with
  | some (t, w) => if t = d.now then w else d.reg (SWC_SEG n)
  | none => d.reg (SWC_SEG n)

/-- A transition of a segment by a writing pair (R359): from the owner to another, or a change of its flags alone. -/
def Dev.segAllowed (d : Dev) (p : Nat) (old new : Word) : Bool :=
  let sup := p = d.sup
  let o := segPair old
  match segOwn old, segOwn new with
  | 0, 0 => true
  | 0, 1 => segPair new ≤ 4 && (p = segPair new || sup)
  | 0, 2 => p = d.agent
  | 1, 0 => p = o || sup
  | 1, 1 => (segPair new = o && (p = o || sup)) || (sup && segPair new ≤ 4 && d.pairSt o = .failed)
  | 1, 2 => p = o || sup
  | 2, 0 => p = d.agent || sup
  | 2, 2 => p = d.agent || sup
  | _, _ => false

/-- Give a segment its new word; a change of owner raises SWC_OWN (R359), and SWC_HSUM follows. -/
def setSeg (n : Nat) (new : Word) (d : Dev) : Dev :=
  let old := d.reg (SWC_SEG n)
  let start := d.segAtStart n
  let d := (d.setReg (SWC_SEG n) new).onWin fun w => { w with prev := tset none w.prev n (some (d.now, start)) }
  let d := if segOwn new = 2 then d.setBit64 SWC_HSUM_LO SWC_HSUM_HI n else d.clrBit64 SWC_HSUM_LO SWC_HSUM_HI n
  if segOwn old ≠ segOwn new || (segOwn new = 1 && segPair old ≠ segPair new) then raiseSwc 0 d else d

/-- A write of SWC_SEGn (R359). -/
def writeSeg (m : Master) (n : Nat) (w : Word) (d : Dev) : Dev :=
  let new := w &&& 0x373#32
  match d.asPair m with
  | some p => if d.segAllowed p (d.reg (SWC_SEG n)) new then setSeg n new d else d.put SWC_STAT_OWNERR 1
  | none => d.put SWC_STAT_OWNERR 1

/-- SEGMENT_OWNERSHIP (R359). -/
def execSegmentOwnership (m : Master) (n : Fin 64) (w : Word) : State → Out := onDev (writeSeg m n w)

/-- A pair's write at an address of the window is performed (R358), by the flags at the start of the cycle. -/
def Dev.winWriteOk (d : Dev) (m : Master) (addr : Nat) : Bool :=
  let s := d.segAtStart ((addr - 0x103C0000) / 4096 % 64)
  match d.asPair m with
  | some p => (segOwn s = 1 && (p = segPair s || p = d.sup)) || (segOwn s = 2 && p = d.agent)
  | none => false

/-- A refused pair write at an address of the window (R358): SUB 6, VIOL, SWC_VADDR and SWC_VIOL. -/
def winRefuse (m : Master) (addr : Nat) (d : Dev) : Dev :=
  busError m 6 addr true (raiseSwc 1 ((d.put SWC_STAT_VIOL 1).setReg SWC_VADDR (w32 addr)))

/-! The window protocol (R360 to R362). -/

/-- The header of a command (R360). -/
def winHead (op seq nw : Nat) : Nat := op * 2 ^ 24 + seq * 2 ^ 16 + nw

/-- The CRC of a command or response: over two words, each least significant byte first (R360). -/
def winCrc (a b : Nat) : Nat := crc32c (bytesLE 4 a ++ bytesLE 4 b)

/-- The data words of a response: window words for READ, segment words for STATUS (R360). -/
def winData (status op ofs nw : Nat) (x : DM) : List Nat :=
  if status ≠ 0 then []
  else if op = 1 then (List.range nw).map fun i => memWord x.2 (0x103C0000 + ofs + 4 * i)
  else if op = 5 then (List.range 64).map fun n => (x.1.reg (SWC_SEG n)).toNat
  else []

/-- Place the response of a command and set ATTN (R361, R362). -/
def winPlace (seq status op ofs nw : Nat) (x : DM) : DM :=
  let data := winData status op ofs nw x
  let w0 := 0x5A000000 + seq * 2 ^ 16 + status * 2 ^ 8 + op
  let resp := [w0, data.length, winCrc w0 data.length] ++ data
  x.dev fun d => (d.put SP1_CTL_ATTN 1).onWin fun h => { h with resp := resp }

/-- Place the response of a command that was carried out, and keep it for a repeat (R361). -/
def winKeep (seq status op ofs nw : Nat) (x : DM) : DM :=
  winPlace seq status op ofs nw (x.dev fun d => d.onWin fun h => { h with last := some (seq, status, op, ofs, nw) })

/-- What a command finds wrong with its range or its segment, 0 for nothing (R361): the range first, then the owner. -/
def winCheck (op ofs nw : Nat) (d : Dev) : Nat :=
  let s := d.reg (SWC_SEG (ofs / 4096 % 64))
  if op = 5 || op = 6 then 0
  else if 0x40000 ≤ ofs || ofs % 4 ≠ 0 || ((op = 1 || op = 2) && 4096 < ofs % 4096 + 4 * nw) then 4
  else if op = 1 && segOwn s ≠ 2 && !s.getLsbD 8 then 3
  else if (op = 2 || op = 4) && segOwn s ≠ 2 then 3
  else if op = 3 && segOwn s ≠ 0 then 3
  else 0

/-- A window command (R360, R361). `crc`: the CRC word that came with it; `act`: what it does when nothing is wrong,
with a status of its own. A failed CRC leaves the expected SEQ; a command one below it is a repeat, answered as before with
READ data read afresh. -/
def winCommand (op seq ofs nw : Nat) (crc : Word) (act : DM → Nat × DM) (x : DM) : DM :=
  if winCrc (winHead op seq nw) ofs ≠ crc.toNat then winPlace seq 1 op ofs nw x
  else if op = 6 then winKeep seq 0 6 ofs nw (x.dev fun d => d.onWin fun h => { h with expect := some ((seq + 1) % 256) })
  else
    match x.1.win.expect with
    | none => winPlace seq 2 op ofs nw x
    | some e =>
      if seq = e then
        let x := x.dev fun d => d.onWin fun h => { h with expect := some ((e + 1) % 256) }
        let st := winCheck op ofs nw x.1
        if st ≠ 0 then winKeep seq st op ofs nw x
        else let (st, x) := act x; winKeep seq st op ofs nw x
      else if (seq + 1) % 256 = e then
        match x.1.win.last with
        | some (s, st, o, f, n) => winPlace s st o f n x
        | none => winPlace seq 2 op ofs nw x
      else winPlace seq 2 op ofs nw x

/-- WINDOW_READ (R360). -/
def execWindowRead (seq : Fin 256) (ofs : Word) (nw : Fin 65536) (crc : Word) : State → Out :=
  onDM (winCommand 1 seq ofs.toNat nw crc fun x => (0, x))

/-- WINDOW_WRITE (R360, R361): `data` are the words that arrived; fewer than NW write nothing. -/
def execWindowWrite (seq : Fin 256) (ofs : Word) (nw : Fin 65536) (crc : Word) (data : List Word) : State → Out :=
  onDM (winCommand 2 seq ofs.toNat nw crc fun x =>
    if data.length < nw.val then (6, x)
    else (0, (x.1, memWriteBytes x.2 (0x103C0000 + ofs.toNat)
      ((data.take nw.val).map fun w => bytesLE 4 w.toNat).flatten)))

/-- A segment changes hands on the host's word, and the change is journalled (R361). -/
def winOwn (op ofs own : Nat) (d : Dev) : Dev :=
  let n := ofs / 4096 % 64
  journal 1 0 [op, n] (setSeg n (wordPut (d.reg (SWC_SEG n)) 0 2 own) d)

/-- WINDOW_CLAIM (R360). -/
def execWindowClaim (seq : Fin 256) (ofs : Word) (nw : Fin 65536) (crc : Word) : State → Out :=
  onDM (winCommand 3 seq ofs.toNat nw crc fun x => (0, x.dev (winOwn 3 ofs.toNat 2)))

/-- WINDOW_RELEASE (R360). -/
def execWindowRelease (seq : Fin 256) (ofs : Word) (nw : Fin 65536) (crc : Word) : State → Out :=
  onDM (winCommand 4 seq ofs.toNat nw crc fun x => (0, x.dev (winOwn 4 ofs.toNat 0)))

/-- WINDOW_STATUS (R360). -/
def execWindowStatus (seq : Fin 256) (ofs : Word) (nw : Fin 65536) (crc : Word) : State → Out :=
  onDM (winCommand 5 seq ofs.toNat nw crc fun x => (0, x))

/-- WINDOW_SYNC (R360). -/
def execWindowSync (seq : Fin 256) (ofs : Word) (nw : Fin 65536) (crc : Word) : State → Out :=
  onDM (winCommand 6 seq ofs.toNat nw crc fun x => (0, x))

/-- WINDOW_RESPONSE (R361, R362): the host reads the placed response, or the busy pattern before there is one; ATTN goes
with the header. -/
def execWindowResponse : State → Out :=
  onDev fun d =>
    if d.win.resp = [] then d.onWin fun h => { h with out := [d.get ⟨SP1_BUSY, 0, 32⟩] }
    else (d.put SP1_CTL_ATTN 0).onWin fun h => { h with out := h.resp, resp := [] }

end Sys2Proof.Machine
end

