-- ==== Sys2Proof/Machine/Regs.lean ====
section
/-! DEFINITION. What a write of a register does and what a read of it answers, block by block (R8 to R11): who may write a
block is checked first, for every offset of it; then the register's action, or the plain store of its fields. -/

namespace Sys2Proof.Machine
open Sys2Proof Reg

/-- Store a word in a register by its fields' access types (R10): RW fields take the written bits, W1C bits written 1
clear; everything else stays. An address without a register stays 0 (R8). -/
def storeReg (addr : Nat) (w : Word) (d : Dev) : Dev :=
  match rowAt addr with
  | some r =>
    let old := d.reg addr
    let new := (old &&& ~~~(w32 r.rw)) ||| (w &&& w32 r.rw)
    d.setReg addr (new &&& ~~~(w &&& w32 r.w1c))
  | none => d

/-- An operand of the environment that a plain store does not carry: a free number below `n` (DESIGN CHOICE, log 3). -/
def openNat (n : Nat) (d : Dev) : Nat × Dev := let (k, d) := d.freeVal; ((Config.freeWord k).toNat % n, d)

/-! System control, events, lock-step, journal, time (chapters 4, 5, 13, 14, 15). -/

/-- A W1C write of SYS_AXSAFE (R100): a bit clears once a pair hosts its axis. -/
def writeAxsafe (high : Bool) (w : Word) (d : Dev) : Dev :=
  d.each ((halfMask high w).filter fun a => d.host a ≤ 4) fun a d => d.clrBit64 SYS_AXSAFE_LO SYS_AXSAFE_HI a

/-- A write in the system-control block. -/
def writeSys (m : Master) (addr : Nat) (w : Word) (x : DM) : DM :=
  if addr = SYS_MODEREQ then
    let (r, d) := openNat 65536 x.1
    writeModeReq w r (d, x.2)
  else if addr = SYS_RESET then
    let (b, d) := openNat 2 x.1
    writeReset w (b = 1) (d, x.2)
  else x.dev fun d =>
    if addr = SYS_AXSAFE_LO then writeAxsafe false w d
    else if addr = SYS_AXSAFE_HI then writeAxsafe true w d
    else if addr = SYS_PEAL_CTL then writePeal m w d
    else storeReg addr w d

/-- A write in the event controller (R284, R285, R291, R294). -/
def writeEvc (m : Master) (addr : Nat) (w : Word) (d : Dev) : Dev :=
  if addr = EVC_RAISE then (if isPair m then softRaise (wordGet w 0 10) d else d)
  else if addr = EVC_ACK then writeAck m (wordGet w 0 10) d
  else if EVC_CFG 0 ≤ addr && addr < EVC_CFG 1024 then writeCfg m ((addr - EVC_CFG 0) / 4) w d
  else storeReg addr w d

/-- A write in the lock-step block (R315). -/
def writeLss (m : Master) (addr : Nat) (w : Word) (d : Dev) : Dev :=
  if addr = LSS_KICK then kick m d
  else if addr = LSS_MIGCTL then writeMigctl m (w.getLsbD 31) (wordGet w 16 3) (wordGet w 0 10) d
  else if addr = LSS_MIGMLO || addr = LSS_MIGMHI then
    (match m with | .pair _ | .debug => storeReg addr w d | _ => busError m 6 addr true d)
  else asSup m addr (fun d =>
    if addr = LSS_REHOST then (if w.getLsbD 31 then writeRehost (wordGet w 4 3) (wordGet w 0 3) d else d)
    else if addr = LSS_SUPMV then
      let d := storeReg addr (w &&& 0x100#32) d
      if w.getLsbD 31 then writeSupmv (wordGet w 0 3) d else d
    else if addr = LSS_PRST then writePrst (wordGet w 24 8) (wordGet w 0 3) (w.getLsbD 4) d
    else if addr = SSQ_KNELL_LO then writeKnell false w d
    else if addr = SSQ_KNELL_HI then writeKnell true w d
    else if addr = SSQ_HOLD_LO then writeHold false w d
    else if addr = SSQ_HOLD_HI then writeHold true w d
    else if addr = SSQ_LINE then writeLine (w.getLsbD 0) d
    else storeReg addr w d) d

/-- A write in the journal block. -/
def writeJnl (m : Master) (addr : Nat) (w : Word) (x : DM) : DM :=
  if addr = JNL_SUBMIT then writeSubmit m (w.toNat / 4 * 4) false x
  else if addr = JNL_MAPQ then
    (match m with
      | .pair _ | .debug => x.dev (mapQuery (wordGet w 0 12))
      | _ => x.dev (busError m 6 addr true))
  else asJnlWriter m addr (fun x =>
    if addr = JNL_FWCUR then selectFirmware false w.toNat x
    else if addr = JNL_FWPREV then selectFirmware true w.toNat x
    else if addr = JNL_IMGWR then
      (if w.getLsbD 31 then startImage (wordGet w 0 3) x else x.dev fun d => d.put JNL_IMGWR_SLOT (wordGet w 0 3))
    else x.dev (storeReg addr w)) x

/-- A write in the TRU. -/
def writeTru (addr : Nat) (w : Word) (d : Dev) : Dev :=
  if addr = TRU_CFG then writeTruCfg w d
  else if addr = TRU_SOCFG || addr = TRU_SOOFS then (storeReg addr w d).onTru fun t => { t with soChg := d.now }
  else storeReg addr w d

/-! Serial ports, CAN, window (chapters 16, 17). -/

/-- A write in SP0 (R366). -/
def writeSp0 (m : Master) (addr : Nat) (w : Word) (d : Dev) : Dev :=
  if addr = SP0_QBUF || addr = SP0_QADDR then asOwner m addr (fun d => storeReg addr w (sp0Snap d)) d
  else if addr = SP0_QCTL then asOwner m addr (pushQueue w) d
  else if addr = SP0_CTL then asOwner m addr (writeSp0Ctl w) d
  else if addr = SP0_XIPINV then asOwner m addr xipPurge d
  else if !d.supRights m then busError m 6 addr true d
  else if addr = SP0_XIPCFG then writeXipcfg w d
  else if addr = SP0_XCON then writeXcon w d
  else if addr = SP0_OWN then (storeReg addr w d).onSp0 fun h => { h with ownLost := false }
  else storeReg addr w d

/-- A write in SP1 (R366). -/
def writeSp1 (m : Master) (addr : Nat) (w : Word) (d : Dev) : Dev :=
  if addr = SP1_TX then asAgent m addr true (pushTx w) d
  else if addr = SP1_CTL then asAgent m addr true (writeSp1Ctl w) d
  else if !d.supRights m then busError m 6 addr true d
  else storeReg addr w d

/-- A write in the SWC (R359, R366). -/
def writeSwc (m : Master) (addr : Nat) (w : Word) (d : Dev) : Dev :=
  if SWC_SEG 0 ≤ addr && addr < SWC_SEG 64 then writeSeg m ((addr - SWC_SEG 0) / 4) w d
  else if !d.supRights m then busError m 6 addr true d
  else if addr = SWC_CFG then (storeReg addr w d).onWin fun h => { h with agentLost := false }
  else storeReg addr w d

/-- A write in a CAN controller (chapter 17, Registers). -/
def writeCan (m : Master) (c addr : Nat) (w : Word) (d : Dev) : Dev :=
  let off := addr % 0x1000
  if addr = CAN_OWN c then
    (if d.supRights m then (storeReg addr w d).onCan c fun h => { h with ownLost := false } else busError m 6 addr true d)
  else asCan m c addr (fun d =>
    if addr = CAN_CFG c then writeCanCfg c w d
    else if c ≠ 0 && (addr = CAN_NBT c || addr = CAN_DBT c) then writeCanTiming c addr w d
    else if addr = CAN_TXREQ c then txRequest c w.toNat d
    else if addr = CAN_TXABORT c then txAbort c w.toNat none d
    else if addr = CAN_RXPOP c then rxPop c d
    else if c = 0 && addr = CAN_TBC 0 then writeTbc w d
    else if 0x100 ≤ off && off < 0x380 && d.mbPend c ((off - 0x100) / 0x50) then busError m 6 addr true d
    else storeReg addr w d) d

/-! Axes, clusters, engines (chapters 6 to 10). -/

/-- A channel code as written: a reserved one becomes 37 (R134). -/
def chWritten (v : Nat) : Nat := if chReserved v then 37 else v

/-- The four request halves of AC_UCFG as written (R134). -/
def ucfgWritten (w : Word) : Word :=
  [0, 8, 16, 24].foldl (fun (v : Word) lo => wordPut v lo 6 (chWritten (wordGet v lo 6))) (w &&& 0xBFBFBFBF#32)

/-- A write in a cluster block by one of its writers. -/
def writeAc (q addr : Nat) (w : Word) (d : Dev) : Dev :=
  let off := addr % 0x1000
  if off = 0 then
    let d := storeReg addr (wordPut w 0 1 (d.get (AC_CTL_REFEN q))) d
    setRefen q (w.getLsbD 0) (d.onClu q fun c => { c with a := { c.a with ctlWr := true }, b := { c.b with ctlWr := true } })
  else if off = 8 then
    (if w.getLsbD 31 then recalibrate q (wordGet w 0 1) (w.getLsbD 30) d else storeReg addr w d)
  else if off = 0x18 then storeReg addr w d
  else if 0x20 ≤ off && off < 0x30 then d.setReg addr (ucfgWritten w)
  else if (0x140 ≤ off && off < 0x1C0) || (0x340 ≤ off && off < 0x3C0) then
    storeReg addr (wordPut w 0 6 (chWritten (wordGet w 0 6))) d
  else if 0x600 ≤ off && off < 0x690 then (if chTrimmed ((off - 0x600) / 4) then storeReg addr w (noteTrim q addr d) else d)
  else if off = 0x10C || off = 0x110 || off = 0x30C || off = 0x310 then storeReg addr w (noteTrim q addr d)
  else storeReg addr w d

/-- A write in a PWM block by one of its writers: shadows, PWM_FLT, the modes of TEST. -/
def writePwm (a addr : Nat) (w : Word) (d : Dev) : Dev :=
  let off := addr % 0x400
  if off = 4 then clearFlt a w.toNat d
  else if 0x10 ≤ off && off < 0x34 then
    (match rowAt addr with
      | some r => writeShadow a addr ((d.reg addr &&& ~~~(w32 r.rw)) ||| (w &&& w32 r.rw)) d
      | none => d)
  else if off = 0xC then
    let d := storeReg addr w d
    if d.axSt a = .test then setPat a 4 (d.get (PWM_TPAT_PU a)) (d.get (PWM_TPAT_PV a)) (d.get (PWM_TPAT_PW a)) d else d
  else storeReg addr w d

/-- The command of a CMD code (R178). -/
def cuCmdOf : Nat → Option CuCmd
  | 1 => some .start | 2 => some .stop | 3 => some .coast | 4 => some .clear | 5 => some .reverse | _ => none

/-- A write in a commutation-unit block by one of its writers. -/
def writeCu (m : Master) (a addr : Nat) (w : Word) (d : Dev) : Dev :=
  if addr = CU_CMD a then
    (match cuCmdOf (wordGet w 0 4) with
      | some c => command m a c (wordGet w 7 1) d
      | none => d)
  else if addr = CU_TREF a then writeTref a w d
  else if addr = CU_BOND a then writeBond a w.toNat d
  else if CU_STAB a 0 ≤ addr && addr < CU_STAB a 6 then
    let s := (addr - CU_STAB a 0) / 4
    let old := d.stabWord a s d.now
    storeReg addr w (d.onDtc a fun t => { t with stab := tset (0, 0) t.stab s (d.now, old) })
  else storeReg addr w d

/-- A write in an engine block (R21, R235, R238). -/
def writeLe (m : Master) (e addr : Nat) (w : Word) (d : Dev) : Dev :=
  let off := addr % 0x10000
  let as := fun (ok : Bool) (f : Dev → Dev) => asEngineWriter m e addr ok f d
  if 0x2000 ≤ off then
    let b := (off - 0x2000) / 0x7000
    let o := (off - 0x2000) % 0x7000
    if bankWord o then as (d.bankRights m e b o) (writeBank e b o w) else as true id
  else if 0x1000 ≤ off then
    if 0x1C00 ≤ off then as true id
    else
      let k := (off - 0x1000) / 0x80
      as (d.loopRights m e k && !d.loopEn e (d.formeBank e k) k) fun d => d.setReg addr w
  else if 0x100 ≤ off && off < 0x400 then
    let k := (off - 0x100) / 0x20
    as (d.loopRights m e k) fun d =>
      if addr = LE_LCTL e k then
        let d := writeAuto e k (w.getLsbD 0) d
        if w.getLsbD 9 then commitRefs e k d else d
      else if addr = LE_REF0 e k then stageRef e k 0 w d
      else if addr = LE_REF1 e k then stageRef e k 1 w d
      else storeReg addr w d
  else if addr = LE_COMMIT e then
    let ls := (List.range 24).filter fun k => w.getLsbD k
    as (ls.all (d.loopRights m e)) fun d => d.onEng e fun g => { g with commits := g.commits ||| maskOf ls }
  else if addr = LE_PROOF e then
    let k := wordGet w 0 5
    as (d.loopRights m e k) fun d =>
      let d := (d.put (LE_PROOF_N e) (wordGet w 8 16)).put (LE_PROOF_LOOP e) k
      if w.getLsbD 31 then startProof e k (wordGet w 8 16) d else d
  else as (d.supRights m) fun d =>
    if addr = LE_CTL e then setEngine e (w.getLsbD 0) d
    else if addr = LE_FRAME e then d.put (LE_FRAME_LEN e) (clampN 2000 50000 (wordGet w 0 16))
    else if addr = LE_SCHCMT e then (if w.getLsbD 0 then commitSchedule e d else d)
    else storeReg addr w d

/-! Power stage, ports, strike/capture (chapters 2, 3, 11). -/

/-- A write in the PSE block. -/
def writePse (addr : Nat) (w : Word) (d : Dev) : Dev :=
  if addr = PSE_VTHR0 then writeThreshold false w d
  else if addr = PSE_VTHR1 then writeThreshold true w d
  else if addr = PSE_SEGRC then writeSegrc w d
  else storeReg addr w d

/-- A write in the AUX or the slot block by one of their writers (R54). -/
def writeAuxCsl (addr : Nat) (w : Word) (d : Dev) : Dev :=
  if addr = AUX_OUT then writeAuxOut w d
  else if addr = AUX_TMASK then writeAuxMask w d
  else if addr = AUX_TRIPCLR then writeTripClr w d
  else if addr = CSL_REL then writeRel w d
  else storeReg addr w d

/-- A write in the SCU block (R241). -/
def writeScu (m : Master) (addr : Nat) (w : Word) (d : Dev) : Dev :=
  let off := addr - 0x40600000
  if 0x100 ≤ off && off < 0x300 then
    let s := (off - 0x100) / 0x80
    if addr = SCU_SCTL s then writeSctl m s w d
    else if d.sessRights m s then storeReg addr w d else busError m 6 addr true d
  else if d.supRights m then storeReg addr w d
  else busError m 6 addr true d

/-- Write a register of a block of the map. -/
def writeReg (m : Master) (addr : Nat) (w : Word) (x : DM) : DM :=
  if addr < 0x40010000 then writeSys m addr w x
  else if 0x40030000 ≤ addr && addr < 0x40040000 then writeJnl m addr w x
  else x.dev fun d =>
    if addr < 0x40020000 then writeEvc m addr w d
    else if addr < 0x40030000 then writeLss m addr w d
    else if addr < 0x40050000 then writeTru addr w d
    else if addr < 0x40051000 then writeSp0 m addr w d
    else if addr < 0x40052000 then writeSp1 m addr w d
    else if addr < 0x40063000 then writeCan m ((addr - 0x40060000) / 0x1000) addr w d
    else if addr < 0x40090000 then writeSwc m addr w d
    else if addr < 0x40110000 then
      let q := (addr - 0x40100000) / 0x1000
      if d.clusterRights m q then writeAc q addr w d else busError m 3 addr true d
    else if addr = PWM_LDALL_LO then loadMask m w.toNat d
    else if addr = PWM_LDALL_HI then loadMask m (w.toNat * 2 ^ 32) d
    else if 0x4020FF00 ≤ addr && addr < 0x40210000 then d
    else if addr < 0x40210000 then
      let a := (addr - 0x40200000) / 0x400
      asAxisWriter m a addr (writePwm a addr w) d
    else if addr < 0x40320000 then
      let a := (addr - 0x40300000) / 0x800
      asAxisWriter m a addr (writeCu m a addr w) d
    else if addr < 0x40480000 then writeLe m ((addr - 0x40400000) / 0x10000) addr w d
    else if addr < 0x40510000 then writePse addr w d
    else if addr < 0x40530000 then asSlotWriter m addr (writeAuxCsl addr w) d
    else writeScu m addr w d

/-! Reads. -/

/-- SYS_AXST word `k`: eight axis states (R99). -/
def Dev.viewAxst (d : Dev) (k : Nat) : Word :=
  (List.range 8).foldl (fun (w : Word) j => wordPut w (4 * j) 4 (d.axSt (8 * k + j)).code) 0

/-- SSQ_STAT as read (R302, R305): the restart set waits, the mismatch pulse runs, the cross-check failed or passed. -/
def Dev.viewSsq (d : Dev) : Word :=
  let b := fun (c : Bool) (n : Nat) => if c then 2 ^ n else 0
  w32 (b (!d.ssq.restart.isEmpty) 3 + b d.ssq.pulseEnd.isSome 2 + b d.ssq.xfail 1 + b (d.on SYS_BOOT_SSQOK && !d.ssq.xfail) 0)

/-- AUX_GSTAT as read: DIAGAGE of each group is 1 when its last completed diagnostic run is older than 1 s. -/
def Dev.viewGstat (d : Dev) : Word :=
  (List.range 4).foldl (fun (w : Word) g =>
    wordPut w (8 * g + 3) 1 (if tget 0 d.aux.diagEnd g + 200000000 < d.now then 1 else 0)) (d.reg AUX_GSTAT)

/-- A register as a master reads it, without the effects of the read. -/
def Dev.view (d : Dev) (m : Master) (addr : Nat) : Word :=
  if SYS_AXST 0 ≤ addr && addr < SYS_AXST 8 then d.viewAxst ((addr - SYS_AXST 0) / 4)
  else if 0x40010000 ≤ addr && addr < 0x40020000 then d.viewEvc (addr - 0x40010000) addr
  else if addr = SSQ_STAT then d.viewSsq
  else if addr = AUX_GSTAT then d.viewGstat
  else if addr = TRU_NOW_HI then tget 0 d.tru.nowHi (readerOf m)
  else if addr = TRU_SITS_HI then tget 0 d.tru.sitsHi (readerOf m)
  else if addr = CAN_TBC 0 then wordPut (d.reg addr) 1 1 (if Config.tbcPower d.now then 1 else 0)
  else if addr = JNL_STAT then wordPut (d.reg addr) 8 8 (min 255 (d.jnl.queue.filter (·.from_.isSome)).length)
  else if 0x40300000 ≤ addr && addr < 0x40320000 && addr % 0x800 = 0x170 then
    d.reg (CU_BOND (4 * ((addr - 0x40300000) / 0x2000)))
  else if 0x40100000 ≤ addr && addr < 0x40210000 then d.viewCore addr
  else d.reg addr

/-- Clear the fields that a read clears (R10). -/
def clearRc (addr : Nat) (d : Dev) : Dev :=
  match rowAt addr with
  | some r => if r.rc = 0 then d else d.setReg addr (d.reg addr &&& ~~~(w32 r.rc))
  | none => d

/-- Read a register: the word and the block after it. -/
def readReg (m : Master) (addr : Nat) (d : Dev) : Word × Dev :=
  if addr = TRU_NOW_LO then readLo m false d
  else if addr = TRU_SITS_LO then readLo m true d
  else if addr = SP1_RX then
    (if d.sp1Rights m then popRx d else (0, busError m 6 addr false d))
  else (d.view m addr, clearRc addr d)

end Sys2Proof.Machine
end

