-- ==== Sys2Proof/Machine/ClientOps.lean ====
section
/-! DEFINITION. What every control message goes through (R13, R29, R384 to R392): who sent it, its check, the slot, the
quota, the sequence number, the requirement, the journal, the response. -/

namespace Sys2Proof.Machine
open Sys2Proof Reg

/-- One bit of CRC-16/CCITT, most significant bit first (R387). -/
def crc16Bit (c : Nat) : Nat := if c.testBit 15 then (c * 2 % 65536) ^^^ 0x1021 else c * 2 % 65536

/-- One byte of CRC-16/CCITT. -/
def crc16Byte (c b : Nat) : Nat :=
  crc16Bit (crc16Bit (crc16Bit (crc16Bit (crc16Bit (crc16Bit (crc16Bit (crc16Bit (c ^^^ (b * 256)))))))))

/-- CRC-16/CCITT over bytes (R387). -/
def crc16 (bs : List Nat) : Nat := bs.foldl crc16Byte 0xFFFF

/-- A control message with what R390 says of its OP: the words journalled as its payload, whether it came in a form its OP
has, with fields in range; whether it is answered READ's way, without a record. -/
structure Msg where
  op : Nat
  axis : Nat
  arg : Nat := 0
  words : List Nat := []
  wellFormed : Bool := true
  recorded : Bool := true

/-- The check of a message holds (R387): the CRC-16 of a short form over OP, SEQ, AXIS and ARG, or the long form's CRC. -/
def ctlChecked (h : Ctl) (m : Msg) : Bool :=
  match h.chk with
  | .short c => c.val = crc16 ([m.op, h.seq.val, m.axis] ++ bytesLE 3 m.arg)
  | .long ok => ok

/-- A long form. -/
def isLong (h : Ctl) : Bool := match h.chk with | .long _ => true | .short _ => false

/-- The NAME of a sender: none when its message is not received (no own address, a short form on a private link, a node
that is absent or in a NODE conflict; R373, R384, R387), `some none` when its NAME is unknown (R385). -/
def Dev.sender (d : Dev) (h : Ctl) : Option (Option Nat) :=
  if h.link.val = 0 then (if d.bus.addr.isSome then some (tget none d.bus.names h.src) else none)
  else
    let l := h.link.val - 1
    let clash := match tget none d.bus.conflict l with | some t => decide (d.now < t + 200000000) | none => false
    if !isLong h || clash || 32 ≤ h.src.val then none
    else match tget none d.bus.nodes (32 * l + h.src.val) with
      | some (n, t) => if d.now < t + 60000000 then some (some n) else none
      | none => none

/-- Send a response (R387). -/
def respond (h : Ctl) (m : Msg) (status value : Nat) (d : Dev) : Dev :=
  { d with reply := some { op := m.op + 0x80, seq := h.seq, axis := m.axis, status := status, value := value } }

/-- Send the response to the expected message of a slot, store it, and expect the next (R388). -/
def settle (s : Nat) (h : Ctl) (m : Msg) (status value : Nat) (d : Dev) : Dev :=
  let d := respond h m status value d
  d.onClient s fun c => if c.used then { c with resp := d.reply, expect := (h.seq + 1) % 256 } else c

/-- The record of a message (R391): KEY = 256 × OP + AXIS, the message as payload. -/
def msgRec (typ s : Nat) (h : Ctl) (m : Msg) (d : Dev) : JRec :=
  { typ := typ, srck := 1, slot := s, name := (d.clientOf s).name, key := 256 * m.op + m.axis
    payload := [m.op + 256 * h.seq + 65536 * m.axis, m.arg] ++ m.words }

/-- Journal a message. -/
def msgJournal (typ s : Nat) (h : Ctl) (m : Msg) (d : Dev) : Dev := submitRec (some d.sup) (msgRec typ s h m d) false false d

/-- The tokens of a slot now, in 5·10⁻⁹ tokens (R392). -/
def Dev.tokens (d : Dev) (s : Nat) : Nat :=
  let c := d.clientOf s
  min (d.item 0x108 40 * 200000000) (c.tok + d.item 0x107 200 * (d.now - c.tokAt))

/-- Take a token (R392). -/
def spend (s : Nat) (d : Dev) : Dev :=
  let t := d.tokens s
  d.onClient s fun c => { c with tok := t - 200000000, tokAt := d.now }

/-- A message that finds no token: answered with QUOTA, journalled as a refusal the first time in a second (R392). -/
def noToken (s : Nat) (h : Ctl) (m : Msg) (d : Dev) : Dev :=
  let sec := d.now / 200000000
  let d := if (d.clientOf s).quotaSec = some sec then d else msgJournal 2 s h m (d.onClient s fun c => { c with quotaSec := some sec })
  respond h m 7 0 d

/-- A message with a valid CRC from the slot's client: the heartbeat is refreshed, and the slot is on the link used. -/
def heard (s : Nat) (h : Ctl) (d : Dev) : Dev :=
  d.onClient s fun c => { c with heard := d.now, link := h.link, node := h.src }

/-- What a message does once it may: STATUS, VALUE and the state after; REFUSED leaves no record (R389, R391). -/
abbrev Action := Nat → DM → Nat × Nat × DM

/-- Carry a message out (R29, R390, R391): its requirement, the journal's acceptance, the action, the record. -/
def carryOut (s : Nat) (h : Ctl) (m : Msg) (need : Nat → Dev → Nat) (act : Action) (x : DM) : DM :=
  let r := need s x.1
  if !m.wellFormed then x.dev (settle s h m 9 0)
  else if r ≠ 0 then x.dev fun d =>
    settle s h m r 0 (if r = 4 || r = 5 then msgJournal 2 s h m d else d)
  else if !m.recorded then
    let (st, v, y) := act s x
    y.dev (settle s h m st v)
  else
    let code := submitCode (msgRec 1 s h m x.1) false false x.1
    if code ≠ 0 then x.dev fun d => respond h m (if code = 3 then 7 else 11) 0 (msgJournal 1 s h m d)
    else
      let rec_ := msgRec 1 s h m x.1
      let (st, v, y) := act s x
      let y := if st = 0 then y.dev (submitRec (some y.1.sup) rec_ false false) else y
      y.dev (settle s h m st v)

/-- The slot of a sender whose NAME may be unknown. -/
def Dev.slotOf? (d : Dev) (name : Option Nat) : Option Nat :=
  match name with
  | some n => d.slotOfName n
  | none => none

/-- A message that fails its check is answered with CRC and counted for its slot (R387, R388). -/
def crcFailed (h : Ctl) (m : Msg) (slot : Option Nat) (d : Dev) : Dev :=
  respond h m 1 0 (match slot with
    | some s => d.onClient s fun c => { c with crcBad := c.crcBad + 1 }
    | none => d)

/-- A control message of any OP but OPEN and BEAT (R387 to R389): the CRC, the NAME, the slot, a token, the sequence number;
a repeat is answered with the stored response. -/
def control (h : Ctl) (m : Msg) (need : Nat → Dev → Nat) (act : Action) (x : DM) : DM :=
  match x.1.sender h with
  | none => x
  | some name =>
    let slot := x.1.slotOf? name
    if !ctlChecked h m then x.dev (crcFailed h m slot)
    else if name.isNone then x.dev (respond h m 14 0)
    else match slot with
      | none => x.dev (respond h m 3 0)
      | some s =>
        if (x.1.clientOf s).loss then x.dev (respond h m 3 0)
        else
          let x := x.dev (heard s h)
          let c := x.1.clientOf s
          if x.1.tokens s < 200000000 then x.dev (noToken s h m)
          else
            let x := x.dev (spend s)
            if h.seq.val = c.expect then carryOut s h m need act x
            else if (h.seq.val + 1) % 256 = c.expect then x.dev fun d => { d with reply := c.resp }
            else x.dev fun d => respond h m 2 0 (d.onClient s fun c => { c with seqBad := c.seqBad + 1 })

/-! Requirements (R29, R390). -/

/-- The sender holds every axis named: else CLAIMED when another client holds one, or NOTHELD. -/
def needAxes (l : List Nat) (s : Nat) (d : Dev) : Nat :=
  if l.any fun a => (tget none d.claim a).isSome && tget none d.claim a ≠ some s then 5
  else if l.any fun a => tget none d.claim a ≠ some s then 4
  else 0

/-- The sender holds the device claim. -/
def needDevice (s : Nat) (d : Dev) : Nat :=
  match d.devClaim with
  | some t => if t = s then 0 else 5
  | none => 4

/-- The axes named are free, or the sender's, and not ABSENT; the device claim likewise. -/
def needFree (dev : Bool) (l : List Nat) (s : Nat) (d : Dev) : Nat :=
  if dev then (match d.devClaim with | some t => if t = s then 0 else 5 | none => 0)
  else if l.any fun a => d.axSt a = .absent then 8
  else if l.any fun a => (tget none d.claim a).isSome && tget none d.claim a ≠ some s then 5
  else 0

/-- Every need of a list is met: the first that is not is answered. -/
def needAll (l : List (Nat → Dev → Nat)) (s : Nat) (d : Dev) : Nat := (l.map fun f => f s d).foldl (fun a b => if a = 0 then b else a) 0

/-- No requirement beyond the open slot. -/
def needNone (_ : Nat) (_ : Dev) : Nat := 0

/-- The axis of an AXIS byte, bits [5:0]. -/
def axisOf (b : Nat) : Nat := b % 64

/-- AXIS names an axis, without the index bit. -/
def plainAxis (b : Nat) : Bool := b < 64

/-- The forms of an OP that has only the short form: on a private link it travels in the long form (DEDUCED, log 43). -/
def shortOnly (h : Ctl) : Bool := !isLong h || h.link.val ≠ 0

end Sys2Proof.Machine
end

