-- ==== Sys2Proof/Machine/Clients.lean ====
section
/-! DEFINITION. The control messages and the loss of a client (R30, R333, R334, R386, R390 to R394). The commands of a
message carry the header with its check, AXIS and ARG of the short form, and the arguments of the long form. -/

namespace Sys2Proof.Machine
open Sys2Proof Reg

/-! Slots: OPEN, CLOSE, BEAT, READ (R385, R388, R390, R394). -/

/-- The heartbeat interval an OPEN asks for: 0 means 1,000 ms (R390). -/
def beatOf (arg : Nat) : Nat := if arg = 0 then 1000 else arg

/-- An OPEN's interval is in range (R390). -/
def beatOk (arg : Nat) : Bool := arg = 0 || (100 ≤ arg && arg ≤ 10000)

/-- Open slot `s` for a NAME: the bucket pays for the message, the record tells it (R388, R391, R392). -/
def openFresh (s name : Nat) (h : Ctl) (m : Msg) (d : Dev) : Dev :=
  let d := spend s (openClient s name h.link h.src false (beatOf m.arg) h.seq d)
  settle s h m 0 s (msgJournal 1 s h m d)

/-- Resume a slot in loss (R394): the claims that stand are kept, the holds cancelled, SEQ set. -/
def resume (s : Nat) (h : Ctl) (m : Msg) (d : Dev) : Dev :=
  let d := { d with holdEnd := d.holdEnd.filter fun e => tget none d.claim e.1 ≠ some s }
  let d := heard s h (d.onClient s fun c => { c with loss := false, beat := beatOf m.arg })
  settle s h m 0 s (msgJournal 1 s h m d)

/-- An OPEN from a NAME (R385, R388, R389, R394). -/
def openMsg (name : Nat) (h : Ctl) (m : Msg) (x : DM) : DM :=
  let go := fun (s : Nat) (f : Dev → Dev) =>
    if !m.wellFormed then x.dev (respond h m 9 0)
    else
      let code := submitCode (msgRec 1 s h m x.1) false false x.1
      if code ≠ 0 then x.dev fun d => respond h m (if code = 3 then 7 else 11) 0 (msgJournal 1 s h m d)
      else x.dev f
  match x.1.slotOfName name with
  | some s =>
    if (x.1.clientOf s).loss then go s (resume s h m)
    else control h m needNone (fun _ y => (0, s, y.dev fun d => d.onClient s fun c => { c with beat := beatOf m.arg })) x
  | none =>
    match x.1.freeSlot with
    | some s => go s (openFresh s name h m)
    | none => x.dev (respond h m 13 0)

/-- OPEN (R390). -/
def execOpen (h : Ctl) (axis : Fin 256) (arg : Fin 16777216) : State → Out :=
  onDM fun x =>
    let m : Msg := { op := 0x01, axis := axis, arg := arg, wellFormed := shortOnly h && beatOk arg }
    match x.1.sender h with
    | none => x
    | some name =>
      if !ctlChecked h m then x.dev (crcFailed h m (x.1.slotOf? name))
      else match name with
        | none => x.dev (respond h m 14 0)
        | some n => openMsg n h m x

/-- A command of the commutation unit on a client's behalf: 0, or the code it is refused with (R178). -/
def tryCmd (a : Nat) (c : CuCmd) (dir : Nat) (d : Dev) : Nat × Dev :=
  let old := d.get (CU_STAT_REFUSE a)
  let y := command .debug a c dir (d.put (CU_STAT_REFUSE a) 0)
  let r := y.get (CU_STAT_REFUSE a)
  (r, if r = 0 then y.put (CU_STAT_REFUSE a) old else y)

/-- A driving axis stops as by STOP (R178, R386, R393). -/
def stopAxis (a : Nat) (d : Dev) : Dev := if (d.axSt a).driving then (tryCmd a .stop 0 d).2 else d

/-- The axes a slot holds. -/
def Dev.heldBy (d : Dev) (s : Nat) : List Nat := allAxes.filter fun a => tget none d.claim a = some s

/-- The slot is freed (R386): nothing of it stays. -/
def freeSlot (s : Nat) (d : Dev) : Dev :=
  let d := { d with devClaim := if d.devClaim = some s then none else d.devClaim }
  let d := d.onClient s fun _ => {}
  d.onBus fun b => { b with tcSlot := if b.tcSlot = some s then none else b.tcSlot
                            tcSrc := if b.tcSlot = some s then none else b.tcSrc }

/-- CLOSE (R386, R390): every claim ends with STOP, then the slot is free. -/
def execClose (h : Ctl) (axis : Fin 256) (arg : Fin 16777216) : State → Out :=
  onDM (control h { op := 0x02, axis := axis, arg := arg, wellFormed := shortOnly h } needNone fun s x =>
    (0, 0, x.dev fun d => freeSlot s (d.each (d.heldBy s) fun a d => endClaim a (stopAxis a d))))

/-- BEAT (R388, R390): carried out whatever its SEQ, without a token or a record. -/
def execBeat (h : Ctl) (axis : Fin 256) (arg : Fin 16777216) : State → Out :=
  onDM fun x =>
    let m : Msg := { op := 0x03, axis := axis, arg := arg, wellFormed := shortOnly h }
    match x.1.sender h with
    | none => x
    | some name =>
      let slot := x.1.slotOf? name
      if !ctlChecked h m then x.dev (crcFailed h m slot)
      else if name.isNone then x.dev (respond h m 14 0)
      else match slot with
        | some s =>
          if (x.1.clientOf s).loss then x.dev (respond h m 3 0)
          else x.dev fun d => respond h m (if m.wellFormed then 0 else 9) 0 (heard s h d)
        | none => x.dev (respond h m 3 0)

/-- READ (R390): state and fault code of an axis, or the device mode. -/
def execRead (h : Ctl) (axis : Fin 256) (arg : Fin 16777216) : State → Out :=
  onDM (control h { op := 0x08, axis := axis, arg := arg, recorded := false,
                    wellFormed := shortOnly h && (plainAxis axis || axis.val = 255) } needNone fun _ x =>
    (0, (if axis.val = 255 then x.1.get SYS_MODE_MODE
         else x.1.get (CU_STATE_STATE axis) + 256 * x.1.get (CU_FLT_CODE axis)), x))

/-! Claims (R29, R30, R390). -/

/-- The axes a message names: by its long-form mask, else by AXIS. -/
def namedAxes (axis : Nat) (mask : Option (BitVec 64)) : List Nat :=
  match mask with
  | some m => axesOf m.toNat
  | none => if axis = 255 then [] else [axisOf axis]

/-- A mask comes in the long form only, an AXIS byte in the short one, or in the long one of a private link. -/
def claimForm (h : Ctl) (axis : Nat) (mask : Option (BitVec 64)) : Bool :=
  match mask with
  | some _ => isLong h
  | none => shortOnly h && (plainAxis axis || axis = 255)

/-- CLAIM (R30, R390): an axis, a mask of axes whole or not at all, or the device claim. -/
def execClaim (h : Ctl) (axis : Fin 256) (arg : Fin 16777216) (mask : Option (BitVec 64)) : State → Out :=
  let l := namedAxes axis mask
  let dev := mask.isNone && axis.val = 255
  onDM (control h { op := 0x10, axis := axis, arg := arg, words := (mask.map fun m => [m.toNat % 2 ^ 32, m.toNat / 2 ^ 32]).getD [],
                    wellFormed := claimForm h axis mask } (needFree dev l) fun s x =>
    (0, 0, x.dev fun d =>
      if dev then { d with devClaim := some s }
      else d.each l fun a d => { d with claim := tset none d.claim a (some s) }))

/-- RELEASE (R29, R390): a driving axis is stopped first, or keeps its claim without STOP. -/
def execRelease (h : Ctl) (axis : Fin 256) (arg : Fin 16777216) (mask : Option (BitVec 64)) : State → Out :=
  let l := namedAxes axis mask
  let dev := mask.isNone && axis.val = 255
  let stop := arg.val % 2 = 1
  onDM (control h { op := 0x11, axis := axis, arg := arg, words := (mask.map fun m => [m.toNat % 2 ^ 32, m.toNat / 2 ^ 32]).getD [],
                    wellFormed := claimForm h axis mask } (if dev then needDevice else needAxes l) fun _ x =>
    if dev then (0, 0, x.dev fun d => { d with devClaim := none })
    else if !stop && l.any fun a => (x.1.axSt a).driving then (12, 0, x)
    else
      let r := l.foldl (fun (r : Nat × Dev) a =>
        if r.1 ≠ 0 || !(r.2.axSt a).driving then r else tryCmd a .stop 0 r.2) (0, x.1)
      if r.1 ≠ 0 then (6, r.1, (r.2, x.2)) else (0, 0, (r.2.each l endClaim, x.2)))

/-! What a holder may do (R390). -/

/-- AXCMD (R178, R390): a command of the commutation unit. -/
def execAxcmd (h : Ctl) (axis : Fin 256) (arg : Fin 16777216) : State → Out :=
  let c := cuCmdOf (arg.val % 16)
  onDM (control h { op := 0x20, axis := axis, arg := arg, wellFormed := shortOnly h && plainAxis axis && c.isSome }
    (needAxes [axisOf axis]) fun _ x =>
      match c with
      | some c =>
        let r := tryCmd (axisOf axis) c (arg.val / 128 % 2) x.1
        (if r.1 = 0 then 0 else 6, r.1, (r.2, x.2))
      | none => (9, 0, x))

/-- SETREF (R216, R390): a reference of the axis loop, then REFGO; the long form carries 32 bits and may leave the value
staged. -/
def execSetref (h : Ctl) (axis : Fin 256) (arg : Fin 16777216) (long : Option (Word × Bool)) : State → Out :=
  let a := axisOf axis
  let v := match long with | some (w, _) => w | none => w32i (sx 24 arg.val)
  let stay := match long with | some (_, b) => b | none => false
  onDM (control h { op := 0x21, axis := axis, arg := arg, words := [v.toNat, if stay then 1 else 0],
                    wellFormed := axis.val < 128 && (if long.isSome then isLong h else shortOnly h) } (needAxes [a]) fun _ x =>
    (0, 0, x.dev fun d =>
      if stay then stageRef (a / 8) (a % 8) (axis.val / 64 % 2) v d else setRef (a / 8) (a % 8) (axis.val / 64 % 2) v d))

/-- POLICY (R390, R393). -/
def execPolicy (h : Ctl) (axis : Fin 256) (hold : Fin 65536) (endAct : Fin 256) : State → Out :=
  onDM (control h { op := 0x22, axis := axis, words := [hold.val, endAct.val],
                    wellFormed := isLong h && plainAxis axis && hold.val ≤ 60000 && endAct.val ≤ 1 } (needAxes [axisOf axis])
    fun _ x => (0, 0, x.dev fun d => { d with policy := tset (2000, 0) d.policy (axisOf axis) (hold.val, endAct.val) }))

/-- Start a peal for a client (R108, R390): refused outright it is REFUSED with RES; otherwise its response follows
PEAL_DONE. -/
def clientPeal (s : Nat) (h : Ctl) (mask action lead : Nat) (x : DM) : Nat × Nat × DM :=
  let d := x.1.setMask64 SYS_PEAL_MLO SYS_PEAL_MHI mask
  let was := d.peal.running
  let r : Reply := { op := 0xA8, seq := h.seq }
  let d := if was then d else { d with pealFor := some (s, r) }
  let d := writePeal .debug (w32 (2 ^ 31 + action % 16 * 2 ^ 16 + lead % 1024)) d
  let res := d.get SYS_PEAL_RES_RES
  if was || res = 7 then (6, res, ({ d with pealFor := if was then d.pealFor else none }, x.2)) else (0, res, (d, x.2))

/-- PEAL (R108, R390): the response waits for the end of the peal. -/
def execPealOp (h : Ctl) (mask : BitVec 64) (action lead : Fin 1024) : State → Out :=
  onDM fun x =>
    let y := control h { op := 0x28, axis := 255, words := [mask.toNat % 2 ^ 32, mask.toNat / 2 ^ 32, action.val, lead.val],
                         wellFormed := isLong h && action.val ≤ 5 } (needAxes (axesOf mask.toNat))
      (fun s x => clientPeal s h mask.toNat action lead x) x
    if y.1.pealFor.isSome && x.1.pealFor.isNone then
      y.dev fun d => { d with reply := x.1.reply }
    else y

/-- MODE (R95, R390). -/
def execMode (h : Ctl) (axis : Fin 256) (arg : Fin 16777216) (r : Fin 65536) : State → Out :=
  onDM (control h { op := 0x30, axis := axis, arg := arg, wellFormed := shortOnly h && axis.val = 255 } needDevice fun _ x =>
    let old := x.1.get SYS_MODE_REFUSE
    let y := requestMode (Mode.ofCode (arg.val % 16)) 1 r (x.dev fun d => d.put SYS_MODE_REFUSE 0)
    let c := y.1.get SYS_MODE_REFUSE
    if c = 0 then (0, 0, y.dev fun d => d.put SYS_MODE_REFUSE old) else (6, c, y))

/-- CARTREL (R52, R53, R390). -/
def execCartrel (h : Ctl) (axis : Fin 256) (arg : Fin 16777216) : State → Out :=
  let q := arg.val % 16
  onDM (control h { op := 0x31, axis := axis, arg := arg, wellFormed := shortOnly h && axis.val = 255 } needDevice fun _ x =>
    let d := requestRelease q 1 x.1
    (if d.get (CSL_STAT_STATE q) = 4 && x.1.get (CSL_STAT_STATE q) = 2 then 0 else 6, 0, (d, x.2)))

/-- AUX (R40, R390). -/
def execAux (h : Ctl) (axis : Fin 256) (arg : Fin 16777216) : State → Out :=
  onDM (control h { op := 0x32, axis := axis, arg := arg, wellFormed := shortOnly h && axis.val = 255 } needDevice fun _ x =>
    (0, 0, x.dev (writeAuxOut (w32 (arg.val % 65536)))))

/-! Configuration transactions (R334, R390). -/

/-- The axis a register of the map belongs to. -/
def regAxis (a : Nat) : Option Nat :=
  if 0x40200000 ≤ a && a < 0x4020FF00 then some ((a - 0x40200000) / 0x400)
  else if 0x40300000 ≤ a && a < 0x40320000 then some ((a - 0x40300000) / 0x800)
  else none

/-- The claims an item needs (R29, R334): the axis of an axis register, the axes of a bonded quad, the axis of a standing
restart or of TCMAP; otherwise the device claim. -/
def itemNeed (key : Nat) : Nat → Dev → Nat :=
  let n := key % 2 ^ 30
  match key / 2 ^ 30 with
  | 0 => (match regAxis (4 * n) with | some a => needAxes [a] | none => needDevice)
  | 2 => needAxes (quadAxes (n % 16))
  | 3 => if 1 ≤ n && n ≤ 64 then needAxes [n - 1] else if 0x140 ≤ n && n < 0x180 then needAxes [n - 0x140] else needDevice
  | _ => needDevice

/-- The items of a transaction, in the order they were submitted. -/
def Dev.itemsOf (d : Dev) (txn : Nat) : List JRec :=
  (d.jnl.log ++ d.jnl.queue.map (·.body)).filter fun r => r.typ = 6 && r.txn = txn

/-- CFGITEM (R334 step 1, R390): one CFGSTAGE record; at most 256 items. Refused after a boot that failed (R105). -/
def execCfgitem (h : Ctl) (txn : Fin 65536) (key : Word) (payload : List Word) : State → Out :=
  onDM (control h { op := 0x38, axis := 255, words := [txn.val, key.toNat] ++ payload.map (·.toNat),
                    wellFormed := isLong h && txn.val ≠ 0 && payload.length ≤ 1000
                      && (key.toNat / 2 ^ 30 ≠ 0 || payload.length = 2) } (itemNeed key.toNat) fun s x =>
    if x.1.sys.bootFault then (6, 0, x)
    else if 256 ≤ (x.1.itemsOf txn).length then (9, 0, x)
    else
      let r : JRec := { typ := 6, srck := 1, slot := s, name := (x.1.clientOf s).name, txn := txn, key := key.toNat
                        payload := payload.map (·.toNat) }
      let c := submitCode r false false x.1
      let y := x.dev (submitRec (some x.1.sup) r false false)
      (if c = 0 then 0 else if c = 3 then 7 else 11, 0, y))

/-- Apply an item (R334 step 3): whether the hardware performed it, by reading it back. -/
def applyItem (r : JRec) (x : DM) : Bool × DM :=
  let n := r.key % 2 ^ 30
  match r.key / 2 ^ 30 with
  | 0 =>
    let a := 4 * n
    let v := w32 (r.payload.getD 0 0)
    let k := w32 (r.payload.getD 1 0)
    let y := writeReg .debug a ((x.1.view .debug a &&& ~~~k) ||| (v &&& k)) x
    (y.1.view .debug a &&& k = v &&& k, y)
  | 2 =>
    let v := r.payload.getD 0 0
    let y := x.dev (writeBond (4 * (n % 16)) v)
    (y.1.get ⟨CU_BOND (4 * (n % 16)), 0, 3⟩ = v % 8, y)
  | _ => (true, x)

/-- Apply the items in order: the map of those performed. -/
def applyItems : List JRec → Nat → Nat → DM → Nat × DM
  | [], _, map, x => (map, x)
  | r :: l, i, map, x =>
    let (ok, x) := applyItem r x
    applyItems l (i + 1) (if ok then map + 2 ^ i else map) x

/-- CFGCOMMIT (R334 steps 2 to 4, R390). `proved`: the checks of the chapters that own the items hold; classes 1 and 2 pass
only in CONFIGURE; none does after a boot that failed (R105). A transaction that fails is dropped. -/
def execCfgcommit (h : Ctl) (txn : Fin 65536) (proved : Bool) : State → Out :=
  onDM fun x =>
    control h { op := 0x39, axis := 255, words := [txn.val], wellFormed := isLong h && txn.val ≠ 0 }
      (needAll ((x.1.itemsOf txn).map fun r => itemNeed r.key)) (fun s x =>
        let items := x.1.itemsOf txn
        let fixed := items.any fun r => r.key / 2 ^ 30 = 1 || r.key / 2 ^ 30 = 2
        if items = [] || !proved || (fixed && x.1.mode ≠ .configure) || x.1.sys.bootFault then (6, 0, x)
        else
          let (map, y) := applyItems items 0 0 x
          let r : JRec := { typ := 7, srck := 1, slot := s, name := (x.1.clientOf s).name, txn := txn
                            payload := items.length :: (List.range 8).map fun i => map / 2 ^ (32 * i) % 2 ^ 32 }
          let c := submitCode r false false y.1
          (if c = 0 then 0 else if c = 3 then 7 else 11, 0, y.dev (submitRec (some y.1.sup) r false false))) x

/-! Captures, images, loop sets (R242, R331, R333, R390, R392). -/

/-- Samples per millisecond of the running sessions of a slot. -/
def Dev.captureLoad (d : Dev) (s : Nat) : Nat :=
  (((List.range 4).filter fun i => d.sessRunning i && tget none d.capSlot i = some s).map fun i =>
    d.get (SCU_CBW_BWMAX i)).foldl (· + ·) 0

/-- A session's registers as a message gives them: register number from SCU_STGT on, and word. -/
def setSession (i : Nat) (regs : List (Fin 32 × Word)) (d : Dev) : Dev :=
  d.each regs fun e d => if e.1.val = 0 then d else storeReg (SCU_SCTL i + 4 * e.1.val) e.2 d

/-- CAPTURE (R242, R390, R392): the session's registers, its axis the one named, and its start, within the quota. -/
def execCapture (h : Ctl) (axis : Fin 256) (i : Fin 4) (ring : Bool) (regs : List (Fin 32 × Word)) : State → Out :=
  let a := axisOf axis
  onDM (control h { op := 0x40, axis := axis, words := [i.val] ++ (regs.map fun e => [e.1.val, e.2.toNat]).flatten,
                    wellFormed := isLong h && plainAxis axis } (needAxes [a]) fun s x =>
    if x.1.sessRunning i then (6, 1, x)
    else
      let d := setSession i regs x.1
      let d := (d.put (SCU_STGT_ENG i) (a / 8)).put (SCU_STGT_LOOP i) (a % 8)
      if max 1 (x.1.item 0x109 1000) < x.1.captureLoad s + d.get (SCU_CBW_BWMAX i) then (7, 0, x)
      else
        let own := x.1.get (SCU_SCTL_OWN i)
        let d := writeSctl .debug i (w32 (2 ^ 31 + (if ring then 256 else 0) + own)) d
        if d.sessRunning i then (0, 0, ({ d with capSlot := tset none d.capSlot i (some s) }, x.2))
        else (6, d.get (SCU_SSTAT_CAUSE i), (d, x.2)))

/-- Where the host staging area stands in shared SRAM (DESIGN CHOICE, log 44). -/
def stagingArea : Nat := 0x10300000

/-- IMAGESEG (R390): image bytes into the staging area. -/
def execImageseg (h : Ctl) (ofs : Word) (data : List (Fin 256)) : State → Out :=
  onDM (control h { op := 0x48, axis := 255, words := [ofs.toNat, data.length],
                    wellFormed := isLong h && ofs.toNat + data.length ≤ 278528 } needDevice fun _ x =>
    (0, 0, (x.1, memWriteBytes x.2 (stagingArea + ofs.toNat) (data.map (·.val)))))

/-- IMAGEWR (R331, R390). -/
def execImagewr (h : Ctl) (slot : Fin 8) : State → Out :=
  onDM (control h { op := 0x49, axis := 255, words := [slot.val], wellFormed := isLong h } needDevice fun _ x =>
    let y := startImage slot (x.dev fun d => d.put JNL_IMGSRC_ADDR (stagingArea / 4))
    let e := y.1.get JNL_IMGWR_ERR
    (if e = 0 then 0 else 6, e, y))

/-- The key of the image in a slot: slot s holds logical blocks 16 + 68·s on (R316, R331). -/
def Dev.imageByte (d : Dev) (m : List Host.Cell) (s i : Nat) : Byte :=
  memGet m (blockKey (d.jnl.phys (16 + 68 * s + i / 4096)) + i % 4096)

/-- The image of a slot laid out from key 0 of a memory of its own. -/
def Dev.imageMem (d : Dev) (m : List Host.Cell) (s : Nat) : List Host.Cell :=
  (List.range 278528).filterMap fun i => let b := d.imageByte m s i; if b = 0 then none else some (i, b)

/-- The loops a LOOPSET image changes: engine and loop of each descriptor and record; none for a schedule. -/
def setLoops (d : Dev) (ss : List Section) : List (Nat × Nat) :=
  ss.filterMap fun s =>
    let e := s.target / 65536
    if s.kind = 4 then some (e, s.target % 65536) else if s.kind = 5 then some (e, d.recOwner e (s.target % 65536)) else none

/-- The claims a LOOPSET needs (R333): the axis of every axis loop, the device claim for process loops and schedules. -/
def loopsetNeed (ls : List (Nat × Nat)) (sched : Bool) (s : Nat) (d : Dev) : Nat :=
  needAll ((ls.map fun l => if l.2 < 8 then needAxes [8 * l.1 + l.2] else needDevice) ++ (if sched then [needDevice] else [])) s d

/-- Load a section into the galley of its loop or record, or of the schedule (R279, R333). -/
def loadSection (m : List Host.Cell) (s : Section) (d : Dev) : Dev :=
  let e := s.target / 65536
  let n := s.target % 65536
  let put := fun (b base : Nat) (d : Dev) =>
    d.each (List.range (s.len / 4)) fun i d => writeBank e b (base + 4 * i) (w32 (memWord m (s.data + 4 * i))) d
  if s.kind = 4 then put (1 - d.formeBank e n) (0x200 + 0x80 * n) d
  else if s.kind = 5 then put (1 - d.formeBank e (d.recOwner e n)) (0x1000 + 0x400 * n) d
  else if s.kind = 6 then put (1 - d.get (LE_CTL_SCHBANK e)) 0 d
  else d

/-- LOOPSET (R333, R390): the sections of the image in a slot go to their galleys; with every proof passed the loops commit
at their next runs and the schedules at the next frame. `passed`: what the proofs found. Refused after a boot that failed
(R105). -/
def execLoopset (h : Ctl) (slot : Fin 8) (passed : Bool) : State → Out :=
  onDM fun x =>
    let m := x.1.imageMem x.2 slot
    let ss := sectionsOf m 0
    let ls := setLoops x.1 ss
    let sched := (ss.filter (·.kind = 6)).map fun s => s.target / 65536
    control h { op := 0x4A, axis := 255, words := [slot.val], wellFormed := isLong h }
      (loopsetNeed ls (sched ≠ [])) (fun _ x =>
        if tget 0 x.1.jnl.imgSt slot ≠ 2 || memWord m 4 % 256 ≠ 2 || x.1.sys.bootFault then (6, 0, x)
        else
          let d := x.1.each ss fun s d => loadSection m s d
          if !passed then (6, 0, (d, x.2))
          else
            let d := d.each ls fun l d =>
              (d.put (LE_PROVED_PROVED l.1) (d.get (LE_PROVED_PROVED l.1) ||| 2 ^ l.2)).onEng l.1 fun g => { g with
                commits := g.commits ||| 2 ^ l.2 }
            (0, 0, (d.each sched fun e d => commitSchedule e d, x.2))) x

/-! Loss (R386, R393). -/

/-- SLOT_LOSS (R386): no message with a valid CRC for three heartbeat intervals, but for the task controller's slot. -/
def execSlotLoss (s : Fin 64) : State → Out :=
  onDev fun d =>
    let c := d.clientOf s
    if c.used && !c.loss && !c.tc && decide (c.heard + 3 * c.beat * 200000 ≤ d.now) then enterLoss s d else d

/-- LOSS_HOLD_EXPIRY (R393): the hold of an axis ends with STOP or COAST, then its claim ends. -/
def execLossHoldExpiry (a : Fin 64) : State → Out :=
  onDev fun d =>
    match tget none d.holdEnd a with
    | some t =>
      if t ≤ d.now then
        let d := { d with holdEnd := tset none d.holdEnd a none }
        let c := if (tget (2000, 0) d.policy a).2 = 1 then CuCmd.coast else CuCmd.stop
        endClaim a (tryCmd a c 0 d).2
      else d
    | none => d

end Sys2Proof.Machine
end

