-- ==== Sys2Proof/Machine/Fabric.lean ====
section
/-! DEFINITION. The bus fabric: the memory map, who reaches what, reads and writes of any size with the subcause that
refuses them, and the order of writers that meet in one cycle (R7, R8, R23 to R26, R351). -/

namespace Sys2Proof.Machine
open Sys2Proof Reg

/-- An address inside a register block of the map (R25). -/
def inBlock (a : Nat) : Bool :=
  (0x40000000 ≤ a && a < 0x40052000) || (0x40060000 ≤ a && a < 0x40063000) || (0x40080000 ≤ a && a < 0x40090000)
    || (0x40100000 ≤ a && a < 0x40110000) || (0x40200000 ≤ a && a < 0x40210000) || (0x40300000 ≤ a && a < 0x40320000)
    || (0x40400000 ≤ a && a < 0x40480000) || (0x40500000 ≤ a && a < 0x40530000) || (0x40600000 ≤ a && a < 0x40610000)

/-- An address of pair-local RAM or shared SRAM (R25): the memories with ECC that a pair loads from (R28). -/
def inEcc (a : Nat) : Bool := a < 0x40000 || (0x10000000 ≤ a && a < 0x10400000)

/-- The key of the byte a master writes at an address of a RAM: pair-local RAM is the master's own, and the debug
access reaches that of the supervising pair (R25, DESIGN CHOICE, log 21). -/
def Dev.ramKey (d : Dev) (m : Master) (a : Nat) : Option Nat :=
  if a < 0x40000 then some (pairRam (match m with | .pair p => p.val | _ => d.sup) a)
  else if (0x10000000 ≤ a && a < 0x10400000) || (0x18000000 ≤ a && a < 0x18800000) then some a
  else none

/-- Who reaches what (chapter 1): pairs and the debug access the whole map; an engine its block, its axes' blocks, the
load-all range, its clusters and shared SRAM; the SCU capture RAM, the axes' blocks and the load-all range. -/
def reaches (m : Master) (a : Nat) : Bool :=
  match m with
  | .pair _ | .debug => true
  | .engine e =>
    (0x10000000 ≤ a && a < 0x10400000) || (0x40400000 + 0x10000 * e.val ≤ a && a < 0x40410000 + 0x10000 * e.val)
      || (0x40200000 + 0x2000 * e.val ≤ a && a < 0x40202000 + 0x2000 * e.val) || (0x4020FF00 ≤ a && a < 0x40210000)
      || (0x40300000 + 0x4000 * e.val ≤ a && a < 0x40304000 + 0x4000 * e.val)
      || (0x40100000 + 0x2000 * e.val ≤ a && a < 0x40102000 + 0x2000 * e.val)
  | .scu => (0x18000000 ≤ a && a < 0x18800000) || (0x40200000 ≤ a && a < 0x40210000) || (0x40300000 ≤ a && a < 0x40320000)

/-- The place of a writer among those that meet in one cycle (R23). -/
def Dev.rank (d : Dev) (m : Master) : Nat :=
  match m with
  | .pair p => if d.sup = p.val then 0 else p.val + 1
  | .engine e => 6 + e.val
  | .scu => 14
  | .debug => 15

/-- A device-wide register with fields that hold what is written: R23's order decides what remains in it. -/
def orderedReg (a : Nat) : Bool :=
  !(0x40100000 ≤ a && a < 0x40480000) && (match rowAt a with | some r => decide (r.rw ≠ 0) | none => false)

/-- The instruction or access in hand of a master has taken no exception yet. -/
def clearTook (m : Master) (d : Dev) : Dev :=
  match m with
  | .pair p => d.onPair p fun h => { h with took := false }
  | _ => d

/-- The access in hand of a master was refused with an exception. -/
def Dev.tookBy (d : Dev) (m : Master) : Bool :=
  match m with
  | .pair p => (d.pairOf p).took
  | _ => false

/-- Write a register in R23's order: after a writer of a later place in the same cycle, what that one wrote remains. -/
def writeOrdered (m : Master) (a : Nat) (w : Word) (x : DM) : DM :=
  let y := writeReg m a w x
  if !orderedReg a || y.1.tookBy m then y
  else
    let r := x.1.rank m
    match tget none x.1.wrote a with
    | some (t, r') =>
      if t = x.1.now && r < r' then
        let keep := match rowAt a with | some e => w32 e.rw | none => 0
        y.dev fun d => d.setReg a ((y.1.reg a &&& ~~~keep) ||| (x.1.reg a &&& keep))
      else y.dev fun d => { d with wrote := tset none d.wrote a (some (x.1.now, r)) }
    | none => y.dev fun d => { d with wrote := tset none d.wrote a (some (x.1.now, r)) }

/-- A write of `size` bytes by a master (R7, R8, R26, R351, R358): performed, or refused with its subcause. -/
def busWrite (m : Master) (a size v : Nat) (x : DM) : DM :=
  let x := x.dev (clearTook m)
  if !reaches m a then x
  else
    match x.1.ramKey m a with
    | some k =>
      if 0x103C0000 ≤ a && a < 0x10400000 && !x.1.winWriteOk m a then x.dev (winRefuse m a)
      else (x.1, memWrite x.2 k size v)
    | none =>
      if 0x20000000 ≤ a && a < 0x21000000 then x.dev (busError m 4 a true)
      else if 0x30000000 ≤ a && a < 0x34000000 then x.dev (busError m 4 a true)
      else if !inBlock a then x.dev (busError m 1 a true)
      else if size ≠ 4 then x.dev (busError m 2 a true)
      else writeOrdered m a (w32 v) x

/-- An address of the read window in a block that holds a metadata copy, whose layout the spec does not give (R316; DESIGN
CHOICE, log 29). -/
def Dev.metaAt (d : Dev) (a : Nat) : Bool := (List.range 16).any fun l => d.jnl.phys l = (a - 0x20000000) / 4096

/-- What a read answers: a value, a refusal with its subcause, or nothing until a line of the window has come (R350). -/
inductive Got where
  | word (v : Nat) (d : Dev)
  | refused (sub : Nat)
  | line

/-- A read of `size` bytes by a master (R7, R8, R26, R350, R351). What a metadata copy holds is a free value. -/
def busRead (m : Master) (a size : Nat) (x : DM) : Got :=
  match x.1.ramKey m a with
  | some k => .word (memRead x.2 k size) x.1
  | none =>
    if 0x20000000 ≤ a && a < 0x21000000 then
      (if x.1.metaAt a then
         let f := x.1.freeVal
         .word ((Config.freeWord f.1).toNat % 2 ^ (8 * size)) f.2
       else .word (memRead x.2 a size) x.1)
    else if 0x30000000 ≤ a && a < 0x34000000 then
      (if x.1.xipSub (a - 0x30000000) false ≠ 0 then .refused (x.1.xipSub (a - 0x30000000) false)
       else match x.1.lineAt (a - 0x30000000) with
         | some l => .word (lineWord l (a - 0x30000000) size) x.1
         | none => .line)
    else if !inBlock a then .refused 1
    else if size ≠ 4 then .refused 2
    else if a = SP1_RX && !x.1.sp1Rights m then .refused 6
    else
      let r := readReg m a x.1
      .word r.1.toNat r.2

/-- A read of one word for the debug access: what is read goes to `rdata`; a refused one changes nothing. -/
def debugRead (a : Nat) (x : DM) : DM :=
  match busRead .debug a 4 x with
  | .word v d => ({ d with rdata := w32 v }, x.2)
  | _ => x

/-- A word written by a master as a command of its own: a pair at task privilege is kept out of the blocks (R24), and an
address that is no multiple of 4 is an alignment exception of a pair (R7, R260). -/
def masterWrite (m : Master) (a : Nat) (w : Word) (x : DM) : DM :=
  match m with
  | .pair p =>
    if !((x.1.pairOf p).cwGet 0).getLsbD 0 && 0x40000000 ≤ a then x.dev fun d => pairExc p 2 1 true false (w32 a) (d.pairOf p).pc d
    else if a % 4 ≠ 0 then x.dev fun d => pairExc p 3 0 true false (w32 a) (d.pairOf p).pc d
    else busWrite m a 4 w.toNat x
  | _ => if a % 4 ≠ 0 then x else busWrite m a 4 w.toNat x

/-- REGISTER_WRITE (R7 to R11, R21, R23): a write of one word at an address of the map. -/
def execRegisterWrite (m : Master) (addr w : Word) : State → Out := onDM (masterWrite m addr.toNat w)

/-- DEBUG_ACCESS (R47): a word of the map written or read by the debug access, in SERVICE mode only. -/
def execDebugAccess (write : Bool) (addr w : Word) : State → Out :=
  onDM fun x =>
    if x.1.mode ≠ .service || addr.toNat % 4 ≠ 0 then x
    else if write then busWrite .debug addr.toNat 4 w.toNat x
    else debugRead addr.toNat x

end Sys2Proof.Machine
end

