-- ==== Sys2Proof/Machine/Lamps.lean ====
section
/-! DEFINITION. What the eighteen lamps of the operator panel show (R48, R53). -/

namespace Sys2Proof.Machine
open Sys2Proof Reg

/-- What a lamp shows (R48). -/
inductive Lamp where
  | off | green | amber | red | green2Hz | amber2Hz | red2Hz | red3 | redGreen1Hz
  deriving DecidableEq, Repr

/-- The lamp of a slot: the first state of R48's table that applies. -/
def Dev.slotLamp (d : Dev) (q : Nat) : Lamp :=
  let st := d.get (CSL_STAT_STATE q)
  let faults := (quadAxes q).filter fun a => d.axSt a = .fault
  if d.mode = .dormant then .off
  else if (match (d.slotOf q).refusedAt with | some t => decide (d.now < t + 300000000) | none => false) then .red3
  else if st = 5 || st = 6 then .amber
  else if st = 4 then .amber2Hz
  else if st = 3 || faults.length = 4 then .red
  else if st = 1 then .redGreen1Hz
  else if d.on CSL_PANEL_SELVALID && d.get CSL_PANEL_SEL = q then .green2Hz
  else if st = 2 then (if faults.isEmpty then .green else .red2Hz)
  else .off

/-- The SUPPLY lamp: LOGIC main, the DC-derived backup, hold-up. -/
def Dev.supplyLamp (d : Dev) : Lamp :=
  if d.mode = .dormant then .off
  else if d.on PSE_STAT_HOLDUP then .red
  else if d.get PSE_STAT_SRC = 1 then .green
  else if d.get PSE_STAT_SRC = 2 then .amber
  else .off

/-- The BUS lamp: red at bus-off, amber at BUS_ALONE, green with an address claimed. -/
def Dev.busLamp (d : Dev) : Lamp :=
  if d.mode = .dormant then .off
  else if d.get (CAN_STAT_STATE 0) = 2 then .red
  else if d.on (CAN_STAT_ALONE 0) then .amber
  else if d.bus.addr.isSome then .green
  else .off

end Sys2Proof.Machine
end

