-- ==== Sys2Proof/Machine/LitosOps.lean ====
section
/-! DEFINITION. What every Litos instruction shares (R255 to R258, R270, R271): when a pair executes, how an instruction
completes, how it takes an exception, operand forms, loads and stores, accumulator updates. -/

namespace Sys2Proof.Machine
open Sys2Proof Reg

/-- A pair executes instructions: its firmware has been started, it is healthy, and it is neither halted nor waiting
(R255, R267, R296, R312). -/
def Dev.runs (d : Dev) (p : Nat) : Bool :=
  let h := d.pairOf p
  h.started && !h.halted && d.healthy p && h.wait = .none_

/-- An instruction of a pair: nothing while the pair does not execute. -/
def litos (p : Nat) (f : DM → DM) : State → Out :=
  onDM fun x => if x.1.runs p then f (x.dev fun d => d.onPair p fun h => { h with took := false }) else x

/-- An instruction completes: the PC goes on and the instruction counts as retired. -/
def advance (p : Nat) (d : Dev) : Dev := d.onPair p fun h => { h with pc := h.pc + 4, retired := (h.retired + 1) % 2 ^ 64 }

/-- An instruction completes with a jump. -/
def jumpTo (p : Nat) (pc : Word) (d : Dev) : Dev :=
  d.onPair p fun h => { h with pc := pc, retired := (h.retired + 1) % 2 ^ 64 }

/-- A general register of a pair. -/
def Dev.gr (d : Dev) (p i : Nat) : Word := (d.pairOf p).gr i

/-- An instruction completes with a result in a general register. -/
def result (p gd : Nat) (w : Word) (d : Dev) : Dev := advance p (d.onPair p fun h => h.setGr gd w)

/-- Supervisor privilege (R256). -/
def Dev.superv (d : Dev) (p : Nat) : Bool := ((d.pairOf p).cwGet 0).getLsbD 0

/-- The instruction in hand takes an exception; EPC is its address (R270). -/
def trap (p cause sub : Nat) (w : Bool) (addr : Word) (d : Dev) : Dev :=
  pairExc p cause sub w false addr (d.pairOf p).pc d

/-- A word is illegal (R258, R265, R269). -/
def illegal (p : Nat) (i : Instr) (d : Dev) : Dev := trap p 1 0 false (litosWord i) d

/-- An instruction of supervisor privilege, or a privilege exception with its subcause (R256). -/
def asSuper (p sub : Nat) (i : Instr) (f : Dev → Dev) (d : Dev) : Dev :=
  if d.superv p then f d else trap p 2 sub false (litosWord i) d

/-! Integer forms (R259). -/

/-- An integer register instruction. -/
def alu (f : Word → Word → Word) (p gd ga gb : Nat) : State → Out :=
  litos p fun x => x.dev fun d => result p gd (f (d.gr p ga) (d.gr p gb)) d

/-- An integer instruction with an immediate operand. -/
def aluImm (f : Word → Word) (p gd ga : Nat) : State → Out :=
  litos p fun x => x.dev fun d => result p gd (f (d.gr p ga)) d

/-- 1 for true, 0 for false. -/
def bit1 (b : Bool) : Word := if b then 1 else 0

/-- Signed quotient truncated towards zero; a divisor of 0 gives all ones (R259). -/
def divS (a b : Word) : Word := if b = 0 then 0xFFFFFFFF#32 else w32i (Int.tdiv a.toInt b.toInt)

/-- Unsigned quotient; a divisor of 0 gives all ones (R259). -/
def divU (a b : Word) : Word := if b = 0 then 0xFFFFFFFF#32 else w32 (a.toNat / b.toNat)

/-- The high word of a product (R259). -/
def mulHigh (a b : Int) : Word := w32i (a * b / 2 ^ 32)

/-- Leading zeros of a word (R259). -/
def leadingZeros (w : Word) : Nat := ((List.range 32).reverse.takeWhile fun i => !w.getLsbD i).length

/-! Branches (R261). -/

/-- A branch: taken when its condition holds. -/
def branch (c : Word → Word → Bool) (p ga gb : Nat) (off : BitVec 16) : State → Out :=
  litos p fun x => x.dev fun d =>
    let pc := (d.pairOf p).pc
    jumpTo p (if c (d.gr p ga) (d.gr p gb) then pc + 4 + off.signExtend 32 * 4 else pc + 4) d

/-! Loads, stores, atomics (R256, R257, R260, R264). -/

/-- The address of a load or a store. -/
def Dev.effAddr (d : Dev) (p ga : Nat) (imm : BitVec 16) : Word := d.gr p ga + imm.signExtend 32

/-- A value extended to a register. -/
def extend (size : Nat) (signed : Bool) (v : Nat) : Word := if signed then w32i (sx (8 * size) v) else w32 v

/-- A load: privilege, alignment, memory error, then the bus; a line of the window that is not buffered is waited for. -/
def load (p gd ga : Nat) (imm : BitVec 16) (size : Nat) (signed ecc : Bool) : State → Out :=
  litos p fun x =>
    let w := x.1.effAddr p ga imm
    let a := w.toNat
    if !x.1.superv p && 0x40000000 ≤ a then x.dev (trap p 2 1 false w)
    else if a % size ≠ 0 then x.dev (trap p 3 0 false w)
    else if ecc && inEcc a then x.dev (trap p 4 5 false w)
    else match busRead (.pair (Fin.ofNat 5 p)) a size x with
      | .word v d => (result p gd (extend size signed v) d, x.2)
      | .refused sub => x.dev (trap p 4 sub false w)
      | .line => x.dev fun d => (d.onPair p fun h => { h with wait := .line gd size signed a }).put SP0_STAT_XIPBUSY 1

/-- The access in hand is over: the pair goes on unless it took an exception or was stopped or reset by it. -/
def afterStore (p : Nat) (d : Dev) : Dev := if !(d.pairOf p).took && d.runs p then advance p d else d

/-- A store of the low `size` bytes of a register: privilege, alignment, then the bus. -/
def store (p gs ga : Nat) (imm : BitVec 16) (size : Nat) : State → Out :=
  litos p fun x =>
    let w := x.1.effAddr p ga imm
    let a := w.toNat
    if !x.1.superv p && 0x40000000 ≤ a then x.dev (trap p 2 1 true w)
    else if a % size ≠ 0 then x.dev (trap p 3 0 true w)
    else (busWrite (.pair (Fin.ofNat 5 p)) a size ((x.1.gr p gs).toNat % 2 ^ (8 * size)) x).dev (afterStore p)

/-- An atomic: `f` makes the new word from the old one and gb, or keeps it. A refusal of the write by the shared window
leaves gd as it was. -/
def atomic (f : Dev → Word → Word → Word) (p gd ga gb : Nat) (ecc : Bool) : State → Out :=
  litos p fun x =>
    let w := x.1.gr p ga
    let a := w.toNat
    let m : Master := .pair (Fin.ofNat 5 p)
    if !x.1.superv p && 0x40000000 ≤ a then x.dev (trap p 2 1 true w)
    else if a % 4 ≠ 0 then x.dev (trap p 3 0 true w)
    else if !inEcc a then x.dev (trap p 4 8 true w)
    else if ecc then x.dev (trap p 4 5 false w)
    else match x.1.ramKey m a with
      | some k =>
        let old := w32 (memRead x.2 k 4)
        let y := busWrite m a 4 (f x.1 old (x.1.gr p gb)).toNat x
        y.dev fun d => if (d.pairOf p).took then d else result p gd old d
      | none => x

/-! Accumulators (R262). -/

/-- An accumulator of a pair, signed. -/
def Dev.ac (d : Dev) (p i : Nat) : Int := (tget (0 : BitVec 64) (d.pairOf p).ac i).toInt

/-- Write an accumulator, modulo 2^64. -/
def setAc (p i : Nat) (v : Int) (d : Dev) : Dev :=
  d.onPair p fun h => { h with ac := tset (0 : BitVec 64) h.ac i (BitVec.ofInt 64 v) }

/-- Set ACSTAT.SAT when values were saturated. -/
def noteSat (p n : Nat) (d : Dev) : Dev := if n = 0 then d else d.onPair p fun h => h.cwSet 7 1

/-- An accumulator instruction with two register operands: the new accumulator and its saturations. -/
def accOp (f : Int → Word → Word → Sat Int) (p acd ga gb : Nat) : State → Out :=
  litos p fun x => x.dev fun d =>
    let r := f (d.ac p acd) (d.gr p ga) (d.gr p gb)
    advance p (noteSat p r.2 (setAc p acd r.1 d))

/-- An instruction that forms a register from an accumulator. -/
def accRead (f : Dev → Int → Sat Int) (p gd acs : Nat) : State → Out :=
  litos p fun x => x.dev fun d =>
    let r := f d (d.ac p acs)
    result p gd (w32i r.1) (noteSat p r.2 d)

/-- BEXP's shift (R262): −128 for 0, else the smallest s with |acs| / 2^s in [2^22, 2^23), one more when it rounds to 2^23. -/
def bexp (v : Int) : Int :=
  if v = 0 then -128
  else
    let s : Int := (log2N 64 v.natAbs : Int) - 22
    if scale2 (v.natAbs : Int) (-s) = 2 ^ 23 then s + 1 else s

/-- BMANT's mantissa (R262). Shifts beyond −64 and 128 give what those give. -/
def bmant (v s : Int) : Sat Int :=
  let m := scale2 v (-(clampI (-64) 128 s))
  let c := clampI (-(2 ^ 23 - 1)) (2 ^ 23 - 1) m
  (c, if c = m then 0 else 1)

end Sys2Proof.Machine
end

