-- ==== Sys2Proof/Machine/LitosAcc.lean ====
section
/-! DEFINITION. Accumulator instructions (R262). -/

namespace Sys2Proof.Machine
open Sys2Proof Reg

/-- MULA (R262): acd := sext(ga) × sext(gb). -/
def execMula (p : Fin 5) (acd : Fin 4) (ga gb : Fin 32) : State → Out :=
  accOp (fun _ a b => (a.toInt * b.toInt, 0)) p acd ga gb

/-- MAC (R262): acd := sat64(acd + sext(ga) × sext(gb)). -/
def execMac (p : Fin 5) (acd : Fin 4) (ga gb : Fin 32) : State → Out :=
  accOp (fun c a b => sat64 (c + a.toInt * b.toInt)) p acd ga gb

/-- MSU (R262): acd := sat64(acd − sext(ga) × sext(gb)). -/
def execMsu (p : Fin 5) (acd : Fin 4) (ga gb : Fin 32) : State → Out :=
  accOp (fun c a b => sat64 (c - a.toInt * b.toInt)) p acd ga gb

/-- MACU (R262): acd := acd + zext(ga) × zext(gb) modulo 2^64. -/
def execMacu (p : Fin 5) (acd : Fin 4) (ga gb : Fin 32) : State → Out :=
  accOp (fun c a b => (c + (a.toNat : Int) * b.toNat, 0)) p acd ga gb

/-- FMAC (R262): one fixed-point term; k is the coefficient's 6-bit signed shift. -/
def execFmac (p : Fin 5) (acd : Fin 4) (ga gb : Fin 32) (k : Fin 64) : State → Out :=
  accOp (fun c a b => fixTerm (c, 0) (⟨a.toInt, sx 6 k⟩, b.toInt)) p acd ga gb

/-- BMAC (R262): acd := sat64(acd + rha(sext(ga[23:0]) × sext(gb[23:0]) / 2^k)). -/
def execBmac (p : Fin 5) (acd : Fin 4) (ga gb : Fin 32) (k : Fin 64) : State → Out :=
  accOp (fun c a b => sat64 (c + rha (sx 24 (a.toNat % 2 ^ 24) * sx 24 (b.toNat % 2 ^ 24)) (2 ^ k.val))) p acd ga gb

/-- ACRD (R262): gd := sat32(rha(acs / 2^k)). -/
def execAcrd (p : Fin 5) (gd : Fin 32) (acs : Fin 4) (k : Fin 64) : State → Out :=
  accRead (fun _ v => sat32 (rha v (2 ^ k.val))) p gd acs

/-- ACLO (R262): gd := acs[31:0]. -/
def execAclo (p : Fin 5) (gd : Fin 32) (acs : Fin 4) : State → Out := accRead (fun _ v => (v, 0)) p gd acs

/-- ACHI (R262): gd := acs[63:32]. -/
def execAchi (p : Fin 5) (gd : Fin 32) (acs : Fin 4) : State → Out := accRead (fun _ v => (v / 2 ^ 32, 0)) p gd acs

/-- ACLD (R262): acd := gb × 2^32 + zext(ga). -/
def execAcld (p : Fin 5) (acd : Fin 4) (ga gb : Fin 32) : State → Out :=
  accOp (fun _ a b => (b.toInt * 2 ^ 32 + a.toNat, 0)) p acd ga gb

/-- ACMOV (R262): acd := acs. -/
def execAcmov (p : Fin 5) (acd acs : Fin 4) : State → Out :=
  litos p fun x => x.dev fun d => advance p (setAc p acd (d.ac p acs) d)

/-- BEXP (R262): the renormalising shift of acs. -/
def execBexp (p : Fin 5) (gd : Fin 32) (acs : Fin 4) : State → Out := accRead (fun _ v => (bexp v, 0)) p gd acs

/-- BMANT (R262): the mantissa of acs at the shift gb. -/
def execBmant (p : Fin 5) (gd : Fin 32) (acs : Fin 4) (gb : Fin 32) : State → Out :=
  accRead (fun d v => bmant v (d.gr p gb).toInt) p gd acs

end Sys2Proof.Machine
end

