-- ==== Sys2Proof/Machine/LitosInt.lean ====
section
/-! DEFINITION. Integer instructions and branches (R259, R261). -/

namespace Sys2Proof.Machine
open Sys2Proof Reg

/-! Register operations. -/

/-- ADD (R259): gd := ga + gb modulo 2^32. -/
def execAdd (p : Fin 5) (gd ga gb : Fin 32) : State → Out := alu (fun a b => a + b) p gd ga gb

/-- SUB (R259): gd := ga − gb modulo 2^32. -/
def execSub (p : Fin 5) (gd ga gb : Fin 32) : State → Out := alu (fun a b => a - b) p gd ga gb

/-- AND (R259): gd := ga and gb. -/
def execAnd (p : Fin 5) (gd ga gb : Fin 32) : State → Out := alu (fun a b => a &&& b) p gd ga gb

/-- OR (R259): gd := ga or gb. -/
def execOr (p : Fin 5) (gd ga gb : Fin 32) : State → Out := alu (fun a b => a ||| b) p gd ga gb

/-- XOR (R259): gd := ga exclusive-or gb. -/
def execXor (p : Fin 5) (gd ga gb : Fin 32) : State → Out := alu (fun a b => a ^^^ b) p gd ga gb

/-- NOR (R259): gd := not (ga or gb). -/
def execNor (p : Fin 5) (gd ga gb : Fin 32) : State → Out := alu (fun a b => ~~~(a ||| b)) p gd ga gb

/-- SLT (R259): gd := 1 if ga < gb signed, else 0. -/
def execSlt (p : Fin 5) (gd ga gb : Fin 32) : State → Out := alu (fun a b => bit1 (a.toInt < b.toInt)) p gd ga gb

/-- SLTU (R259): gd := 1 if ga < gb unsigned, else 0. -/
def execSltu (p : Fin 5) (gd ga gb : Fin 32) : State → Out := alu (fun a b => bit1 (a.toNat < b.toNat)) p gd ga gb

/-- SLL (R259): ga shifted left by gb[4:0]. -/
def execSll (p : Fin 5) (gd ga gb : Fin 32) : State → Out := alu (fun a b => a <<< (b.toNat % 32)) p gd ga gb

/-- SRL (R259): ga shifted right by gb[4:0] with zeros. -/
def execSrl (p : Fin 5) (gd ga gb : Fin 32) : State → Out := alu (fun a b => a >>> (b.toNat % 32)) p gd ga gb

/-- SRA (R259): ga shifted right by gb[4:0] with its sign. -/
def execSra (p : Fin 5) (gd ga gb : Fin 32) : State → Out := alu (fun a b => a.sshiftRight (b.toNat % 32)) p gd ga gb

/-- MUL (R259): the low word of the product. -/
def execMul (p : Fin 5) (gd ga gb : Fin 32) : State → Out := alu (fun a b => a * b) p gd ga gb

/-- MULH (R259): the high word of the signed product. -/
def execMulh (p : Fin 5) (gd ga gb : Fin 32) : State → Out := alu (fun a b => mulHigh a.toInt b.toInt) p gd ga gb

/-- MULHU (R259): the high word of the unsigned product. -/
def execMulhu (p : Fin 5) (gd ga gb : Fin 32) : State → Out := alu (fun a b => mulHigh a.toNat b.toNat) p gd ga gb

/-- DIV (R259): the signed quotient. -/
def execDiv (p : Fin 5) (gd ga gb : Fin 32) : State → Out := alu (fun a b => divS a b) p gd ga gb

/-- DIVU (R259): the unsigned quotient. -/
def execDivu (p : Fin 5) (gd ga gb : Fin 32) : State → Out := alu (fun a b => divU a b) p gd ga gb

/-- REM (R259): gd := ga − gb × DIV(ga, gb). -/
def execRem (p : Fin 5) (gd ga gb : Fin 32) : State → Out := alu (fun a b => a - b * divS a b) p gd ga gb

/-- REMU (R259): the unsigned remainder. -/
def execRemu (p : Fin 5) (gd ga gb : Fin 32) : State → Out := alu (fun a b => a - b * divU a b) p gd ga gb

/-- MIN (R259): the lesser of ga and gb, signed. -/
def execMin (p : Fin 5) (gd ga gb : Fin 32) : State → Out := alu (fun a b => if a.toInt < b.toInt then a else b) p gd ga gb

/-- MAX (R259): the greater of ga and gb, signed. -/
def execMax (p : Fin 5) (gd ga gb : Fin 32) : State → Out := alu (fun a b => if a.toInt < b.toInt then b else a) p gd ga gb

/-- SLLI (R259): ga shifted left by sh. -/
def execSlli (p : Fin 5) (gd ga sh : Fin 32) : State → Out := aluImm (fun a => a <<< sh.val) p gd ga

/-- SRLI (R259): ga shifted right with zeros by sh. -/
def execSrli (p : Fin 5) (gd ga sh : Fin 32) : State → Out := aluImm (fun a => a >>> sh.val) p gd ga

/-- SRAI (R259): ga shifted right with its sign by sh. -/
def execSrai (p : Fin 5) (gd ga sh : Fin 32) : State → Out := aluImm (fun a => a.sshiftRight sh.val) p gd ga

/-- CLZ (R259): the leading zeros of ga. -/
def execClz (p : Fin 5) (gd ga : Fin 32) : State → Out := aluImm (fun a => w32 (leadingZeros a)) p gd ga

/-! Immediate operations. -/

/-- ADDI (R259): gd := ga + sext(imm16) modulo 2^32. -/
def execAddi (p : Fin 5) (gd ga : Fin 32) (imm : BitVec 16) : State → Out :=
  aluImm (fun a => a + imm.signExtend 32) p gd ga

/-- SLTI (R259): gd := 1 if ga < sext(imm16) signed, else 0. -/
def execSlti (p : Fin 5) (gd ga : Fin 32) (imm : BitVec 16) : State → Out :=
  aluImm (fun a => bit1 (a.toInt < imm.toInt)) p gd ga

/-- SLTIU (R259): gd := 1 if ga < sext(imm16) unsigned, else 0. -/
def execSltiu (p : Fin 5) (gd ga : Fin 32) (imm : BitVec 16) : State → Out :=
  aluImm (fun a => bit1 (a.toNat < (imm.signExtend 32).toNat)) p gd ga

/-- ANDI (R259): gd := ga and zext(imm16). -/
def execAndi (p : Fin 5) (gd ga : Fin 32) (imm : BitVec 16) : State → Out :=
  aluImm (fun a => a &&& imm.setWidth 32) p gd ga

/-- ORI (R259): gd := ga or zext(imm16). -/
def execOri (p : Fin 5) (gd ga : Fin 32) (imm : BitVec 16) : State → Out :=
  aluImm (fun a => a ||| imm.setWidth 32) p gd ga

/-- XORI (R259): gd := ga exclusive-or zext(imm16). -/
def execXori (p : Fin 5) (gd ga : Fin 32) (imm : BitVec 16) : State → Out :=
  aluImm (fun a => a ^^^ imm.setWidth 32) p gd ga

/-- LUI (R259): gd := imm16 × 2^16. -/
def execLui (p : Fin 5) (gd : Fin 32) (imm : BitVec 16) : State → Out :=
  aluImm (fun _ => w32 (imm.toNat * 65536)) p gd 0

/-! Branches and jumps. -/

/-- BEQ (R261): taken when ga = gb. -/
def execBeq (p : Fin 5) (ga gb : Fin 32) (off : BitVec 16) : State → Out :=
  branch (fun a b => decide (a = b)) p ga gb off

/-- BNE (R261): taken when ga ≠ gb. -/
def execBne (p : Fin 5) (ga gb : Fin 32) (off : BitVec 16) : State → Out :=
  branch (fun a b => decide (a ≠ b)) p ga gb off

/-- BLT (R261): taken when ga < gb, signed. -/
def execBlt (p : Fin 5) (ga gb : Fin 32) (off : BitVec 16) : State → Out :=
  branch (fun a b => decide (a.toInt < b.toInt)) p ga gb off

/-- BGE (R261): taken when ga ≥ gb, signed. -/
def execBge (p : Fin 5) (ga gb : Fin 32) (off : BitVec 16) : State → Out :=
  branch (fun a b => decide (b.toInt ≤ a.toInt)) p ga gb off

/-- BLTU (R261): taken when ga < gb, unsigned. -/
def execBltu (p : Fin 5) (ga gb : Fin 32) (off : BitVec 16) : State → Out :=
  branch (fun a b => decide (a.toNat < b.toNat)) p ga gb off

/-- BGEU (R261): taken when ga ≥ gb, unsigned. -/
def execBgeu (p : Fin 5) (ga gb : Fin 32) (off : BitVec 16) : State → Out :=
  branch (fun a b => decide (b.toNat ≤ a.toNat)) p ga gb off

/-- J (R261): to PC + 4 + sext(off26) × 4. -/
def execJ (p : Fin 5) (off : BitVec 26) : State → Out :=
  litos p fun x => x.dev fun d => jumpTo p ((d.pairOf p).pc + 4 + off.signExtend 32 * 4) d

/-- JAL (R261): as J, with PC + 4 in g31. -/
def execJal (p : Fin 5) (off : BitVec 26) : State → Out :=
  litos p fun x => x.dev fun d =>
    let pc := (d.pairOf p).pc
    jumpTo p (pc + 4 + off.signExtend 32 * 4) (d.onPair p fun h => h.setGr 31 (pc + 4))

/-- JALR (R261): PC + 4 into gd, to ga + sext(imm16) with the low two bits cleared; ga is read first. -/
def execJalr (p : Fin 5) (gd ga : Fin 32) (imm : BitVec 16) : State → Out :=
  litos p fun x => x.dev fun d =>
    let t := (d.gr p ga + imm.signExtend 32) &&& 0xFFFFFFFC#32
    jumpTo p t (d.onPair p fun h => h.setGr gd (h.pc + 4))

end Sys2Proof.Machine
end

