-- ==== Sys2Proof/Machine/LitosMem.lean ====
section
/-! DEFINITION. Loads, stores and atomics (R260, R264). `ecc`: an uncorrectable error is found in the word read (R28). -/

namespace Sys2Proof.Machine
open Sys2Proof Reg

/-- LW (R260): load a word. -/
def execLw (p : Fin 5) (gd ga : Fin 32) (imm : BitVec 16) (ecc : Bool) : State → Out := load p gd ga imm 4 false ecc

/-- LH (R260): load a halfword, its sign extended. -/
def execLh (p : Fin 5) (gd ga : Fin 32) (imm : BitVec 16) (ecc : Bool) : State → Out := load p gd ga imm 2 true ecc

/-- LHU (R260): load a halfword, extended with zeros. -/
def execLhu (p : Fin 5) (gd ga : Fin 32) (imm : BitVec 16) (ecc : Bool) : State → Out := load p gd ga imm 2 false ecc

/-- LB (R260): load a byte, its sign extended. -/
def execLb (p : Fin 5) (gd ga : Fin 32) (imm : BitVec 16) (ecc : Bool) : State → Out := load p gd ga imm 1 true ecc

/-- LBU (R260): load a byte, extended with zeros. -/
def execLbu (p : Fin 5) (gd ga : Fin 32) (imm : BitVec 16) (ecc : Bool) : State → Out := load p gd ga imm 1 false ecc

/-- SW (R260): store a word. -/
def execSw (p : Fin 5) (gs ga : Fin 32) (imm : BitVec 16) : State → Out := store p gs ga imm 4

/-- SH (R260): store the low halfword. -/
def execSh (p : Fin 5) (gs ga : Fin 32) (imm : BitVec 16) : State → Out := store p gs ga imm 2

/-- SB (R260): store the low byte. -/
def execSb (p : Fin 5) (gs ga : Fin 32) (imm : BitVec 16) : State → Out := store p gs ga imm 1

/-- ASWAP (R264): the new word is gb. -/
def execAswap (p : Fin 5) (gd ga gb : Fin 32) (ecc : Bool) : State → Out := atomic (fun _ _ b => b) p gd ga gb ecc

/-- AADD (R264): the new word is old + gb modulo 2^32. -/
def execAadd (p : Fin 5) (gd ga gb : Fin 32) (ecc : Bool) : State → Out := atomic (fun _ old b => old + b) p gd ga gb ecc

/-- AAND (R264): the new word is old and gb. -/
def execAand (p : Fin 5) (gd ga gb : Fin 32) (ecc : Bool) : State → Out := atomic (fun _ old b => old &&& b) p gd ga gb ecc

/-- AOR (R264): the new word is old or gb. -/
def execAor (p : Fin 5) (gd ga gb : Fin 32) (ecc : Bool) : State → Out := atomic (fun _ old b => old ||| b) p gd ga gb ecc

/-- ACAS (R264): the new word is gb if old = gd, else old. -/
def execAcas (p : Fin 5) (gd ga gb : Fin 32) (ecc : Bool) : State → Out := atomic (fun d old b => if old = d.gr p gd then b else old) p gd ga gb ecc

end Sys2Proof.Machine
end

