-- ==== Sys2Proof/Machine/LitosSys.lean ====
section
/-! DEFINITION. Control words, system instructions, LEL, interrupts and the faults of a fetch (R265 to R273). -/

namespace Sys2Proof.Machine
open Sys2Proof Reg

/-! Control words (R265). -/

/-- A control word the table lists. -/
def cwListed (i : Nat) : Bool := i ≤ 9 || (0x10 ≤ i && i ≤ 0x1F) || (0x100 ≤ i && i ≤ 0x1FF)

/-- A control word of supervisor privilege. -/
def cwSuper (i : Nat) : Bool := i ≤ 5 || (0x10 ≤ i && i ≤ 0x1F)

/-- The bits of a control word a write changes. -/
def cwMask (i : Nat) : Word :=
  if i = 0 then 7 else if i = 2 then 0xFFFFFFFC#32 else if i = 3 then 0x0000F31F#32 else if i = 5 then 0xFFFFF000#32
  else if 6 ≤ i && i ≤ 9 then (if i = 7 then 1 else 0)
  else 0xFFFFFFFF#32

/-- PAIRID of a pair: its number, whether it supervises, whether it is the spare. -/
def Dev.pairId (d : Dev) (p : Nat) : Word :=
  w32 (p + (if d.sup = p then 256 else 0) + (if d.spare = some p then 512 else 0))

/-- A control word as an instruction reads it. -/
def Dev.cwView (d : Dev) (p i : Nat) : Word :=
  let h := d.pairOf p
  if i = 6 then d.pairId p
  else if i = 8 then w32 (h.retired % 2 ^ 32)
  else if i = 9 then h.retHi
  else h.cwGet i

/-- Access a control word: an unlisted one is illegal, a supervisor's a privilege exception at task privilege. -/
def asCw (p i : Nat) (ins : Instr) (f : Dev → Dev) (d : Dev) : Dev :=
  if !cwListed i then illegal p ins d
  else if cwSuper i then asSuper p 3 ins f d
  else f d

/-- CWR (R265): a read of RETLO latches the high word. -/
def execCwr (p : Fin 5) (g : Fin 32) (index : Fin 4096) : State → Out :=
  litos p fun x => x.dev (asCw p index (.cwr p g index) fun d =>
    let d' := if index.val = 8 then d.onPair p fun h => { h with retHi := w32 (h.retired / 2 ^ 32) } else d
    result p g (d.cwView p index) d')

/-- CWW (R265): bits that are reserved or of an RO word stay. -/
def execCww (p : Fin 5) (g : Fin 32) (index : Fin 4096) : State → Out :=
  litos p fun x => x.dev (asCw p index (.cww p g index) fun d =>
    let m := cwMask index
    advance p (d.onPair p fun h => if m = 0 then h else h.cwSet index ((h.cwGet index &&& ~~~m) ||| (h.gr g &&& m))))

/-! System instructions (R266 to R269). -/

/-- SYSC (R266): a system-call exception with its code in EADDR. -/
def execSysc (p : Fin 5) (code : Fin 1048576) : State → Out := litos p fun x => x.dev (trap p 5 0 false (w32 code))

/-- ERET (R266). -/
def execEret (p : Fin 5) : State → Out :=
  litos p fun x => x.dev (asSuper p 2 (.eret p) fun d =>
    d.onPair p fun h => { h.leave with retired := (h.retired + 1) % 2 ^ 64 })

/-- BRK (R266, R311, R312): a debug halt of an armed pair where it is permitted; else a breakpoint exception. -/
def execBrk (p : Fin 5) (code : Fin 1048576) : State → Out :=
  litos p fun x => x.dev fun d =>
    if p.val ∈ d.ssq.armedHalt && d.haltOk p then splitPair p d else trap p 6 0 false (w32 code) d

/-- Device time [31:0] has reached a deadline (R267). -/
def Dev.deadline (d : Dev) (w : Word) : Bool := decide (0 ≤ (w32 (d.now % 2 ^ 32) - w).toInt)

/-- A WEV retires with an event, or with the deadline code (R267); the event comes first. -/
def wevEnd (p gd : Nat) (dl : Option Nat) (d : Dev) : Option Dev :=
  match d.waiting p with
  | some n => some (result p gd (w32 n) (noteRedir n d))
  | none => match dl with
    | some t => if d.deadline (w32 t) then some (result p gd 0xFFFFFFFF#32 d) else none
    | none => none

/-- WEV (R267): retires at once with an event or a deadline that is there; otherwise the pair waits. -/
def execWev (p : Fin 5) (gd ga : Fin 32) (t : Bool) : State → Out :=
  litos p fun x => x.dev (asSuper p 2 (.wev p gd ga t) fun d =>
    let dl := if t then some (d.gr p ga).toNat else none
    match wevEnd p gd dl d with
    | some d => d
    | none => d.onPair p fun h => { h with wait := .wev gd dl })

/-- A waiting pair that is not halted and has not failed. -/
def Dev.waits (d : Dev) (p : Nat) : Bool := (d.pairOf p).started && !(d.pairOf p).halted && d.healthy p

/-- WEV_RETIRE (R267): a waiting WEV retires. -/
def execWevRetire (p : Fin 5) : State → Out :=
  onDev fun d =>
    match (d.pairOf p).wait with
    | .wev gd dl =>
      if !d.waits p then d
      else match wevEnd p gd dl d with
        | some d => d.onPair p fun h => { h with wait := .none_ }
        | none => d
    | _ => d

/-- PEAL (R268): the vote; with W = 1 and a peal running, the pair then waits for its end. -/
def execPeal (p : Fin 5) (gd ga : Fin 32) (w : Bool) : State → Out :=
  litos p fun x => x.dev (asSuper p 2 (.peal p gd ga w) fun d =>
    if w && d.peal.running then
      let d := d.onPair p fun h => { h with wait := .peal gd, pealRes := 0 }
      let d := (castVote p ((d.gr p ga).getLsbD 0) d).2
      if (d.pairOf p).pealRes = 0 then d
      else result p gd (w32 (d.pairOf p).pealRes) (d.onPair p fun h => { h with wait := .none_ })
    else
      let r := castVote p ((d.gr p ga).getLsbD 0) d
      result p gd (w32 r.1) r.2)

/-- PEAL_WAIT_END (R268): the peal a pair waits for has ended. -/
def execPealWaitEnd (p : Fin 5) : State → Out :=
  onDev fun d =>
    match (d.pairOf p).wait with
    | .peal gd =>
      if d.waits p && (d.pairOf p).pealRes ≠ 0 then
        result p gd (w32 (d.pairOf p).pealRes) (d.onPair p fun h => { h with wait := .none_ })
      else d
    | _ => d

/-- LEL (R269) of one kind: illegal when a zero bit of its register is set, refused whole when the pair lacks the right to
one of its writes. A register that names another kind is that kind's command. -/
def lel (kind : Nat) (ins : Instr) (p ga gb : Nat) (zeroB : Bool) (ok : Nat → Word → Dev → Bool)
    (reg : Nat → Nat) (f : Nat → Word → Dev → Dev) (d : Dev) : Dev :=
  let a := d.gr p ga
  let b := d.gr p gb
  let e := a.toNat % 8
  if !d.superv p then trap p 2 2 false (litosWord ins) d
  else if a.toNat / 64 ≠ 0 || a.getLsbD 3 then illegal p ins d
  else if a.toNat / 16 % 4 ≠ kind then d
  else if zeroB && b ≠ 0 then illegal p ins d
  else if !ok e b d then trap p 4 6 true (w32 (reg e)) d
  else advance p (f e b d)

/-- The loops a word names (R269). -/
def loopsOf (b : Word) : List Nat := (List.range 24).filter fun k => b.getLsbD k

/-- A pair may write for every loop a word names (R238). -/
def Dev.lelLoops (d : Dev) (p : Fin 5) (e : Nat) (b : Word) : Bool :=
  d.engineRights (.pair p) e && (loopsOf b).all (d.loopRights (.pair p) e)

/-- LEL_REFGO (R216, R269): commit the staged references of the loops named. -/
def execLelRefgo (p : Fin 5) (ga gb : Fin 32) : State → Out :=
  litos p fun x => x.dev (lel 0 (.lelRefgo p ga gb) p ga gb false (fun e b d => d.lelLoops p e b)
    (fun e => LE_LCTL e 0) fun e b d => d.each (loopsOf b) fun k d => commitRefs e k d)

/-- LEL_COMMIT (R237, R269): commit the loops named. -/
def execLelCommit (p : Fin 5) (ga gb : Fin 32) : State → Out :=
  litos p fun x => x.dev (lel 1 (.lelCommit p ga gb) p ga gb false (fun e b d => d.lelLoops p e b)
    LE_COMMIT fun e b d => d.onEng e fun g => { g with commits := g.commits ||| b.toNat % 2 ^ 24 })

/-- LEL_PROOF (R236, R269): start a proof of a loop over N runs, N as it stands. -/
def execLelProof (p : Fin 5) (ga gb : Fin 32) : State → Out :=
  litos p fun x => x.dev (lel 2 (.lelProof p ga gb) p ga gb false
    (fun e b d => d.engineRights (.pair p) e && d.loopRights (.pair p) e (b.toNat % 32)) LE_PROOF
    fun e b d => startProof e (b.toNat % 32) (d.get (LE_PROOF_N e)) (d.put (LE_PROOF_LOOP e) (b.toNat % 32)))

/-- LEL_SCHCMT (R237, R269): commit the galley schedule. -/
def execLelSchcmt (p : Fin 5) (ga gb : Fin 32) : State → Out :=
  litos p fun x => x.dev (lel 3 (.lelSchcmt p ga gb) p ga gb true
    (fun e _ d => d.engineRights (.pair p) e && d.supRights (.pair p)) LE_SCHCMT fun e _ d => commitSchedule e d)

/-! Interrupts and faults (R258, R270, R273). -/

/-- INTERRUPT (R273): a presented event is taken at an instruction boundary, or during the wait of WEV or PEAL. -/
def execInterrupt (p : Fin 5) : State → Out :=
  onDev fun d =>
    let h := d.pairOf p
    let atBoundary := match h.wait with | .line _ _ _ _ => false | _ => true
    let psw := h.cwGet 0
    match d.presented p with
    | some n =>
      if d.waits p && atBoundary && psw.getLsbD 1 && !psw.getLsbD 2 then
        let d := (noteRedir n d).onEv n fun e => { e with takenBy := if p.val ∈ e.takenBy then e.takenBy else e.takenBy ++ [p.val] }
        d.onPair p fun h => h.enter 7 0 false false (w32 n) h.pc
      else d
    | none => d

/-- ILLEGAL_INSTRUCTION (R258, R270): a word no instruction has. -/
def execIllegalInstruction (p : Fin 5) (w : Word) : State → Out :=
  litos p fun x => if (decodeLitos p 0 w).isNone then x.dev (trap p 1 0 false w) else x

/-- The subcause of a fetch at an address, 0 when it is executed (R270, R351). -/
def Dev.fetchSub (d : Dev) (pc : Nat) (ecc : Bool) : Nat :=
  if pc < 0x40000 then (if ecc then 5 else 0)
  else if 0x30000000 ≤ pc && pc < 0x34000000 then d.xipSub (pc - 0x30000000) true
  else 7

/-- FETCH_FAULT (R261, R270): a fetch that is not executed, or that finds an uncorrectable error. -/
def execFetchFault (p : Fin 5) (ecc : Bool) : State → Out :=
  litos p fun x => x.dev fun d =>
    let pc := (d.pairOf p).pc
    let sub := d.fetchSub pc.toNat ecc
    if sub = 0 then d else pairExc p 4 sub false true pc pc d

end Sys2Proof.Machine
end

