-- ==== Sys2Proof/Machine/Tick.lean ====
section
/-! DEFINITION. What a step does with no command waiting. -/

namespace Sys2Proof.Machine
open Sys2Proof

/-- With no command waiting one 5 ns count of device time passes, while device time runs (R79 to R81; DESIGN CHOICE, log 1). -/
def idle (s : State) : Host.Outcome State Fault Refusal :=
  .next (if s.dev.timeOn then { s with dev := { s.dev with now := s.dev.now + 1 } } else s)

end Sys2Proof.Machine
end

