-- ==== Sys2Proof/Machine/Dispatch.lean ====
section
/-! DEFINITION. One arm per command. -/

namespace Sys2Proof.Machine
open Sys2Proof

/-- The effect of a command on everything but the queue. -/
def exec (i : Instr) (s : State) : Host.Outcome State Fault Refusal :=
  match i with
  | .add p gd ga gb => Sys2Proof.Machine.execAdd p gd ga gb s
  | .sub p gd ga gb => Sys2Proof.Machine.execSub p gd ga gb s
  | .and p gd ga gb => Sys2Proof.Machine.execAnd p gd ga gb s
  | .or p gd ga gb => Sys2Proof.Machine.execOr p gd ga gb s
  | .xor p gd ga gb => Sys2Proof.Machine.execXor p gd ga gb s
  | .nor p gd ga gb => Sys2Proof.Machine.execNor p gd ga gb s
  | .slt p gd ga gb => Sys2Proof.Machine.execSlt p gd ga gb s
  | .sltu p gd ga gb => Sys2Proof.Machine.execSltu p gd ga gb s
  | .sll p gd ga gb => Sys2Proof.Machine.execSll p gd ga gb s
  | .srl p gd ga gb => Sys2Proof.Machine.execSrl p gd ga gb s
  | .sra p gd ga gb => Sys2Proof.Machine.execSra p gd ga gb s
  | .slli p gd ga sh => Sys2Proof.Machine.execSlli p gd ga sh s
  | .srli p gd ga sh => Sys2Proof.Machine.execSrli p gd ga sh s
  | .srai p gd ga sh => Sys2Proof.Machine.execSrai p gd ga sh s
  | .mul p gd ga gb => Sys2Proof.Machine.execMul p gd ga gb s
  | .mulh p gd ga gb => Sys2Proof.Machine.execMulh p gd ga gb s
  | .mulhu p gd ga gb => Sys2Proof.Machine.execMulhu p gd ga gb s
  | .div p gd ga gb => Sys2Proof.Machine.execDiv p gd ga gb s
  | .divu p gd ga gb => Sys2Proof.Machine.execDivu p gd ga gb s
  | .rem p gd ga gb => Sys2Proof.Machine.execRem p gd ga gb s
  | .remu p gd ga gb => Sys2Proof.Machine.execRemu p gd ga gb s
  | .min p gd ga gb => Sys2Proof.Machine.execMin p gd ga gb s
  | .max p gd ga gb => Sys2Proof.Machine.execMax p gd ga gb s
  | .clz p gd ga => Sys2Proof.Machine.execClz p gd ga s
  | .addi p gd ga imm => Sys2Proof.Machine.execAddi p gd ga imm s
  | .slti p gd ga imm => Sys2Proof.Machine.execSlti p gd ga imm s
  | .sltiu p gd ga imm => Sys2Proof.Machine.execSltiu p gd ga imm s
  | .andi p gd ga imm => Sys2Proof.Machine.execAndi p gd ga imm s
  | .ori p gd ga imm => Sys2Proof.Machine.execOri p gd ga imm s
  | .xori p gd ga imm => Sys2Proof.Machine.execXori p gd ga imm s
  | .lui p gd imm => Sys2Proof.Machine.execLui p gd imm s
  | .lw p gd ga imm ecc => Sys2Proof.Machine.execLw p gd ga imm ecc s
  | .lh p gd ga imm ecc => Sys2Proof.Machine.execLh p gd ga imm ecc s
  | .lhu p gd ga imm ecc => Sys2Proof.Machine.execLhu p gd ga imm ecc s
  | .lb p gd ga imm ecc => Sys2Proof.Machine.execLb p gd ga imm ecc s
  | .lbu p gd ga imm ecc => Sys2Proof.Machine.execLbu p gd ga imm ecc s
  | .sw p gs ga imm => Sys2Proof.Machine.execSw p gs ga imm s
  | .sh p gs ga imm => Sys2Proof.Machine.execSh p gs ga imm s
  | .sb p gs ga imm => Sys2Proof.Machine.execSb p gs ga imm s
  | .beq p ga gb off => Sys2Proof.Machine.execBeq p ga gb off s
  | .bne p ga gb off => Sys2Proof.Machine.execBne p ga gb off s
  | .blt p ga gb off => Sys2Proof.Machine.execBlt p ga gb off s
  | .bge p ga gb off => Sys2Proof.Machine.execBge p ga gb off s
  | .bltu p ga gb off => Sys2Proof.Machine.execBltu p ga gb off s
  | .bgeu p ga gb off => Sys2Proof.Machine.execBgeu p ga gb off s
  | .j p off => Sys2Proof.Machine.execJ p off s
  | .jal p off => Sys2Proof.Machine.execJal p off s
  | .jalr p gd ga imm => Sys2Proof.Machine.execJalr p gd ga imm s
  | .mula p acd ga gb => Sys2Proof.Machine.execMula p acd ga gb s
  | .mac p acd ga gb => Sys2Proof.Machine.execMac p acd ga gb s
  | .msu p acd ga gb => Sys2Proof.Machine.execMsu p acd ga gb s
  | .macu p acd ga gb => Sys2Proof.Machine.execMacu p acd ga gb s
  | .fmac p acd ga gb k => Sys2Proof.Machine.execFmac p acd ga gb k s
  | .bmac p acd ga gb k => Sys2Proof.Machine.execBmac p acd ga gb k s
  | .acrd p gd acs k => Sys2Proof.Machine.execAcrd p gd acs k s
  | .aclo p gd acs => Sys2Proof.Machine.execAclo p gd acs s
  | .achi p gd acs => Sys2Proof.Machine.execAchi p gd acs s
  | .acld p acd ga gb => Sys2Proof.Machine.execAcld p acd ga gb s
  | .acmov p acd acs => Sys2Proof.Machine.execAcmov p acd acs s
  | .bexp p gd acs => Sys2Proof.Machine.execBexp p gd acs s
  | .bmant p gd acs gb => Sys2Proof.Machine.execBmant p gd acs gb s
  | .aswap p gd ga gb ecc => Sys2Proof.Machine.execAswap p gd ga gb ecc s
  | .aadd p gd ga gb ecc => Sys2Proof.Machine.execAadd p gd ga gb ecc s
  | .aand p gd ga gb ecc => Sys2Proof.Machine.execAand p gd ga gb ecc s
  | .aor p gd ga gb ecc => Sys2Proof.Machine.execAor p gd ga gb ecc s
  | .acas p gd ga gb ecc => Sys2Proof.Machine.execAcas p gd ga gb ecc s
  | .cwr p g index => Sys2Proof.Machine.execCwr p g index s
  | .cww p g index => Sys2Proof.Machine.execCww p g index s
  | .sysc p code => Sys2Proof.Machine.execSysc p code s
  | .eret p => Sys2Proof.Machine.execEret p s
  | .brk p code => Sys2Proof.Machine.execBrk p code s
  | .wev p gd ga t => Sys2Proof.Machine.execWev p gd ga t s
  | .wevRetire p => Sys2Proof.Machine.execWevRetire p s
  | .peal p gd ga w => Sys2Proof.Machine.execPeal p gd ga w s
  | .pealWaitEnd p => Sys2Proof.Machine.execPealWaitEnd p s
  | .lelRefgo p ga gb => Sys2Proof.Machine.execLelRefgo p ga gb s
  | .lelCommit p ga gb => Sys2Proof.Machine.execLelCommit p ga gb s
  | .lelProof p ga gb => Sys2Proof.Machine.execLelProof p ga gb s
  | .lelSchcmt p ga gb => Sys2Proof.Machine.execLelSchcmt p ga gb s
  | .interrupt p => Sys2Proof.Machine.execInterrupt p s
  | .illegalInstruction p w => Sys2Proof.Machine.execIllegalInstruction p w s
  | .fetchFault p ecc => Sys2Proof.Machine.execFetchFault p ecc s
  | .registerWrite m addr w => Sys2Proof.Machine.execRegisterWrite m addr w s
  | .sampleFrame q dest raw crcOk => Sys2Proof.Machine.execSampleFrame q dest raw crcOk s
  | .gateFrame q crcOk => Sys2Proof.Machine.execGateFrame q crcOk s
  | .statusFrame q desat oc gsuv fuse hot crcOk => Sys2Proof.Machine.execStatusFrame q desat oc gsuv fuse hot crcOk s
  | .gateRefresh q => Sys2Proof.Machine.execGateRefresh q s
  | .linkWatchdog q => Sys2Proof.Machine.execLinkWatchdog q s
  | .linkErrorRate q => Sys2Proof.Machine.execLinkErrorRate q s
  | .idPolarityReverse => Sys2Proof.Machine.execIdPolarityReverse s
  | .idDecode a ohms temp => Sys2Proof.Machine.execIdDecode a ohms temp s
  | .portPlug a => Sys2Proof.Machine.execPortPlug a s
  | .probeStart a => Sys2Proof.Machine.execProbeStart a s
  | .probeMeasureEnd a e du dv dw => Sys2Proof.Machine.execProbeMeasureEnd a e du dv dw s
  | .probePulse a iu iw => Sys2Proof.Machine.execProbePulse a iu iw s
  | .probeVerdict a => Sys2Proof.Machine.execProbeVerdict a s
  | .faultClearNoMotor a => Sys2Proof.Machine.execFaultClearNoMotor a s
  | .hallOverload a => Sys2Proof.Machine.execHallOverload a s
  | .hallRetry a => Sys2Proof.Machine.execHallRetry a s
  | .hallEdge a code => Sys2Proof.Machine.execHallEdge a code s
  | .hallInvalid a => Sys2Proof.Machine.execHallInvalid a s
  | .auxOutWrite m w => Sys2Proof.Machine.execAuxOutWrite m w s
  | .auxHighsideOff g => Sys2Proof.Machine.execAuxHighsideOff g s
  | .auxPullinEnd n => Sys2Proof.Machine.execAuxPullinEnd n s
  | .auxDiagRun g => Sys2Proof.Machine.execAuxDiagRun g s
  | .auxDiagDone g found => Sys2Proof.Machine.execAuxDiagDone g found s
  | .auxShortTrip g => Sys2Proof.Machine.execAuxShortTrip g s
  | .auxTripclr m w => Sys2Proof.Machine.execAuxTripclr m w s
  | .gspEdge => Sys2Proof.Machine.execGspEdge s
  | .gspTimeout => Sys2Proof.Machine.execGspTimeout s
  | .syncInEdge ns => Sys2Proof.Machine.execSyncInEdge ns s
  | .syncOutEdge => Sys2Proof.Machine.execSyncOutEdge s
  | .faultLineAssert => Sys2Proof.Machine.execFaultLineAssert s
  | .faultLineRelease => Sys2Proof.Machine.execFaultLineRelease s
  | .jtagBypass => Sys2Proof.Machine.execJtagBypass s
  | .jtagIdcode => Sys2Proof.Machine.execJtagIdcode s
  | .jtagSamplePreload w => Sys2Proof.Machine.execJtagSamplePreload w s
  | .jtagExtest => Sys2Proof.Machine.execJtagExtest s
  | .debugAccess write addr w => Sys2Proof.Machine.execDebugAccess write addr w s
  | .debugHaltRequest p => Sys2Proof.Machine.execDebugHaltRequest p s
  | .unlock digits jnlOk => Sys2Proof.Machine.execUnlock digits jnlOk s
  | .cartcal q => Sys2Proof.Machine.execCartcal q s
  | .consoleModeRequest service => Sys2Proof.Machine.execConsoleModeRequest service s
  | .consoleWarmReset jnlOk => Sys2Proof.Machine.execConsoleWarmReset jnlOk s
  | .keySelect keys => Sys2Proof.Machine.execKeySelect keys s
  | .selectionLapse => Sys2Proof.Machine.execSelectionLapse s
  | .releaseHold keys => Sys2Proof.Machine.execReleaseHold keys s
  | .keyAck keys => Sys2Proof.Machine.execKeyAck keys s
  | .cslRel m w => Sys2Proof.Machine.execCslRel m w s
  | .segmentOpen q => Sys2Proof.Machine.execSegmentOpen q s
  | .quadSafe q => Sys2Proof.Machine.execQuadSafe q s
  | .releaseTimeout q => Sys2Proof.Machine.execReleaseTimeout q s
  | .ackTimeout q => Sys2Proof.Machine.execAckTimeout q s
  | .withdrawTimeout q => Sys2Proof.Machine.execWithdrawTimeout q s
  | .presenceMake q j => Sys2Proof.Machine.execPresenceMake q j s
  | .cartridgeCheckStart q => Sys2Proof.Machine.execCartridgeCheckStart q s
  | .identityRead q => Sys2Proof.Machine.execIdentityRead q s
  | .segmentPrechargeDone q ok fuse => Sys2Proof.Machine.execSegmentPrechargeDone q ok fuse s
  | .acceptanceResume q v => Sys2Proof.Machine.execAcceptanceResume q v s
  | .cartridgeAccept q linkOk => Sys2Proof.Machine.execCartridgeAccept q linkOk s
  | .cartridgeRemoved q => Sys2Proof.Machine.execCartridgeRemoved q s
  | .inputPrechargeStart x v => Sys2Proof.Machine.execInputPrechargeStart x v s
  | .inputConnect x v link => Sys2Proof.Machine.execInputConnect x v link s
  | .prechargeTimeout x => Sys2Proof.Machine.execPrechargeTimeout x s
  | .inputRetry x v => Sys2Proof.Machine.execInputRetry x v s
  | .inputOvercurrent x => Sys2Proof.Machine.execInputOvercurrent x s
  | .reverseCurrentBlock x => Sys2Proof.Machine.execReverseCurrentBlock x s
  | .segmentTrip q => Sys2Proof.Machine.execSegmentTrip q s
  | .segmentReclose m w => Sys2Proof.Machine.execSegmentReclose m w s
  | .fuseOpen q => Sys2Proof.Machine.execFuseOpen q s
  | .supplySwitch main vlogic va vb => Sys2Proof.Machine.execSupplySwitch main vlogic va vb s
  | .holdup => Sys2Proof.Machine.execHoldup s
  | .holdupEnd src jnlOk => Sys2Proof.Machine.execHoldupEnd src jnlOk s
  | .alwaysOnLoss => Sys2Proof.Machine.execAlwaysOnLoss s
  | .linkUv v => Sys2Proof.Machine.execLinkUv v s
  | .linkOv v => Sys2Proof.Machine.execLinkOv v s
  | .linkConditionClear v => Sys2Proof.Machine.execLinkConditionClear v s
  | .vdecel v => Sys2Proof.Machine.execVdecel v s
  | .regen0Cross v => Sys2Proof.Machine.execRegen0Cross v s
  | .clampOn v => Sys2Proof.Machine.execClampOn v s
  | .clampOff v => Sys2Proof.Machine.execClampOff v s
  | .thresholdWrite m one w => Sys2Proof.Machine.execThresholdWrite m one w s
  | .clampFault => Sys2Proof.Machine.execClampFault s
  | .clampCreditRestored => Sys2Proof.Machine.execClampCreditRestored s
  | .thermal t => Sys2Proof.Machine.execThermal t s
  | .ovtemp t => Sys2Proof.Machine.execOvtemp t s
  | .ovtempClear t => Sys2Proof.Machine.execOvtempClear t s
  | .powerCreditExhausted => Sys2Proof.Machine.execPowerCreditExhausted s
  | .inputCreditExhausted x => Sys2Proof.Machine.execInputCreditExhausted x s
  | .peakCreditExhausted a => Sys2Proof.Machine.execPeakCreditExhausted a s
  | .ripple irip avg => Sys2Proof.Machine.execRipple irip avg s
  | .arbitration v => Sys2Proof.Machine.execArbitration v s
  | .pllLock => Sys2Proof.Machine.execPllLock s
  | .deviceTimeStart add => Sys2Proof.Machine.execDeviceTimeStart add s
  | .pllLoss a b => Sys2Proof.Machine.execPllLoss a b s
  | .crystalFail => Sys2Proof.Machine.execCrystalFail s
  | .truNowLoRead m sits => Sys2Proof.Machine.execTruNowLoRead m sits s
  | .truCfgWrite m w => Sys2Proof.Machine.execTruCfgWrite m w s
  | .refQual r => Sys2Proof.Machine.execRefQual r s
  | .refLossTimeout si => Sys2Proof.Machine.execRefLossTimeout si s
  | .fUpdate fref => Sys2Proof.Machine.execFUpdate fref s
  | .refLocked => Sys2Proof.Machine.execRefLocked s
  | .syncSend => Sys2Proof.Machine.execSyncSend s
  | .followUpSend l sof => Sys2Proof.Machine.execFollowUpSend l sof s
  | .syncRx l node n => Sys2Proof.Machine.execSyncRx l node n s
  | .followUpRx l node n tm ns => Sys2Proof.Machine.execFollowUpRx l node n tm ns s
  | .modeRequest m w r => Sys2Proof.Machine.execModeRequest m w r s
  | .modeChangeComplete r => Sys2Proof.Machine.execModeChangeComplete r s
  | .stopTimeout => Sys2Proof.Machine.execStopTimeout s
  | .hizTimeout a => Sys2Proof.Machine.execHizTimeout a s
  | .dormantAuto => Sys2Proof.Machine.execDormantAuto s
  | .dormantEntryDone jnlOk => Sys2Proof.Machine.execDormantEntryDone jnlOk s
  | .motorWakeTest a loaded jnlOk => Sys2Proof.Machine.execMotorWakeTest a loaded jnlOk s
  | .wake srcs jnlOk => Sys2Proof.Machine.execWake srcs jnlOk s
  | .powerOnReset main jnlOk => Sys2Proof.Machine.execPowerOnReset main jnlOk s
  | .selftestEnd t => Sys2Proof.Machine.execSelftestEnd t s
  | .warmReset m w jnlOk => Sys2Proof.Machine.execWarmReset m w jnlOk s
  | .ssqXchk => Sys2Proof.Machine.execSsqXchk s
  | .pealStart m w => Sys2Proof.Machine.execPealStart m w s
  | .pealTimeout => Sys2Proof.Machine.execPealTimeout s
  | .pealCommit => Sys2Proof.Machine.execPealCommit s
  | .periodStart a => Sys2Proof.Machine.execPeriodStart a s
  | .loadAll m high mask => Sys2Proof.Machine.execLoadAll m high mask s
  | .loadCapture a => Sys2Proof.Machine.execLoadCapture a s
  | .bootstrapRefresh a => Sys2Proof.Machine.execBootstrapRefresh a s
  | .triggerAnnounce a n => Sys2Proof.Machine.execTriggerAnnounce a n s
  | .triggerFire a n => Sys2Proof.Machine.execTriggerFire a n s
  | .desaturation a => Sys2Proof.Machine.execDesaturation a s
  | .overcurrent a iu iw => Sys2Proof.Machine.execOvercurrent a iu iw s
  | .gateSupplyFault a => Sys2Proof.Machine.execGateSupplyFault a s
  | .pwmFltClear m a w => Sys2Proof.Machine.execPwmFltClear m a w s
  | .passStart q x => Sys2Proof.Machine.execPassStart q x s
  | .housekeepingSlot q x raw crcOk => Sys2Proof.Machine.execHousekeepingSlot q x raw crcOk s
  | .urgentAnnounce a tick => Sys2Proof.Machine.execUrgentAnnounce a tick s
  | .urgentRequest q => Sys2Proof.Machine.execUrgentRequest q s
  | .adcDrop q => Sys2Proof.Machine.execAdcDrop q s
  | .refReady q => Sys2Proof.Machine.execRefReady q s
  | .adcRef q => Sys2Proof.Machine.execAdcRef q s
  | .refbadClear q => Sys2Proof.Machine.execRefbadClear q s
  | .recalibrate m q conv skew => Sys2Proof.Machine.execRecalibrate m q conv skew s
  | .calLeave q => Sys2Proof.Machine.execCalLeave q s
  | .calOffsetDone q sum => Sys2Proof.Machine.execCalOffsetDone q sum s
  | .calGainDone q sum => Sys2Proof.Machine.execCalGainDone q sum s
  | .calSkewDone q skew => Sys2Proof.Machine.execCalSkewDone q skew s
  | .calRejoin q => Sys2Proof.Machine.execCalRejoin q s
  | .commutation a => Sys2Proof.Machine.execCommutation a s
  | .expectedCrossing a => Sys2Proof.Machine.execExpectedCrossing a s
  | .blind a => Sys2Proof.Machine.execBlind a s
  | .lateWindowExpiry a => Sys2Proof.Machine.execLateWindowExpiry a s
  | .phaseTestDone a uv vw wu => Sys2Proof.Machine.execPhaseTestDone a uv vw wu s
  | .catchWindowEnd a e th dth dt => Sys2Proof.Machine.execCatchWindowEnd a e th dth dt s
  | .catchJoin a => Sys2Proof.Machine.execCatchJoin a s
  | .recoverDone a => Sys2Proof.Machine.execRecoverDone a s
  | .alignEnd a => Sys2Proof.Machine.execAlignEnd a s
  | .alignNoCurrent a => Sys2Proof.Machine.execAlignNoCurrent a s
  | .rampLock a => Sys2Proof.Machine.execRampLock a s
  | .rampTimeout a => Sys2Proof.Machine.execRampTimeout a s
  | .missingPhase a => Sys2Proof.Machine.execMissingPhase a s
  | .start m a dir => Sys2Proof.Machine.execStart m a dir s
  | .stop m a => Sys2Proof.Machine.execStop m a s
  | .coast m a => Sys2Proof.Machine.execCoast m a s
  | .clear m a => Sys2Proof.Machine.execClear m a s
  | .reverse m a => Sys2Proof.Machine.execReverse m a s
  | .dtcTick a => Sys2Proof.Machine.execDtcTick a s
  | .fluxLost a => Sys2Proof.Machine.execFluxLost a s
  | .handoverTimeout a => Sys2Proof.Machine.execHandoverTimeout a s
  | .bondWrite m a w => Sys2Proof.Machine.execBondWrite m a w s
  | .bondShare a => Sys2Proof.Machine.execBondShare a s
  | .reversalWaitEnd a => Sys2Proof.Machine.execReversalWaitEnd a s
  | .frameStart e => Sys2Proof.Machine.execFrameStart e s
  | .loopRun e j ecc => Sys2Proof.Machine.execLoopRun e j ecc s
  | .implausible e k => Sys2Proof.Machine.execImplausible e k s
  | .invalidTooLong e k => Sys2Proof.Machine.execInvalidTooLong e k s
  | .shareTrimUpdate e => Sys2Proof.Machine.execShareTrimUpdate e s
  | .engineEnable m e on => Sys2Proof.Machine.execEngineEnable m e on s
  | .scheduleCommit m e go => Sys2Proof.Machine.execScheduleCommit m e go s
  | .loopCommit m e loops => Sys2Proof.Machine.execLoopCommit m e loops s
  | .proofStart m e go n k => Sys2Proof.Machine.execProofStart m e go n k s
  | .proofEnd e => Sys2Proof.Machine.execProofEnd e s
  | .refgo m e k => Sys2Proof.Machine.execRefgo m e k s
  | .refStage m e k j w => Sys2Proof.Machine.execRefStage m e k j w s
  | .autoManual m e k auto => Sys2Proof.Machine.execAutoManual m e k auto s
  | .galleyWrite m e b j w => Sys2Proof.Machine.execGalleyWrite m e b j w s
  | .engineEventHold n => Sys2Proof.Machine.execEngineEventHold n s
  | .sessionStart m n ring own => Sys2Proof.Machine.execSessionStart m n ring own s
  | .sessionAbort m n go ring own => Sys2Proof.Machine.execSessionAbort m n go ring own s
  | .sampleClock j => Sys2Proof.Machine.execSampleClock j s
  | .sessionFaultAbort n => Sys2Proof.Machine.execSessionFaultAbort n s
  | .softwareRaise m n => Sys2Proof.Machine.execSoftwareRaise m n s
  | .eventAck m n => Sys2Proof.Machine.execEventAck m n s
  | .ageingStep n => Sys2Proof.Machine.execAgeingStep n s
  | .eventConfigWrite m n w => Sys2Proof.Machine.execEventConfigWrite m n w s
  | .pairMismatch p => Sys2Proof.Machine.execPairMismatch p s
  | .pairWatchdog p => Sys2Proof.Machine.execPairWatchdog p s
  | .watchdogKick m => Sys2Proof.Machine.execWatchdogKick m s
  | .knellRequest m high w => Sys2Proof.Machine.execKnellRequest m high w s
  | .holdSafe m high w => Sys2Proof.Machine.execHoldSafe m high w s
  | .lineAssertWrite m on => Sys2Proof.Machine.execLineAssertWrite m on s
  | .faultPulseEnd => Sys2Proof.Machine.execFaultPulseEnd s
  | .rehost m from_ dest => Sys2Proof.Machine.execRehost m from_ dest s
  | .rehostTimeout => Sys2Proof.Machine.execRehostTimeout s
  | .restart a => Sys2Proof.Machine.execRestart a s
  | .pairReset m key p update => Sys2Proof.Machine.execPairReset m key p update s
  | .pairResetDone p ok => Sys2Proof.Machine.execPairResetDone p ok s
  | .migrate m dest lead => Sys2Proof.Machine.execMigrate m dest lead s
  | .supMoved m dest => Sys2Proof.Machine.execSupMoved m dest s
  | .submit m addr ecc => Sys2Proof.Machine.execSubmit m addr ecc s
  | .recordAppend bad => Sys2Proof.Machine.execRecordAppend bad s
  | .compaction => Sys2Proof.Machine.execCompaction s
  | .metadataWrite bad => Sys2Proof.Machine.execMetadataWrite bad s
  | .imageWrite m n => Sys2Proof.Machine.execImageWrite m n s
  | .imageWriteDone good bad => Sys2Proof.Machine.execImageWriteDone good bad s
  | .firmwareSelect m prev w => Sys2Proof.Machine.execFirmwareSelect m prev w s
  | .mapQuery m l => Sys2Proof.Machine.execMapQuery m l s
  | .wearHour a => Sys2Proof.Machine.execWearHour a s
  | .queuePush m w => Sys2Proof.Machine.execQueuePush m w s
  | .sp0FrameDone data ecc => Sys2Proof.Machine.execSp0FrameDone data ecc s
  | .readyTimeout xip => Sys2Proof.Machine.execReadyTimeout xip s
  | .queueResume m => Sys2Proof.Machine.execQueueResume m s
  | .queueFlush m => Sys2Proof.Machine.execQueueFlush m s
  | .xipLineRead m o data => Sys2Proof.Machine.execXipLineRead m o data s
  | .xipInvalidate m => Sys2Proof.Machine.execXipInvalidate m s
  | .crossConnect m w => Sys2Proof.Machine.execCrossConnect m w s
  | .csFall => Sys2Proof.Machine.execCsFall s
  | .sp1WordReceived w => Sys2Proof.Machine.execSp1WordReceived w s
  | .csRise n w cut => Sys2Proof.Machine.execCsRise n w cut s
  | .sp1Pop m => Sys2Proof.Machine.execSp1Pop m s
  | .sp1Push m w => Sys2Proof.Machine.execSp1Push m w s
  | .flushtx m w => Sys2Proof.Machine.execFlushtx m w s
  | .flushrx m w => Sys2Proof.Machine.execFlushrx m w s
  | .segmentOwnership m n w => Sys2Proof.Machine.execSegmentOwnership m n w s
  | .windowRead seq ofs nw crc => Sys2Proof.Machine.execWindowRead seq ofs nw crc s
  | .windowWrite seq ofs nw crc data => Sys2Proof.Machine.execWindowWrite seq ofs nw crc data s
  | .windowClaim seq ofs nw crc => Sys2Proof.Machine.execWindowClaim seq ofs nw crc s
  | .windowRelease seq ofs nw crc => Sys2Proof.Machine.execWindowRelease seq ofs nw crc s
  | .windowStatus seq ofs nw crc => Sys2Proof.Machine.execWindowStatus seq ofs nw crc s
  | .windowSync seq ofs nw crc => Sys2Proof.Machine.execWindowSync seq ofs nw crc s
  | .windowResponse => Sys2Proof.Machine.execWindowResponse s
  | .addressClaimStart => Sys2Proof.Machine.execAddressClaimStart s
  | .addressClaimTimeout => Sys2Proof.Machine.execAddressClaimTimeout s
  | .addressClaimedRx src name => Sys2Proof.Machine.execAddressClaimedRx src name s
  | .claimRetry => Sys2Proof.Machine.execClaimRetry s
  | .requestRx src dst pgn => Sys2Proof.Machine.execRequestRx src dst pgn s
  | .busAlone => Sys2Proof.Machine.execBusAlone s
  | .busAloneClear => Sys2Proof.Machine.execBusAloneClear s
  | .tpSession src e => Sys2Proof.Machine.execTpSession src e s
  | .speedMessage kind speed => Sys2Proof.Machine.execSpeedMessage kind speed s
  | .speedSelect => Sys2Proof.Machine.execSpeedSelect s
  | .tcConnect src => Sys2Proof.Machine.execTcConnect src s
  | .tcLoss => Sys2Proof.Machine.execTcLoss s
  | .technicalCapabilities src => Sys2Proof.Machine.execTechnicalCapabilities src s
  | .deviceDescriptor src => Sys2Proof.Machine.execDeviceDescriptor src s
  | .requestValue src elem ddi => Sys2Proof.Machine.execRequestValue src elem ddi s
  | .value src elem ddi v => Sys2Proof.Machine.execValue src elem ddi v s
  | .measurementTimeInterval src elem ddi ms => Sys2Proof.Machine.execMeasurementTimeInterval src elem ddi ms s
  | .measurementDistanceInterval src elem ddi mm => Sys2Proof.Machine.execMeasurementDistanceInterval src elem ddi mm s
  | .measurementMinimumThreshold src elem ddi v => Sys2Proof.Machine.execMeasurementMinimumThreshold src elem ddi v s
  | .measurementMaximumThreshold src elem ddi v => Sys2Proof.Machine.execMeasurementMaximumThreshold src elem ddi v s
  | .measurementChangeThreshold src elem ddi v => Sys2Proof.Machine.execMeasurementChangeThreshold src elem ddi v s
  | .setValue src elem ddi v => Sys2Proof.Machine.execSetValue src elem ddi v s
  | .processDataAcknowledge src elem ddi => Sys2Proof.Machine.execProcessDataAcknowledge src elem ddi s
  | .taskStatus src status => Sys2Proof.Machine.execTaskStatus src status s
  | .measurementTrigger j => Sys2Proof.Machine.execMeasurementTrigger j s
  | .dm1Transmit => Sys2Proof.Machine.execDm1Transmit s
  | .helloTx l => Sys2Proof.Machine.execHelloTx l s
  | .helloRx l node name => Sys2Proof.Machine.execHelloRx l node name s
  | .nodeAbsent l node => Sys2Proof.Machine.execNodeAbsent l node s
  | .openSlot h axis arg => Sys2Proof.Machine.execOpen h axis arg s
  | .closeSlot h axis arg => Sys2Proof.Machine.execClose h axis arg s
  | .beat h axis arg => Sys2Proof.Machine.execBeat h axis arg s
  | .read h axis arg => Sys2Proof.Machine.execRead h axis arg s
  | .claim h axis arg mask => Sys2Proof.Machine.execClaim h axis arg mask s
  | .release h axis arg mask => Sys2Proof.Machine.execRelease h axis arg mask s
  | .axcmd h axis arg => Sys2Proof.Machine.execAxcmd h axis arg s
  | .setref h axis arg long => Sys2Proof.Machine.execSetref h axis arg long s
  | .policy h axis hold endAct => Sys2Proof.Machine.execPolicy h axis hold endAct s
  | .pealOp h mask action lead => Sys2Proof.Machine.execPealOp h mask action lead s
  | .mode h axis arg r => Sys2Proof.Machine.execMode h axis arg r s
  | .cartrel h axis arg => Sys2Proof.Machine.execCartrel h axis arg s
  | .aux h axis arg => Sys2Proof.Machine.execAux h axis arg s
  | .cfgitem h txn key payload => Sys2Proof.Machine.execCfgitem h txn key payload s
  | .cfgcommit h txn proved => Sys2Proof.Machine.execCfgcommit h txn proved s
  | .capture h axis j ring regs => Sys2Proof.Machine.execCapture h axis j ring regs s
  | .imageseg h ofs data => Sys2Proof.Machine.execImageseg h ofs data s
  | .imagewr h slot => Sys2Proof.Machine.execImagewr h slot s
  | .loopset h slot passed => Sys2Proof.Machine.execLoopset h slot passed s
  | .slotLoss n => Sys2Proof.Machine.execSlotLoss n s
  | .lossHoldExpiry a => Sys2Proof.Machine.execLossHoldExpiry a s
  | .txRequest m c w => Sys2Proof.Machine.execTxRequest m c w s
  | .frameTransmitted c ago e => Sys2Proof.Machine.execFrameTransmitted c ago e s
  | .txAbort m c w busy => Sys2Proof.Machine.execTxAbort m c w busy s
  | .frameReceived c id ide fdf brs esi rtr dlc data ago => Sys2Proof.Machine.execFrameReceived c id ide fdf brs esi rtr dlc data ago s
  | .rxPop m c => Sys2Proof.Machine.execRxPop m c s
  | .busOff c => Sys2Proof.Machine.execBusOff c s
  | .busOffRecovery c => Sys2Proof.Machine.execBusOffRecovery c s
  | .tbcSwitch m on => Sys2Proof.Machine.execTbcSwitch m on s
  | .sp1WordSent => Sys2Proof.Machine.execSp1WordSent s
  | .readyStretchEnd => Sys2Proof.Machine.execReadyStretchEnd s

end Sys2Proof.Machine
end

