-- ==== Sys2Proof/Safety.lean ====
section
/-! DEFINITION. What holds of every state of a safe run, and the terms claims use: a command that completes, registers that
stay, an instruction that retires. -/

namespace Sys2Proof.Machine
open Sys2Proof

/-- The byte memories are in canonical form. -/
abbrev State.MemWf (s : State) : Prop := memWf s.mem = true

/-- A command answers a next state with byte memories `m` and the queue as it was, whose block satisfies `post`. -/
def DoesMem (c : Instr) (s : State) (m : List Host.Cell) (post : Dev → Prop) : Prop :=
  ∃ u, exec c s = .next u ∧ u.mem = m ∧ u.pending = s.pending ∧ post u.dev

/-- A command answers a next state, leaves the byte memories and the queue, and takes the block to one that satisfies
`post`. -/
def Does (c : Instr) (s : State) (post : Dev → Prop) : Prop := DoesMem c s s.mem post

/-- A control message with OP, AXIS and ARG comes from the client of slot `z`, which is not in loss, with a valid check, a
token in its bucket, the expected SEQ and a journal that accepts its record (R385 to R392). -/
abbrev Dev.expects (d : Dev) (h : Ctl) (op axis arg z : Nat) : Prop :=
  d.sender h = some (some (d.clientOf z).name) ∧ d.slotOfName (d.clientOf z).name = some z ∧ (d.clientOf z).loss = false ∧
  ctlChecked h { op := op, axis := axis, arg := arg } = true ∧ 200000000 ≤ d.tokens z ∧
  h.seq.val = (d.clientOf z).expect ∧ d.wouldAccept z = true

/-- The response to a control message (R387). -/
abbrev Dev.answers (d : Dev) (h : Ctl) (op axis status value : Nat) : Prop :=
  d.reply = some { op := op + 128, seq := h.seq, axis := axis, status := status, value := value }

/-- The commands of the always-on domain, which acts in every mode (chapter 1): presence sensing, wake, resets. -/
def alwaysOn : Instr → Bool
  | .presenceMake .. | .cartridgeRemoved .. | .alwaysOnLoss .. | .motorWakeTest .. | .wake ..
  | .powerOnReset .. => true
  | _ => false

/-- The commands that may write a byte of memory. -/
def storesBytes : Instr → Bool
  | .registerWrite .. | .debugAccess .. | .unlock .. | .consoleModeRequest .. | .consoleWarmReset ..
  | .holdup .. | .holdupEnd .. | .modeRequest .. | .modeChangeComplete .. | .dormantAuto ..
  | .dormantEntryDone .. | .selftestEnd .. | .warmReset .. | .pairResetDone .. | .submit ..
  | .recordAppend .. | .compaction .. | .metadataWrite .. | .imageWrite .. | .imageWriteDone ..
  | .firmwareSelect .. | .sp0FrameDone .. | .windowRead .. | .windowWrite .. | .windowClaim ..
  | .windowRelease .. | .windowStatus .. | .windowSync .. | .speedSelect .. | .openSlot .. | .closeSlot ..
  | .beat .. | .read .. | .claim .. | .release .. | .axcmd .. | .setref .. | .policy .. | .pealOp ..
  | .mode .. | .cartrel .. | .aux .. | .cfgitem .. | .cfgcommit .. | .capture .. | .imageseg .. | .imagewr ..
  | .loopset .. | .motorWakeTest .. | .wake .. | .powerOnReset .. | .loopRun .. | .sampleClock .. | .sw ..
  | .sh .. | .sb .. | .aswap .. | .aadd .. | .aand .. | .aor .. | .acas .. => true
  | _ => false

/-- Every register outside a list holds the same word in two blocks. -/
def sameRegs (d t : Dev) (l : List Nat) : Prop := ∀ a, a ∉ l → t.reg a = d.reg a

/-- The event registers a raise of event `n` may write. -/
def evRegs (n : Nat) : List Nat := [Reg.EVC_PEND (n / 32), Reg.EVC_RERAISE (n / 32)]

/-- Only pair `p` differs in two blocks; its instruction is counted and its PC is `pc`; it waits for nothing. -/
def Goes (d t : Dev) (p : Fin 5) (pc : Word) : Prop :=
  t = { d with pairs := t.pairs } ∧ (∀ q : Fin 5, q ≠ p → t.pairOf q = d.pairOf q) ∧ (t.pairOf p).pc = pc ∧
  (t.pairOf p).retired = ((d.pairOf p).retired + 1) % 2 ^ 64 ∧ (t.pairOf p).wait = (d.pairOf p).wait

/-- Pair `p` completes an instruction that writes general register `gd` (g0 stays 0) and goes to `pc`: every other
register, accumulator and control word of it, every other pair and the rest of the block stay. -/
def Retires (d t : Dev) (p : Fin 5) (pc : Word) (gd : Fin 32) (v : Word) : Prop :=
  Goes d t p pc ∧ t.gr p gd = (if gd.val = 0 then 0 else v) ∧ (∀ i : Fin 32, i ≠ gd → t.gr p i = d.gr p i) ∧
  (t.pairOf p).ac = (d.pairOf p).ac ∧ (t.pairOf p).cw = (d.pairOf p).cw

/-- Pair `p` completes an instruction that writes accumulator `acd`: every other accumulator and every general register
stays; ACSTAT.SAT sets when `sat` holds, and every other control word stays. -/
def AccRetires (d t : Dev) (p : Fin 5) (acd : Fin 4) (v : BitVec 64) (sat : Bool) : Prop :=
  Goes d t p ((d.pairOf p).pc + 4) ∧ t.ac p acd = v.toInt ∧ (∀ i : Fin 4, i ≠ acd → t.ac p i = d.ac p i) ∧
  (t.pairOf p).g = (d.pairOf p).g ∧ (t.pairOf p).cwGet 7 = (if sat then 1 else (d.pairOf p).cwGet 7) ∧
  ∀ i : Fin 512, i.val ≠ 7 → (t.pairOf p).cwGet i = (d.pairOf p).cwGet i

/-- Pair `p` takes an exception (R270): ESAVE, EPC, ECAUSE and EADDR are written, PSW is supervisor with EXL set and
interrupts off, the PC is at the vector of the cause; its registers and accumulators, every other pair and the rest of the
block stay. -/
def Traps (d t : Dev) (p : Fin 5) (cause sub : Nat) (w f : Bool) (addr : Word) : Prop :=
  t = { d with pairs := t.pairs } ∧ (∀ q : Fin 5, q ≠ p → t.pairOf q = d.pairOf q) ∧
  (t.pairOf p).cwGet 1 = (d.pairOf p).cwGet 0 ∧ (t.pairOf p).cwGet 2 = (d.pairOf p).pc ∧
  (t.pairOf p).cwGet 3 = w32 (sub * 2 ^ 12 + (if w then 2 ^ 9 else 0) + (if f then 2 ^ 8 else 0) + cause) ∧
  (t.pairOf p).cwGet 4 = addr ∧ (t.pairOf p).cwGet 0 = 5 ∧
  (t.pairOf p).pc = (d.pairOf p).cwGet 5 + w32 (0x40 * cause) ∧
  (t.pairOf p).g = (d.pairOf p).g ∧ (t.pairOf p).ac = (d.pairOf p).ac ∧ (t.pairOf p).retired = (d.pairOf p).retired

end Sys2Proof.Machine
end

