-- ==== Sys2Proof/Certificates/Slice0/Obligations.lean ====
section
/-! DEFINITION. The statements for the provers: what each family of commands does and leaves, whole-machine rules, an
invariant, the encoding of Litos instructions. -/

open Sys2Proof Sys2Proof.Machine Reg

/-- At the end of a negative half a port with a qualifying result takes up the decoded code and counts the decodings
that agree; three make its status follow, with PORT_PLUG when it changes. PROBE starts on a due axis, measures 1 ms,
drives three pulses 200 µs apart and judges them; a passed PROBE ends in OFF without raising MISSING_PHASE. FAULT
clears to OFF after three NO_MOTOR decodings. A Hall overload switches the supply off and shows in the port status
when Hall commutation is not in use, until the retry. (R33, R34, R35, R36, R37, R38, R39, R151, R416) -/
def Obligations.PortsAndProbe : Prop :=
  (∀ (s : State), s.dev.sys.logicOn = true →
      Does (.idPolarityReverse) s fun t => t = s.dev) ∧
  (∀ (s : State) (a : Fin 64) (o : Nat) (v : Int), s.dev.sys.logicOn = true → s.dev.present (a / 4) = true → s.dev.now
      % 200000 = 0 → s.dev.halfFresh (a / 4) (a % 4) true = true → s.dev.halfFresh (a / 4) (a % 4) false = true →
      Does (.idDecode a o (some v)) s fun t => (t.portOf a).last = decodeOhms o ∧ ((t.portOf a).agree = (if
          (s.dev.portOf a).last = decodeOhms o then (s.dev.portOf a).agree + 1 else 1)) ∧ (t.portOf a).accepted =
          (s.dev.portOf a).accepted ∧ t.get (CSL_NTC_TEMP (a / 4) (a % 4)) = (max 1 (min 255 (v + 40))).toNat ∧ t =
          { s.dev with regs := t.regs, ports := t.ports } ∧ sameRegs s.dev t ([CSL_NTC (a.val / 4)])) ∧
  (∀ (s : State) (a : Fin 64), s.dev.sys.logicOn = true → s.dev.present (a / 4) = true → (s.dev.portOf a).agree < 3 →
      Does (.portPlug a) s fun t => t = s.dev) ∧
  (∀ (s : State) (a : Fin 64), s.dev.sys.logicOn = true → s.dev.present (a / 4) = true → 3 ≤ (s.dev.portOf a).agree →
      (s.dev.portOf a).last = 0 → s.dev.wanted a = [a.val] → s.dev.axSt a = .off → s.dev.get (CSL_PORT_ST (a / 4) (a %
      4)) = 1 →
      Does (.portPlug a) s fun t => t.get (CSL_PORT_ST (a / 4) (a % 4)) = 0 ∧ t.get (CSL_PORT_CODE (a / 4) (a % 4)) =
          0 ∧ t.pend (12 * a + 11) = true ∧ t.axSt a = .off ∧ t =
          { s.dev with regs := t.regs, ports := t.ports, evs := t.evs } ∧ sameRegs s.dev t ((CSL_PORT (a.val / 4) ::
          evRegs (12 * a + 11)))) ∧
  (∀ (s : State) (a : Fin 64), s.dev.sys.logicOn = true → s.dev.wanted a = [a.val] → (s.dev.portOf a).probeDue = true
      → s.dev.probeReady a = true → s.dev.mode.power = true → s.dev.releasing a = false → s.dev.get FLT_STAT_LEVEL = 0
      →
      Does (.probeStart a) s fun t => t.axSt a = .probe ∧ (t.portOf a).probe = .measuring s.dev.now ∧ (t.portOf
          a).probeDue = false ∧ t.pend (12 * a + 10) = true) ∧
  (∀ (s : State) (a : Fin 64) (e u v w : Fin 16384) (k : Nat), s.dev.sys.logicOn = true → (s.dev.portOf a).probe =
      .measuring k → k + 200000 ≤ s.dev.now → s.dev.axSt a = .probe → e.val < 114 →
      Does (.probeMeasureEnd a e u v w) s fun t => (t.portOf a).probe = .pulses s.dev.now [] ∧ t =
          { s.dev with ports := t.ports }) ∧
  (∀ (s : State) (a : Fin 64) (e u v w : Fin 16384) (k : Nat), s.dev.sys.logicOn = true → (s.dev.portOf a).probe =
      .measuring k → k + 200000 ≤ s.dev.now → s.dev.axSt a = .probe → 114 ≤ e.val → max u.val (max v.val w.val) ≤ 5 *
      u.val → max u.val (max v.val w.val) ≤ 5 * v.val → 5 * w.val < max u.val (max v.val w.val) →
      Does (.probeMeasureEnd a e u v w) s fun t => (t.portOf a).probe = .missing 3 s.dev.now ∧ t =
          { s.dev with ports := t.ports }) ∧
  (∀ (s : State) (a : Fin 64) (u w : Int) (k : Nat) (l : List Bool), s.dev.sys.logicOn = true → (s.dev.portOf a).probe
      = .pulses k l → l.length < 3 → k + 40000 * l.length ≤ s.dev.now → s.dev.axSt a = .probe →
      Does (.probePulse a u w) s fun t => (t.portOf a).probe = .pulses k (l ++ [pulsePasses l.length u w]) ∧ t =
          { s.dev with ports := t.ports }) ∧
  (∀ (s : State) (a : Fin 64) (k : Nat), s.dev.sys.logicOn = true → s.dev.members a = [a.val] → s.dev.axSt a = .probe
      → (s.dev.portOf a).probe = .pulses k [true, true, true] → k + 120000 ≤ s.dev.now → (s.dev.portOf a).stand = none
      →
      Does (.probeVerdict a) s fun t => t.axSt a = .off ∧ t.pend (12 * a + 3) = s.dev.pend (12 * a + 3)) ∧
  (∀ (s : State) (a : Fin 64) (k : Nat), s.dev.sys.logicOn = true → s.dev.members a = [a.val] → s.dev.axSt a = .probe
      → s.dev.peal.running = false → (s.dev.portOf a).probe = .pulses k [false, true, false] → k + 120000 ≤ s.dev.now
      →
      Does (.probeVerdict a) s fun t => t.axSt a = .fault ∧ (t.get (CU_FLT_PHASE a) = 1 ∨ (s.dev.sixOf a).fltAt = some
          s.dev.now) ∧ t.pend (12 * a + 3) = true) ∧
  (∀ (s : State) (a : Fin 64), s.dev.sys.logicOn = true → s.dev.members a = [a.val] → s.dev.axSt a = .fault → 3 ≤
      (s.dev.portOf a).noMotor →
      Does (.faultClearNoMotor a) s fun t => t.axSt a = .off ∧ t.pend (12 * a + 10) = true) ∧
  (∀ (s : State) (a : Fin 64), s.dev.sys.logicOn = true → (s.dev.axSt a).driving = false →
      Does (.hallOverload a) s fun t => t.get (CSL_PORT_HALLOV (a / 4) (a % 4)) = 1 ∧ (t.portOf a).hallOff = some
          s.dev.now ∧ t = { s.dev with regs := t.regs, ports := t.ports } ∧ sameRegs s.dev t ([CSL_PORT (a.val / 4)])) ∧
  (∀ (s : State) (a : Fin 64) (k : Nat), s.dev.sys.logicOn = true → (s.dev.portOf a).hallOff = some k → k + 20000000 ≤
      s.dev.now →
      Does (.hallRetry a) s fun t => t.get (CSL_PORT_HALLOV (a / 4) (a % 4)) = 0 ∧ (t.portOf a).hallOff = none ∧ t =
          { s.dev with regs := t.regs, ports := t.ports } ∧ sameRegs s.dev t ([CSL_PORT (a.val / 4)]))

/-- A write of AUX_OUT switches the outputs on and with them the high side of each group that is not tripped; a high
side goes off 1 ms after its last output; diagnostics run only while a group is idle and report their open loads; a
short trips its group with event 1013 until AUX_TRIPCLR. GSP_PERIOD holds the counts between the last two edges, or
all ones after 2 s. The test access port takes its four instructions, and EXTEST acts as BYPASS outside its
conditions. Only the supervising pair and the debug access write here. (R40, R41, R42, R43, R44, R47, R54) -/
def Obligations.AuxiliaryOutputsAndPulse : Prop :=
  (∀ (s : State) (m : Master) (w : Word), s.dev.sys.logicOn = true → s.dev.supRights m = true → s.dev.mode ≠
      .transport → s.dev.aux.maskUntil = none → s.dev.reg AUX_GSTAT = 0 →
      Does (.auxOutWrite m w) s fun t => t.get AUX_OUT_ON = w.toNat % 2 ^ 16 ∧ t.aux.on = w.toNat % 2 ^ 16 ∧ (∀ g :
          Fin 4, t.get (AUX_GSTAT_HSON g) = (if t.groupOn g then 1 else 0) ∧ t.get (AUX_GSTAT_DEFER g) = (if t.groupOn
          g then 1 else 0)) ∧ t = { s.dev with regs := t.regs, aux := t.aux } ∧ sameRegs s.dev t ([AUX_OUT,
          AUX_GSTAT])) ∧
  (∀ (s : State) (p : Fin 5) (w : Word), s.dev.sys.logicOn = true → s.dev.sup ≠ p.val → ((s.dev.pairOf p).cwGet
      0).getLsbD 2 = false →
      Does (.auxOutWrite (.pair p) w) s fun t => Traps s.dev t p 4 6 true false (w32 AUX_OUT)) ∧
  (∀ (s : State) (g : Fin 4) (k : Nat), s.dev.sys.logicOn = true → tget none s.dev.aux.offAt g = some k → k + 200000 ≤
      s.dev.now → s.dev.groupOn g = false →
      Does (.auxHighsideOff g) s fun t => t.get (AUX_GSTAT_HSON g) = 0 ∧ t =
          { s.dev with regs := t.regs, aux := t.aux } ∧ sameRegs s.dev t ([AUX_GSTAT])) ∧
  (∀ (s : State) (n : Fin 16), s.dev.sys.logicOn = true → s.dev.aux.on.testBit n = true → tget 0 s.dev.aux.since n +
      s.dev.get (AUX_GCFG_PULLIN (n / 4)) * 200000 ≤ s.dev.now →
      Does (.auxPullinEnd n) s fun t => t.aux.hold.testBit n = true ∧ t = { s.dev with aux := t.aux }) ∧
  (∀ (s : State) (g : Fin 4), s.dev.sys.logicOn = true → s.dev.groupOn g = false → tget none s.dev.aux.diag g = none →
      tget 0 s.dev.aux.diagEnd g + 19600000 ≤ s.dev.now →
      Does (.auxDiagRun g) s fun t => tget none t.aux.diag g = some s.dev.now ∧ t = { s.dev with aux := t.aux }) ∧
  (∀ (s : State) (g : Fin 4) (f : Fin 16) (k : Nat), s.dev.sys.logicOn = true → tget none s.dev.aux.diag g = some k →
      k + 400000 ≤ s.dev.now →
      Does (.auxDiagDone g f) s fun t => t.get ⟨AUX_OLOAD, 4 * g, 4⟩ = f.val ∧ tget 0 t.aux.diagEnd g = s.dev.now ∧
          tget none t.aux.diag g = none ∧ (0 < f.val → t.pend 1014 = true) ∧ t =
          { s.dev with regs := t.regs, aux := t.aux, evs := t.evs } ∧ sameRegs s.dev t ((AUX_OLOAD :: evRegs 1014))) ∧
  (∀ (s : State) (g : Fin 4), s.dev.sys.logicOn = true →
      Does (.auxShortTrip g) s fun t => t.get (AUX_GSTAT_TRIP g) = 1 ∧ t.get (AUX_GSTAT_HSON g) = 0 ∧ t.pend 1013 =
          true ∧ (∀ h : Fin 4, h ≠ g → t.get (AUX_GSTAT_TRIP h) = s.dev.get (AUX_GSTAT_TRIP h) ∧ t.get (AUX_GSTAT_HSON
          h) = s.dev.get (AUX_GSTAT_HSON h)) ∧ t = { s.dev with regs := t.regs, evs := t.evs } ∧ sameRegs s.dev t
          ((AUX_GSTAT :: evRegs 1013))) ∧
  (∀ (s : State) (m : Master) (w : Word), s.dev.sys.logicOn = true → s.dev.supRights m = true →
      Does (.auxTripclr m w) s fun t => (∀ g : Fin 4, t.get (AUX_GSTAT_TRIP g) = (if w.toNat.testBit g then 0 else
          s.dev.get (AUX_GSTAT_TRIP g))) ∧ (∀ g : Fin 4, w.toNat.testBit g = true → s.dev.groupOn g = true → t.get
          (AUX_GSTAT_HSON g) = 1) ∧ t = { s.dev with regs := t.regs } ∧ sameRegs s.dev t ([AUX_GSTAT])) ∧
  (∀ (s : State) (k : Nat), s.dev.sys.logicOn = true → s.dev.gspAt = some k →
      Does (.gspEdge) s fun t => t.gspAt = some s.dev.now ∧ t.get GSP_PERIOD_PERIOD = min (2 ^ 32 - 1) (s.dev.now - k)
          ∧ t = { s.dev with regs := t.regs, gspAt := t.gspAt } ∧ sameRegs s.dev t ([GSP_PERIOD])) ∧
  (∀ (s : State) (k : Nat), s.dev.sys.logicOn = true → s.dev.gspAt = some k → k + 400000000 ≤ s.dev.now →
      Does (.gspTimeout) s fun t => t.get GSP_PERIOD_PERIOD = 0xFFFFFFFF ∧ t = { s.dev with regs := t.regs } ∧
          sameRegs s.dev t ([GSP_PERIOD])) ∧
  (∀ (s : State), s.dev.sys.logicOn = true →
      Does (.jtagBypass) s fun t => t.jtag.ir = .bypass ∧ t.jtag.dr = 0 ∧ t.jtag.driving = false ∧ t =
          { s.dev with jtag := t.jtag }) ∧
  (∀ (s : State), s.dev.sys.logicOn = true →
      Does (.jtagIdcode) s fun t => t.jtag.ir = .idcode ∧ t.jtag.dr = 0x06448D63 ∧ t.jtag.driving = false ∧ t =
          { s.dev with jtag := t.jtag }) ∧
  (∀ (s : State) (w : Nat), s.dev.sys.logicOn = true →
      Does (.jtagSamplePreload w) s fun t => t.jtag.ir = .sample ∧ t.jtag.preload = w ∧ t.jtag.driving = false ∧ t =
          { s.dev with jtag := t.jtag, free := t.free }) ∧
  (∀ (s : State), s.dev.sys.logicOn = true → s.dev.mode = .service → (∀ a : Fin 64, s.dev.axSt a = .off ∨ s.dev.axSt a
      = .absent) →
      Does (.jtagExtest) s fun t => t.jtag.ir = .extest ∧ t.jtag.dr = s.dev.jtag.preload ∧ t.jtag.driving = true ∧ t =
          { s.dev with jtag := t.jtag }) ∧
  (∀ (s : State), s.dev.sys.logicOn = true → s.dev.mode ≠ .service →
      Does (.jtagExtest) s fun t => t.jtag.ir = .bypass ∧ t.jtag.dr = 0 ∧ t.jtag.driving = false ∧ t =
          { s.dev with jtag := t.jtag })

/-- A SELECT press moves the selection to the next occupied slot, which lapses 10 s after the last key; a release of
an ACCEPTED slot starts when no other quad is releasing and is otherwise refused with RELREF and nothing else at the
slot; the quad opens its segment at rest, becomes SAFE and unlocks on ACK; a release that is not completed returns to
ACCEPTED, one not acknowledged or not withdrawn goes through acceptance again. Acceptance checks the identity memory,
precharges and accepts with the four axes OFF, or refuses with its reason and event 1012. A cartridge taken out leaves
the slot empty with event 1011. (R17, R48, R49, R50, R51, R52, R53, R104, R337) -/
def Obligations.PanelAndCartridges : Prop :=
  (∀ (s : State) (k : Fin 8) (q : Nat), s.dev.sys.logicOn = true → s.dev.mode ≠ .dormant → s.dev.nextSlot = some q → q
      < 16 →
      Does (.keySelect k) s fun t => t.get CSL_PANEL_SELVALID = 1 ∧ t.get CSL_PANEL_SEL = q ∧ t.get CSL_PANEL_KEYS =
          k.val ∧ t.panel.keyAt = some s.dev.now ∧ t = { s.dev with regs := t.regs, panel := t.panel, evs := t.evs } ∧
          sameRegs s.dev t ((CSL_PANEL :: evRegs 1008))) ∧
  (∀ (s : State) (k : Fin 8), s.dev.sys.logicOn = true → s.dev.mode = .dormant →
      Does (.keySelect k) s fun t => t = s.dev) ∧
  (∀ (s : State) (k : Nat), s.dev.sys.logicOn = true → s.dev.panel.keyAt = some k → k + 2000000000 ≤ s.dev.now →
      Does (.selectionLapse) s fun t => t.get CSL_PANEL_SELVALID = 0 ∧ t = { s.dev with regs := t.regs } ∧ sameRegs
          s.dev t ([CSL_PANEL])) ∧
  (∀ (s : State) (k : Fin 8) (q : Fin 16), s.dev.sys.logicOn = true → s.dev.mode ≠ .dormant → s.dev.get
      CSL_PANEL_SELVALID = 1 → s.dev.get CSL_PANEL_SEL = q.val → s.dev.get (CSL_STAT_STATE q) ≠ 2 →
      Does (.releaseHold k) s fun t => t.get CSL_PANEL_RELREF = 1 ∧ t.get (CSL_STAT_STATE q) = s.dev.get
          (CSL_STAT_STATE q) ∧ (t.slotOf q).refusedAt = some s.dev.now ∧ (∀ a : Fin 64, t.axSt a = s.dev.axSt a)) ∧
  (∀ (s : State) (k : Fin 8) (q : Fin 16), s.dev.sys.logicOn = true → s.dev.mode ≠ .dormant → s.dev.get
      CSL_PANEL_SELVALID = 1 → s.dev.get CSL_PANEL_SEL = q.val → s.dev.get (CSL_STAT_STATE q) = 2 → (∀ x : Fin 16,
      s.dev.get (CSL_STAT_STATE x) ≠ 4) → (∀ a : Fin 64, a.val / 4 = q.val → (s.dev.axSt a).driving = false) →
      Does (.releaseHold k) s fun t => t.get (CSL_STAT_STATE q) = 4 ∧ (t.slotOf q).relAt = s.dev.now ∧ t.pend 1009 =
          true) ∧
  (∀ (s : State) (k : Fin 8) (q : Fin 16), s.dev.sys.logicOn = true → s.dev.mode ≠ .dormant → s.dev.get
      CSL_PANEL_SELVALID = 1 → s.dev.get CSL_PANEL_SEL = q.val → s.dev.get (CSL_STAT_STATE q) = 5 → s.dev.now ≤
      (s.dev.slotOf q).safeAt + 6000000000 →
      Does (.keyAck k) s fun t => t.get (CSL_STAT_STATE q) = 6 ∧ t.get (CSL_STAT_LOCK q) = 0 ∧ (t.slotOf q).openAt =
          s.dev.now ∧ t = { s.dev with regs := t.regs, panel := t.panel, slots := t.slots, evs := t.evs } ∧ sameRegs
          s.dev t ((CSL_PANEL :: CSL_STAT q :: evRegs 1008))) ∧
  (∀ (s : State) (m : Master) (q : Fin 16), s.dev.sys.logicOn = true → s.dev.supRights m = true → (∃ x : Fin 16, x ≠ q
      ∧ s.dev.get (CSL_STAT_STATE x) = 4) →
      Does (.cslRel m (w32 (2 ^ 31 + q.val))) s fun t => t.get CSL_PANEL_RELREF = 1 ∧ t.get (CSL_STAT_STATE q) =
          s.dev.get (CSL_STAT_STATE q) ∧ (∀ a : Fin 64, t.axSt a = s.dev.axSt a)) ∧
  (∀ (s : State) (q : Fin 16), s.dev.sys.logicOn = true → s.dev.get (CSL_STAT_STATE q) = 4 → s.dev.get (CSL_STAT_SEGSW
      q) = 1 → (∀ a : Fin 64, a.val / 4 = q.val → (s.dev.axSt a).driving = false ∧ s.dev.bemfAtLeast a 455 = false ∧
      max (s.dev.sixOf a).hotAt (s.dev.sixOf a).restAt + 20000000 ≤ s.dev.now) →
      Does (.segmentOpen q) s fun t => t.get (CSL_STAT_SEGSW q) = 0 ∧ t.bit PSE_SEG q = false ∧ t =
          { s.dev with regs := t.regs } ∧ sameRegs s.dev t ([CSL_STAT q, PSE_SEG])) ∧
  (∀ (s : State) (q : Fin 16), s.dev.sys.logicOn = true → s.dev.get (CSL_STAT_STATE q) = 4 → s.dev.get (CSL_STAT_SEGSW
      q) = 0 →
      Does (.quadSafe q) s fun t => t.get (CSL_STAT_STATE q) = 5 ∧ (t.slotOf q).safeAt = s.dev.now ∧ t =
          { s.dev with regs := t.regs, slots := t.slots } ∧ sameRegs s.dev t ([CSL_STAT q])) ∧
  (∀ (s : State) (q : Fin 16), s.dev.sys.logicOn = true → s.dev.get (CSL_STAT_STATE q) = 4 → (s.dev.slotOf q).relAt +
      max 1 (s.dev.get CSL_RTO_SEC) * 200000000 ≤ s.dev.now →
      Does (.releaseTimeout q) s fun t => t.get (CSL_STAT_STATE q) = 2 ∧ (s.dev.get (CSL_STAT_SEGSW q) = 0 → (t.slotOf
          q).reclose = true) ∧ t.pend 1009 = true ∧ (∀ a : Fin 64, t.axSt a = s.dev.axSt a)) ∧
  (∀ (s : State) (q : Fin 16), s.dev.sys.logicOn = true → s.dev.get (CSL_STAT_STATE q) = 5 → (s.dev.slotOf q).safeAt +
      6000000000 ≤ s.dev.now →
      Does (.ackTimeout q) s fun t => t.get (CSL_STAT_STATE q) = 1 ∧ t.get (CSL_STAT_LOCK q) = 1 ∧ (t.slotOf q).stage
          = .checking ∧ t.pend 1010 = true) ∧
  (∀ (s : State) (q : Fin 16), s.dev.sys.logicOn = true → s.dev.get (CSL_STAT_STATE q) = 6 → (s.dev.slotOf q).openAt +
      12000000000 ≤ s.dev.now →
      Does (.withdrawTimeout q) s fun t => t.get (CSL_STAT_STATE q) = 1 ∧ t.get (CSL_STAT_LOCK q) = 1 ∧ (t.slotOf
          q).stage = .checking ∧ t.pend 1010 = true) ∧
  (∀ (s : State) (q : Fin 16) (i : Ident), s.dev.get (CSL_STAT_PRES q) = 0 →
      Does (.presenceMake q i) s fun t => t.get (CSL_STAT_PRES q) = 1 ∧ (t.slotOf q).ident = some i ∧ (t.slotOf
          q).presAt = s.dev.now ∧ (t.slotOf q).stage = .presence ∧ t = { s.dev with regs := t.regs, slots := t.slots }
          ∧ sameRegs s.dev t ([CSL_STAT q])) ∧
  (∀ (s : State) (q : Fin 16), s.dev.sys.logicOn = true → (s.dev.slotOf q).stage = .presence → s.dev.get
      (CSL_STAT_PRES q) = 1 → s.dev.mode ≠ .selftest → s.dev.mode ≠ .dormant → (s.dev.slotOf q).presAt + 2000000 ≤
      s.dev.now → (s.dev.slotOf q).boot = false →
      Does (.cartridgeCheckStart q) s fun t => t.get (CSL_STAT_STATE q) = 1 ∧ (t.slotOf q).stage = .checking ∧ t.pend
          1010 = true ∧ t = { s.dev with regs := t.regs, slots := t.slots, evs := t.evs } ∧ sameRegs s.dev t
          ((CSL_STAT q :: evRegs 1010))) ∧
  (∀ (s : State) (q : Fin 16) (i : Ident), s.dev.sys.logicOn = true → (s.dev.slotOf q).stage = .checking →
      (s.dev.slotOf q).ident = some i → i.crcOk = true → i.letter = 2 → 2 ≤ i.digit → i.digit < 16 → i.calOk = true →
      16000 ≤ s.dev.get PSE_VLINK_VLINK →
      Does (.identityRead q) s fun t => t.get (CSL_STAT_STEPL q) = 2 ∧ t.get (CSL_STAT_STEPD q) = i.digit ∧ (t.slotOf
          q).stage = .precharge ∧ t = { s.dev with regs := t.regs, slots := t.slots } ∧ sameRegs s.dev t ([CSL_STAT
          q])) ∧
  (∀ (s : State) (q : Fin 16) (i : Ident), s.dev.sys.logicOn = true → (s.dev.slotOf q).stage = .checking →
      (s.dev.slotOf q).ident = some i → i.crcOk = true → (i.letter ≠ 2 ∨ i.digit < 2) →
      Does (.identityRead q) s fun t => t.get (CSL_STAT_STATE q) = 3 ∧ t.get (CSL_STAT_REASON q) = 2 ∧ t.get
          (CSL_STAT_LOCK q) = 0 ∧ t.get (CSL_STAT_SEGSW q) = 0 ∧ t.pend 1012 = true) ∧
  (∀ (s : State) (q : Fin 16) (v : Fin 65536), s.dev.sys.logicOn = true → (s.dev.slotOf q).stage = .waitLink → 16000 ≤
      v.val →
      Does (.acceptanceResume q v) s fun t => (t.slotOf q).stage = .precharge ∧ t.get PSE_VLINK_VLINK = v.val ∧ t =
          { s.dev with regs := t.regs, slots := t.slots } ∧ sameRegs s.dev t ([PSE_VLINK])) ∧
  (∀ (s : State) (q : Fin 16), s.dev.sys.logicOn = true → (s.dev.slotOf q).stage = .precharge →
      Does (.segmentPrechargeDone q true true) s fun t => t.get (CSL_STAT_SEGSW q) = 1 ∧ t.bit PSE_SEG q = true ∧
          t.bit PSE_SEG (16 + q) = true ∧ (t.slotOf q).stage = .ready ∧ t =
          { s.dev with regs := t.regs, slots := t.slots } ∧ sameRegs s.dev t ([CSL_STAT q, PSE_SEG])) ∧
  (∀ (s : State) (q : Fin 16) (f : Bool), s.dev.sys.logicOn = true → (s.dev.slotOf q).stage = .precharge →
      Does (.segmentPrechargeDone q false f) s fun t => t.get (CSL_STAT_STATE q) = 3 ∧ t.get (CSL_STAT_REASON q) = 4 ∧
          t.get (CSL_STAT_SEGSW q) = 0 ∧ t.pend 1012 = true) ∧
  (∀ (s : State) (q : Fin 16), s.dev.sys.logicOn = true → (s.dev.slotOf q).stage = .ready → (∀ a : Fin 64, a.val / 4 =
      q.val → s.dev.axSt a = .absent) →
      Does (.cartridgeAccept q true) s fun t => t.get (CSL_STAT_STATE q) = 2 ∧ t.get (CSL_STAT_LOCK q) = 1 ∧ (∀ a :
          Fin 64, t.axSt a = (if a.val / 4 = q.val then .off else s.dev.axSt a)) ∧ (∀ a : Fin 64, a.val / 4 = q.val →
          t.pend (12 * a + 10) = true)) ∧
  (∀ (s : State) (q : Fin 16), s.dev.sys.logicOn = true → s.dev.get (CSL_STAT_PRES q) = 1 → s.dev.get (CSL_STAT_STATE
      q) = 3 →
      Does (.cartridgeRemoved q) s fun t => t.reg (CSL_STAT q) = 0 ∧ t.bit PSE_SEG q = false ∧ (t.slotOf q).ident =
          none ∧ t.pend 1011 = true) ∧
  (∀ (s : State) (q : Fin 16) (i : Ident) (r : JRec), s.dev.sys.logicOn = true → s.dev.mode = .service → (s.dev.slotOf
      q).ident = some i → liveRec s.dev.jnl.log 12 (i.serial % 2 ^ 32) = some r →
      Does (.cartcal q) s fun t => (t.slotOf q).ident = some
          { i with ofsA := r.payload.getD 1 0, gainA := r.payload.getD 2 0, ofsB := r.payload.getD 3 0, gainB := r.payload.getD 4 0, skewB := r.payload.getD 5 0, calt := r.payload.getD 6 0 })

/-- An open input at 20 V or more begins to precharge, connects within 1 V of the link, and opens with OCx, INPUT_TRIP
and a retry after 5 s on a timeout or an over-current; a blocked reverse current clears REVx. A tripped segment opens
its switch, counts a fuse stress and faults the quad with SEGMENT; an open fuse clears FUSEOK and does the same;
PSE_SEGRC asks for a precharge only of a quad at rest. (R55, R56, R57, R58, R59, R78) -/
def Obligations.InputsAndSegments : Prop :=
  (∀ (s : State) (x : Fin 2) (v : Fin 65536), s.dev.sys.logicOn = true → 10000 ≤ v.val → s.dev.inputsAllowed = true →
      s.dev.get (inClosed x) = 0 → (s.dev.inputOf x).preAt = none → (s.dev.inputOf x).retryAt = none →
      Does (.inputPrechargeStart x v) s fun t => (t.inputOf x).preAt = some s.dev.now ∧ t.get PSE_STAT_PRECH = 1 ∧
          t.get (inVolt x) = v.val ∧ t = { s.dev with regs := t.regs, inputs := t.inputs } ∧ sameRegs s.dev t
          ([PSE_VIN, PSE_STAT])) ∧
  (∀ (s : State) (x : Fin 2) (v : Fin 65536), s.dev.sys.logicOn = true → v.val < 10000 →
      Does (.inputPrechargeStart x v) s fun t => t.get (inVolt x) = v.val ∧ t = { s.dev with regs := t.regs } ∧
          sameRegs s.dev t ([PSE_VIN])) ∧
  (∀ (s : State) (x : Fin 2) (v l : Fin 65536) (k : Nat), s.dev.sys.logicOn = true → (s.dev.inputOf x).preAt = some k
      → v.val ≤ l.val + 500 → l.val ≤ v.val + 500 →
      Does (.inputConnect x v l) s fun t => t.get (inClosed x) = 1 ∧ t.get (inTripped x) = 0 ∧ (t.inputOf x).preAt =
          none ∧ t.get PSE_VLINK_VLINK = l.val ∧ t = { s.dev with regs := t.regs, inputs := t.inputs, evs := t.evs } ∧
          sameRegs s.dev t ((PSE_VIN :: PSE_VLINK :: PSE_STAT :: PSE_EVT :: evRegs 996))) ∧
  (∀ (s : State) (x : Fin 2) (k : Nat), s.dev.sys.logicOn = true → (s.dev.inputOf x).preAt = some k → k + 50000000 ≤
      s.dev.now →
      Does (.prechargeTimeout x) s fun t => t.get (inTripped x) = 1 ∧ t.get (inClosed x) = 0 ∧ (t.inputOf x).retryAt =
          some (s.dev.now + 1000000000) ∧ (t.inputOf x).preAt = none ∧ t.pend 1001 = true ∧ t =
          { s.dev with regs := t.regs, inputs := t.inputs, evs := t.evs } ∧ sameRegs s.dev t ((PSE_STAT :: PSE_EVT ::
          evRegs 1001))) ∧
  (∀ (s : State) (x : Fin 2) (v : Fin 65536) (k : Nat), s.dev.sys.logicOn = true → (s.dev.inputOf x).retryAt = some k
      → k ≤ s.dev.now → 10000 ≤ v.val → s.dev.inputsAllowed = true →
      Does (.inputRetry x v) s fun t => (t.inputOf x).preAt = some s.dev.now ∧ (t.inputOf x).retryAt = none ∧ t.get
          PSE_STAT_PRECH = 1 ∧ t = { s.dev with regs := t.regs, inputs := t.inputs } ∧ sameRegs s.dev t ([PSE_VIN,
          PSE_STAT])) ∧
  (∀ (s : State) (x : Fin 2), s.dev.sys.logicOn = true → s.dev.get (inClosed x) = 1 →
      Does (.inputOvercurrent x) s fun t => t.get (inClosed x) = 0 ∧ t.get (inTripped x) = 1 ∧ (t.inputOf x).retryAt =
          some (s.dev.now + 1000000000) ∧ t.pend 1001 = true ∧ t =
          { s.dev with regs := t.regs, inputs := t.inputs, evs := t.evs } ∧ sameRegs s.dev t ((PSE_STAT :: PSE_EVT ::
          evRegs 1001))) ∧
  (∀ (s : State) (x : Fin 2), s.dev.sys.logicOn = true → s.dev.get (inClosed x) = 1 → s.dev.get (inRevCfg x) = 1 →
      Does (.reverseCurrentBlock x) s fun t => t.get (inReverse x) = 0 ∧ (t.inputOf x).block = true ∧ t =
          { s.dev with regs := t.regs, inputs := t.inputs } ∧ sameRegs s.dev t ([PSE_STAT])) ∧
  (∀ (s : State) (q : Fin 16) (i : Ident), s.dev.sys.logicOn = true → s.dev.get (CSL_STAT_SEGSW q) = 1 → (s.dev.slotOf
      q).ident = some i → s.dev.peal.running = false → (∀ a : Fin 64, a.val / 4 = q.val → s.dev.axSt a ≠ .absent) →
      Does (.segmentTrip q) s fun t => t.get (CSL_STAT_SEGSW q) = 0 ∧ t.bit PSE_SEG q = false ∧ (t.slotOf q).ident =
          some { i with fuseStress := i.fuseStress + 1 } ∧ (∀ a : Fin 64, a.val / 4 = q.val → t.axSt a = .fault ∧
          t.bit (CU_FLT a) 10 = true) ∧ (∀ a : Fin 64, a.val / 4 ≠ q.val → t.axSt a = s.dev.axSt a) ∧ t.pend 1002 =
          true ∧ t.pend (833 + 2 * q) = true) ∧
  (∀ (s : State) (p : Fin 5) (w : Word), s.dev.sys.logicOn = true →
      Does (.segmentReclose (.pair p) w) s fun t => (∀ q : Fin 16, (t.slotOf q).reclose = (decide (w.toNat.testBit q =
          true ∧ s.dev.get (CSL_STAT_STATE q) = 2 ∧ s.dev.get (CSL_STAT_SEGSW q) = 0 ∧ ∀ j : Fin 4, s.dev.axSt (4 *
          q.val + j.val) = .off ∨ s.dev.axSt (4 * q.val + j.val) = .fault) || (s.dev.slotOf q).reclose)) ∧ t =
          { s.dev with slots := t.slots }) ∧
  (∀ (s : State) (q : Fin 16), s.dev.sys.logicOn = true → s.dev.present q = true → s.dev.get (CSL_STAT_SEGSW q) = 1 →
      2500 ≤ s.dev.get PSE_VLINK_VLINK → s.dev.peal.running = false → (∀ a : Fin 64, a.val / 4 = q.val → s.dev.axSt a
      ≠ .absent) →
      Does (.fuseOpen q) s fun t => t.bit PSE_SEG (16 + q) = false ∧ (∀ a : Fin 64, a.val / 4 = q.val → t.axSt a =
          .fault) ∧ t.pend 1002 = true)

/-- A change of logic source alters SRC and raises SUPPLY_SWITCH; hold-up sets HOLDUP with no source. The link
conditions set their flags, fault the energised axes and clear between 32 V and 60 V; the level bits and CLAMP follow
the link and the thresholds, which are written only in their order. CLAMPLIM sets on exhaustion and clears above half
the credit. Derating and over-temperature follow PSE_TBASE with PCONT and PPEAK. (R60, R61, R62, R66, R67, R68, R69,
R71, R78) -/
def Obligations.LinkAndLogicSupplies : Prop :=
  (∀ (s : State) (v a b : Fin 65536), s.dev.sys.logicOn = true → s.dev.get PSE_STAT_SRC = 2 → 8800 ≤ v.val →
      Does (.supplySwitch true v a b) s fun t => t.get PSE_STAT_SRC = 1 ∧ t.get PSE_LOGIC_VLOGIC = v.val ∧ t.pend 992
          = true ∧ (∀ x : Fin 64, t.axSt x = s.dev.axSt x)) ∧
  (∀ (s : State) (v a b : Fin 65536), s.dev.sys.logicOn = true → s.dev.get PSE_STAT_SRC = 1 → v.val < 8000 → 15000 ≤
      max a.val b.val →
      Does (.supplySwitch false v a b) s fun t => t.get PSE_STAT_SRC = 2 ∧ t.get PSE_STAT_BKAVAIL = 1 ∧ t.pend 992 =
          true) ∧
  (∀ (s : State) (v a b : Fin 65536) (m : Bool), s.dev.sys.logicOn = true → 8000 ≤ v.val → v.val < 8800 →
      Does (.supplySwitch m v a b) s fun t => t.get PSE_STAT_SRC = s.dev.get PSE_STAT_SRC ∧ t.get PSE_LOGIC_VLOGIC =
          v.val ∧ t = { s.dev with regs := t.regs } ∧ sameRegs s.dev t ([PSE_VIN, PSE_LOGIC, PSE_STAT])) ∧
  (∀ s : State, s.dev.sys.logicOn = true → s.dev.get PSE_STAT_HOLDUP = 0 → ∃ u, exec .holdup s = .next u ∧ u.pending =
      s.pending ∧ u.dev.get PSE_STAT_HOLDUP = 1 ∧ u.dev.get PSE_STAT_SRC = 0 ∧ u.dev.pse.holdAt = s.dev.now ∧
      u.dev.jnl.sealing = true ∧ u.dev.pend 993 = true) ∧
  (∀ (s : State) (v : Fin 65536), s.dev.sys.logicOn = true → v.val < 14000 → s.dev.get PSE_STAT_LINKUV = 0 → s.dev.get
      PSE_STAT_HOLDUP = 0 → s.dev.peal.running = false →
      Does (.linkUv v) s fun t => t.get PSE_STAT_LINKUV = 1 ∧ t.get PSE_VLINK_VLINK = v.val ∧ t.pend 994 = true ∧ (∀ a
          : Fin 64, (t.axSt a).driving = false) ∧ (s.dev.bond = [] → ∀ a : Fin 64, (s.dev.axSt a).driving = false →
          t.axSt a = s.dev.axSt a)) ∧
  (∀ (s : State) (v : Fin 65536), s.dev.sys.logicOn = true → 32500 < v.val → s.dev.get PSE_STAT_LINKOV = 0 →
      s.dev.peal.running = false →
      Does (.linkOv v) s fun t => t.get PSE_STAT_LINKOV = 1 ∧ t.pend 995 = true ∧ (∀ a : Fin 64, (t.axSt a).driving =
          false)) ∧
  (∀ (s : State) (v : Fin 65536), s.dev.sys.logicOn = true → 16000 ≤ v.val → v.val ≤ 30000 → (s.dev.get
      PSE_STAT_LINKUV = 1 ∨ s.dev.get PSE_STAT_LINKOV = 1) →
      Does (.linkConditionClear v) s fun t => t.get PSE_STAT_LINKUV = 0 ∧ t.get PSE_STAT_LINKOV = 0 ∧ t.pse.faulted =
          0 ∧ (∀ a : Fin 64, t.axSt a = (if s.dev.pse.faulted.testBit a ∧ s.dev.axSt a = .fault then .off else
          s.dev.axSt a))) ∧
  (∀ (s : State) (v : Fin 65536), s.dev.sys.logicOn = true → s.dev.get PSE_VTHR0_VDECEL ≤ v.val / 5 → s.dev.get
      PSE_STAT_VDECEL = 0 →
      Does (.vdecel v) s fun t => t.get PSE_STAT_VDECEL = 1 ∧ t.get PSE_VLINK_VLINK = v.val ∧ t.pend 996 = true ∧ t =
          { s.dev with regs := t.regs, evs := t.evs } ∧ sameRegs s.dev t ((PSE_STAT :: PSE_VLINK :: PSE_EVT :: evRegs
          996))) ∧
  (∀ (s : State) (v : Fin 65536), s.dev.sys.logicOn = true →
      Does (.regen0Cross v) s fun t => (t.get PSE_STAT_REGEN0 = (if s.dev.get PSE_VTHR0_VREGEN0 ≤ v.val / 5 then 1
          else 0)) ∧ (t.get PSE_STAT_VDECEL = (if s.dev.get PSE_VTHR0_VDECEL ≤ v.val / 5 then 1 else 0)) ∧ (s.dev.get
          PSE_VTHR0_VDECEL ≤ v.val / 5 → s.dev.get PSE_STAT_VDECEL = 0 → t.pend 996 = true) ∧ t.get PSE_VLINK_VLINK =
          v.val ∧ t = { s.dev with regs := t.regs, evs := t.evs } ∧ sameRegs s.dev t ((PSE_STAT :: PSE_VLINK ::
          PSE_EVT :: evRegs 996))) ∧
  (∀ (s : State) (v : Fin 65536), s.dev.sys.logicOn = true → s.dev.get PSE_CFG_CLMPEN = 1 → s.dev.get PSE_VTHR1_VCLON
      ≤ v.val / 5 → s.dev.get PSE_STAT_CLAMPON = 0 →
      Does (.clampOn v) s fun t => t.get PSE_STAT_CLAMPON = 1 ∧ t.pend 997 = true ∧ t =
          { s.dev with regs := t.regs, evs := t.evs } ∧ sameRegs s.dev t ((PSE_STAT :: PSE_VLINK :: PSE_EVT :: (evRegs
          996 ++ evRegs 997)))) ∧
  (∀ (s : State) (v : Fin 65536), s.dev.sys.logicOn = true → v.val / 5 < s.dev.get PSE_VTHR1_VCLOFF →
      Does (.clampOff v) s fun t => t.get PSE_STAT_CLAMPON = 0 ∧ t = { s.dev with regs := t.regs, evs := t.evs } ∧
          sameRegs s.dev t ((PSE_STAT :: PSE_VLINK :: PSE_EVT :: evRegs 996))) ∧
  (∀ (s : State) (p : Fin 5) (w : Word), s.dev.sys.logicOn = true → 5000 ≤ wordGet w 0 16 → wordGet w 0 16 < wordGet w
      16 16 → wordGet w 16 16 < s.dev.get PSE_VTHR1_VCLOFF → s.dev.get PSE_VTHR1_VCLOFF < s.dev.get PSE_VTHR1_VCLON →
      s.dev.get PSE_VTHR1_VCLON ≤ 6200 →
      Does (.thresholdWrite (.pair p) false w) s fun t => t.reg PSE_VTHR0 = w ∧ t.get PSE_STAT_THRERR = 0 ∧ t =
          { s.dev with regs := t.regs } ∧ sameRegs s.dev t ([PSE_VTHR0, PSE_STAT])) ∧
  (∀ (s : State) (p : Fin 5) (w : Word), s.dev.sys.logicOn = true → (wordGet w 16 16 ≤ wordGet w 0 16 ∨ 6200 < wordGet
      w 16 16 ∨ wordGet w 0 16 ≤ s.dev.get PSE_VTHR0_VREGEN0) →
      Does (.thresholdWrite (.pair p) true w) s fun t => t.get PSE_STAT_THRERR = 1 ∧ t = { s.dev with regs := t.regs }
          ∧ sameRegs s.dev t ([PSE_STAT])) ∧
  (∀ (s : State), s.dev.sys.logicOn = true → s.dev.get PSE_STAT_CLAMPON = 1 → s.dev.get PSE_STAT_CLAMPLIM = 0 →
      Does (.clampFault) s fun t => t.get PSE_STAT_CLAMPLIM = 1 ∧ t.get PSE_CLAMP_CRCL = 0 ∧ t.pend 998 = true ∧ t =
          { s.dev with regs := t.regs, pse := t.pse, evs := t.evs } ∧ sameRegs s.dev t ((PSE_STAT :: PSE_CLAMP ::
          PSE_EVT :: evRegs 998))) ∧
  (∀ (s : State), s.dev.sys.logicOn = true → 2 * s.dev.pse.clampUsed < 1050000000 →
      Does (.clampCreditRestored) s fun t => t.get PSE_STAT_CLAMPLIM = 0 ∧ t = { s.dev with regs := t.regs } ∧
          sameRegs s.dev t ([PSE_STAT])) ∧
  (∀ (s : State) (x : Fin 32768), s.dev.sys.logicOn = true → 600 < x.val → x.val ≤ 850 → s.dev.get PSE_STAT_DERATE = 0
      →
      Does (.thermal (x.val : Int)) s fun t => t.get PSE_STAT_DERATE = 1 ∧ t.get PSE_TBASE_TBASE = x.val ∧ t.get
          PSE_PLIM_PCONT = 10000 - 20 * (x.val - 600) ∧ t.get PSE_PLIM_PPEAK = (10000 - 20 * (x.val - 600)) * 8 / 5 ∧
          t.pend 1000 = true ∧ t = { s.dev with regs := t.regs, evs := t.evs } ∧ sameRegs s.dev t ((PSE_STAT ::
          PSE_TBASE :: PSE_PLIM :: PSE_EVT :: evRegs 1000))) ∧
  (∀ (s : State) (x : Fin 32768), s.dev.sys.logicOn = true → 900 ≤ x.val → s.dev.get PSE_STAT_OVTEMP = 0 →
      Does (.ovtemp (x.val : Int)) s fun t => t.get PSE_STAT_OVTEMP = 1 ∧ t.get PSE_PLIM_PCONT = 5000 ∧ t.pend 1000 =
          true) ∧
  (∀ (s : State) (x : Fin 800), s.dev.sys.logicOn = true →
      Does (.ovtempClear (x.val : Int)) s fun t => t.get PSE_STAT_OVTEMP = 0 ∧ t.get PSE_TBASE_TBASE = x.val ∧ t =
          { s.dev with regs := t.regs } ∧ sameRegs s.dev t ([PSE_STAT, PSE_TBASE, PSE_PLIM]))

/-- The exhaustion of a credit changes the limit it stands for; a ripple average above 150 A sets RSCALE to 150 A over
it with RIPPLE. An arbitration acts at multiples of 2,000 counts alone: a drive that takes no part gets the ceiling 0,
a regenerating one 0xFFFF, neither of them limited, and every motoring drive at most its want, which is the smallest
of UCEIL, RATED and the current plus headroom; the units keep the ceilings in force until they take the new ones up.
(R65, R70, R71, R72, R73, R74, R78) -/
def Obligations.PowerBudget : Prop :=
  (∀ (s : State), s.dev.sys.logicOn = true →
      Does (.powerCreditExhausted) s fun t => t.pse.powLeft = 0 ∧ t.get PSE_CREDIT_CRP = 0 ∧ t =
          { s.dev with regs := t.regs, pse := t.pse } ∧ sameRegs s.dev t ([PSE_CREDIT])) ∧
  (∀ (s : State) (x : Fin 2), s.dev.sys.logicOn = true → s.dev.get (inClosed x) = 1 → s.dev.get (inClosed (1 - x.val))
      = 0 →
      Does (.inputCreditExhausted x) s fun t => t.inMax = 12500 ∧ t = { s.dev with regs := t.regs, pse := t.pse } ∧
          sameRegs s.dev t ([PSE_CREDIT])) ∧
  (∀ (s : State) (a : Fin 64), s.dev.sys.logicOn = true → s.dev.lowest a = a.val →
      Does (.peakCreditExhausted a) s fun t => t.ratedCur a = 800 * s.dev.bridges a ∧ t.get (PSE_AXCEIL_PEAKOUT a) = 1
          ∧ t.get (PSE_AXCEIL_PKCR a) = 0 ∧ t = { s.dev with regs := t.regs, pse := t.pse, evs := t.evs } ∧ sameRegs
          s.dev t ((PSE_AXCEIL a :: PSE_STAT :: PSE_EVT :: evRegs 999))) ∧
  (∀ (s : State) (i v : Fin 65536), s.dev.sys.logicOn = true → 1500 < v.val → s.dev.get PSE_STAT_RIPPLE = 0 →
      Does (.ripple i v) s fun t => t.get PSE_RIPPLE_RSCALE = 150000 / v.val ∧ t.get PSE_RIPPLE_IRIP = i.val ∧ t.get
          PSE_STAT_RIPPLE = 1 ∧ t.pend 1003 = true ∧ t = { s.dev with regs := t.regs, pse := t.pse, evs := t.evs } ∧
          sameRegs s.dev t ((PSE_RIPPLE :: PSE_STAT :: PSE_EVT :: evRegs 1003))) ∧
  (∀ (s : State) (v : PseMeas), s.dev.sys.logicOn = true → (s.dev.now % 2000 ≠ 0 ∨ s.dev.timeOn = false) →
      Does (.arbitration v) s fun t => t = s.dev) ∧
  (∀ (s : State) (v : PseMeas), s.dev.sys.logicOn = true → s.dev.now % 2000 = 0 → s.dev.timeOn = true →
      Does (.arbitration v) s fun t => t.get PSE_VLINK_VLINK = v.vlink.val ∧ (∀ a : Fin 64, s.dev.lowest a ≠ a.val ∨
          (s.dev.axSt a).driving = false → t.get (PSE_AXCEIL_CEIL a) = 0 ∧ t.get (PSE_AXCEIL_LIMITED a) = 0) ∧ (∀ a :
          Fin 64, s.dev.lowest a = a.val → (s.dev.axSt a).driving = true → v.link.getD a.val 0 < 0 → t.get
          (PSE_AXCEIL_CEIL a) = 65535 ∧ t.get (PSE_AXCEIL_LIMITED a) = 0) ∧ (∀ a : Fin 64, s.dev.lowest a = a.val →
          (s.dev.axSt a).driving = true → 0 ≤ v.link.getD a.val 0 → (t.get (PSE_AXCEIL_CEIL a) : Int) ≤ min (s.dev.get
          (PSE_AXLIM_UCEIL a) : Int) (min (3500 * s.dev.bridges a : Int) (v.link.getD a.val 0 + s.dev.headroom a))) ∧
          (∀ a : Fin 64, t.get (CU_IDC_CEIL a) = s.dev.get (CU_IDC_CEIL a) ∧ ∃ k, tget none t.pse.sent a = some k ∧
          t.get (PSE_AXCEIL_CEIL a) = k % 65536))

/-- Device time starts at 0, or resumes from the accumulator, once both PLLs are locked; a PLL loss stops it, raises
TIME_FAULT and knells every axis. A read of TRU_NOW_LO answers the low half and latches the high half for its reader
alone. A crystal failure sets XTALFAIL; a write of TRU_CFG that changes a mode disqualifies the reference; edges of
SYNC IN are timestamped and counted; a reference that qualifies is selected by rank with REF_QUAL and REF_SWITCH, and
a lost one is dropped. (R79, R80, R81, R82, R83, R85, R86, R93) -/
def Obligations.ClocksAndReferences : Prop :=
  (∀ (s : State), s.dev.sys.logicOn = true →
      Does (.pllLock) s fun t => t.get TRU_STAT_PLLALK = 1 ∧ t.get TRU_STAT_PLLBLK = 1 ∧ t =
          { s.dev with regs := t.regs } ∧ sameRegs s.dev t ([TRU_STAT])) ∧
  (∀ (s : State) (n : Nat), s.dev.sys.logicOn = true → s.dev.timeOn = false → s.dev.get TRU_STAT_PLLALK = 1 →
      s.dev.get TRU_STAT_PLLBLK = 1 →
      Does (.deviceTimeStart n) s fun t => t.timeOn = true ∧ (t.now = (if s.dev.sys.aon then s.dev.now + n else 0)) ∧
          t.sys.aon = true ∧ (s.dev.tru.outage = true → t.get TRU_STAT_TIMEJUMP = 1) ∧ t =
          { s.dev with regs := t.regs, now := t.now, timeOn := t.timeOn, sys := t.sys, tru := t.tru } ∧ sameRegs s.dev
          t ([TRU_STAT])) ∧
  (∀ (s : State) (n : Nat), s.dev.sys.logicOn = true → s.dev.timeOn = true →
      Does (.deviceTimeStart n) s fun t => t = s.dev) ∧
  (∀ (s : State) (b : Bool), s.dev.sys.logicOn = true → s.dev.mode ≠ .dormant → s.dev.mode ≠ .selftest → s.dev.mode ≠
      .lockout →
      Does (.pllLoss true b) s fun t => t.get TRU_STAT_PLLALK = 0 ∧ t.timeOn = false ∧ t.now = s.dev.now ∧
          t.tru.outage = true ∧ t.pend 1007 = true ∧ (∀ a : Fin 64, t.bit (PWM_FLT a) 4 = true) ∧ t.mode = .safe) ∧
  (∀ (s : State) (m : Master), s.dev.sys.logicOn = true →
      Does (.truNowLoRead m false) s fun t => t.rdata = w32 s.dev.now ∧ tget 0 t.tru.nowHi (readerOf m) = w32
          (s.dev.now / 2 ^ 32) ∧ (∀ k : Fin 15, k.val ≠ readerOf m → tget 0 t.tru.nowHi k = tget 0 s.dev.tru.nowHi k)
          ∧ t = { s.dev with tru := t.tru, rdata := t.rdata }) ∧
  (∀ (s : State) (m : Master), s.dev.sys.logicOn = true →
      Does (.truNowLoRead m true) s fun t => t.rdata = w32 s.dev.tru.sits ∧ tget 0 t.tru.sitsHi (readerOf m) = w32
          (s.dev.tru.sits / 2 ^ 32) ∧ t.tru.nowHi = s.dev.tru.nowHi ∧ t =
          { s.dev with tru := t.tru, rdata := t.rdata }) ∧
  (∀ (s : State), s.dev.sys.logicOn = true → s.dev.get TRU_STAT_XTALFAIL = 0 → s.dev.get TRU_STAT_XQ = 1 → s.dev.get
      TRU_STAT_SEL = 0 → s.dev.get TRU_STAT_SIQ = 0 → s.dev.get TRU_STAT_PLQ = 0 →
      Does (.crystalFail) s fun t => t.get TRU_STAT_XTALFAIL = 1 ∧ t.get TRU_STAT_XQ = 0 ∧ t.get TRU_STAT_SEL = 3 ∧
          t.pend 1007 = true ∧ t.pend 1004 = true ∧ t.pend 1005 = true ∧ t.reg TRU_FCORR = s.dev.reg TRU_FCORR) ∧
  (∀ (s : State) (p : Fin 5) (w : Word), s.dev.sys.logicOn = true → s.dev.get TRU_STAT_SIQ = 1 → s.dev.siMode ≠
      wordGet w 0 2 % 3 →
      Does (.truCfgWrite (.pair p) w) s fun t => t.get TRU_CFG_SIMODE = wordGet w 0 2 ∧ t.get TRU_CFG_PLROLE = wordGet
          w 4 2 ∧ t.get TRU_STAT_SIQ = 0 ∧ t.tru.siGood = 0 ∧ t.tru.siEdge = none ∧ t.pend 1004 = true ∧ t.get
          TRU_STAT_SEL ≠ 2 ∧ t = { s.dev with regs := t.regs, tru := t.tru, evs := t.evs } ∧ sameRegs s.dev t
          ((TRU_CFG :: TRU_STAT :: TRU_FREF :: TRU_PHERR :: TRU_EVT :: (evRegs 1004 ++ evRegs 1005)))) ∧
  (∀ (s : State) (n : Nat), s.dev.sys.logicOn = true → s.dev.siMode = 0 →
      Does (.syncInEdge n) s fun t => t.tru.sits = s.dev.now ∧ t.reg TRU_SITS_LO = w32 s.dev.now ∧ t =
          { s.dev with regs := t.regs, tru := t.tru } ∧ sameRegs s.dev t ([TRU_SITS_LO])) ∧
  (∀ (s : State) (n : Nat), s.dev.sys.logicOn = true → s.dev.siMode = 2 → s.dev.tru.siEdge ≠ none →
      Does (.syncInEdge n) s fun t => t.tru.sits = s.dev.now ∧ t.tru.siEdge = some s.dev.now ∧ (t.tru.siGood = (if
          99970 ≤ n ∧ n ≤ 100030 then s.dev.tru.siGood + 1 else 0)) ∧ (t.tru.siBad = (if 99970 ≤ n ∧ n ≤ 100030 then 0
          else s.dev.tru.siBad + 1)) ∧ t.tru.siE9 = fold ((s.dev.now : Int) - s.dev.get TRU_SIOFS_OFS) 20000 *
          1000000000 ∧ t = { s.dev with regs := t.regs, tru := t.tru } ∧ sameRegs s.dev t ([TRU_SITS_LO, TRU_PHERR])) ∧
  (∀ (s : State), s.dev.sys.logicOn = true → s.dev.get TRU_STAT_SIQ = 0 → s.dev.siMode ≠ 0 → s.dev.siNeed ≤
      s.dev.tru.siGood → s.dev.get TRU_STAT_SEL ≠ 2 →
      Does (.refQual 2) s fun t => t.get TRU_STAT_SIQ = 1 ∧ t.get TRU_STAT_SEL = 2 ∧ t.get TRU_STAT_STATE = 1 ∧ t.pend
          1004 = true ∧ t.pend 1005 = true ∧ t = { s.dev with regs := t.regs, tru := t.tru, evs := t.evs } ∧ sameRegs
          s.dev t ((TRU_STAT :: TRU_EVT :: (evRegs 1004 ++ evRegs 1005)))) ∧
  (∀ (s : State), s.dev.sys.logicOn = true → s.dev.get TRU_STAT_SIQ = 1 → s.dev.tru.siBad < 2 →
      Does (.refQual 2) s fun t => t = s.dev) ∧
  (∀ (s : State) (k : Nat), s.dev.sys.logicOn = true → s.dev.tru.siEdge = some k → s.dev.siMode = 2 → k + 30000 ≤
      s.dev.now → s.dev.get TRU_STAT_SIQ = 1 → s.dev.get TRU_STAT_SEL = 2 →
      Does (.refLossTimeout true) s fun t => t.get TRU_STAT_SIQ = 0 ∧ t.get TRU_STAT_SEL ≠ 2 ∧ t.get TRU_STAT_STATE =
          1 ∧ t.tru.siEdge = none ∧ t.pend 1004 = true ∧ t.pend 1005 = true) ∧
  (∀ (s : State) (k : Nat), s.dev.sys.logicOn = true → s.dev.tru.plAt = some k → k + 10000000 ≤ s.dev.now →
      Does (.refLossTimeout false) s fun t => t.get TRU_STAT_PLQ = 0 ∧ t.tru.plGood = 0 ∧ t.tru.plAt = none)

/-- An update of F moves it by at most 100 units towards F_ref plus the clamped correction, within 300,000 units; it
happens at multiples of 200,000 counts alone. LOCKED is entered when its conditions have held for 1 s, or for the
crystal when F is 0. The master sends SYNC with the next counter every 10 ms and its FOLLOW_UP with the time of its
start of frame; a slave stamps a SYNC and pairs it with its FOLLOW_UP; a SYNC received by a master sets MCONF with
TIME_FAULT. SYNC OUT rises at the device times of its setting. (R87, R88, R89, R91, R93, R383) -/
def Obligations.SteeringAndSync : Prop :=
  (∀ (s : State) (r : Int), s.dev.sys.logicOn = true → s.dev.timeOn = true → s.dev.now % 200000 = 0 → s.dev.get
      TRU_STAT_SEL = 0 → -300000 ≤ s.dev.fCorr → s.dev.fCorr ≤ 300000 →
      Does (.fUpdate r) s fun t => t.fCorr = s.dev.fCorr + max (-100) (min 100 (0 - s.dev.fCorr)) ∧ t.reg TRU_FREF = 0
          ∧ t.reg TRU_PHERR = 0 ∧ t.get TRU_STAT_FCLAMP = 0 ∧ t = { s.dev with regs := t.regs, tru := t.tru } ∧
          sameRegs s.dev t ([TRU_FCORR, TRU_FREF, TRU_PHERR, TRU_STAT])) ∧
  (∀ (s : State) (r : Int), s.dev.sys.logicOn = true → (s.dev.now % 200000 ≠ 0 ∨ s.dev.get TRU_STAT_SEL = 3) →
      Does (.fUpdate r) s fun t => t = s.dev) ∧
  (∀ (f r e : Int) (k : Nat), -300000 ≤ f → f ≤ 300000 → -300000 ≤ (steer f r e k).1 ∧ (steer f r e k).1 ≤ 300000 ∧ f
      - 100 ≤ (steer f r e k).1 ∧ (steer f r e k).1 ≤ f + 100) ∧
  (∀ (s : State) (k : Nat), s.dev.sys.logicOn = true → s.dev.get TRU_STAT_STATE = 1 → s.dev.get TRU_STAT_SEL = 2 →
      s.dev.tru.lockSince = some k → k + 200000000 ≤ s.dev.now →
      Does (.refLocked) s fun t => t.get TRU_STAT_STATE = 0 ∧ t.pend 1006 = true ∧ t =
          { s.dev with regs := t.regs, evs := t.evs } ∧ sameRegs s.dev t ((TRU_STAT :: TRU_EVT :: evRegs 1006))) ∧
  (∀ (s : State), s.dev.sys.logicOn = true → s.dev.timeOn = true → s.dev.plRole = 1 → s.dev.now % 2000000 = 0 →
      Does (.syncSend) s fun t => t.tru.txSeq = (s.dev.tru.txSeq + 1) % 256 ∧ (∀ l : Fin 2, tget none t.tru.txSync l =
          some ((s.dev.tru.txSeq + 1) % 256)) ∧ t = { s.dev with tru := t.tru }) ∧
  (∀ (s : State) (l : Fin 2) (f n : Nat), s.dev.sys.logicOn = true → s.dev.plRole = 1 → tget none s.dev.tru.txSync l =
      some n →
      Does (.followUpSend l f) s fun t => tget none t.tru.sent l = some (n, f) ∧ tget none t.tru.txSync l = none ∧ t =
          { s.dev with tru := t.tru }) ∧
  (∀ (s : State) (l : Fin 2) (v : Fin 32) (n : Fin 256), s.dev.sys.logicOn = true → s.dev.plRole = 1 →
      Does (.syncRx l v n) s fun t => t.get TRU_STAT_MCONF = 1 ∧ t.pend 1007 = true ∧ t =
          { s.dev with regs := t.regs, evs := t.evs } ∧ sameRegs s.dev t ((TRU_STAT :: TRU_EVT :: evRegs 1007))) ∧
  (∀ (s : State) (l : Fin 2) (v : Fin 32) (n : Fin 256), s.dev.sys.logicOn = true → s.dev.plRole ≠ 1 →
      Does (.syncRx l v n) s fun t => tget none t.tru.sync l = some (v.val, n.val, s.dev.now) ∧ t =
          { s.dev with tru := t.tru }) ∧
  (∀ (s : State) (l : Fin 2) (v : Fin 32) (n : Fin 256) (m i k : Nat), s.dev.sys.logicOn = true → s.dev.plRole = 2 →
      tget none s.dev.tru.sync l = some (v.val, n.val, k) → s.dev.now ≤ k + 400000 → s.dev.tru.plLast ≠ some (v.val,
      n.val) → s.dev.tru.plAt ≠ none →
      Does (.followUpRx l v n m i) s fun t => t.tru.plAt = some k ∧ t.get TRU_STAT_PLLINK = l.val ∧ (t.tru.plGood =
          (if 9998000 ≤ i ∧ i ≤ 10002000 then s.dev.tru.plGood + 1 else 1)) ∧ t.tru.plE9 = fold ((k : Int) - m -
          s.dev.get TRU_PLOFS_OFS) 200000 * 1000000000 ∧ t = { s.dev with regs := t.regs, tru := t.tru } ∧ sameRegs
          s.dev t ([TRU_STAT, TRU_PHERR])) ∧
  (∀ (s : State), s.dev.sys.logicOn = true → s.dev.timeOn = true → s.dev.get TRU_SOCFG_EN = 1 → s.dev.get
      TRU_SOCFG_QUALONLY = 0 → s.dev.get TRU_SOCFG_MODE = s.dev.tru.soMode → s.dev.get TRU_SOOFS_OFS = s.dev.tru.soOfs
      → soHit s.dev.tru.soMode s.dev.tru.soOfs s.dev.now = true → s.dev.tru.soEdge = none →
      Does (.syncOutEdge) s fun t => t.tru.soEdge = some s.dev.now ∧ t.syncOut = true ∧ t =
          { s.dev with tru := t.tru }) ∧
  (∀ (s : State), s.dev.sys.logicOn = true → s.dev.get TRU_SOCFG_EN = 0 →
      Does (.syncOutEdge) s fun t => t = s.dev)

/-- A write of SYS_MODEREQ with GO enters a permitted mode at once when no axis must stop, with PREV, no pending
change and MODE_CHANGE; SAFE left for STANDBY while an axis has no host leads to DEGRADED; where axes must stop, PEND
and TARGET stand and the mode stays; a refused request leaves the mode and records its reason. The pending target is
entered once every axis rests, and abandoned with reason 6 at the stop timeout. A drive in HIZ whose back-EMF stayed
low 10 ms goes to OFF. (R94, R95, R96, R97, R98, R99, R100, R113) -/
def Obligations.ModeRequests : Prop :=
  (∀ (s : State) (p : Fin 5) (w : Word) (r : Fin 65536) (k : Mode), s.dev.sys.logicOn = true → w.toNat.testBit 31 =
      true → Mode.ofCode (wordGet w 0 4) = some k → s.dev.modeRefusal k = 0 → s.dev.mustStop k = false → k ≠ .dormant
      → (s.dev.mode ≠ .safe ∨ s.dev.pairLost = false) →
      Does (.modeRequest (.pair p) w r) s fun t => t.mode = k ∧ t.get SYS_MODE_PREV = s.dev.mode.code ∧ t.get
          SYS_MODE_PEND = 0 ∧ t.pend 1015 = true ∧ t.get SYS_MODE_REFUSE = s.dev.get SYS_MODE_REFUSE ∧ t.sys.pendSince
          = none) ∧
  (∀ (s : State) (m : Master) (w : Word) (r : Fin 65536), s.dev.sys.logicOn = true → isPair m = true → w.toNat.testBit
      31 = true → wordGet w 0 4 = 4 → s.dev.mode = .standby → s.dev.get SYS_MODE_PEND = 0 → s.dev.mustStop .armed =
      false → s.dev.get PSE_CFG_CLMPEN = 1 →
      Does (.modeRequest m w r) s fun t => t.mode = .armed ∧ t.get PSE_CLAMP_RCLMP = r.val ∧ (r.val = 0xFFFF → t.pend
          998 = true) ∧ (∀ a : Fin 64, s.dev.get (CSL_PORT_ST (a.val / 4) (a.val % 4)) = 1 → t.axSt a = .off →
          (t.portOf a).probeDue = true)) ∧
  (∀ (s : State) (p : Fin 5) (w : Word) (r : Fin 65536), s.dev.sys.logicOn = true → w.toNat.testBit 31 = true →
      wordGet w 0 4 = 3 → s.dev.modeRefusal .standby = 0 → s.dev.mustStop .standby = false → s.dev.mode = .safe →
      s.dev.pairLost = true →
      Does (.modeRequest (.pair p) w r) s fun t => t.mode = .degraded ∧ t.get SYS_MODE_PREV = 10 ∧ t.pend 1015 = true) ∧
  (∀ (s : State) (p : Fin 5) (w : Word) (r : Fin 65536) (k : Mode), s.dev.sys.logicOn = true → w.toNat.testBit 31 =
      true → Mode.ofCode (wordGet w 0 4) = some k → s.dev.modeRefusal k = 0 → s.dev.mustStop k = true →
      Does (.modeRequest (.pair p) w r) s fun t => t.mode = s.dev.mode ∧ t.get SYS_MODE_PEND = 1 ∧ t.get
          SYS_MODE_TARGET = k.code ∧ t.sys.pendSince = some s.dev.now ∧ t.sys.autoPend = false) ∧
  (∀ (s : State) (p : Fin 5) (w : Word) (r : Fin 65536) (k : Mode), s.dev.sys.logicOn = true → w.toNat.testBit 31 =
      true → Mode.ofCode (wordGet w 0 4) = some k → 0 < s.dev.modeRefusal k →
      Does (.modeRequest (.pair p) w r) s fun t => t.mode = s.dev.mode ∧ t.get SYS_MODE_REFUSE = s.dev.modeRefusal k ∧
          t.get SYS_MODE_PEND = s.dev.get SYS_MODE_PEND ∧ (∀ a : Fin 64, t.axSt a = s.dev.axSt a) ∧ (submitCode
          { typ := 2 } false false (s.dev.put SYS_MODE_REFUSE (s.dev.modeRefusal k)) = 0 → t.jnl.queue =
          s.dev.jnl.queue ++
          [{ body := { typ := 2, srck := 0, payload := [SYS_MODEREQ, s.dev.modeRefusal k], time := s.dev.now, pair := s.dev.sup }, from_ := some s.dev.sup }])
          ∧ t = { s.dev with regs := t.regs, jnl := t.jnl, evs := t.evs }) ∧
  (∀ (s : State) (p : Fin 5) (w : Word) (r : Fin 65536), s.dev.sys.logicOn = true → w.toNat.testBit 31 = true → 12 ≤
      wordGet w 0 4 →
      Does (.modeRequest (.pair p) w r) s fun t => t.mode = s.dev.mode ∧ t.get SYS_MODE_REFUSE = 1 ∧ t =
          { s.dev with regs := t.regs, jnl := t.jnl, evs := t.evs }) ∧
  (∀ (s : State) (m : Master) (w : Word) (r : Fin 65536), s.dev.sys.logicOn = true → w.toNat.testBit 31 = false →
      Does (.modeRequest m w r) s fun t => t = s.dev) ∧
  (∀ (s : State) (v : Bool), s.dev.sys.logicOn = true → s.dev.mode = (if v then .standby else .service) → s.dev.get
      SYS_MODE_PEND = 0 → (∀ a : Fin 64, (s.dev.axSt a).atRest = true) →
      Does (.consoleModeRequest v) s fun t => (t.mode = (if v then .service else .standby)) ∧ (t.get SYS_MODE_PREV =
          (if v then 3 else 8)) ∧ t.pend 1015 = true) ∧
  (∀ (s : State) (v : Bool), s.dev.sys.logicOn = true → s.dev.mode = .lockout →
      Does (.consoleModeRequest v) s fun t => t.mode = .lockout ∧ t.get SYS_MODE_REFUSE = 1 ∧ t =
          { s.dev with regs := t.regs, jnl := t.jnl, evs := t.evs }) ∧
  (∀ (s : State) (r : Fin 65536) (k : Mode), s.dev.sys.logicOn = true → s.dev.get SYS_MODE_PEND = 1 → (∀ a : Fin 64,
      (s.dev.axSt a).atRest = true) → s.dev.sys.autoPend = false → s.dev.get SYS_MODE_TARGET = k.code → k ≠ .dormant →
      s.dev.mode ≠ .safe →
      Does (.modeChangeComplete r) s fun t => t.mode = k ∧ t.get SYS_MODE_PREV = s.dev.mode.code ∧ t.get SYS_MODE_PEND
          = 0 ∧ t.pend 1015 = true) ∧
  (∀ (s : State) (r : Fin 65536), s.dev.sys.logicOn = true → s.dev.get SYS_MODE_PEND = 1 → (∀ a : Fin 64, (s.dev.axSt
      a).atRest = true) → s.dev.sys.autoPend = true → (s.dev.mode = .run ∨ s.dev.mode = .service ∨ s.dev.mode =
      .degraded) →
      Does (.modeChangeComplete r) s fun t => t.mode = .safe ∧ t.get SYS_MODE_PREV = s.dev.mode.code ∧ t.get
          SYS_MODE_PEND = 0 ∧ t.pend 1015 = true) ∧
  (∀ (s : State) (r : Fin 65536) (a : Fin 64), s.dev.sys.logicOn = true → (s.dev.axSt a).atRest = false →
      Does (.modeChangeComplete r) s fun t => t = s.dev) ∧
  (∀ (s : State) (k : Nat), s.dev.sys.logicOn = true → s.dev.sys.pendSince = some k → s.dev.get SYS_MODE_PEND = 1 →
      s.dev.sys.autoPend = false → k + max 1 (s.dev.get SYS_STOPTO_MS) * 200000 ≤ s.dev.now →
      Does (.stopTimeout) s fun t => t.mode = s.dev.mode ∧ t.get SYS_MODE_PEND = 0 ∧ t.get SYS_MODE_REFUSE = 6 ∧
          t.sys.pendSince = none ∧ (∀ a : Fin 64, t.axSt a = s.dev.axSt a) ∧ t =
          { s.dev with regs := t.regs, sys := t.sys, jnl := t.jnl, evs := t.evs }) ∧
  (∀ (s : State) (k : Nat), s.dev.sys.logicOn = true → s.dev.sys.pendSince = some k → s.dev.now < k + max 1 (s.dev.get
      SYS_STOPTO_MS) * 200000 →
      Does (.stopTimeout) s fun t => t = s.dev) ∧
  (∀ (s : State) (a : Fin 64), s.dev.sys.logicOn = true → s.dev.axSt a = .hiz → s.dev.lowest a = a.val → (∀ k ∈
      s.dev.members a, ∃ x ∈ (s.dev.sixOf k).bemfLow, x + 2000000 ≤ s.dev.now) →
      Does (.hizTimeout a) s fun t => (∀ k ∈ s.dev.members a, t.axSt k = .off) ∧ t.pend (12 * a.val + 10) = true ∧
          t.get (CU_STATE_PREV a) = 2) ∧
  (∀ (s : State) (a : Fin 64), s.dev.sys.logicOn = true → ((s.dev.sixOf a).bemfLow = none ∨ s.dev.axSt a ≠ .hiz) →
      s.dev.members a = [a.val] →
      Does (.hizTimeout a) s fun t => t = s.dev)

/-- DORMANT is entered by itself after SYS_DLY seconds; at the end of entry the logic domain goes off, or wakes at
once when a source was latched. An enabled wake source resets the device to SELFTEST with device time resumed, its
source recorded and every axis ABSENT; a disabled one is ignored. A power-on reset and the end of hold-up do so with
their reset causes, and set PORSEEN when LATCH is set. A warm reset, with its key and every axis at rest, keeps device
time, slots and axis states; it is refused otherwise. SELFTEST ends in the first mode its outcomes name. A sequencer
disagreement releases every bridge, latches LOCKOUT and drives FAULT_N; only the console with the serial number
releases it, after PORSEEN. (R62, R63, R96, R102, R103, R105, R106, R107) -/
def Obligations.DormantAndResets : Prop :=
  (∀ (s : State) (k : Nat), s.dev.sys.logicOn = true → s.dev.sys.autoSince = some k → s.dev.get SYS_DLY_SEC ≠ 0 → k +
      s.dev.get SYS_DLY_SEC * 200000000 ≤ s.dev.now →
      DoesMem (.dormantAuto) s ((enterDormant true 5 (s.dev, s.mem)).2) fun t => t.mode = .dormant ∧ t.sys.wakeLatch =
          0 ∧ t.pend 1015 = true ∧ (s.dev.jnlOpen = true → t.get JNL_STAT_MODE = 4)) ∧
  (∀ (s : State) (k : Nat), s.dev.sys.logicOn = true → s.dev.sys.autoSince = some k → (s.dev.get SYS_DLY_SEC = 0 ∨
      s.dev.now < k + s.dev.get SYS_DLY_SEC * 200000000) →
      Does (.dormantAuto) s fun t => t = s.dev) ∧
  (∀ (s : State) (b : Bool), s.dev.sys.logicOn = true → s.dev.mode = .dormant → s.dev.sys.wakeLatch = 0 →
      Does (.dormantEntryDone b) s fun t => t.sys.logicOn = false ∧ t.timeOn = false ∧ t.sys.aon = true ∧ t.now =
          s.dev.now ∧ t.mode = .dormant ∧ t.get PSE_STAT_INA = 0 ∧ t.get PSE_STAT_INB = 0 ∧ t.get TRU_STAT_PLLALK = 0
          ∧ t.sys.slots = maskOf ((List.range 16).filter s.dev.present)) ∧
  (∀ (s : State) (b : Bool), s.dev.sys.logicOn = true → s.dev.mode = .dormant → 0 < s.dev.sys.wakeLatch →
      DoesMem (.dormantEntryDone b) s ((wakeUp s.dev.sys.wakeLatch b (s.dev, s.mem)).2) fun t => t.sys.logicOn = true
          ∧ t.mode = .selftest ∧ t.now = s.dev.now ∧ t.reg SYS_WAKESRC = w32 s.dev.sys.wakeLatch ∧ t.reg SYS_RCAUSE =
          2 ∧ (b = false → t.get JNL_STAT_MODE = 5)) ∧
  (∀ (s : State) (n : Fin 256) (b : Bool), s.dev.sys.logicOn = false → s.dev.mode = .dormant → s.dev.wakeEnabled n ≠ 0
      →
      DoesMem (.wake n b) s ((wakeUp (s.dev.sys.wakeLatch ||| s.dev.wakeEnabled n) b (s.dev, s.mem)).2) fun t =>
          t.sys.logicOn = true ∧ t.mode = .selftest ∧ t.now = s.dev.now ∧ t.reg SYS_WAKESRC = w32
          (s.dev.sys.wakeLatch ||| s.dev.wakeEnabled n) ∧ t.reg SYS_RCAUSE = 2 ∧ t.reg TRU_FCORR = s.dev.reg TRU_FCORR
          ∧ t.reg SYS_LOCK = s.dev.reg SYS_LOCK ∧ t.reg SYS_WAKEEN = s.dev.reg SYS_WAKEEN ∧ (∀ a : Fin 64, t.axSt a =
          .absent) ∧ t.sys.full = (s.dev.get SYS_WAKEEN_FULLBIST ≠ 0 : Bool)) ∧
  (∀ (s : State) (n : Fin 256), s.dev.sys.logicOn = false → s.dev.mode = .dormant → s.dev.wakeEnabled n ≠ 0 →
      DoesMem (.wake n false) s (keepStore s.mem) fun t => t.get JNL_STAT_MODE = 5) ∧
  (∀ (s : State) (n : Fin 256) (b : Bool), s.dev.sys.logicOn = true → s.dev.mode = .dormant → s.dev.wakeEnabled n ≠ 0
      →
      Does (.wake n b) s fun t => t.sys.wakeLatch = s.dev.sys.wakeLatch ||| s.dev.wakeEnabled n ∧ t.mode = .dormant ∧
          t = { s.dev with sys := t.sys }) ∧
  (∀ (s : State) (n : Fin 256) (b : Bool), (s.dev.mode ≠ .dormant ∨ s.dev.wakeEnabled n = 0) →
      Does (.wake n b) s fun t => t = s.dev) ∧
  (∀ (s : State) (a : Fin 64) (l : Bool), s.dev.sys.logicOn = false → s.dev.mode = .dormant → s.dev.sys.slots.testBit
      (a.val / 4) = true → s.dev.sys.motorPins.testBit a.val = !l → s.dev.get SYS_WAKEEN_MOTOR = 1 →
      s.dev.sys.wakeLatch = 0 →
      DoesMem (.motorWakeTest a l false) s (keepStore s.mem) fun t => t.mode = .selftest ∧ t.reg SYS_WAKESRC = 0x40 ∧
          t.sys.logicOn = true) ∧
  (∀ (s : State) (a : Fin 64) (l b : Bool), s.dev.sys.logicOn = false → s.dev.mode = .dormant →
      s.dev.sys.slots.testBit (a.val / 4) = true → s.dev.sys.motorPins.testBit a.val = !l → s.dev.get SYS_WAKEEN_MOTOR
      = 0 →
      Does (.motorWakeTest a l b) s fun t => t.sys.motorPins.testBit a.val = l ∧ t.mode = .dormant ∧ t =
          { s.dev with sys := t.sys }) ∧
  (∀ (s : State) (a : Fin 64) (l b : Bool), s.dev.sys.motorPins.testBit a.val = l →
      Does (.motorWakeTest a l b) s fun t => t = s.dev) ∧
  (∀ (s : State) (v b : Bool), s.dev.sys.logicOn = false →
      DoesMem (.powerOnReset v b) s ((powerOn (if v then .main else .backup) b (s.dev, s.mem)).2) fun t =>
          t.sys.logicOn = true ∧ t.mode = .selftest ∧ (t.get PSE_STAT_SRC = (if v then 1 else 2)) ∧ (t.now = (if
          s.dev.sys.aon then s.dev.now else 0)) ∧ (∀ a : Fin 64, t.axSt a = .absent) ∧ t.get SYS_RCAUSE_POR = 1 ∧
          (t.get SYS_RCAUSE_HOLDUP = (if s.dev.get PSE_STAT_HOLDUP ≠ 0 ∧ s.dev.sys.aon then 1 else 0)) ∧
          (s.dev.sys.aon → s.dev.get SYS_LOCK_LATCH = 1 → t.get SYS_LOCK_LATCH = 1 ∧ t.get SYS_LOCK_PORSEEN = 1 ∧
          t.get SYS_LOCK_CAUSE = s.dev.get SYS_LOCK_CAUSE) ∧ (s.dev.sys.aon = false → t.get SYS_LOCK_LATCH =
          s.dev.lockRecord / 2 ^ 31 % 2 ∧ (t.get SYS_LOCK_LATCH = 1 → t.get SYS_LOCK_PORSEEN = 1 ∧ t.get
          SYS_LOCK_CAUSE = s.dev.lockRecord % 256))) ∧
  (∀ (s : State) (v : Bool), s.dev.sys.logicOn = false →
      DoesMem (.powerOnReset v false) s (keepStore s.mem) fun t => t.get JNL_STAT_MODE = 5 ∧ t.sys.jnlOk = false) ∧
  (∀ (s : State) (v b : Bool), s.dev.sys.logicOn = true → (s.dev.mode ≠ .selftest ∨ s.dev.timeOn = true) →
      Does (.powerOnReset v b) s fun t => t = s.dev) ∧
  (∀ (s : State), s.dev.sys.logicOn = false →
      Does (.alwaysOnLoss) s fun t => t.now = 0 ∧ t.sys = { s.dev.sys with aon := false } ∧ t =
          { s.dev with now := t.now, sys := t.sys }) ∧
  (∀ (s : State), s.dev.sys.logicOn = true →
      Does (.alwaysOnLoss) s fun t => t = s.dev) ∧
  (∀ (s : State) (b : Bool), s.dev.sys.logicOn = true → s.dev.get PSE_STAT_HOLDUP = 1 → s.dev.pse.holdAt + 2400000 ≤
      s.dev.now →
      Does (.holdupEnd .none_ b) s fun t => t.sys.logicOn = false ∧ t.timeOn = false ∧ t.sys.aon = true ∧ t.now =
          s.dev.now ∧ t.get PSE_STAT_INA = 0 ∧ t.get PSE_STAT_INB = 0 ∧ t.mode = s.dev.mode) ∧
  (∀ (s : State) (v b : Bool), s.dev.sys.logicOn = true → s.dev.get PSE_STAT_HOLDUP = 1 → s.dev.pse.holdAt + 2400000 ≤
      s.dev.now →
      DoesMem (.holdupEnd (if v then .main else .backup) b) s ((powerOn (if v then .main else .backup) b (logicOff
          s.dev, s.mem)).2) fun t => t.sys.logicOn = true ∧ t.mode = .selftest ∧ t.now = s.dev.now ∧ t.reg SYS_RCAUSE
          = 0x11 ∧ (t.get PSE_STAT_SRC = (if v then 1 else 2))) ∧
  (∀ (s : State) (v : Supply) (b : Bool), s.dev.sys.logicOn = true → (s.dev.get PSE_STAT_HOLDUP = 0 ∨ s.dev.now <
      s.dev.pse.holdAt + 2400000) →
      Does (.holdupEnd v b) s fun t => t = s.dev) ∧
  (∀ (s : State) (b : SelfTest), s.dev.sys.logicOn = true → s.dev.mode = .selftest → s.dev.timeOn = true →
      let passes := fun (p : Fin 5) => b.pairOk.val.testBit p = true ∧ firmwareSlot p (s.dev, s.mem) ≠ none
      ∃ u, exec (.selftestEnd b) s = .next u ∧ u.pending = s.pending ∧
      (∀ k, k < 0x100000000 → memGet u.mem k = memGet s.mem k) ∧
      u.dev.pend 1015 = true ∧ (∀ p : Fin 5, u.dev.bit SYS_BOOT p = true ↔ passes p) ∧
      u.dev.get SYS_BOOT_BTIME = min 255 b.ms ∧
      (b.ssqOk = false → u.dev.mode = .lockout ∧ (s.dev.get SYS_LOCK_LATCH = 0 → u.dev.get SYS_LOCK_CAUSE = 2)) ∧
      (s.dev.get SYS_LOCK_LATCH = 1 → u.dev.mode = .lockout ∧ u.dev.get SYS_LOCK_CAUSE = s.dev.get SYS_LOCK_CAUSE) ∧
      (b.ssqOk = true → s.dev.get SYS_LOCK_LATCH = 0 →
        ((∀ p, ¬ passes p) → u.dev.mode = .lockout ∧ u.dev.get SYS_LOCK_CAUSE = 3 ∧ u.dev.get SYS_LOCK_LATCH = 1) ∧
        ((∃ p q : Fin 4, p ≠ q ∧ ¬ passes p.castSucc ∧ ¬ passes q.castSucc) → (∃ p, passes p) → u.dev.mode =
            .degraded) ∧
        ((∀ p : Fin 4, passes p.castSucc) → ((b.ramOk = false ∨ s.dev.sys.jnlOk = false) → u.dev.mode = .safe) ∧
          (b.ramOk = true → s.dev.sys.jnlOk = true → u.dev.mode = (if s.dev.formeValid then .standby else .configure))
              ∧
          ∀ a : Fin 64, u.dev.host a = a.val / 16)) ∧
      (u.dev.mode ≠ .standby → u.dev.mode ≠ .configure → u.dev.pend 1017 = true) ∧ (b.capOk = false → u.dev.pend 1017
          = true)) ∧
  (∀ (s : State) (p : Fin 5) (w : Word), s.dev.sys.logicOn = true → wordGet w 24 8 = 0xC5 → w.toNat.testBit 0 = true →
      s.dev.warmRefused = false → s.dev.jnlOpen = false → s.dev.get JNL_STAT_MODE ≠ 3 →
      DoesMem (.warmReset (.pair p) w false) s (keepWarm s.mem) fun t => t.mode = .selftest ∧ t.now = s.dev.now ∧
          t.reg SYS_RCAUSE = 4 ∧ (∀ a : Fin 64, t.axSt a = s.dev.axSt a) ∧ t.reg TRU_FCORR = s.dev.reg TRU_FCORR ∧
          t.slots = s.dev.slots ∧ t.reg PSE_CREDIT = s.dev.reg PSE_CREDIT ∧ (∀ p : Fin 5, t.pairOf p = {}) ∧ t.get
          JNL_STAT_MODE = 5) ∧
  (∀ (s : State) (p : Fin 5) (w : Word) (b : Bool), s.dev.sys.logicOn = true → wordGet w 24 8 = 0xC5 → w.toNat.testBit
      0 = true → s.dev.warmRefused = false →
      DoesMem (.warmReset (.pair p) w b) s ((Machine.warmReset 4 false b (s.dev, s.mem)).2) fun t => t.mode =
          .selftest ∧ t.now = s.dev.now ∧ t.reg SYS_RCAUSE = 4 ∧ (∀ a : Fin 64, t.axSt a = s.dev.axSt a) ∧ t.sys.full
          = (s.dev.get SYS_WAKEEN_FULLBIST ≠ 0 : Bool)) ∧
  (∀ (s : State) (p : Fin 5) (w : Word) (b : Bool), s.dev.sys.logicOn = true → wordGet w 24 8 = 0xC5 → w.toNat.testBit
      0 = true → s.dev.warmRefused = true →
      Does (.warmReset (.pair p) w b) s fun t => t.mode = s.dev.mode ∧ t =
          { s.dev with regs := t.regs, jnl := t.jnl, evs := t.evs } ∧ sameRegs s.dev t ((JNL_RES s.dev.sup :: JNL_EVT
          :: evRegs 976))) ∧
  (∀ (s : State) (m : Master) (w : Word) (b : Bool), s.dev.sys.logicOn = true → (wordGet w 24 8 ≠ 0xC5 ∨
      w.toNat.testBit 0 = false) →
      Does (.warmReset m w b) s fun t => t = s.dev) ∧
  (∀ (s : State) (b : Bool), s.dev.sys.logicOn = true → s.dev.warmRefused = false →
      DoesMem (.consoleWarmReset b) s ((Machine.warmReset 8 false b (s.dev, s.mem)).2) fun t => t.mode = .selftest ∧
          t.now = s.dev.now ∧ t.reg SYS_RCAUSE = 8 ∧ (∀ a : Fin 64, t.axSt a = s.dev.axSt a) ∧ (∀ q : Fin 16, t.get
          (CSL_STAT_STATE q) = (if s.dev.get (CSL_STAT_STATE q) = 4 ∧ s.dev.present q then 2 else s.dev.get
          (CSL_STAT_STATE q)))) ∧
  (∀ (s : State) (b : Bool), s.dev.sys.logicOn = true → s.dev.warmRefused = true →
      Does (.consoleWarmReset b) s fun t => t.mode = s.dev.mode ∧ t =
          { s.dev with regs := t.regs, jnl := t.jnl, evs := t.evs } ∧ sameRegs s.dev t ((JNL_RES s.dev.sup :: JNL_EVT
          :: evRegs 976))) ∧
  (∀ (s : State), s.dev.sys.logicOn = true → s.dev.mode ≠ .dormant →
      Does (.ssqXchk) s fun t => t.mode = .lockout ∧ t.get SYS_LOCK_LATCH = 1 ∧ (s.dev.get SYS_LOCK_LATCH = 0 → t.get
          SYS_LOCK_CAUSE = 1 ∧ t.get SYS_LOCK_PORSEEN = 0) ∧ t.get FLT_STAT_DRIVE = 1 ∧ t.get FLT_STAT_LEVEL = 1 ∧
          t.get PSE_STAT_INA = 0 ∧ t.get PSE_STAT_INB = 0 ∧ t.pend 901 = true ∧ (∀ a : Fin 64, t.bit (PWM_FLT a) 6 =
          true)) ∧
  (∀ (s : State) (b : Bool), s.dev.sys.logicOn = true → s.dev.mode = .lockout → s.dev.get SYS_LOCK_PORSEEN = 1 →
      DoesMem (.unlock ⟨Config.serialNumber % 1000000, Nat.mod_lt _ (by decide)⟩ b) s ((Machine.warmReset 0x20 true b
          (((journal 5 3 [SYS_LOCK] (lockRecord ((s.dev.put SYS_LOCK_LATCH 0).put SYS_LOCK_PORSEEN 0))).onSsq fun q =>
          { q with xfail := false }), s.mem)).2) fun t => t.mode = .selftest ∧ t.get SYS_LOCK_LATCH = 0 ∧ t.get
          SYS_LOCK_PORSEEN = 0 ∧ t.reg SYS_RCAUSE = 0x20 ∧ t.sys.full = true ∧ t.ssq.xfail = false ∧ t.now =
          s.dev.now) ∧
  (∀ (s : State) (k : Nat) (b : Bool), s.dev.sys.logicOn = true → 0 < k → k < 1000000 →
      Does (.unlock ⟨(Config.serialNumber + k) % 1000000, Nat.mod_lt _ (by decide)⟩ b) s fun t => t = s.dev) ∧
  (∀ (s : State) (n : Fin 1000000) (b : Bool), s.dev.sys.logicOn = true → (s.dev.mode ≠ .lockout ∨ s.dev.get
      SYS_LOCK_PORSEEN = 0) →
      Does (.unlock n b) s fun t => t = s.dev)

/-- A write of SYS_PEAL_CTL stores ACTION and LEAD, and with GO starts a peal: BUSY while one runs, NOT_HOST for an
empty mask, an action above 5 or a writer without the right, aborted with the refusing axes named when an axis votes
to refuse, else VOTING. After 100 µs without every vote it ends ABORTED_TIMEOUT with the axes not voted. At T_c every
axis not on its fault path starts its action: COAST brings an axis to HIZ or OFF, FORME marks the loops to switch; the
result is COMMITTED or MIXED, with PEAL_DONE. (R108, R109, R110, R111, R112, R113) -/
def Obligations.Peals : Prop :=
  (∀ (s : State) (p : Fin 5) (w : Word), s.dev.sys.logicOn = true → w.toNat.testBit 31 = false →
      Does (.pealStart (.pair p) w) s fun t => t.get SYS_PEAL_CTL_ACTION = wordGet w 16 4 ∧ t.get SYS_PEAL_CTL_LEAD =
          wordGet w 0 10 ∧ t = { s.dev with regs := t.regs } ∧ sameRegs s.dev t ([SYS_PEAL_CTL])) ∧
  (∀ (s : State) (p : Fin 5) (w : Word), s.dev.sys.logicOn = true → w.toNat.testBit 31 = true → s.dev.peal.running =
      true →
      Does (.pealStart (.pair p) w) s fun t => t.get SYS_PEAL_RES_RES = 6 ∧ t.get SYS_PEAL_CTL_ACTION = wordGet w 16 4
          ∧ t = { s.dev with regs := t.regs } ∧ sameRegs s.dev t ([SYS_PEAL_CTL, SYS_PEAL_RES])) ∧
  (∀ (s : State) (p : Fin 5) (w : Word), s.dev.sys.logicOn = true → w.toNat.testBit 31 = true → s.dev.peal.running =
      false → (axesOf s.dev.pealMask = [] ∨ 5 < wordGet w 16 4 ∨ (s.dev.sup ≠ p.val ∧ ∃ a ∈ axesOf s.dev.pealMask,
      s.dev.host a ≠ p.val)) →
      Does (.pealStart (.pair p) w) s fun t => t.get SYS_PEAL_RES_RES = 7 ∧ t.get SYS_PEAL_RES_NBAD = 0 ∧ t =
          { s.dev with regs := t.regs } ∧ sameRegs s.dev t ([SYS_PEAL_CTL, SYS_PEAL_RES])) ∧
  (∀ (s : State) (p : Fin 5) (w : Word), s.dev.sys.logicOn = true → w.toNat.testBit 31 = true → s.dev.peal.running =
      false → axesOf s.dev.pealMask ≠ [] → wordGet w 16 4 ≤ 5 → (s.dev.sup = p.val ∨ (∀ a ∈ axesOf s.dev.pealMask,
      s.dev.host a = p.val)) → (∀ a ∈ axesOf s.dev.pealMask, s.dev.pealRefuses (wordGet w 16 4) a = false) →
      Does (.pealStart (.pair p) w) s fun t => t.get SYS_PEAL_RES_RES = 1 ∧ t.peal =
          { running := true, mask := s.dev.pealMask, action := wordGet w 16 4, lead := max 2 (wordGet w 0 10), goAt := s.dev.now }
          ∧ t.mask64 SYS_PEAL_FLO SYS_PEAL_FHI = 0 ∧ t.mask64 SYS_PEAL_XLO SYS_PEAL_XHI = 0 ∧ t =
          { s.dev with regs := t.regs, peal := t.peal } ∧ sameRegs s.dev t ([SYS_PEAL_CTL, SYS_PEAL_RES, SYS_PEAL_FLO,
          SYS_PEAL_FHI, SYS_PEAL_XLO, SYS_PEAL_XHI])) ∧
  (∀ (s : State) (p : Fin 5) (w : Word), s.dev.sys.logicOn = true → w.toNat.testBit 31 = true → s.dev.peal.running =
      false → axesOf s.dev.pealMask ≠ [] → wordGet w 16 4 ≤ 5 → (s.dev.sup = p.val ∨ (∀ a ∈ axesOf s.dev.pealMask,
      s.dev.host a = p.val)) → (∃ a ∈ axesOf s.dev.pealMask, s.dev.pealRefuses (wordGet w 16 4) a = true) →
      Does (.pealStart (.pair p) w) s fun t => t.get SYS_PEAL_RES_RES = 3 ∧ t.peal.running = false ∧ t.pend 1016 =
          true ∧ (∀ a : Fin 64, (t.mask64 SYS_PEAL_FLO SYS_PEAL_FHI).testBit a = (s.dev.pealMask.testBit a &&
          s.dev.pealRefuses (wordGet w 16 4) a)) ∧ (∀ a : Fin 64, t.axSt a = s.dev.axSt a)) ∧
  (∀ (s : State), s.dev.sys.logicOn = true → s.dev.peal.running = true → s.dev.peal.tc = none → s.dev.peal.goAt +
      20000 ≤ s.dev.now →
      Does (.pealTimeout) s fun t => t.get SYS_PEAL_RES_RES = 4 ∧ t.peal.running = false ∧ t.pend 1016 = true ∧ (∀ a :
          Fin 64, (t.mask64 SYS_PEAL_FLO SYS_PEAL_FHI).testBit a = (s.dev.peal.mask.testBit a && !decide (s.dev.host a
          ∈ s.dev.peal.voted))) ∧ (∀ a : Fin 64, t.axSt a = s.dev.axSt a)) ∧
  (∀ (s : State), s.dev.sys.logicOn = true → (s.dev.peal.running = false ∨ s.dev.peal.tc ≠ none ∨ s.dev.now <
      s.dev.peal.goAt + 20000) →
      Does (.pealTimeout) s fun t => t = s.dev) ∧
  (∀ (s : State) (k : Nat), s.dev.sys.logicOn = true → s.dev.peal.running = true → s.dev.peal.tc = some k → k ≤
      s.dev.now →
      Does (.pealCommit) s fun t => (t.get SYS_PEAL_RES_RES = (if s.dev.peal.mixed = 0 then 2 else 5)) ∧ t.mask64
          SYS_PEAL_XLO SYS_PEAL_XHI = s.dev.peal.mixed % 2 ^ 64 ∧ t.peal.running = false ∧ t.pend 1016 = true ∧
          (s.dev.peal.action = 5 → ∀ a ∈ axesOf s.dev.peal.mask, s.dev.peal.mixed.testBit a = false → (t.engOf (a /
          8)).pealMask.testBit (a % 8) = true ∧ (t.engOf (a / 8)).pealAt = k)) ∧
  (∀ (s : State) (k : Nat) (a : Fin 64), s.dev.sys.logicOn = true → s.dev.peal.running = true → s.dev.peal.tc = some k
      → k ≤ s.dev.now → s.dev.peal.action = 2 → s.dev.peal.mask = 2 ^ a.val → s.dev.peal.mixed = 0 → s.dev.members a =
      [a.val] → s.dev.axSt a = .sixstep →
      Does (.pealCommit) s fun t => (t.axSt a = (if s.dev.turning a then .hiz else .off)) ∧ t.get SYS_PEAL_RES_RES = 2
          ∧ t.pend (12 * a.val + 10) = true) ∧
  (∀ (s : State), s.dev.sys.logicOn = true → (s.dev.peal.running = false ∨ s.dev.peal.tc = none) →
      Does (.pealCommit) s fun t => t = s.dev)

/-- An armed load takes the shadows at its capture instant and puts all of them into force at its period start, the
period clamped to 2,000 to 50,000 counts and PWM_LASTLD at the instant; a ceiling of the arbiter not yet taken up
comes into force; a load-all arms an unbonded axis at its first period start at least 8 counts ahead and no other
axis. (R74, R114, R115, R122, R123, R124) -/
def Obligations.PwmLoads : Prop :=
  (∀ (s : State) (m : Master) (a : Fin 64), s.dev.sys.logicOn = true → s.dev.ldRights m a = true → s.dev.members a =
      [a.val] → (s.dev.pwmOf a).armed = [] → s.dev.firstStart a (s.dev.now + 8) ≠ s.dev.now + 8 →
      Does (.loadAll m (decide (32 ≤ a.val)) (w32 (2 ^ (a.val % 32)))) s fun t => t.loadStart a = some
          (s.dev.firstStart a (s.dev.now + 8)) ∧ t.ldPend a = true ∧ (∀ b : Fin 64, b ≠ a → t.pwmOf b = s.dev.pwmOf b)
          ∧ t = { s.dev with pwm := t.pwm }) ∧
  (∀ (s : State) (a : Fin 64) (T : Nat), s.dev.sys.logicOn = true → s.dev.loadStart a = some T → T ≤ s.dev.now + 8 →
      (s.dev.pwmOf a).capt = none → (s.dev.pwmOf a).wr = none →
      Does (.loadCapture a) s fun t => (t.pwmOf a).capt = some (T, s.dev.shadows a) ∧ t.loadStart a ≠ some T ∧ (∀ b :
          Fin 64, b ≠ a → t.pwmOf b = s.dev.pwmOf b) ∧ t = { s.dev with pwm := t.pwm }) ∧
  (∀ (s : State) (a : Fin 64) (T p o u v w c b g h : Nat), s.dev.sys.logicOn = true → s.dev.timeOn = true →
      s.dev.members a = [a.val] → s.dev.axSt a = .off → s.dev.ssq.mig = none → s.dev.ssq.moves = [] → (s.dev.pwmOf
      a).bridge = none → (s.dev.pwmOf a).armed = [] → (s.dev.pwmOf a).capt = some (T, [p, o, u, v, w, c, b, g, h]) → T
      ≤ s.dev.now → (s.dev.pwmOf a).refDue = 0 → s.dev.cnt a s.dev.now = 0 →
      Does (.periodStart a) s fun t => t.get (PWM_APO_PER a) = clampPer (p % 65536) ∧ t.get (PWM_APO_OFS a) = o %
          65536 ∧ t.get (PWM_ACMPUV_CMPU a) = u % 65536 ∧ t.get (PWM_ACMPUV_CMPV a) = v % 65536 ∧ t.get
          (PWM_ACMPWD_CMPW a) = w % 65536 ∧ t.get (PWM_ACMPWD_CMPD a) = c % 65536 ∧ t.get (PWM_ATRIM_TRIM a) = b %
          4096 ∧ (t.pwmOf a).trig0 = g ∧ (t.pwmOf a).trig1 = h ∧ t.get (PWM_LASTLD_T a) = s.dev.now % 2 ^ 32 ∧
          t.ldPend a = false ∧ (p % 65536 < 2000 → t.get (PWM_STAT_PERCLIP a) = 1) ∧ (∀ k, tget none s.dev.pse.sent a
          = some k → t.get (CU_IDC_CEIL a) = k % 65536 ∧ tget none t.pse.sent a = none))

/-- A high gate on for MAXON asks for a refresh at the next period start; a trigger announces its request ANN counts
before POS and issues it at POS to its cluster; desaturation, over-current and a gate-supply fault latch DESAT, OC and
GSUV, raise their events and take a present axis to FAULT. (R121, R128, R129, R130, R133) -/
def Obligations.PwmGates : Prop :=
  (∀ (s : State) (a : Fin 64), s.dev.sys.logicOn = true → s.dev.members a = [a.val] → s.dev.refreshDue a ≠ 0 →
      Does (.bootstrapRefresh a) s fun t => (t.pwmOf a).refDue = (s.dev.pwmOf a).refDue ||| s.dev.refreshDue a ∧ (∀ b
          : Fin 64, b ≠ a → t.pwmOf b = s.dev.pwmOf b) ∧ t = { s.dev with pwm := t.pwm }) ∧
  (∀ (s : State) (a : Fin 64) (n : Fin 2), s.dev.sys.logicOn = true → s.dev.present (a.val / 4) = true → s.dev.trigOn
      a n = true → s.dev.bridging a s.dev.now = none → s.dev.bridging a (s.dev.now + s.dev.trigAnn a n) = none →
      s.dev.cnt a (s.dev.now + s.dev.trigAnn a n) = s.dev.trigPos a n →
      Does (.triggerAnnounce a n) s fun t => ((t.cluOf (a.val / 4)).ann = (s.dev.cluOf (a.val / 4)).ann ++
          [{ pos := a.val % 4, src := if n = 0 then .trig0 else .trig1, tr := s.dev.now + s.dev.trigAnn a n, annAt := s.dev.now }])
          ∧ t = { s.dev with clu := t.clu }) ∧
  (∀ (s : State) (a : Fin 64) (n : Fin 2), s.dev.sys.logicOn = true → s.dev.present (a.val / 4) = true → s.dev.trigOn
      a n = true → s.dev.bridging a s.dev.now = none → s.dev.cnt a s.dev.now = s.dev.trigPos a n →
      Does (.triggerFire a n) s fun t => ((t.cluOf (a.val / 4)).reqs = (s.dev.cluOf (a.val / 4)).reqs ++
          [{ pos := a.val % 4, src := if n = 0 then .trig0 else .trig1, tr := s.dev.now }]) ∧ (∀ q : Fin 16, q.val ≠
          a.val / 4 → t.cluOf q = s.dev.cluOf q) ∧ t = { s.dev with clu := t.clu }) ∧
  (∀ (s : State) (a : Fin 64), s.dev.sys.logicOn = true → s.dev.axSt a ≠ .absent →
      Does (.desaturation a) s fun t => t.get (PWM_FLT_DESAT a) = 1 ∧ t.pend (832 + 2 * (a.val / 4)) = true ∧ t.axSt a
          = .fault) ∧
  (∀ (s : State) (a : Fin 64) (iu iw : Int), s.dev.sys.logicOn = true → s.dev.axSt a ≠ .absent → clampN 50 499
      (s.dev.get (PWM_OCTRIP_TRIP a)) < iu.natAbs →
      Does (.overcurrent a iu iw) s fun t => t.get (PWM_FLT_OC a) = 1 ∧ t.get (PWM_FLT_OCPH a) % 2 = 1 ∧ t.pend (12 *
          a.val + 4) = true ∧ t.axSt a = .fault) ∧
  (∀ (s : State) (a : Fin 64), s.dev.sys.logicOn = true → s.dev.axSt a ≠ .absent →
      Does (.gateSupplyFault a) s fun t => t.get (PWM_FLT_GSUV a) = 1 ∧ t.pend (832 + 2 * (a.val / 4)) = true ∧ t.axSt
          a = .fault) ∧
  (∀ (s : State) (a : Fin 64) (w : Word), s.dev.sys.logicOn = true → s.dev.asserted a = 0 →
      Does (.pwmFltClear .debug a w) s fun t => t.get ⟨PWM_FLT a, 0, 8⟩ = s.dev.get ⟨PWM_FLT a, 0, 8⟩ &&& (255 -
          w.toNat % 256))

/-- A valid gate frame puts the gate states into effect and restarts the watchdog, a bad one leaves them and is
counted; a valid status frame shows its flags, a bad one is discarded; an idle frame leaves for a present cartridge;
100 ns without a valid gate frame release every gate of the quad and latch LINK; 16 failures of one direction in 1 ms
fault the quad. (R15, R16, R17) -/
def Obligations.CartridgeLink : Prop :=
  (∀ (s : State) (q : Fin 16), s.dev.sys.logicOn = true → s.dev.present q = true →
      Does (.gateFrame q true) s fun t => (t.linkOf q).validAt = s.dev.now ∧ (t.linkOf q).badUp = (s.dev.linkOf
          q).badUp ∧ t = { s.dev with pwm := t.pwm, link := t.link }) ∧
  (∀ (s : State) (q : Fin 16), s.dev.sys.logicOn = true → s.dev.present q = true →
      Does (.gateFrame q false) s fun t => (t.linkOf q).validAt = (s.dev.linkOf q).validAt ∧ s.dev.now ∈ (t.linkOf
          q).badDown ∧ (∀ a : Fin 64, (t.pwmOf a).gates = (s.dev.pwmOf a).gates) ∧ t =
          { s.dev with pwm := t.pwm, link := t.link }) ∧
  (∀ (s : State) (q desat oc gsuv : Fin 16) (fuse hot : Bool), s.dev.sys.logicOn = true → s.dev.present q = true →
      Does (.statusFrame q desat oc gsuv fuse hot true) s fun t => (t.linkOf q).fuse = fuse ∧ (t.linkOf q).hot = hot ∧
          t = { s.dev with pwm := t.pwm, link := t.link }) ∧
  (∀ (s : State) (q desat oc gsuv : Fin 16) (fuse hot : Bool), s.dev.sys.logicOn = true → s.dev.present q = true →
      Does (.statusFrame q desat oc gsuv fuse hot false) s fun t => (t.linkOf q).fuse = (s.dev.linkOf q).fuse ∧
          s.dev.now ∈ (t.linkOf q).badUp ∧ t = { s.dev with link := t.link }) ∧
  (∀ (s : State) (q : Fin 16), s.dev.sys.logicOn = true → s.dev.present q = true →
      Does (.gateRefresh q) s fun t => (t.linkOf q).sentAt = s.dev.now ∧ t = { s.dev with link := t.link }) ∧
  (∀ (s : State) (q : Fin 16), s.dev.sys.logicOn = true → s.dev.present q = true → (s.dev.linkOf q).validAt + 20 ≤
      s.dev.now →
      Does (.linkWatchdog q) s fun t => (∀ p : Fin 4, t.get (PWM_FLT_LINK (4 * q.val + p.val)) = 1) ∧ (∀ p : Fin 4,
          (t.pwmOf (4 * q.val + p.val)).gates = 0) ∧ t.pend (833 + 2 * q.val) = true) ∧
  (∀ (s : State) (q : Fin 16), s.dev.sys.logicOn = true → 16 ≤ ((s.dev.linkOf q).badUp.filter fun x => s.dev.now < x +
      200000).length → (∀ p : Fin 4, s.dev.axSt (4 * q.val + p.val) ≠ .absent) →
      Does (.linkErrorRate q) s fun t => (∀ p : Fin 4, t.axSt (4 * q.val + p.val) = .fault) ∧ t.pend (833 + 2 * q.val)
          = true)

/-- A pass start of a serving converter latches its entries and, after a write of CTL, HKDIV; a sequence frame writes
the corrected value, its channel and its sampling instant, 17 counts before; a housekeeping slot converts the next
channel of its cycle. (R136, R138, R140, R142, R16) -/
def Obligations.ConversionResults : Prop :=
  (∀ (s : State) (q : Fin 16) (x : Fin 2), s.dev.sys.logicOn = true → s.dev.present q = true → s.dev.away q = none →
      s.dev.holdFree q x s.dev.now = true → s.dev.get (AC_CTL_INTLV q) = 0 → s.dev.get (AC_STAT_INTLV q) = 0 →
      Does (.passStart q x) s fun t => ((t.cluOf q).conv x).seq = (s.dev.seqRegs q x).take (s.dev.seqLen q x) ∧
          (((t.cluOf q).conv x).pass = (if ((s.dev.cluOf q).conv x).ctlWr then 1 else ((s.dev.cluOf q).conv x).pass +
          1)) ∧ (((s.dev.cluOf q).conv x).ctlWr = true → ((t.cluOf q).conv x).hkd = s.dev.get (AC_CTL_HKDIV q)) ∧
          ((t.cluOf q).conv x).seqOld = ((s.dev.cluOf q).conv x).seq ∧ t = { s.dev with regs := t.regs, clu := t.clu }
          ∧ sameRegs s.dev t ([AC_STAT q])) ∧
  (∀ (s : State) (q : Fin 16) (x : Fin 2) (n : Fin 32) (raw : Fin 16384) (ch : Nat), s.dev.sys.logicOn = true →
      s.dev.present q = true → s.dev.get (AC_STAT_INTLV q) = 0 → s.dev.entryCh q x n (s.dev.now - 17) = some ch → ch <
      64 → (32 ≤ ch ∨ ch % 8 ≤ 1) →
      Does (.sampleFrame q (.seq x n) raw true) s fun t => wordGet (t.reg (AC_RSLT q x n)) 14 6 = ch ∧ wordGet (t.reg
          (AC_RSLT q x n)) 0 14 = ux 14 (s.dev.corrected q x ch raw (s.dev.now - 17)).1 ∧ tget none t.stamp (AC_RSLT q
          x n) = some (s.dev.now - 17) ∧ t.get (AC_RTS_T q x n) = (s.dev.now - 17) % 2 ^ 32 ∧ t =
          { s.dev with regs := t.regs, stamp := t.stamp, six := t.six } ∧ sameRegs s.dev t ([AC_RSLT q x n, AC_RTS q x
          n])) ∧
  (∀ (s : State) (q : Fin 16) (dest : SampleDest) (raw : Fin 16384), s.dev.sys.logicOn = true → s.dev.present q = true
      →
      Does (.sampleFrame q dest raw false) s fun t => sameRegs s.dev t [] ∧ t.stamp = s.dev.stamp ∧ t =
          { s.dev with clu := t.clu, six := t.six, link := t.link }) ∧
  (∀ (s : State) (q : Fin 16) (raw : Fin 16384), s.dev.sys.logicOn = true → s.dev.present q = true → s.dev.hkDue q 0 =
      true → ((s.dev.cluOf q).conv 0).hk = 1 →
      Does (.housekeepingSlot q 0 raw true) s fun t => wordGet (t.reg (AC_HK q 0 1)) 14 6 = 33 ∧ wordGet (t.reg (AC_HK
          q 0 1)) 0 14 = ux 14 (s.dev.corrected q 0 33 raw (s.dev.now - 17)).1 ∧ ((t.cluOf q).conv 0).hk = 2 ∧ t =
          { s.dev with regs := t.regs, stamp := t.stamp, clu := t.clu, evs := t.evs } ∧ sameRegs s.dev t ((AC_HK q 0 1
          :: AC_STAT q :: AC_EVT q :: evRegs (771 + 4 * q.val))))

/-- A DTC tick announces and issues its request 20 counts ahead; a request that was announced in time while its
converters are free opens its windows, one that was not announced is dropped and counted with cause 1; the drops of a
1 ms window raise ADC_DROP at the threshold. (R143, R144, R145, R146) -/
def Obligations.UrgentRequests : Prop :=
  (∀ (s : State) (a : Fin 64), s.dev.sys.logicOn = true → s.dev.lowest a = a.val → s.dev.present (a.val / 4) = true →
      s.dev.ticking a = true → s.dev.onTick a (s.dev.now + 20) = true →
      Does (.urgentAnnounce a true) s fun t => (t.cluOf (a.val / 4)).reqs = (s.dev.cluOf (a.val / 4)).reqs ++
          [{ pos := a.val % 4, src := .tick, tr := s.dev.now + 20 }] ∧ (t.cluOf (a.val / 4)).ann = (s.dev.cluOf (a.val
          / 4)).ann ++ [{ pos := a.val % 4, src := .tick, tr := s.dev.now + 20, annAt := s.dev.now }] ∧ t =
          { s.dev with clu := t.clu }) ∧
  (∀ (s : State) (q : Fin 16) (r : UReq), s.dev.sys.logicOn = true → s.dev.present q = true → r.tr = s.dev.now → r.src
      = .trig0 → r.pos < 4 → (s.dev.cluOf q).reqs = [r] → (s.dev.cluOf q).ann = [] → wordGet (s.dev.reg (AC_UCFG q
      r.pos)) 7 1 = 1 → wordGet (s.dev.reg (AC_UCFG q r.pos)) 15 1 = 0 →
      Does (.urgentRequest q) s fun t => t.get (AC_DROPCNT_CNT q 0) = min 65535 (s.dev.get (AC_DROPCNT_CNT q 0) + 1) ∧
          wordGet (t.reg (AC_DROPINFO q 0)) 0 2 = 1 ∧ (t.cluOf q).reqs = [] ∧ t =
          { s.dev with regs := t.regs, clu := t.clu } ∧ sameRegs s.dev t ([AC_DROPCNT q 0, AC_DROPINFO q 0])) ∧
  (∀ (s : State) (q : Fin 16) (r : UReq), s.dev.sys.logicOn = true → s.dev.present q = true → r.tr = s.dev.now → r.src
      = .trig0 → r.pos < 4 → (s.dev.cluOf q).reqs = [r] → (s.dev.cluOf q).ann = [{ r with annAt := s.dev.now - 20 }] →
      20 ≤ s.dev.now → s.dev.away q = none → (s.dev.cluOf q).a.busy ≤ s.dev.now → wordGet (s.dev.reg (AC_UCFG q
      r.pos)) 7 1 = 1 → wordGet (s.dev.reg (AC_UCFG q r.pos)) 15 1 = 0 →
      Does (.urgentRequest q) s fun t => (t.cluOf q).a.busy = s.dev.now + 10 ∧ (tget {} (t.cluOf q).urg (8 *
          r.pos)).ts = s.dev.now ∧ (tget {} (t.cluOf q).urg (8 * r.pos)).live = true ∧ (t.cluOf q).reqs = [] ∧ t =
          { s.dev with clu := t.clu }) ∧
  (∀ (s : State) (q : Fin 16), s.dev.sys.logicOn = true → s.dev.get (AC_DROPTH_TH q) ≠ 0 → (s.dev.cluOf q).win =
      s.dev.now / 200000 → s.dev.get (AC_DROPTH_TH q) ≤ (s.dev.cluOf q).drops → (s.dev.cluOf q).dropRaised = false →
      Does (.adcDrop q) s fun t => t.pend (768 + 4 * q.val) = true ∧ t.bit (AC_EVT q) 0 = true ∧ (t.cluOf
          q).dropRaised = true ∧ t = { s.dev with regs := t.regs, clu := t.clu, evs := t.evs } ∧ sameRegs s.dev t
          ((AC_EVT q :: evRegs (768 + 4 * q.val))))

/-- REFRDY sets 400 µs after REFEN; three consecutive REFMON readings out of window set REFBAD and raise ADC_REF;
REFBAD clears when both converters count 64 good readings. (R147, R148, R156) -/
def Obligations.ReferenceMonitor : Prop :=
  (∀ (s : State) (q : Fin 16) (x : Nat), s.dev.sys.logicOn = true → (s.dev.cluOf q).refAt = some x → x + 80000 ≤
      s.dev.now →
      Does (.refReady q) s fun t => t.get (AC_STAT_REFRDY q) = 1 ∧ t = { s.dev with regs := t.regs } ∧ sameRegs s.dev
          t ([AC_STAT q])) ∧
  (∀ (s : State) (q : Fin 16), s.dev.sys.logicOn = true → (3 ≤ (s.dev.cluOf q).a.bad ∨ 3 ≤ (s.dev.cluOf q).b.bad) →
      s.dev.get (AC_STAT_REFBAD q) = 0 → (∀ p : Fin 4, (s.dev.axSt (4 * q.val + p.val)).driving = false) →
      Does (.adcRef q) s fun t => t.get (AC_STAT_REFBAD q) = 1 ∧ t.pend (769 + 4 * q.val) = true ∧ t.bit (AC_EVT q) 1
          = true ∧ t = { s.dev with regs := t.regs, evs := t.evs } ∧ sameRegs s.dev t ((AC_STAT q :: AC_EVT q ::
          evRegs (769 + 4 * q.val)))) ∧
  (∀ (s : State) (q : Fin 16) (p : Fin 4), s.dev.sys.logicOn = true → 3 ≤ (s.dev.cluOf q).a.bad → s.dev.get
      (AC_STAT_REFBAD q) = 0 → s.dev.bondBits q = 0 → s.dev.axSt (4 * q.val + p.val) = .sixstep →
      Does (.adcRef q) s fun t => t.axSt (4 * q.val + p.val) = .fault) ∧
  (∀ (s : State) (q : Fin 16), s.dev.sys.logicOn = true → 64 ≤ (s.dev.cluOf q).a.good → 64 ≤ (s.dev.cluOf q).b.good →
      Does (.refbadClear q) s fun t => t.get (AC_STAT_REFBAD q) = 0 ∧ t = { s.dev with regs := t.regs } ∧ sameRegs
          s.dev t ([AC_STAT q]))

/-- A recalibration starts, or is refused with BUSY or NOREF; the leaver leaves, its offset and gain are computed to
bring GND to 0 and REFMON to 12,000, the trims are accepted within their limits or discarded with DRIFT, and at the
rejoining CALT is taken and ADC_CAL raised. (R155, R156, R157) -/
def Obligations.Recalibration : Prop :=
  (∀ (s : State) (q : Fin 16) (conv : Fin 2) (skew : Bool), s.dev.sys.logicOn = true → s.dev.get (AC_STAT_CALBUSY q) =
      0 → s.dev.get (AC_STAT_REFRDY q) = 1 → s.dev.get (AC_STAT_REFBAD q) = 0 → s.dev.present q = true →
      Does (.recalibrate .debug q conv skew) s fun t => t.get (AC_STAT_CALBUSY q) = 1 ∧ t.get (AC_CAL_PHASE q) = 1 ∧
          t.get (AC_CAL_CONV q) = conv.val ∧ (t.cluOf q).calConv = conv.val ∧ (t.cluOf q).calSkew = skew ∧ t =
          { s.dev with regs := t.regs, clu := t.clu } ∧ sameRegs s.dev t ([AC_STAT q, AC_CAL q])) ∧
  (∀ (s : State) (q : Fin 16) (conv : Fin 2) (skew : Bool), s.dev.sys.logicOn = true → s.dev.get (AC_STAT_CALBUSY q) =
      1 →
      Does (.recalibrate .debug q conv skew) s fun t => t.get (AC_CAL_ERR q) = 1 ∧ t = { s.dev with regs := t.regs } ∧
          sameRegs s.dev t ([AC_CAL q])) ∧
  (∀ (s : State) (q : Fin 16) (conv : Fin 2) (skew : Bool), s.dev.sys.logicOn = true → s.dev.get (AC_STAT_CALBUSY q) =
      0 → (s.dev.get (AC_STAT_REFRDY q) = 0 ∨ s.dev.get (AC_STAT_REFBAD q) = 1) →
      Does (.recalibrate .debug q conv skew) s fun t => t.get (AC_CAL_ERR q) = 2 ∧ t = { s.dev with regs := t.regs } ∧
          sameRegs s.dev t ([AC_CAL q])) ∧
  (∀ (s : State) (q : Fin 16), s.dev.sys.logicOn = true → s.dev.get (AC_CAL_PHASE q) = 1 → (s.dev.cluOf q).calConv ≤ 1
      →
      Does (.calLeave q) s fun t => t.get (AC_STAT_SPLIT q) = (s.dev.cluOf q).calConv + 1 ∧ t.get (AC_CAL_PHASE q) = 2
          ∧ t = { s.dev with regs := t.regs, clu := t.clu } ∧ sameRegs s.dev t ([AC_STAT q, AC_CAL q])) ∧
  (∀ (s : State) (q : Fin 16) (sum : Nat), s.dev.sys.logicOn = true → s.dev.get (AC_CAL_PHASE q) = 2 → (s.dev.cluOf
      q).calEnd ≤ s.dev.now →
      Does (.calOffsetDone q sum) s fun t => t.get (AC_CAL_PHASE q) = 3 ∧ (t.cluOf q).calOfs = rha (((sum : Int) -
          4096 * 8192) * 16) 4096 ∧ t = { s.dev with regs := t.regs, clu := t.clu } ∧ sameRegs s.dev t ([AC_CAL q])) ∧
  (∀ (s : State) (q : Fin 16) (sum : Nat), s.dev.sys.logicOn = true → s.dev.get (AC_CAL_PHASE q) = 3 → (s.dev.cluOf
      q).calEnd ≤ s.dev.now → (s.dev.cluOf q).calSkew = true → (s.dev.cluOf q).calOfs * 4096 < sum * 16 →
      Does (.calGainDone q sum) s fun t => t.get (AC_CAL_PHASE q) = 4 ∧ t.get (AC_STAT_SKEWPH q) = 1 ∧ (t.cluOf
          q).calGain = rhaI (262144 * 192000 * 4096 - 262144 * ((sum : Int) * 16 - (s.dev.cluOf q).calOfs * 4096))
          ((sum : Int) * 16 - (s.dev.cluOf q).calOfs * 4096) ∧ t = { s.dev with regs := t.regs, clu := t.clu } ∧
          sameRegs s.dev t ([AC_STAT q, AC_CAL q])) ∧
  (∀ (s : State) (q : Fin 16) (skew : Int), s.dev.sys.logicOn = true → s.dev.get (AC_CAL_PHASE q) = 4 → (s.dev.cluOf
      q).calEnd ≤ s.dev.now → (s.dev.cluOf q).calSkew = true → 40 < (skew - s.dev.getS (AC_SKEW_SKEW q 1)).natAbs →
      Does (.calSkewDone q skew) s fun t => t.get (AC_CAL_ERR q) = 4 ∧ t.get (AC_CAL_PHASE q) = 5 ∧ t =
          { s.dev with regs := t.regs, clu := t.clu } ∧ sameRegs s.dev t ([AC_STAT q, AC_CAL q])) ∧
  (∀ (s : State) (q : Fin 16) (skew : Int), s.dev.sys.logicOn = true → s.dev.get (AC_CAL_PHASE q) = 4 → (s.dev.cluOf
      q).calEnd ≤ s.dev.now → (s.dev.cluOf q).calSkew = true → (s.dev.cluOf q).calConv ≤ 1 → (skew - s.dev.getS
      (AC_SKEW_SKEW q 1)).natAbs ≤ 40 → ((s.dev.cluOf q).calOfs - s.dev.getS (AC_OFS_OFS q (s.dev.cluOf
      q).calConv)).natAbs ≤ 512 → ((s.dev.cluOf q).calGain - s.dev.getS (AC_GAIN_GAIN q (s.dev.cluOf
      q).calConv)).natAbs ≤ 2621 →
      Does (.calSkewDone q skew) s fun t => t.get (AC_SKEW_SKEW q 1) = ux 8 skew ∧ t.get (AC_CAL_PHASE q) = 5 ∧ t =
          { s.dev with regs := t.regs, clu := t.clu } ∧ sameRegs s.dev t ([AC_STAT q, AC_CAL q, AC_OFS q (s.dev.cluOf
          q).calConv, AC_GAIN q (s.dev.cluOf q).calConv, AC_SKEW q 1])) ∧
  (∀ (s : State) (q : Fin 16), s.dev.sys.logicOn = true → s.dev.get (AC_CAL_PHASE q) = 5 →
      Does (.calRejoin q) s fun t => t.get (AC_STAT_SPLIT q) = 0 ∧ t.get (AC_STAT_CALBUSY q) = 0 ∧ t.get (AC_CAL_PHASE
          q) = 0 ∧ (s.dev.get (AC_CAL_ERR q) = 0 → t.get (AC_STAT_CALDUE q) = 0) ∧ t.pend (770 + 4 * q.val) = true ∧ t
          = { s.dev with regs := t.regs, clu := t.clu, evs := t.evs } ∧ sameRegs s.dev t ((AC_STAT q :: AC_CAL q ::
          AC_CALT q :: AC_EVT q :: evRegs (770 + 4 * q.val))))

/-- A commutation at its instant goes to the next step of the direction, LOW on one phase and OFF on another; at t_exp
with the last sample skipped the unit predicts and reports the crossing there, with a VALID sample it watches for half
T_pred longer; the eighth consecutive prediction raises BLIND and faults with code 1; a late window that ends begins
the phase test with every phase off. (R158, R159, R160, R164, R166, R167) -/
def Obligations.SixStepCommutation : Prop :=
  (∀ (s : State) (a : Fin 64) (k : Nat), s.dev.sys.logicOn = true → s.dev.members a = [a.val] → s.dev.axSt a =
      .sixstep → (s.dev.sixOf a).nextC = some s.dev.now → (s.dev.sixOf a).nextS = none → (s.dev.sixOf a).test = none →
      (s.dev.sixOf a).pkSteps < 5 → k = nextStep (s.dev.get (CU_STATE_STEP a)) (s.dev.get (CU_STATE_DIR a)) →
      Does (.commutation a) s fun t => t.get (CU_STATE_STEP a) = k ∧ t.phaseMode a (stepPhases k).2.1 = 1 ∧
          t.phaseMode a (stepPhases k).2.2 = 0 ∧ 2 ≤ t.phaseMode a (stepPhases k).1 ∧ (t.sixOf a).lastC = s.dev.now ∧
          (t.sixOf a).crossed = false ∧ t = { s.dev with regs := t.regs, pwm := t.pwm, six := t.six } ∧ sameRegs s.dev
          t ([CU_STATE a, PWM_PAT a])) ∧
  (∀ (s : State) (a : Fin 64) (te : Nat), s.dev.sys.logicOn = true → s.dev.axSt a = .sixstep → s.dev.hallDrives a =
      false → (s.dev.sixOf a).tExp = some te → te ≤ s.dev.now → (s.dev.sixOf a).crossed = false → (s.dev.sixOf a).test
      = none → (s.dev.sixOf a).perReq ≤ te → (s.dev.sixOf a).cls = .skipped → s.dev.get (CU_STAT_NPRED a) < 7 →
      Does (.expectedCrossing a) s fun t => t.get (CU_STAT_NPRED a) = s.dev.get (CU_STAT_NPRED a) + 1 ∧ t.get
          (CU_ZCT_T a) = te % 2 ^ 32 ∧ t.get (CU_ZCGAP_PRED a) = 1 ∧ t.get (CU_T2_T a) = s.dev.get (CU_T1_T a) ∧ t.get
          (CU_T1_T a) = (te - (s.dev.sixOf a).tZc) % 2 ^ 32 ∧ t.pend (12 * a.val + 1) = true ∧ t.axSt a = .sixstep ∧ t
          = { s.dev with regs := t.regs, six := t.six, evs := t.evs } ∧ sameRegs s.dev t ((CU_STAT a :: CU_ZCT a ::
          CU_ZCGAP a :: CU_T1 a :: CU_T2 a :: CU_TPRED a :: CU_PREDB a :: CU_CNT a :: CU_SPEED a :: CU_NEXTC a ::
          evRegs (12 * a.val + 1)))) ∧
  (∀ (s : State) (a : Fin 64) (te : Nat), s.dev.sys.logicOn = true → s.dev.axSt a = .sixstep → s.dev.hallDrives a =
      false → (s.dev.sixOf a).tExp = some te → te ≤ s.dev.now → (s.dev.sixOf a).crossed = false → (s.dev.sixOf a).test
      = none → (s.dev.sixOf a).perReq ≤ te → (s.dev.sixOf a).cls = .valid →
      Does (.expectedCrossing a) s fun t => (t.sixOf a).lateEnd = some (te + s.dev.get (CU_TPRED_T a) / 2) ∧ (t.sixOf
          a).tExp = none ∧ t = { s.dev with six := t.six }) ∧
  (∀ (s : State) (a : Fin 64), s.dev.sys.logicOn = true → s.dev.axSt a = .sixstep → s.dev.get (CU_STAT_NPRED a) = 8 →
      (s.dev.sixOf a).fltAt ≠ some s.dev.now →
      Does (.blind a) s fun t => t.axSt a = .fault ∧ t.get (CU_FLT_CODE a) = 1 ∧ t.pend (12 * a.val + 2) = true) ∧
  (∀ (s : State) (a : Fin 64) (te : Nat), s.dev.sys.logicOn = true → s.dev.members a = [a.val] → s.dev.axSt a =
      .sixstep → (s.dev.sixOf a).lateEnd = some te → te ≤ s.dev.now → (s.dev.sixOf a).crossed = false →
      Does (.lateWindowExpiry a) s fun t => (t.sixOf a).test = some .late ∧ t.phaseMode a 0 = 0 ∧ t.phaseMode a 1 = 0
          ∧ t.phaseMode a 2 = 0 ∧ t = { s.dev with regs := t.regs, six := t.six } ∧ sameRegs s.dev t ([PWM_PAT a]))

/-- A passed phase test faults with STALL, or START_FAILED after ALIGN; all three pulses failed fault with
MISSING_PHASE of every phase; ALIGN goes to RAMP two steps on and begins the phase test without current; RAMP locks
into SIXSTEP with a stale speed or faults at its time-out; a phase low for two revolutions faults; an invalid Hall
code held 10 µs faults. (R173, R174, R176, R177, R180) -/
def Obligations.PhaseTest : Prop :=
  (∀ (s : State) (a : Fin 64) (o : TestOrigin), s.dev.sys.logicOn = true → (s.dev.sixOf a).test = some o → s.dev.axSt
      a ≠ .absent → (s.dev.sixOf a).fltAt ≠ some s.dev.now →
      Does (.phaseTestDone a true true true) s fun t => t.axSt a = .fault ∧ (t.get (CU_FLT_CODE a) =
          (match o with | .late => 3 | .align => 4))) ∧
  (∀ (s : State) (a : Fin 64) (o : TestOrigin), s.dev.sys.logicOn = true → (s.dev.sixOf a).test = some o → s.dev.axSt
      a ≠ .absent → (s.dev.sixOf a).fltAt ≠ some s.dev.now →
      Does (.phaseTestDone a false false false) s fun t => t.axSt a = .fault ∧ t.get (CU_FLT_CODE a) = 2 ∧ t.get
          (CU_FLT_PHASE a) = 7 ∧ t.pend (12 * a.val + 3) = true) ∧
  (∀ (s : State) (a : Fin 64) (te : Nat), s.dev.sys.logicOn = true → s.dev.members a = [a.val] → s.dev.axSt a = .align
      → (s.dev.sixOf a).alignEnd = some te → te ≤ s.dev.now →
      Does (.alignEnd a) s fun t => t.axSt a = .ramp ∧ (t.get (CU_STATE_STEP a) = (s.dev.alignStep a + (if s.dev.get
          (CU_STATE_DIR a) = 0 then 2 else 4)) % 6) ∧ (t.sixOf a).rampAt = s.dev.now) ∧
  (∀ (s : State) (a : Fin 64) (x : Nat), s.dev.sys.logicOn = true → s.dev.members a = [a.val] → s.dev.axSt a = .align
      → (s.dev.sixOf a).noCurSince = some x → x + 2000000 ≤ s.dev.now →
      Does (.alignNoCurrent a) s fun t => (t.sixOf a).test = some .align ∧ t.phaseMode a 0 = 0 ∧ t =
          { s.dev with regs := t.regs, six := t.six } ∧ sameRegs s.dev t ([PWM_PAT a])) ∧
  (∀ (s : State) (a : Fin 64) (x : Nat), s.dev.sys.logicOn = true → s.dev.members a = [a.val] → s.dev.axSt a = .ramp →
      (s.dev.sixOf a).rampX = some x →
      Does (.rampLock a) s fun t => t.axSt a = .sixstep ∧ t.get (CU_STAT_STALE a) = 1 ∧ t.get (CU_CMPX_RAMPCMP a) =
          s.dev.get (PWM_ACMPUV_CMPU a) ∧ t.get (CU_T1_T a) = (s.dev.sixOf a).rampC % 2 ^ 32 ∧ (t.sixOf a).tZc = x ∧
          t.pend (12 * a.val + 10) = true) ∧
  (∀ (s : State) (a : Fin 64), s.dev.sys.logicOn = true → s.dev.axSt a = .ramp → (s.dev.sixOf a).rampAt + max 1
      (s.dev.get (CU_RAMP1_T a)) * 200000 ≤ s.dev.now → (s.dev.sixOf a).fltAt ≠ some s.dev.now →
      Does (.rampTimeout a) s fun t => t.axSt a = .fault ∧ t.get (CU_FLT_CODE a) = 4) ∧
  (∀ (s : State) (a : Fin 64), s.dev.sys.logicOn = true → s.dev.axSt a = .sixstep → (s.dev.sixOf a).lowBoth = 4 →
      (s.dev.sixOf a).fltAt ≠ some s.dev.now →
      Does (.missingPhase a) s fun t => t.axSt a = .fault ∧ t.get (CU_FLT_CODE a) = 2 ∧ t.get (CU_FLT_PHASE a) = 3 ∧
          t.pend (12 * a.val + 3) = true) ∧
  (∀ (s : State) (a : Fin 64) (code : Fin 8), s.dev.sys.logicOn = true → 6 ≤ s.dev.get (CU_HALLMAP_MAP a code.val) →
      (s.dev.sixOf a).hallBad = none →
      Does (.hallEdge a code) s fun t => t.get (CU_HALLST_CODE a) = code.val ∧ (t.sixOf a).hallBad = some s.dev.now ∧
          t = { s.dev with regs := t.regs, six := t.six } ∧ sameRegs s.dev t ([CU_HALLST a])) ∧
  (∀ (s : State) (a : Fin 64) (code : Fin 8), s.dev.sys.logicOn = true → s.dev.get (CU_HALLMAP_MAP a code.val) < 6 →
      s.dev.axSt a = .ramp → s.dev.hallMode a = 2 →
      Does (.hallEdge a code) s fun t => t.get (CU_HALLST_CODE a) = code.val ∧ (t.sixOf a).nextS = some (s.dev.get
          (CU_HALLMAP_MAP a code.val)) ∧ (t.sixOf a).hallAt = s.dev.now ∧ t =
          { s.dev with regs := t.regs, six := t.six } ∧ sameRegs s.dev t ([CU_HALLST a, CU_NEXTC a, CU_STAT a])) ∧
  (∀ (s : State) (a : Fin 64) (x : Nat), s.dev.sys.logicOn = true → s.dev.axSt a = .sixstep → s.dev.hallMode a ≠ 0 →
      (s.dev.sixOf a).hallBad = some x → x + 2000 ≤ s.dev.now → (s.dev.sixOf a).fltAt ≠ some s.dev.now →
      Does (.hallInvalid a) s fun t => t.axSt a = .fault ∧ t.get (CU_FLT_CODE a) = 6)

/-- The end of a CATCH window reports its measurement and raises CATCH_DONE; a motor at rest without Hall signals goes
to ALIGN, one that has turned by too little extends the window, one that turns as commanded waits for its join; the
join enters SIXSTEP at the step of the angle with a stale speed; RECOVER ends in CATCH. (R170, R171, R172, R173) -/
def Obligations.CatchAndRecover : Prop :=
  (∀ (s : State) (a : Fin 64) (e : Fin 16384) (th : Fin 65536) (dth : Int) (dt : Nat), s.dev.sys.logicOn = true →
      s.dev.members a = [a.val] → s.dev.axSt a = .catch_ → (s.dev.sixOf a).joinAt = none → (s.dev.sixOf a).catchAt +
      (s.dev.sixOf a).catchLen * ((s.dev.sixOf a).catchExt + 1) ≤ s.dev.now → e.val < s.dev.get (CU_CATCH_BEMFMIN a) →
      s.dev.hallMode a = 0 →
      Does (.catchWindowEnd a e th dth dt) s fun t => t.axSt a = .align ∧ t.get (CU_CATCHRES_E a) = e.val % 2 ^ 14 ∧
          t.get (CU_CATCHRES_ANGLE a) = th.val ∧ t.reg (CU_CATCHSPD a) = w32i (speedOf dth dt) ∧ t.pend (12 * a.val +
          5) = true ∧ t.get (CU_STATE_STEP a) = s.dev.alignStep a) ∧
  (∀ (s : State) (a : Fin 64) (e : Fin 16384) (th : Fin 65536) (dth : Int) (dt : Nat), s.dev.sys.logicOn = true →
      s.dev.axSt a = .catch_ → (s.dev.sixOf a).joinAt = none → (s.dev.sixOf a).catchAt + (s.dev.sixOf a).catchLen *
      ((s.dev.sixOf a).catchExt + 1) ≤ s.dev.now → s.dev.get (CU_CATCH_BEMFMIN a) ≤ e.val → dth.natAbs * 360 < 5 *
      65536 → (s.dev.sixOf a).catchExt < 3 →
      Does (.catchWindowEnd a e th dth dt) s fun t => (t.sixOf a).catchExt = (s.dev.sixOf a).catchExt + 1 ∧ t =
          { s.dev with six := t.six }) ∧
  (∀ (s : State) (a : Fin 64) (e : Fin 16384) (th : Fin 65536) (dth : Int) (dt : Nat), s.dev.sys.logicOn = true →
      s.dev.axSt a = .catch_ → (s.dev.sixOf a).joinAt = none → (s.dev.sixOf a).catchAt + (s.dev.sixOf a).catchLen *
      ((s.dev.sixOf a).catchExt + 1) ≤ s.dev.now → s.dev.get (CU_CATCH_BEMFMIN a) ≤ e.val → 5 * 65536 ≤ dth.natAbs *
      360 → 3 * e.val * e.val ≤ (s.dev.vseg (a.val / 4)).toNat * (s.dev.vseg (a.val / 4)).toNat → s.dev.get
      (CU_STATE_DIR a) = (if dth < 0 then 1 else 0) →
      Does (.catchWindowEnd a e th dth dt) s fun t => t.axSt a = .catch_ ∧ (t.sixOf a).joinAt ≠ none ∧ (t.sixOf
          a).catchM.th = th.val ∧ t.get (CU_CATCHRES_OVSP a) = 0 ∧ t.pend (12 * a.val + 5) = true) ∧
  (∀ (s : State) (a : Fin 64) (x : Nat), s.dev.sys.logicOn = true → s.dev.members a = [a.val] → s.dev.axSt a = .catch_
      → (s.dev.sixOf a).joinAt = some x → x ≤ s.dev.now → s.dev.atStart a = true → (s.dev.dtcOf a).revOn = false →
      s.dev.get (CU_DTCCFG_EN a) = 0 →
      Does (.catchJoin a) s fun t => t.axSt a = .sixstep ∧ t.get (CU_STATE_STEP a) = ((s.dev.sixOf a).catchM.th * 6 +
          65536) / 65536 % 6 ∧ (t.get (CU_STATE_DIR a) = (if (s.dev.sixOf a).catchM.dth < 0 then 1 else 0)) ∧ t.get
          (CU_STAT_STALE a) = 1) ∧
  (∀ (s : State) (a : Fin 64) (x : Nat), s.dev.sys.logicOn = true → s.dev.members a = [a.val] → s.dev.axSt a =
      .recover → (s.dev.sixOf a).recoverEnd = some x → x ≤ s.dev.now →
      Does (.recoverDone a) s fun t => t.axSt a = .catch_ ∧ (t.sixOf a).catchAt = s.dev.now ∧ (t.sixOf a).joinAt =
          none ∧ t.pend (12 * a.val + 10) = true)

/-- A permitted START takes an unbonded OFF axis to CATCH and a HIZ or FAULT axis to RECOVER, in its direction; one
not permitted sets REFUSE. STOP takes RAMP to HIZ and SIXSTEP with an active loop to DECEL from the present speed;
COAST and CLEAR end in HIZ if turning and OFF if not; REVERSE of SIXSTEP goes to DECEL and remembers the other
direction. (R178, R182, R205, R209) -/
def Obligations.AxisCommands : Prop :=
  (∀ (s : State) (a : Fin 64) (dir : Fin 2), s.dev.sys.logicOn = true → s.dev.get ⟨CU_BOND (4 * (a.val / 4)), 0, 3⟩ =
      0 → s.dev.bondBits (a.val / 4) = 0 → s.dev.axSt a = .off → s.dev.startReason a = 0 →
      Does (.start .debug a dir) s fun t => t.axSt a = .catch_ ∧ t.get (CU_STATE_DIR a) = dir.val ∧ t.get
          (CU_STATE_PREV a) = 0 ∧ (t.sixOf a).catchAt = s.dev.now ∧ t.pend (12 * a.val + 10) = true) ∧
  (∀ (s : State) (a : Fin 64) (dir : Fin 2), s.dev.sys.logicOn = true → s.dev.members a = [a.val] → (s.dev.axSt a =
      .hiz ∨ s.dev.axSt a = .fault) → s.dev.startReason a = 0 →
      Does (.start .debug a dir) s fun t => t.axSt a = .recover ∧ t.get (CU_STATE_DIR a) = dir.val ∧ (t.sixOf
          a).recoverEnd ≠ none) ∧
  (∀ (s : State) (a : Fin 64) (dir : Fin 2), s.dev.sys.logicOn = true → s.dev.members a = [a.val] → s.dev.axSt a ≠
      .off → s.dev.startReason a ≠ 0 → s.dev.startReason a < 16 →
      Does (.start .debug a dir) s fun t => t.get (CU_STAT_REFUSE a) = s.dev.startReason a ∧ t =
          { s.dev with regs := t.regs } ∧ sameRegs s.dev t ([CU_STAT a])) ∧
  (∀ (s : State) (a : Fin 64), s.dev.sys.logicOn = true → s.dev.members a = [a.val] → s.dev.axSt a = .ramp →
      Does (.stop .debug a) s fun t => t.axSt a = .hiz ∧ t.pend (12 * a.val + 10) = true) ∧
  (∀ (s : State) (a : Fin 64), s.dev.sys.logicOn = true → s.dev.members a = [a.val] → s.dev.axSt a = .sixstep →
      s.dev.isQuad a = false → s.dev.loopActive a = true →
      Does (.stop .debug a) s fun t => t.axSt a = .decel ∧ t.reg (CU_DECREF a) = s.dev.reg (CU_SPEED a)) ∧
  (∀ (s : State) (a : Fin 64), s.dev.sys.logicOn = true → s.dev.members a = [a.val] → s.dev.axSt a = .fault →
      (s.dev.dtcOf a).revWaiting = false →
      Does (.stop .debug a) s fun t => t.get (CU_STAT_REFUSE a) = 1 ∧ t = { s.dev with regs := t.regs } ∧ sameRegs
          s.dev t ([CU_STAT a])) ∧
  (∀ (s : State) (a : Fin 64), s.dev.sys.logicOn = true → s.dev.members a = [a.val] → s.dev.axSt a = .sixstep →
      Does (.coast .debug a) s fun t => (t.axSt a = (if s.dev.turning a then .hiz else .off)) ∧ t.pend (12 * a.val +
          10) = true) ∧
  (∀ (s : State) (a : Fin 64), s.dev.sys.logicOn = true → s.dev.members a = [a.val] → s.dev.axSt a = .fault →
      Does (.clear .debug a) s fun t => (t.axSt a = (if s.dev.turning a then .hiz else .off)) ∧ t.pend (12 * a.val +
          10) = true ∧ t.get (CU_FLT_CODE a) = s.dev.get (CU_FLT_CODE a)) ∧
  (∀ (s : State) (a : Fin 64), s.dev.sys.logicOn = true → s.dev.members a = [a.val] → s.dev.axSt a = .sixstep →
      s.dev.isQuad a = false → s.dev.loopActive a = true →
      Does (.reverse .debug a) s fun t => t.axSt a = .decel ∧ (t.dtcOf a).revOn = true ∧ (t.dtcOf a).revDir = 1 -
          s.dev.get (CU_STATE_DIR a)) ∧
  (∀ (s : State) (a : Fin 64), s.dev.sys.logicOn = true → s.dev.members a = [a.val] → s.dev.axSt a = .hiz →
      Does (.reverse .debug a) s fun t => t.get (CU_STAT_REFUSE a) = 1 ∧ t = { s.dev with regs := t.regs } ∧ sameRegs
          s.dev t ([CU_STAT a]))

/-- A tick without currents keeps the flux and counts; 64 ticks that could not integrate fault with FLUX_LOST; a
handover not passed in 4 T_pred is abandoned into SIXSTEP; a quad is bonded in CONFIGURE only and never as quad and
pair together; shares out of tolerance fault with code 12; a reversal restarts through RECOVER in the other direction.
(R186, R189, R190, R191, R198, R200, R203, R204, R209) -/
def Obligations.TorqueControl : Prop :=
  (∀ (s : State) (a : Fin 64) (x : Nat), s.dev.sys.logicOn = true → s.dev.lowest a = a.val → s.dev.ticking a = true →
      (s.dev.dtcOf a).tickAt = some x → s.dev.now = x + (if s.dev.duty a then 38 else 45) → s.dev.tickCurrents a x =
      none →
      Does (.dtcTick a) s fun t => (t.dtcOf a).noInt = (s.dev.dtcOf a).noInt + 1 ∧ (t.dtcOf a).psiA = (s.dev.dtcOf
          a).psiA ∧ (t.dtcOf a).psiB = (s.dev.dtcOf a).psiB ∧ t = { s.dev with dtc := t.dtc }) ∧
  (∀ (s : State) (a : Fin 64) (x : Nat) (iu iw : Int) (age : Nat), s.dev.sys.logicOn = true → s.dev.members a =
      [a.val] → s.dev.axSt a = .handover → (s.dev.dtcOf a).tickAt = some x → s.dev.now = x + (if s.dev.duty a then 38
      else 45) → s.dev.tickCurrents a x = some (iu, iw, age) → (s.dev.dtcOf a).hoReady = false → s.dev.psi0 a = 0 →
      (s.dev.speed a).natAbs < s.dev.dnSpd a →
      Does (.dtcTick a) s fun t => (t.dtcOf a).noInt = 0 ∧ (t.dtcOf a).prevAt = x ∧ (t.dtcOf a).prevIU = iu ∧ (t.dtcOf
          a).prevIW = iw ∧ (t.dtcOf a).tickAge = age ∧ t.axSt a = .sixstep ∧ t.reg (CU_PSIA a) = w32i (tdiv (t.dtcOf
          a).psiA 65536) ∧ t.reg (CU_PSIB a) = w32i (tdiv (t.dtcOf a).psiB 65536)) ∧
  (∀ (s : State) (a : Fin 64), s.dev.sys.logicOn = true → s.dev.axSt a = .dtc → 64 ≤ (s.dev.dtcOf a).noInt →
      (s.dev.sixOf a).fltAt ≠ some s.dev.now →
      Does (.fluxLost a) s fun t => t.axSt a = .fault ∧ t.get (CU_FLT_CODE a) = 13) ∧
  (∀ (s : State) (a : Fin 64), s.dev.sys.logicOn = true → s.dev.members a = [a.val] → s.dev.axSt a = .handover →
      (s.dev.dtcOf a).hoReady = false → (s.dev.dtcOf a).hoAt + 4 * s.dev.get (CU_TPRED_T a) ≤ s.dev.now →
      Does (.handoverTimeout a) s fun t => t.axSt a = .sixstep ∧ t.get (CU_DTCSTAT_HOFAIL a) = min 255 (s.dev.get
          (CU_DTCSTAT_HOFAIL a) + 1) ∧ (t.dtcOf a).hoPass = 0) ∧
  (∀ (s : State) (q : Fin 16) (w : Word), s.dev.sys.logicOn = true → s.dev.mode = .configure → (w.toNat.testBit 2 =
      false ∨ w.toNat % 4 = 0) →
      Does (.bondWrite .debug ⟨4 * q.val, by omega⟩ w) s fun t => t.get ⟨CU_BOND (4 * q.val), 0, 3⟩ = w.toNat % 8 ∧ t
          = { s.dev with regs := t.regs } ∧ sameRegs s.dev t ([CU_BOND (4 * q.val)])) ∧
  (∀ (s : State) (q : Fin 16) (w : Word), s.dev.sys.logicOn = true → (s.dev.mode ≠ .configure ∨ (w.toNat.testBit 2 =
      true ∧ w.toNat % 4 ≠ 0)) →
      Does (.bondWrite .debug ⟨4 * q.val, by omega⟩ w) s fun t => t.get (CU_DTCSTAT_BONDERR (4 * q.val)) = 1 ∧ t =
          { s.dev with regs := t.regs } ∧ sameRegs s.dev t ([CU_DTCSTAT (4 * q.val)])) ∧
  (∀ (s : State) (a : Fin 64), s.dev.sys.logicOn = true → s.dev.lowest a = a.val → max 1 (s.dev.get (CU_BTOL_SHN a)) ≤
      (s.dev.dtcOf a).shBad → s.dev.axSt (4 * (a.val / 4) + s.dev.get (CU_DTCSTAT_SHMEM a)) ≠ .absent → (s.dev.sixOf
      (4 * (a.val / 4) + s.dev.get (CU_DTCSTAT_SHMEM a))).fltAt ≠ some s.dev.now →
      Does (.bondShare a) s fun t => t.axSt (4 * (a.val / 4) + s.dev.get (CU_DTCSTAT_SHMEM a)) = .fault ∧ t.get
          (CU_FLT_CODE (4 * (a.val / 4) + s.dev.get (CU_DTCSTAT_SHMEM a))) = 12) ∧
  (∀ (s : State) (a : Fin 64) (x : Nat), s.dev.sys.logicOn = true → s.dev.members a = [a.val] → s.dev.axSt a = .hiz →
      (s.dev.dtcOf a).revLow = some x → (s.dev.dtcOf a).revWaiting = true → x + s.dev.get (CU_REV_WAIT a) * 200000 ≤
      s.dev.now → s.dev.startReason a = 0 → (s.dev.dtcOf a).revDir < 2 →
      Does (.reversalWaitEnd a) s fun t => t.axSt a = .recover ∧ t.get (CU_STATE_DIR a) = (s.dev.dtcOf a).revDir ∧
          (t.dtcOf a).revWaiting = false) ∧
  (∀ (s : State) (a : Fin 64) (x : Nat), s.dev.sys.logicOn = true → (s.dev.dtcOf a).revLow = some x → (s.dev.dtcOf
      a).revWaiting = true → x + s.dev.get (CU_REV_WAIT a) * 200000 ≤ s.dev.now → s.dev.startReason a ≠ 0 →
      s.dev.startReason a < 16 →
      Does (.reversalWaitEnd a) s fun t => t.get (CU_STAT_REFUSE a) = s.dev.startReason a ∧ (t.dtcOf a).revOn = false
          ∧ t = { s.dev with regs := t.regs, dtc := t.dtc } ∧ sameRegs s.dev t ([CU_STAT a]))

/-- A frame start records its instant, takes up LEN and OFS and a pending schedule commit; a run of an enabled process
loop delivers at OUTC + 2, stamps LE_OUTTS and the latency; a run that reads a word with an uncorrectable error stops
the loop with LE_MEM. (R214, R217, R222, R223, R225, R233) -/
def Obligations.LoopFramesAndRuns : Prop :=
  (∀ (s : State) (e : Fin 8), s.dev.sys.logicOn = true → s.dev.frameStart e = true → (s.dev.engOf e).schPend = true →
      Does (.frameStart e) s fun t => (t.engOf e).frameAt = s.dev.now ∧ (t.engOf e).len = s.dev.get (LE_FRAME_LEN e) ∧
          (t.engOf e).ofs = s.dev.get (LE_FOFS_OFS e) ∧ t.get (LE_CTL_SCHBANK e) = 1 - s.dev.get (LE_CTL_SCHBANK e) ∧
          t.pend (867 + 4 * e.val) = true ∧ t = { s.dev with regs := t.regs, eng := t.eng, evs := t.evs } ∧ sameRegs
          s.dev t ((LE_CTL e :: LE_EVT e :: evRegs (867 + 4 * e.val)))) ∧
  (∀ (s : State) (e : Fin 8) (k : Fin 24) (i : Fin 64) (b : Nat), s.dev.entryNow e i = true → (s.dev.schedEntry e
      (s.dev.get (LE_CTL_SCHBANK e)) i).kind = 1 → (s.dev.schedEntry e (s.dev.get (LE_CTL_SCHBANK e)) i).loop = k.val
      → 8 ≤ k.val → s.dev.commitDue e k = false → b = s.dev.formeBank e k → s.dev.loopEn e b k = true → (s.dev.loopOf
      e k).memStop = false → (s.dev.loopOf e k).stop = false → s.dev.regionsOf e b k 0 ≠ [] → s.dev.loopM e b k = 1 →
      s.dev.dest e b k 0 0 = 0 →
      Does (.loopRun e i none) s fun t => t.reg (LE_OUTTS e k) = w32 (s.dev.now + s.dev.outc e b k + 2) ∧ (t.loopOf e
          k).delivered = true ∧ (t.loopOf e k).ranAt = some s.dev.now ∧ t.get (LE_LSTAT_NOCLASS e k) = 0) ∧
  (∀ (s : State) (e : Fin 8) (k : Fin 24) (i : Fin 64) (ofs : Fin 65536), s.dev.entryNow e i = true →
      (s.dev.schedEntry e (s.dev.get (LE_CTL_SCHBANK e)) i).kind = 1 → (s.dev.schedEntry e (s.dev.get (LE_CTL_SCHBANK
      e)) i).loop = k.val → 8 ≤ k.val → s.dev.loopEn e (s.dev.formeBank e k) k = true → (s.dev.loopOf e k).memStop =
      false → (s.dev.loopOf e k).stop = false →
      Does (.loopRun e i (some ofs)) s fun t => t.get (LE_STAT_MEMADDR e) = ofs.val ∧ t.get (LE_LSTAT_SUB e k) = 3 ∧
          (t.loopOf e k).memStop = true ∧ t.pend (866 + 4 * e.val) = true) ∧
  (∀ (s : State) (e : Fin 8) (k : Fin 24), s.dev.sys.logicOn = true → (s.dev.loopOf e k).impl ≠ 0 → 8 ≤ k.val →
      s.dev.descF e (s.dev.formeBank e k) k 0 28 2 = 0 →
      Does (.implausible e k) s fun t => t.get (LE_LSTAT_SUB e k) = 1 ∧ t.pend (864 + 4 * e.val) = true ∧ (t.loopOf e
          k).impl = 0 ∧ t = { s.dev with regs := t.regs, loops := t.loops, evs := t.evs } ∧ sameRegs s.dev t
          ((LE_LSTAT e k :: LE_EVT e :: evRegs (864 + 4 * e.val)))) ∧
  (∀ (s : State) (e : Fin 8) (k : Fin 24), s.dev.sys.logicOn = true → (s.dev.loopOf e k).inval = true → 8 ≤ k.val →
      s.dev.descF e (s.dev.formeBank e k) k 0 28 2 = 0 →
      Does (.invalidTooLong e k) s fun t => t.get (LE_LSTAT_SUB e k) = 2 ∧ t.pend (864 + 4 * e.val) = true ∧ (t.loopOf
          e k).inval = false ∧ t = { s.dev with regs := t.regs, loops := t.loops, evs := t.evs } ∧ sameRegs s.dev t
          ((LE_LSTAT e k :: LE_EVT e :: evRegs (864 + 4 * e.val)))) ∧
  (∀ (s : State) (e : Fin 8), s.dev.sys.logicOn = true → s.dev.get (LE_STAT_RUN e) = 1 → (s.dev.engOf e).frameAt ≤
      s.dev.now → s.dev.now < (s.dev.engOf e).frameAt + 32 →
      Does (.shareTrimUpdate e) s fun t => (t.engOf e).shares = [])

/-- Setting EN starts the engine or records SCHERR; a checked schedule commit waits for the frame start; loop commits
are recorded; a galley write stores the word and clears PROVED; a proof starts or is refused with its cause, and its
passed end sets PROVED and raises LE_BANK; references are staged and committed; AUTO ends HOLD; an event routed to an
engine whose loop is deaf is acknowledged. (R216, R224, R229, R232, R235, R236, R237, R238, R292) -/
def Obligations.LoopSetup : Prop :=
  (∀ (s : State) (e : Fin 8), s.dev.sys.logicOn = true → s.dev.schedErr e (s.dev.get (LE_CTL_SCHBANK e)) = 0 →
      Does (.engineEnable .debug e true) s fun t => t.get (LE_CTL_EN e) = 1 ∧ t.get (LE_STAT_RUN e) = 1 ∧ t.get
          (LE_STAT_SCHERR e) = 0 ∧ t = { s.dev with regs := t.regs } ∧ sameRegs s.dev t ([LE_CTL e, LE_STAT e])) ∧
  (∀ (s : State) (e : Fin 8), s.dev.sys.logicOn = true → s.dev.schedErr e (s.dev.get (LE_CTL_SCHBANK e)) ≠ 0 →
      Does (.engineEnable .debug e true) s fun t => t.get (LE_STAT_SCHERR e) = s.dev.schedErr e (s.dev.get
          (LE_CTL_SCHBANK e)) ∧ t = { s.dev with regs := t.regs } ∧ sameRegs s.dev t ([LE_STAT e])) ∧
  (∀ (s : State) (e : Fin 8), s.dev.sys.logicOn = true → s.dev.schedErr e (1 - s.dev.get (LE_CTL_SCHBANK e)) = 0 →
      Does (.scheduleCommit .debug e true) s fun t => (t.engOf e).schPend = true ∧ t.get (LE_STAT_SCHERR e) = 0 ∧ t =
          { s.dev with regs := t.regs, eng := t.eng } ∧ sameRegs s.dev t ([LE_STAT e])) ∧
  (∀ (s : State) (e : Fin 8) (m : Fin 16777216), s.dev.sys.logicOn = true →
      Does (.loopCommit .debug e m) s fun t => (t.engOf e).commits = (s.dev.engOf e).commits ||| m.val ∧ t =
          { s.dev with eng := t.eng }) ∧
  (∀ (s : State) (e : Fin 8) (b : Fin 2) (k : Fin 24) (j : Fin 32) (w : Word), s.dev.sys.logicOn = true →
      s.dev.formeBank e k ≠ b.val → (s.dev.engOf e).proof = none →
      Does (.galleyWrite .debug e b ⟨128 + 32 * k.val + j.val, by omega⟩ w) s fun t => t.reg (bankBase e b + 0x200 +
          0x80 * k.val + 4 * j.val) = w ∧ (t.get (LE_PROVED_PROVED e)).testBit k = false ∧ t =
          { s.dev with regs := t.regs } ∧ sameRegs s.dev t ([LE_PROVED e, bankBase e b + 0x200 + 0x80 * k.val + 4 *
          j.val])) ∧
  (∀ (s : State) (e : Fin 8) (b : Fin 2) (k : Fin 24) (j : Fin 32) (w : Word) (p : Fin 5), s.dev.sys.logicOn = true →
      s.dev.engineRights (.pair p) e = true → s.dev.formeBank e k = b.val → s.dev.loopEn e b k = true →
      Does (.galleyWrite (.pair p) e b ⟨128 + 32 * k.val + j.val, by omega⟩ w) s fun t => t.reg (bankBase e b + 0x200
          + 0x80 * k.val + 4 * j.val) = s.dev.reg (bankBase e b + 0x200 + 0x80 * k.val + 4 * j.val) ∧ t.loops =
          s.dev.loops) ∧
  (∀ (s : State) (e : Fin 8) (k : Fin 24) (n : Fin 65536), s.dev.sys.logicOn = true → s.dev.proofRefusal e k = 0 →
      Does (.proofStart .debug e true n ⟨k.val, by omega⟩) s fun t => (t.engOf e).proof = some
          { loop := k.val, n := max 1 n.val } ∧ t.get (LE_STAT_PRFBUSY e) = 1 ∧ t.get (LE_PROOFRES_RES e) = 0 ∧ t.get
          (LE_PROOFRES_LOOP e) = k.val ∧ t = { s.dev with regs := t.regs, eng := t.eng } ∧ sameRegs s.dev t ([LE_PROOF
          e, LE_STAT e, LE_PROOFRES e])) ∧
  (∀ (s : State) (e : Fin 8) (k : Fin 24) (n : Fin 65536), s.dev.sys.logicOn = true → (s.dev.engOf e).proof ≠ none →
      Does (.proofStart .debug e true n ⟨k.val, by omega⟩) s fun t => t.get (LE_PROOFRES_RES e) = 3 ∧ t.get
          (LE_PROOFRES_CAUSE e) = 1 ∧ t = { s.dev with regs := t.regs } ∧ sameRegs s.dev t ([LE_PROOF e, LE_PROOFRES
          e])) ∧
  (∀ (s : State) (e : Fin 8) (p : ProofH), s.dev.sys.logicOn = true → (s.dev.engOf e).proof = some p → p.cause = 0 →
      p.n ≤ p.done → p.loop < 24 →
      Does (.proofEnd e) s fun t => (t.engOf e).proof = none ∧ t.get (LE_PROOFRES_RES e) = 1 ∧ (t.get
          (LE_PROVED_PROVED e)).testBit p.loop = true ∧ t.pend (867 + 4 * e.val) = true ∧ t =
          { s.dev with regs := t.regs, eng := t.eng, evs := t.evs } ∧ sameRegs s.dev t ((LE_STAT e :: LE_PROOFRES e ::
          LE_PROVED e :: LE_EVT e :: evRegs (867 + 4 * e.val)))) ∧
  (∀ (s : State) (e : Fin 8) (k : Fin 24), s.dev.sys.logicOn = true → (s.dev.loopOf e k).refWr = none →
      Does (.refgo .debug e k) s fun t => t.get (LE_LCTL_STAGED e k) = 0 ∧ (t.loopOf e k).refGo = some (s.dev.now,
          [s.dev.sword (LE_REF0 e k), s.dev.sword (LE_REF1 e k)]) ∧ t =
          { s.dev with regs := t.regs, loops := t.loops } ∧ sameRegs s.dev t ([LE_LCTL e k])) ∧
  (∀ (s : State) (e : Fin 8) (k : Fin 24) (w : Word), s.dev.sys.logicOn = true →
      Does (.refStage .debug e k 1 w) s fun t => t.reg (LE_REF1 e k) = w ∧ t.get (LE_LCTL_STAGED e k) = 1 ∧ t =
          { s.dev with regs := t.regs, loops := t.loops } ∧ sameRegs s.dev t ([LE_LCTL e k, LE_REF1 e k])) ∧
  (∀ (s : State) (e : Fin 8) (k : Fin 24), s.dev.sys.logicOn = true →
      Does (.autoManual .debug e k true) s fun t => t.get (LE_LCTL_AUTO e k) = 1 ∧ t.get (LE_LSTAT_HOLD e k) = 0 ∧
          (t.loopOf e k).stop = false ∧ t = { s.dev with regs := t.regs, loops := t.loops } ∧ sameRegs s.dev t
          ([LE_LCTL e k, LE_LSTAT e k])) ∧
  (∀ (s : State) (n : Fin 1024), s.dev.sys.logicOn = true → s.dev.pend n = true → s.dev.get (EVC_CFG_EN n) = 1 →
      s.dev.get (EVC_CFG_TARGET n) = 7 → s.dev.engineDeaf (s.dev.get (EVC_CFG_ENG n)) (s.dev.get (EVC_CFG_LOOP n)) =
      true → (s.dev.evOf n).at_ ≠ s.dev.now →
      Does (.engineEventHold n) s fun t => t.pend n = false ∧ t = { s.dev with regs := t.regs, evs := t.evs } ∧
          sameRegs s.dev t ([EVC_PEND (n.val / 32)]))

/-- A permitted GO starts a session with CWPTR 0; one not permitted sets REFUSED with its cause; ABORT ends a RING
session DONE and another ABORTED with cause 10; a clock of a session without strike, capture or RING makes it DONE; a
struck axis in FAULT aborts it with cause 12. (R242, R246, R252, R253) -/
def Obligations.StrikeSessions : Prop :=
  (∀ (s : State) (i : Fin 4), s.dev.sys.logicOn = true → s.dev.get (SCU_SCTL_OWN i) = 0 → s.dev.get (SCU_SCTL_RING i)
      = 0 → s.dev.startCause i = 0 →
      Does (.sessionStart .debug i false 0) s fun t => t.get (SCU_SSTAT_STATE i) = 1 ∧ t.get (SCU_SSTAT_CAUSE i) = 0 ∧
          t.reg (SCU_CWPTR i) = 0 ∧ (t.sessOf i).go = s.dev.now ∧ (t.sessOf i).strikeOn = true ∧ t =
          { s.dev with regs := t.regs, sess := t.sess } ∧ sameRegs s.dev t ([SCU_SCTL i, SCU_SSTAT i, SCU_CWPTR i])) ∧
  (∀ (s : State) (i : Fin 4), s.dev.sys.logicOn = true → s.dev.get (SCU_SCTL_OWN i) = 0 → s.dev.get (SCU_SCTL_RING i)
      = 0 → 2 ≤ s.dev.startCause i → s.dev.startCause i < 16 →
      Does (.sessionStart .debug i false 0) s fun t => t.get (SCU_SSTAT_STATE i) = 4 ∧ t.get (SCU_SSTAT_CAUSE i) =
          s.dev.startCause i ∧ t = { s.dev with regs := t.regs } ∧ sameRegs s.dev t ([SCU_SCTL i, SCU_SSTAT i])) ∧
  (∀ (s : State) (i : Fin 4), s.dev.sys.logicOn = true → s.dev.get (SCU_SSTAT_STATE i) = 1 →
      Does (.sessionAbort .debug i false false 0) s fun t => t.get (SCU_SSTAT_STATE i) = 3 ∧ t.get (SCU_SSTAT_CAUSE i)
          = 10 ∧ t.pend 1018 = true ∧ (t.sessOf i).strikeOn = false ∧ t =
          { s.dev with regs := t.regs, sess := t.sess, evs := t.evs } ∧ sameRegs s.dev t ((SCU_SCTL i :: SCU_SSTAT i
          :: SCU_EVT :: evRegs 1018))) ∧
  (∀ (s : State) (i : Fin 4), s.dev.sys.logicOn = true → s.dev.get (SCU_SSTAT_STATE i) = 1 →
      Does (.sessionAbort .debug i true true 0) s fun t => t.get (SCU_SSTAT_STATE i) = 2 ∧ t.get (SCU_SSTAT_CAUSE i) =
          10 ∧ (t.sessOf i).capOn = false ∧ t = { s.dev with regs := t.regs, sess := t.sess, evs := t.evs } ∧ sameRegs
          s.dev t ((SCU_SCTL i :: SCU_SSTAT i :: SCU_EVT :: evRegs 1018))) ∧
  (∀ (s : State) (i : Fin 4), s.dev.clockNow i = true → s.dev.get (SCU_SSTAT_STATE i) = 1 → s.dev.get (SCU_STGT_POINT
      i) = 0 → (s.dev.sessOf i).strikeOn = false → (s.dev.sessOf i).capOn = false → s.dev.get (SCU_SCTL_RING i) = 0 →
      Does (.sampleClock i) s fun t => t.get (SCU_SSTAT_STATE i) = 2 ∧ (t.sessOf i).clocks = (s.dev.sessOf i).clocks +
          1 ∧ t.pend 1018 = true ∧ t = { s.dev with regs := t.regs, sess := t.sess, evs := t.evs } ∧ sameRegs s.dev t
          ((SCU_SSTAT i :: SCU_EVT :: evRegs 1018))) ∧
  (∀ (s : State) (i : Fin 4) (a : Fin 64), s.dev.sys.logicOn = true → s.dev.get (SCU_SSTAT_STATE i) = 1 → s.dev.get
      (SCU_STGT_POINT i) ≠ 0 → s.dev.sessAxis i = some a.val → s.dev.axSt a = .fault →
      Does (.sessionFaultAbort i) s fun t => t.get (SCU_SSTAT_STATE i) = 3 ∧ t.get (SCU_SSTAT_CAUSE i) = 12 ∧ t.pend
          1018 = true ∧ t = { s.dev with regs := t.regs, sess := t.sess, evs := t.evs } ∧ sameRegs s.dev t ((SCU_SSTAT
          i :: SCU_EVT :: evRegs 1018)))

/-- Every integer register instruction writes its tabled result for every operand into gd alone, g0 staying 0, goes on
by one word and changes nothing else; no operand raises an exception: a divisor of 0 gives all ones or the dividend,
and the most negative quotient wraps. (R255, R259) -/
def Obligations.LitosArithmetic : Prop :=
  (∀ (s : State) (p : Fin 5) (gd ga gb : Fin 32), s.dev.sys.logicOn = true → s.dev.runs p = true →
      Does (.add p gd ga gb) s fun t => Retires s.dev t p ((s.dev.pairOf p).pc + 4) gd (s.dev.gr p ga + s.dev.gr p
          gb)) ∧
  (∀ (s : State) (p : Fin 5) (gd ga gb : Fin 32), s.dev.sys.logicOn = true → s.dev.runs p = true →
      Does (.sub p gd ga gb) s fun t => Retires s.dev t p ((s.dev.pairOf p).pc + 4) gd (s.dev.gr p ga - s.dev.gr p
          gb)) ∧
  (∀ (s : State) (p : Fin 5) (gd ga gb : Fin 32), s.dev.sys.logicOn = true → s.dev.runs p = true →
      Does (.and p gd ga gb) s fun t => Retires s.dev t p ((s.dev.pairOf p).pc + 4) gd (s.dev.gr p ga &&& s.dev.gr p
          gb)) ∧
  (∀ (s : State) (p : Fin 5) (gd ga gb : Fin 32), s.dev.sys.logicOn = true → s.dev.runs p = true →
      Does (.or p gd ga gb) s fun t => Retires s.dev t p ((s.dev.pairOf p).pc + 4) gd (s.dev.gr p ga ||| s.dev.gr p
          gb)) ∧
  (∀ (s : State) (p : Fin 5) (gd ga gb : Fin 32), s.dev.sys.logicOn = true → s.dev.runs p = true →
      Does (.xor p gd ga gb) s fun t => Retires s.dev t p ((s.dev.pairOf p).pc + 4) gd (s.dev.gr p ga ^^^ s.dev.gr p
          gb)) ∧
  (∀ (s : State) (p : Fin 5) (gd ga gb : Fin 32), s.dev.sys.logicOn = true → s.dev.runs p = true →
      Does (.nor p gd ga gb) s fun t => Retires s.dev t p ((s.dev.pairOf p).pc + 4) gd (~~~(s.dev.gr p ga ||| s.dev.gr
          p gb))) ∧
  (∀ (s : State) (p : Fin 5) (gd ga gb : Fin 32), s.dev.sys.logicOn = true → s.dev.runs p = true →
      Does (.slt p gd ga gb) s fun t => (Retires s.dev t p ((s.dev.pairOf p).pc + 4) gd ((if (s.dev.gr p ga).slt
          (s.dev.gr p gb) = true then 1 else 0)))) ∧
  (∀ (s : State) (p : Fin 5) (gd ga gb : Fin 32), s.dev.sys.logicOn = true → s.dev.runs p = true →
      Does (.sltu p gd ga gb) s fun t => (Retires s.dev t p ((s.dev.pairOf p).pc + 4) gd ((if (s.dev.gr p ga).ult
          (s.dev.gr p gb) = true then 1 else 0)))) ∧
  (∀ (s : State) (p : Fin 5) (gd ga gb : Fin 32), s.dev.sys.logicOn = true → s.dev.runs p = true →
      Does (.sll p gd ga gb) s fun t => Retires s.dev t p ((s.dev.pairOf p).pc + 4) gd (s.dev.gr p ga <<< ((s.dev.gr p
          gb).toNat % 32))) ∧
  (∀ (s : State) (p : Fin 5) (gd ga gb : Fin 32), s.dev.sys.logicOn = true → s.dev.runs p = true →
      Does (.srl p gd ga gb) s fun t => Retires s.dev t p ((s.dev.pairOf p).pc + 4) gd (s.dev.gr p ga >>> ((s.dev.gr p
          gb).toNat % 32))) ∧
  (∀ (s : State) (p : Fin 5) (gd ga gb : Fin 32), s.dev.sys.logicOn = true → s.dev.runs p = true →
      Does (.sra p gd ga gb) s fun t => Retires s.dev t p ((s.dev.pairOf p).pc + 4) gd ((s.dev.gr p ga).sshiftRight
          ((s.dev.gr p gb).toNat % 32))) ∧
  (∀ (s : State) (p : Fin 5) (gd ga gb : Fin 32), s.dev.sys.logicOn = true → s.dev.runs p = true →
      Does (.mul p gd ga gb) s fun t => Retires s.dev t p ((s.dev.pairOf p).pc + 4) gd (BitVec.ofInt 32 ((s.dev.gr p
          ga).toInt * (s.dev.gr p gb).toInt))) ∧
  (∀ (s : State) (p : Fin 5) (gd ga gb : Fin 32), s.dev.sys.logicOn = true → s.dev.runs p = true →
      Does (.mulh p gd ga gb) s fun t => Retires s.dev t p ((s.dev.pairOf p).pc + 4) gd (BitVec.ofInt 32 ((s.dev.gr p
          ga).toInt * (s.dev.gr p gb).toInt / 2 ^ 32))) ∧
  (∀ (s : State) (p : Fin 5) (gd ga gb : Fin 32), s.dev.sys.logicOn = true → s.dev.runs p = true →
      Does (.mulhu p gd ga gb) s fun t => Retires s.dev t p ((s.dev.pairOf p).pc + 4) gd (BitVec.ofNat 32 ((s.dev.gr p
          ga).toNat * (s.dev.gr p gb).toNat / 2 ^ 32))) ∧
  (∀ (s : State) (p : Fin 5) (gd ga gb : Fin 32), s.dev.sys.logicOn = true → s.dev.runs p = true →
      Does (.div p gd ga gb) s fun t => (Retires s.dev t p ((s.dev.pairOf p).pc + 4) gd (if s.dev.gr p gb = 0 then
          0xFFFFFFFF else BitVec.ofInt 32 (Int.tdiv (s.dev.gr p ga).toInt (s.dev.gr p gb).toInt)))) ∧
  (∀ (s : State) (p : Fin 5) (gd ga gb : Fin 32), s.dev.sys.logicOn = true → s.dev.runs p = true →
      Does (.divu p gd ga gb) s fun t => (Retires s.dev t p ((s.dev.pairOf p).pc + 4) gd (if s.dev.gr p gb = 0 then
          0xFFFFFFFF else BitVec.ofNat 32 ((s.dev.gr p ga).toNat / (s.dev.gr p gb).toNat)))) ∧
  (∀ (s : State) (p : Fin 5) (gd ga gb : Fin 32), s.dev.sys.logicOn = true → s.dev.runs p = true →
      Does (.rem p gd ga gb) s fun t => Retires s.dev t p ((s.dev.pairOf p).pc + 4) gd (BitVec.ofInt 32 (Int.tmod
          (s.dev.gr p ga).toInt (s.dev.gr p gb).toInt))) ∧
  (∀ (s : State) (p : Fin 5) (gd ga gb : Fin 32), s.dev.sys.logicOn = true → s.dev.runs p = true →
      Does (.remu p gd ga gb) s fun t => Retires s.dev t p ((s.dev.pairOf p).pc + 4) gd (BitVec.ofNat 32 ((s.dev.gr p
          ga).toNat % (s.dev.gr p gb).toNat))) ∧
  (∀ (s : State) (p : Fin 5) (gd ga gb : Fin 32), s.dev.sys.logicOn = true → s.dev.runs p = true →
      Does (.min p gd ga gb) s fun t => (Retires s.dev t p ((s.dev.pairOf p).pc + 4) gd (if (s.dev.gr p ga).toInt ≤
          (s.dev.gr p gb).toInt then s.dev.gr p ga else s.dev.gr p gb))) ∧
  (∀ (s : State) (p : Fin 5) (gd ga gb : Fin 32), s.dev.sys.logicOn = true → s.dev.runs p = true →
      Does (.max p gd ga gb) s fun t => (Retires s.dev t p ((s.dev.pairOf p).pc + 4) gd (if (s.dev.gr p ga).toInt ≤
          (s.dev.gr p gb).toInt then s.dev.gr p gb else s.dev.gr p ga)))

/-- Each immediate instruction, shift by a constant, CLZ and LUI writes its tabled result into gd alone and goes on by
one word: signed immediates are sign extended, logical ones zero extended, CLZ counts the zeros above the highest one.
(R259) -/
def Obligations.LitosImmediates : Prop :=
  (∀ (s : State) (p : Fin 5) (gd ga sh : Fin 32), s.dev.sys.logicOn = true → s.dev.runs p = true →
      Does (.slli p gd ga sh) s fun t => Retires s.dev t p ((s.dev.pairOf p).pc + 4) gd (s.dev.gr p ga <<< sh.val)) ∧
  (∀ (s : State) (p : Fin 5) (gd ga sh : Fin 32), s.dev.sys.logicOn = true → s.dev.runs p = true →
      Does (.srli p gd ga sh) s fun t => Retires s.dev t p ((s.dev.pairOf p).pc + 4) gd (s.dev.gr p ga >>> sh.val)) ∧
  (∀ (s : State) (p : Fin 5) (gd ga sh : Fin 32), s.dev.sys.logicOn = true → s.dev.runs p = true →
      Does (.srai p gd ga sh) s fun t => Retires s.dev t p ((s.dev.pairOf p).pc + 4) gd ((s.dev.gr p ga).sshiftRight
          sh.val)) ∧
  (∀ (s : State) (p : Fin 5) (gd ga : Fin 32) (imm : BitVec 16), s.dev.sys.logicOn = true → s.dev.runs p = true →
      Does (.addi p gd ga imm) s fun t => Retires s.dev t p ((s.dev.pairOf p).pc + 4) gd (s.dev.gr p ga +
          imm.signExtend 32)) ∧
  (∀ (s : State) (p : Fin 5) (gd ga : Fin 32) (imm : BitVec 16), s.dev.sys.logicOn = true → s.dev.runs p = true →
      Does (.slti p gd ga imm) s fun t => (Retires s.dev t p ((s.dev.pairOf p).pc + 4) gd ((if (s.dev.gr p ga).slt
          (imm.signExtend 32) = true then 1 else 0)))) ∧
  (∀ (s : State) (p : Fin 5) (gd ga : Fin 32) (imm : BitVec 16), s.dev.sys.logicOn = true → s.dev.runs p = true →
      Does (.sltiu p gd ga imm) s fun t => (Retires s.dev t p ((s.dev.pairOf p).pc + 4) gd ((if (s.dev.gr p ga).ult
          (imm.signExtend 32) = true then 1 else 0)))) ∧
  (∀ (s : State) (p : Fin 5) (gd ga : Fin 32) (imm : BitVec 16), s.dev.sys.logicOn = true → s.dev.runs p = true →
      Does (.andi p gd ga imm) s fun t => Retires s.dev t p ((s.dev.pairOf p).pc + 4) gd (s.dev.gr p ga &&&
          imm.zeroExtend 32)) ∧
  (∀ (s : State) (p : Fin 5) (gd ga : Fin 32) (imm : BitVec 16), s.dev.sys.logicOn = true → s.dev.runs p = true →
      Does (.ori p gd ga imm) s fun t => Retires s.dev t p ((s.dev.pairOf p).pc + 4) gd (s.dev.gr p ga |||
          imm.zeroExtend 32)) ∧
  (∀ (s : State) (p : Fin 5) (gd ga : Fin 32) (imm : BitVec 16), s.dev.sys.logicOn = true → s.dev.runs p = true →
      Does (.xori p gd ga imm) s fun t => Retires s.dev t p ((s.dev.pairOf p).pc + 4) gd (s.dev.gr p ga ^^^
          imm.zeroExtend 32)) ∧
  (∀ (s : State) (p : Fin 5) (gd : Fin 32) (imm : BitVec 16), s.dev.sys.logicOn = true → s.dev.runs p = true →
      Does (.lui p gd imm) s fun t => Retires s.dev t p ((s.dev.pairOf p).pc + 4) gd (imm.zeroExtend 32 <<< 16)) ∧
  (∀ (s : State) (p : Fin 5) (gd ga : Fin 32) (n : Fin 33), s.dev.sys.logicOn = true → s.dev.runs p = true → (s.dev.gr
      p ga).toNat < 2 ^ (32 - n.val) → (n.val < 32 → 2 ^ (31 - n.val) ≤ (s.dev.gr p ga).toNat) →
      Does (.clz p gd ga) s fun t => Retires s.dev t p ((s.dev.pairOf p).pc + 4) gd (BitVec.ofNat 32 n.val))

/-- Every branch goes to PC + 4 + 4 times its signed offset when its condition holds and to PC + 4 when not; J and JAL
go to PC + 4 + 4 times theirs, JAL with PC + 4 in g31; JALR goes to ga plus its immediate with the low bits clear,
with PC + 4 in gd, ga read first. A target where nothing is executed gives a bus error at the fetch, with EPC the
target and F set. (R261) -/
def Obligations.LitosBranches : Prop :=
  (∀ (s : State) (p : Fin 5) (ga gb : Fin 32) (off : BitVec 16), s.dev.sys.logicOn = true → s.dev.runs p = true →
      Does (.beq p ga gb off) s fun t => (Retires s.dev t p (if s.dev.gr p ga = s.dev.gr p gb then (s.dev.pairOf p).pc
          + 4 + off.signExtend 32 * 4 else (s.dev.pairOf p).pc + 4) 0 0)) ∧
  (∀ (s : State) (p : Fin 5) (ga gb : Fin 32) (off : BitVec 16), s.dev.sys.logicOn = true → s.dev.runs p = true →
      Does (.bne p ga gb off) s fun t => (Retires s.dev t p (if s.dev.gr p ga ≠ s.dev.gr p gb then (s.dev.pairOf p).pc
          + 4 + off.signExtend 32 * 4 else (s.dev.pairOf p).pc + 4) 0 0)) ∧
  (∀ (s : State) (p : Fin 5) (ga gb : Fin 32) (off : BitVec 16), s.dev.sys.logicOn = true → s.dev.runs p = true →
      Does (.blt p ga gb off) s fun t => (Retires s.dev t p (if (s.dev.gr p ga).toInt < (s.dev.gr p gb).toInt then
          (s.dev.pairOf p).pc + 4 + off.signExtend 32 * 4 else (s.dev.pairOf p).pc + 4) 0 0)) ∧
  (∀ (s : State) (p : Fin 5) (ga gb : Fin 32) (off : BitVec 16), s.dev.sys.logicOn = true → s.dev.runs p = true →
      Does (.bge p ga gb off) s fun t => (Retires s.dev t p (if (s.dev.gr p ga).toInt ≥ (s.dev.gr p gb).toInt then
          (s.dev.pairOf p).pc + 4 + off.signExtend 32 * 4 else (s.dev.pairOf p).pc + 4) 0 0)) ∧
  (∀ (s : State) (p : Fin 5) (ga gb : Fin 32) (off : BitVec 16), s.dev.sys.logicOn = true → s.dev.runs p = true →
      Does (.bltu p ga gb off) s fun t => (Retires s.dev t p (if (s.dev.gr p ga).toNat < (s.dev.gr p gb).toNat then
          (s.dev.pairOf p).pc + 4 + off.signExtend 32 * 4 else (s.dev.pairOf p).pc + 4) 0 0)) ∧
  (∀ (s : State) (p : Fin 5) (ga gb : Fin 32) (off : BitVec 16), s.dev.sys.logicOn = true → s.dev.runs p = true →
      Does (.bgeu p ga gb off) s fun t => (Retires s.dev t p (if (s.dev.gr p ga).toNat ≥ (s.dev.gr p gb).toNat then
          (s.dev.pairOf p).pc + 4 + off.signExtend 32 * 4 else (s.dev.pairOf p).pc + 4) 0 0)) ∧
  (∀ (s : State) (p : Fin 5) (off : BitVec 26), s.dev.sys.logicOn = true → s.dev.runs p = true →
      Does (.j p off) s fun t => Retires s.dev t p ((s.dev.pairOf p).pc + 4 + off.signExtend 32 * 4) 0 0) ∧
  (∀ (s : State) (p : Fin 5) (off : BitVec 26), s.dev.sys.logicOn = true → s.dev.runs p = true →
      Does (.jal p off) s fun t => Retires s.dev t p ((s.dev.pairOf p).pc + 4 + off.signExtend 32 * 4) 31
          ((s.dev.pairOf p).pc + 4)) ∧
  (∀ (s : State) (p : Fin 5) (gd ga : Fin 32) (imm : BitVec 16), s.dev.sys.logicOn = true → s.dev.runs p = true →
      Does (.jalr p gd ga imm) s fun t => Retires s.dev t p ((s.dev.gr p ga + imm.signExtend 32) &&& 0xFFFFFFFC) gd
          ((s.dev.pairOf p).pc + 4)) ∧
  (∀ (s : State) (p : Fin 5), s.dev.sys.logicOn = true → s.dev.runs p = true → ((s.dev.pairOf p).cwGet 0).getLsbD 2 =
      false → 0x40000 ≤ (s.dev.pairOf p).pc.toNat → ((s.dev.pairOf p).pc.toNat < 0x30000000 ∨ 0x34000000 ≤
      (s.dev.pairOf p).pc.toNat) →
      Does (.fetchFault p false) s fun t => Traps s.dev t p 4 7 false true (s.dev.pairOf p).pc)

/-- A load from memory the pair reaches extends what it reads, a store writes the low bytes of its register there and
nothing else, an atomic does both at once; a misaligned address takes an alignment exception and accesses nothing.
(R7, R260, R264, R270) -/
def Obligations.LitosMemory : Prop :=
  (∀ (s : State) (p : Fin 5) (gd ga : Fin 32) (imm : BitVec 16) (k : Nat), s.dev.sys.logicOn = true → s.dev.runs p =
      true → s.dev.ramKey (.pair p) (s.dev.effAddr p ga imm).toNat = some k → (s.dev.effAddr p ga imm).toNat <
      0x40000000 → (s.dev.effAddr p ga imm).toNat % 4 = 0 →
      Does (.lw p gd ga imm false) s fun t => Retires s.dev t p ((s.dev.pairOf p).pc + 4) gd (BitVec.ofNat 32 (memRead
          s.mem k 4))) ∧
  (∀ (s : State) (p : Fin 5) (gd ga : Fin 32) (imm : BitVec 16) (k : Nat), s.dev.sys.logicOn = true → s.dev.runs p =
      true → s.dev.ramKey (.pair p) (s.dev.effAddr p ga imm).toNat = some k → (s.dev.effAddr p ga imm).toNat <
      0x40000000 → (s.dev.effAddr p ga imm).toNat % 2 = 0 →
      Does (.lh p gd ga imm false) s fun t => Retires s.dev t p ((s.dev.pairOf p).pc + 4) gd ((BitVec.ofNat 16
          (memRead s.mem k 2)).signExtend 32)) ∧
  (∀ (s : State) (p : Fin 5) (gd ga : Fin 32) (imm : BitVec 16) (k : Nat), s.dev.sys.logicOn = true → s.dev.runs p =
      true → s.dev.ramKey (.pair p) (s.dev.effAddr p ga imm).toNat = some k → (s.dev.effAddr p ga imm).toNat <
      0x40000000 → (s.dev.effAddr p ga imm).toNat % 2 = 0 →
      Does (.lhu p gd ga imm false) s fun t => Retires s.dev t p ((s.dev.pairOf p).pc + 4) gd (BitVec.ofNat 32
          (memRead s.mem k 2))) ∧
  (∀ (s : State) (p : Fin 5) (gd ga : Fin 32) (imm : BitVec 16) (k : Nat), s.dev.sys.logicOn = true → s.dev.runs p =
      true → s.dev.ramKey (.pair p) (s.dev.effAddr p ga imm).toNat = some k → (s.dev.effAddr p ga imm).toNat <
      0x40000000 →
      Does (.lb p gd ga imm false) s fun t => Retires s.dev t p ((s.dev.pairOf p).pc + 4) gd ((BitVec.ofNat 8 (memRead
          s.mem k 1)).signExtend 32)) ∧
  (∀ (s : State) (p : Fin 5) (gd ga : Fin 32) (imm : BitVec 16) (k : Nat), s.dev.sys.logicOn = true → s.dev.runs p =
      true → s.dev.ramKey (.pair p) (s.dev.effAddr p ga imm).toNat = some k → (s.dev.effAddr p ga imm).toNat <
      0x40000000 →
      Does (.lbu p gd ga imm false) s fun t => Retires s.dev t p ((s.dev.pairOf p).pc + 4) gd (BitVec.ofNat 32
          (memRead s.mem k 1))) ∧
  (∀ (s : State) (p : Fin 5) (gs ga : Fin 32) (imm : BitVec 16) (k : Nat), s.dev.sys.logicOn = true → s.dev.runs p =
      true → s.dev.ramKey (.pair p) (s.dev.effAddr p ga imm).toNat = some k → (s.dev.effAddr p ga imm).toNat <
      0x103C0000 → (s.dev.effAddr p ga imm).toNat % 4 = 0 →
      DoesMem (.sw p gs ga imm) s (memWrite s.mem k 4 (s.dev.gr p gs).toNat) fun t => Retires s.dev t p ((s.dev.pairOf
          p).pc + 4) 0 0) ∧
  (∀ (s : State) (p : Fin 5) (gs ga : Fin 32) (imm : BitVec 16) (k : Nat), s.dev.sys.logicOn = true → s.dev.runs p =
      true → s.dev.ramKey (.pair p) (s.dev.effAddr p ga imm).toNat = some k → (s.dev.effAddr p ga imm).toNat <
      0x103C0000 → (s.dev.effAddr p ga imm).toNat % 2 = 0 →
      DoesMem (.sh p gs ga imm) s (memWrite s.mem k 2 (s.dev.gr p gs).toNat) fun t => Retires s.dev t p ((s.dev.pairOf
          p).pc + 4) 0 0) ∧
  (∀ (s : State) (p : Fin 5) (gs ga : Fin 32) (imm : BitVec 16) (k : Nat), s.dev.sys.logicOn = true → s.dev.runs p =
      true → s.dev.ramKey (.pair p) (s.dev.effAddr p ga imm).toNat = some k → (s.dev.effAddr p ga imm).toNat <
      0x103C0000 →
      DoesMem (.sb p gs ga imm) s (memWrite s.mem k 1 (s.dev.gr p gs).toNat) fun t => Retires s.dev t p ((s.dev.pairOf
          p).pc + 4) 0 0) ∧
  (∀ (s : State) (p : Fin 5) (gd ga gb : Fin 32) (k : Nat), s.dev.sys.logicOn = true → s.dev.runs p = true →
      s.dev.ramKey (.pair p) (s.dev.gr p ga).toNat = some k → inEcc (s.dev.gr p ga).toNat = true → (s.dev.gr p
      ga).toNat < 0x103C0000 → (s.dev.gr p ga).toNat % 4 = 0 →
      DoesMem (.aswap p gd ga gb false) s (memWrite s.mem k 4 (s.dev.gr p gb).toNat) fun t => Retires s.dev t p
          ((s.dev.pairOf p).pc + 4) gd (BitVec.ofNat 32 (memRead s.mem k 4))) ∧
  (∀ (s : State) (p : Fin 5) (gd ga gb : Fin 32) (k : Nat), s.dev.sys.logicOn = true → s.dev.runs p = true →
      s.dev.ramKey (.pair p) (s.dev.gr p ga).toNat = some k → inEcc (s.dev.gr p ga).toNat = true → (s.dev.gr p
      ga).toNat < 0x103C0000 → (s.dev.gr p ga).toNat % 4 = 0 →
      DoesMem (.aadd p gd ga gb false) s (memWrite s.mem k 4 (BitVec.ofNat 32 (memRead s.mem k 4) + s.dev.gr p
          gb).toNat) fun t => Retires s.dev t p ((s.dev.pairOf p).pc + 4) gd (BitVec.ofNat 32 (memRead s.mem k 4))) ∧
  (∀ (s : State) (p : Fin 5) (gd ga gb : Fin 32) (k : Nat), s.dev.sys.logicOn = true → s.dev.runs p = true →
      s.dev.ramKey (.pair p) (s.dev.gr p ga).toNat = some k → inEcc (s.dev.gr p ga).toNat = true → (s.dev.gr p
      ga).toNat < 0x103C0000 → (s.dev.gr p ga).toNat % 4 = 0 →
      DoesMem (.aand p gd ga gb false) s (memWrite s.mem k 4 (BitVec.ofNat 32 (memRead s.mem k 4) &&& s.dev.gr p
          gb).toNat) fun t => Retires s.dev t p ((s.dev.pairOf p).pc + 4) gd (BitVec.ofNat 32 (memRead s.mem k 4))) ∧
  (∀ (s : State) (p : Fin 5) (gd ga gb : Fin 32) (k : Nat), s.dev.sys.logicOn = true → s.dev.runs p = true →
      s.dev.ramKey (.pair p) (s.dev.gr p ga).toNat = some k → inEcc (s.dev.gr p ga).toNat = true → (s.dev.gr p
      ga).toNat < 0x103C0000 → (s.dev.gr p ga).toNat % 4 = 0 →
      DoesMem (.aor p gd ga gb false) s (memWrite s.mem k 4 (BitVec.ofNat 32 (memRead s.mem k 4) ||| s.dev.gr p
          gb).toNat) fun t => Retires s.dev t p ((s.dev.pairOf p).pc + 4) gd (BitVec.ofNat 32 (memRead s.mem k 4))) ∧
  (∀ (s : State) (p : Fin 5) (gd ga gb : Fin 32) (k : Nat), s.dev.sys.logicOn = true → s.dev.runs p = true →
      s.dev.ramKey (.pair p) (s.dev.gr p ga).toNat = some k → inEcc (s.dev.gr p ga).toNat = true → (s.dev.gr p
      ga).toNat < 0x103C0000 → (s.dev.gr p ga).toNat % 4 = 0 →
      DoesMem (.acas p gd ga gb false) s (memWrite s.mem k 4 (if BitVec.ofNat 32 (memRead s.mem k 4) = s.dev.gr p gd
          then s.dev.gr p gb else BitVec.ofNat 32 (memRead s.mem k 4)).toNat) fun t => Retires s.dev t p
          ((s.dev.pairOf p).pc + 4) gd (BitVec.ofNat 32 (memRead s.mem k 4))) ∧
  (∀ (s : State) (p : Fin 5) (gd ga : Fin 32) (imm : BitVec 16), s.dev.sys.logicOn = true → s.dev.runs p = true →
      ((s.dev.pairOf p).cwGet 0).getLsbD 2 = false → s.dev.superv p = true → (s.dev.effAddr p ga imm).toNat % 4 ≠ 0 →
      Does (.lw p gd ga imm false) s fun t => Traps s.dev t p 3 0 false false (s.dev.effAddr p ga imm)) ∧
  (∀ (s : State) (p : Fin 5) (gd ga : Fin 32) (imm : BitVec 16), s.dev.sys.logicOn = true → s.dev.runs p = true →
      ((s.dev.pairOf p).cwGet 0).getLsbD 2 = false → s.dev.superv p = true → (s.dev.effAddr p ga imm).toNat % 4 ≠ 0 →
      Does (.sw p gd ga imm) s fun t => Traps s.dev t p 3 0 true false (s.dev.effAddr p ga imm))

/-- MULA, MAC, MSU, MACU, ACLD, FMAC with a shift to the right, BMAC and ACMOV write their accumulator as tabled,
saturated to 64 bits where the table says so with ACSTAT.SAT set by a saturation; ACRD, ACLO, ACHI, BEXP of 0 and
BMANT write gd. (R262, R218) -/
def Obligations.LitosAccumulators : Prop :=
  (∀ (s : State) (p : Fin 5) (acd : Fin 4) (ga gb : Fin 32), s.dev.sys.logicOn = true → s.dev.runs p = true →
      Does (.mula p acd ga gb) s fun t => AccRetires s.dev t p acd (BitVec.ofInt 64 ((s.dev.gr p ga).toInt * (s.dev.gr
          p gb).toInt)) (false)) ∧
  (∀ (s : State) (p : Fin 5) (acd : Fin 4) (ga gb : Fin 32), s.dev.sys.logicOn = true → s.dev.runs p = true →
      Does (.mac p acd ga gb) s fun t => AccRetires s.dev t p acd (BitVec.ofInt 64 (max (-(2 : Int) ^ 63) (min ((2 :
          Int) ^ 63 - 1) (s.dev.ac p acd + (s.dev.gr p ga).toInt * (s.dev.gr p gb).toInt)))) (decide ((s.dev.ac p acd
          + (s.dev.gr p ga).toInt * (s.dev.gr p gb).toInt) ≠ max (-(2 : Int) ^ 63) (min ((2 : Int) ^ 63 - 1) (s.dev.ac
          p acd + (s.dev.gr p ga).toInt * (s.dev.gr p gb).toInt))))) ∧
  (∀ (s : State) (p : Fin 5) (acd : Fin 4) (ga gb : Fin 32), s.dev.sys.logicOn = true → s.dev.runs p = true →
      Does (.msu p acd ga gb) s fun t => AccRetires s.dev t p acd (BitVec.ofInt 64 (max (-(2 : Int) ^ 63) (min ((2 :
          Int) ^ 63 - 1) (s.dev.ac p acd - (s.dev.gr p ga).toInt * (s.dev.gr p gb).toInt)))) (decide ((s.dev.ac p acd
          - (s.dev.gr p ga).toInt * (s.dev.gr p gb).toInt) ≠ max (-(2 : Int) ^ 63) (min ((2 : Int) ^ 63 - 1) (s.dev.ac
          p acd - (s.dev.gr p ga).toInt * (s.dev.gr p gb).toInt))))) ∧
  (∀ (s : State) (p : Fin 5) (acd : Fin 4) (ga gb : Fin 32), s.dev.sys.logicOn = true → s.dev.runs p = true →
      Does (.macu p acd ga gb) s fun t => AccRetires s.dev t p acd (BitVec.ofInt 64 (s.dev.ac p acd + ((s.dev.gr p
          ga).toNat : Int) * (s.dev.gr p gb).toNat)) (false)) ∧
  (∀ (s : State) (p : Fin 5) (acd : Fin 4) (ga gb : Fin 32), s.dev.sys.logicOn = true → s.dev.runs p = true →
      Does (.acld p acd ga gb) s fun t => AccRetires s.dev t p acd (BitVec.ofInt 64 ((s.dev.gr p gb).toInt * 2 ^ 32 +
          (s.dev.gr p ga).toNat)) (false)) ∧
  (∀ (s : State) (p : Fin 5) (acd : Fin 4) (ga gb : Fin 32) (n : Nat), s.dev.sys.logicOn = true → s.dev.runs p = true
      → 0 < n → n ≤ 32 →
      Does (.fmac p acd ga gb ⟨(64 - n) % 64, by omega⟩) s fun t => AccRetires s.dev t p acd (BitVec.ofInt 64 (max
          (-(2 : Int) ^ 63) (min ((2 : Int) ^ 63 - 1) (s.dev.ac p acd + rha ((s.dev.gr p ga).toInt * (s.dev.gr p
          gb).toInt) (2 ^ n))))) (decide ((s.dev.ac p acd + rha ((s.dev.gr p ga).toInt * (s.dev.gr p gb).toInt) (2 ^
          n)) ≠ max (-(2 : Int) ^ 63) (min ((2 : Int) ^ 63 - 1) (s.dev.ac p acd + rha ((s.dev.gr p ga).toInt *
          (s.dev.gr p gb).toInt) (2 ^ n)))))) ∧
  (∀ (s : State) (p : Fin 5) (acd : Fin 4) (ga gb : Fin 32) (k : Fin 64), s.dev.sys.logicOn = true → s.dev.runs p =
      true →
      Does (.bmac p acd ga gb k) s fun t => AccRetires s.dev t p acd (BitVec.ofInt 64 (max (-(2 : Int) ^ 63) (min ((2
          : Int) ^ 63 - 1) (s.dev.ac p acd + rha (((s.dev.gr p ga).setWidth 24).toInt * ((s.dev.gr p gb).setWidth
          24).toInt) (2 ^ k.val))))) (decide ((s.dev.ac p acd + rha (((s.dev.gr p ga).setWidth 24).toInt * ((s.dev.gr
          p gb).setWidth 24).toInt) (2 ^ k.val)) ≠ max (-(2 : Int) ^ 63) (min ((2 : Int) ^ 63 - 1) (s.dev.ac p acd +
          rha (((s.dev.gr p ga).setWidth 24).toInt * ((s.dev.gr p gb).setWidth 24).toInt) (2 ^ k.val)))))) ∧
  (∀ (s : State) (p : Fin 5) (acd acs : Fin 4), s.dev.sys.logicOn = true → s.dev.runs p = true →
      Does (.acmov p acd acs) s fun t => AccRetires s.dev t p acd (BitVec.ofInt 64 (s.dev.ac p acs)) false) ∧
  (∀ (s : State) (p : Fin 5) (gd : Fin 32) (acs : Fin 4) (k : Fin 64), s.dev.sys.logicOn = true → s.dev.runs p = true
      → -(2 : Int) ^ 31 ≤ rha (s.dev.ac p acs) (2 ^ k.val) → rha (s.dev.ac p acs) (2 ^ k.val) < 2 ^ 31 →
      Does (.acrd p gd acs k) s fun t => Retires s.dev t p ((s.dev.pairOf p).pc + 4) gd (BitVec.ofInt 32 (rha
          (s.dev.ac p acs) (2 ^ k.val)))) ∧
  (∀ (s : State) (p : Fin 5) (gd : Fin 32) (acs : Fin 4), s.dev.sys.logicOn = true → s.dev.runs p = true →
      Does (.aclo p gd acs) s fun t => Retires s.dev t p ((s.dev.pairOf p).pc + 4) gd (BitVec.ofInt 32 (s.dev.ac p
          acs))) ∧
  (∀ (s : State) (p : Fin 5) (gd : Fin 32) (acs : Fin 4), s.dev.sys.logicOn = true → s.dev.runs p = true →
      Does (.achi p gd acs) s fun t => Retires s.dev t p ((s.dev.pairOf p).pc + 4) gd (BitVec.ofInt 32 (s.dev.ac p acs
          / 2 ^ 32))) ∧
  (∀ (s : State) (p : Fin 5) (gd : Fin 32) (acs : Fin 4), s.dev.sys.logicOn = true → s.dev.runs p = true → s.dev.ac p
      acs = 0 →
      Does (.bexp p gd acs) s fun t => Retires s.dev t p ((s.dev.pairOf p).pc + 4) gd (BitVec.ofInt 32 (-128))) ∧
  (∀ (s : State) (p : Fin 5) (gd : Fin 32) (acs : Fin 4) (n : Nat), s.dev.sys.logicOn = true → s.dev.runs p = true → n
      ≤ 40 → 2 ^ (22 + n) ≤ (s.dev.ac p acs).natAbs → rha ((s.dev.ac p acs).natAbs : Int) (2 ^ n) < 2 ^ 23 →
      Does (.bexp p gd acs) s fun t => Retires s.dev t p ((s.dev.pairOf p).pc + 4) gd (BitVec.ofNat 32 n)) ∧
  (∀ (s : State) (p : Fin 5) (gd : Fin 32) (acs : Fin 4) (gb : Fin 32) (n : Nat), s.dev.sys.logicOn = true →
      s.dev.runs p = true → n ≤ 63 → (s.dev.gr p gb).toInt = (n : Int) → (rha (s.dev.ac p acs) (2 ^ n)).natAbs < 2 ^
      23 →
      Does (.bmant p gd acs gb) s fun t => Retires s.dev t p ((s.dev.pairOf p).pc + 4) gd (BitVec.ofInt 32 (rha
          (s.dev.ac p acs) (2 ^ n))))

/-- CWR and CWW read and write the control words, CWW of PSW only its three bits; SYSC, BRK and an illegal word take
their exceptions, ERET returns; at task privilege ERET takes a privilege exception; WEV, PEAL and their ends, and an
interrupt, do as their rules say. (R256, R265, R266, R267, R268, R270, R273) -/
def Obligations.LitosSystem : Prop :=
  (∀ (s : State) (p : Fin 5) (g : Fin 32) (i : Fin 16), s.dev.sys.logicOn = true → s.dev.runs p = true →
      Does (.cwr p g ⟨0x110 + i.val, by omega⟩) s fun t => Retires s.dev t p ((s.dev.pairOf p).pc + 4) g
          ((s.dev.pairOf p).cwGet (0x110 + i.val))) ∧
  (∀ (s : State) (p : Fin 5) (g : Fin 32) (i : Fin 256), s.dev.sys.logicOn = true → s.dev.runs p = true →
      Does (.cww p g ⟨0x100 + i.val, by omega⟩) s fun t => Goes s.dev t p ((s.dev.pairOf p).pc + 4) ∧ (t.pairOf
          p).cwGet (0x100 + i.val) = s.dev.gr p g ∧ (∀ j : Fin 1024, j.val ≠ 0x100 + i.val → (t.pairOf p).cwGet j =
          (s.dev.pairOf p).cwGet j)) ∧
  (∀ (s : State) (p : Fin 5) (g : Fin 32), s.dev.sys.logicOn = true → s.dev.runs p = true → s.dev.superv p = true →
      Does (.cww p g 0) s fun t => Goes s.dev t p ((s.dev.pairOf p).pc + 4) ∧ (t.pairOf p).cwGet 0 = ((s.dev.pairOf
          p).cwGet 0 &&& 0xFFFFFFF8) ||| (s.dev.gr p g &&& 7)) ∧
  (∀ (s : State) (p : Fin 5) (g : Fin 32) (i : Fin 6), s.dev.sys.logicOn = true → s.dev.runs p = true → s.dev.superv p
      = false → ((s.dev.pairOf p).cwGet 0).getLsbD 2 = false →
      Does (.cwr p g ⟨i.val, by omega⟩) s fun t => Traps s.dev t p 2 3 false false (litosWord (.cwr p g ⟨i.val, by
          omega⟩))) ∧
  (∀ (s : State) (p : Fin 5) (code : Fin 1048576), s.dev.sys.logicOn = true → s.dev.runs p = true → ((s.dev.pairOf
      p).cwGet 0).getLsbD 2 = false →
      Does (.sysc p code) s fun t => Traps s.dev t p 5 0 false false (BitVec.ofNat 32 code.val)) ∧
  (∀ (s : State) (p : Fin 5) (code : Fin 1048576), s.dev.sys.logicOn = true → s.dev.runs p = true → ((s.dev.pairOf
      p).cwGet 0).getLsbD 2 = false → p.val ∉ s.dev.ssq.armedHalt →
      Does (.brk p code) s fun t => Traps s.dev t p 6 0 false false (BitVec.ofNat 32 code.val)) ∧
  (∀ (s : State) (p : Fin 5) (w : Word), s.dev.sys.logicOn = true → s.dev.runs p = true → ((s.dev.pairOf p).cwGet
      0).getLsbD 2 = false → decodeLitos p 0 w = none →
      Does (.illegalInstruction p w) s fun t => Traps s.dev t p 1 0 false false w) ∧
  (∀ (s : State) (p : Fin 5), s.dev.sys.logicOn = true → s.dev.runs p = true → s.dev.superv p = true →
      Does (.eret p) s fun t => Goes s.dev t p ((s.dev.pairOf p).cwGet 2) ∧ (t.pairOf p).cwGet 0 = (s.dev.pairOf
          p).cwGet 1 &&& 7 ∧ (t.pairOf p).g = (s.dev.pairOf p).g) ∧
  (∀ (s : State) (p : Fin 5), s.dev.sys.logicOn = true → s.dev.runs p = true → s.dev.superv p = false → ((s.dev.pairOf
      p).cwGet 0).getLsbD 2 = false →
      Does (.eret p) s fun t => Traps s.dev t p 2 2 false false (litosWord (.eret p))) ∧
  (∀ (s : State) (p : Fin 5) (gd ga : Fin 32), s.dev.sys.logicOn = true → s.dev.runs p = true → s.dev.superv p = true
      → s.dev.waiting p = none →
      Does (.wev p gd ga false) s fun t => (t.pairOf p).wait = .wev gd none ∧ (t.pairOf p).pc = (s.dev.pairOf p).pc ∧
          (t.pairOf p).g = (s.dev.pairOf p).g ∧ t = { s.dev with pairs := t.pairs }) ∧
  (∀ (s : State) (p : Fin 5) (gd dl : Fin 32), s.dev.sys.logicOn = true → s.dev.waits p = true → (s.dev.pairOf p).wait
      = .wev gd (some dl) → s.dev.waiting p = none → s.dev.deadline (w32 dl.val) = true →
      Does (.wevRetire p) s fun t => (t.gr p gd = (if gd = 0 then 0 else 0xFFFFFFFF)) ∧ (t.pairOf p).wait = .none_ ∧
          (t.pairOf p).pc = (s.dev.pairOf p).pc + 4 ∧ t = { s.dev with pairs := t.pairs }) ∧
  (∀ (s : State) (p : Fin 5) (gd ga : Fin 32) (w : Bool), s.dev.sys.logicOn = true → s.dev.runs p = true →
      s.dev.superv p = true → s.dev.peal.running = false →
      Does (.peal p gd ga w) s fun t => (t.pairOf p).pc = (s.dev.pairOf p).pc + 4 ∧ (∀ i : Fin 32, i ≠ gd → t.gr p i =
          s.dev.gr p i) ∧ t.peal = s.dev.peal) ∧
  (∀ (s : State) (p : Fin 5) (gd : Fin 32), s.dev.sys.logicOn = true → s.dev.waits p = true → (s.dev.pairOf p).wait =
      .peal gd → (s.dev.pairOf p).pealRes ≠ 0 →
      Does (.pealWaitEnd p) s fun t => (t.gr p gd = (if gd = 0 then 0 else w32 (s.dev.pairOf p).pealRes)) ∧ (t.pairOf
          p).wait = .none_ ∧ (t.pairOf p).pc = (s.dev.pairOf p).pc + 4 ∧ t = { s.dev with pairs := t.pairs }) ∧
  (∀ (s : State) (p : Fin 5) (n : Nat), s.dev.sys.logicOn = true → s.dev.waits p = true → (s.dev.pairOf p).wait =
      .none_ → ((s.dev.pairOf p).cwGet 0).getLsbD 1 = true → ((s.dev.pairOf p).cwGet 0).getLsbD 2 = false →
      s.dev.presented p = some n →
      Does (.interrupt p) s fun t => (t.pairOf p).cwGet 3 = 7 ∧ (t.pairOf p).cwGet 4 = w32 n ∧ (t.pairOf p).cwGet 2 =
          (s.dev.pairOf p).pc ∧ (t.pairOf p).cwGet 0 = 5 ∧ (t.pairOf p).pc = (s.dev.pairOf p).cwGet 5 + 0x1C0)

/-- At supervisor privilege, LEL of a kind with its rights commits references, commits loops, starts a proof or checks
a schedule commit on the engine ga names, as the write of the register would, and goes on; with a zero bit of ga set
it is an illegal instruction. (R216, R236, R237, R269) -/
def Obligations.LoopLaunch : Prop :=
  (∀ (s : State) (p : Fin 5) (ga gb : Fin 32) (e : Fin 8) (k : Fin 24), s.dev.sys.logicOn = true → s.dev.runs p = true
      → s.dev.superv p = true → s.dev.gr p ga = BitVec.ofNat 32 e.val → s.dev.gr p gb = 1#32 <<< k.val →
      s.dev.lelLoops p e (s.dev.gr p gb) = true → (s.dev.loopOf e k).refWr = none →
      Does (.lelRefgo p ga gb) s fun t => (t.loopOf e k).refGo = some (s.dev.now, [s.dev.sword (LE_REF0 e k),
          s.dev.sword (LE_REF1 e k)]) ∧ t.get (LE_LCTL_STAGED e k) = 0 ∧ (t.pairOf p).pc = (s.dev.pairOf p).pc + 4 ∧ t
          = { s.dev with regs := t.regs, loops := t.loops, pairs := t.pairs } ∧ sameRegs s.dev t ([LE_LCTL e k])) ∧
  (∀ (s : State) (p : Fin 5) (ga gb : Fin 32) (e : Fin 8), s.dev.sys.logicOn = true → s.dev.runs p = true →
      s.dev.superv p = true → s.dev.gr p ga = BitVec.ofNat 32 (16 + e.val) → s.dev.lelLoops p e (s.dev.gr p gb) = true
      →
      Does (.lelCommit p ga gb) s fun t => (t.engOf e).commits = (s.dev.engOf e).commits ||| (s.dev.gr p gb).toNat % 2
          ^ 24 ∧ (t.pairOf p).pc = (s.dev.pairOf p).pc + 4 ∧ t = { s.dev with eng := t.eng, pairs := t.pairs }) ∧
  (∀ (s : State) (p : Fin 5) (ga gb : Fin 32) (e : Fin 8) (k : Fin 24), s.dev.sys.logicOn = true → s.dev.runs p = true
      → s.dev.superv p = true → s.dev.gr p ga = BitVec.ofNat 32 (32 + e.val) → s.dev.gr p gb = BitVec.ofNat 32 k.val →
      s.dev.engineRights (.pair p) e = true → s.dev.loopRights (.pair p) e k = true → (s.dev.engOf e).proof ≠ none →
      Does (.lelProof p ga gb) s fun t => t.get (LE_PROOFRES_RES e) = 3 ∧ t.get (LE_PROOFRES_CAUSE e) = 1 ∧ t.get
          (LE_PROOF_LOOP e) = k.val ∧ (t.pairOf p).pc = (s.dev.pairOf p).pc + 4 ∧ t =
          { s.dev with regs := t.regs, pairs := t.pairs } ∧ sameRegs s.dev t ([LE_PROOF e, LE_PROOFRES e])) ∧
  (∀ (s : State) (p : Fin 5) (ga gb : Fin 32) (e : Fin 8) (k : Fin 24), s.dev.sys.logicOn = true → s.dev.runs p = true
      → s.dev.superv p = true → s.dev.gr p ga = BitVec.ofNat 32 (32 + e.val) → s.dev.gr p gb = BitVec.ofNat 32 k.val →
      s.dev.engineRights (.pair p) e = true → s.dev.loopRights (.pair p) e k = true → s.dev.proofRefusal e k = 0 →
      Does (.lelProof p ga gb) s fun t => (t.engOf e).proof = some
          { loop := k.val, n := max 1 (s.dev.get (LE_PROOF_N e)) } ∧ t.get (LE_STAT_PRFBUSY e) = 1 ∧ (t.pairOf p).pc =
          (s.dev.pairOf p).pc + 4 ∧ t = { s.dev with regs := t.regs, eng := t.eng, pairs := t.pairs } ∧ sameRegs s.dev
          t ([LE_PROOF e, LE_PROOFRES e, LE_STAT e])) ∧
  (∀ (s : State) (p : Fin 5) (ga gb : Fin 32) (e : Fin 8), s.dev.sys.logicOn = true → s.dev.runs p = true →
      s.dev.superv p = true → s.dev.gr p ga = BitVec.ofNat 32 (48 + e.val) → s.dev.gr p gb = 0 → s.dev.sup = p.val →
      s.dev.schedErr e (1 - s.dev.get (LE_CTL_SCHBANK e)) = 0 →
      Does (.lelSchcmt p ga gb) s fun t => (t.engOf e).schPend = true ∧ t.get (LE_STAT_SCHERR e) = 0 ∧ (t.pairOf p).pc
          = (s.dev.pairOf p).pc + 4 ∧ t = { s.dev with regs := t.regs, eng := t.eng, pairs := t.pairs } ∧ sameRegs
          s.dev t ([LE_STAT e])) ∧
  (∀ (s : State) (p : Fin 5) (ga gb : Fin 32), s.dev.sys.logicOn = true → s.dev.runs p = true → s.dev.superv p = true
      → ((s.dev.pairOf p).cwGet 0).getLsbD 2 = false → (s.dev.gr p ga).getLsbD 3 = true →
      Does (.lelSchcmt p ga gb) s fun t => Traps s.dev t p 1 0 false false (litosWord (.lelSchcmt p ga gb)))

/-- A software raise of an event sets its pending bit and no other; a raise of a pending event is merged and recorded;
one of a safety event only sets SWREF. An acknowledgement by a pair with the right clears PEND, from another pair it
only sets ACKREJ, and in the cycle of a raise the event stays pending. An ageing step raises EFF by one up to 14.
EVC_CFG is stored for the supervising pair or the host of the axis, with PRIO at most 14, keeps its read-only fields
for a safety event, and is refused with SUB 6 to another pair. No other register changes. (R284, R285, R288, R290,
R291, R294) -/
def Obligations.EventsRaisedAndAged : Prop :=
  (∀ (s : State) (m : Master) (n : Fin 1024), s.dev.sys.logicOn = true → isPair m = true → safetyEvent n = false →
      s.dev.pend n = false →
      Does (.softwareRaise m n) s fun t => (∀ k : Fin 1024, t.pend k = (if k = n then true else s.dev.pend k)) ∧
          (t.evOf n).base = s.dev.now / 200 + 1 ∧ t.evEff n = s.dev.evPrio n ∧ t =
          { s.dev with regs := t.regs, evs := t.evs } ∧ sameRegs s.dev t ([EVC_PEND (n.val / 32)])) ∧
  (∀ (s : State) (m : Master) (n : Fin 1024), s.dev.sys.logicOn = true → isPair m = true → safetyEvent n = false →
      s.dev.pend n = true → (s.dev.evOf n).at_ ≠ s.dev.now →
      Does (.softwareRaise m n) s fun t => t.bit (EVC_RERAISE (n.val / 32)) (n.val % 32) = true ∧ (∀ k : Fin 1024,
          t.pend k = s.dev.pend k) ∧ t.evEff n = s.dev.evEff n ∧ t = { s.dev with regs := t.regs, evs := t.evs } ∧
          sameRegs s.dev t ([EVC_RERAISE (n.val / 32)])) ∧
  (∀ (s : State) (m : Master) (n : Fin 1024), s.dev.sys.logicOn = true → isPair m = true → safetyEvent n = true →
      Does (.softwareRaise m n) s fun t => t.get EVC_STAT_SWREF = 1 ∧ t = { s.dev with regs := t.regs } ∧ sameRegs
          s.dev t ([EVC_STAT])) ∧
  (∀ (s : State) (m : Master) (p : Fin 5) (n : Fin 1024), s.dev.sys.logicOn = true → s.dev.asPair m = some p.val →
      s.dev.sup = p.val → s.dev.pend n = true → (s.dev.evOf n).at_ ≠ s.dev.now →
      Does (.eventAck m n) s fun t => (∀ k : Fin 1024, t.pend k = (if k = n then false else s.dev.pend k)) ∧ t.evEff n
          = s.dev.evPrio n ∧ t = { s.dev with regs := t.regs, evs := t.evs } ∧ sameRegs s.dev t ([EVC_PEND (n.val /
          32)])) ∧
  (∀ (s : State) (p : Fin 5) (n : Fin 1024), s.dev.sys.logicOn = true → s.dev.sup ≠ p.val → s.dev.routedTo n ≠ some
      (p.val, false) → s.dev.routedTo n ≠ some (p.val, true) → ¬ (p.val ∈ (s.dev.evOf n).takenBy) →
      Does (.eventAck (.pair p) n) s fun t => t.get EVC_STAT_ACKREJ = 1 ∧ t = { s.dev with regs := t.regs } ∧ sameRegs
          s.dev t ([EVC_STAT])) ∧
  (∀ (s : State) (m : Master) (p : Fin 5) (n : Fin 1024), s.dev.sys.logicOn = true → s.dev.asPair m = some p.val →
      s.dev.sup = p.val → s.dev.pend n = true → (s.dev.evOf n).at_ = s.dev.now →
      Does (.eventAck m n) s fun t => t.pend n = true ∧ (t.evOf n).base = s.dev.now / 200 + 1 ∧ (t.evOf n).steps = 0 ∧
          t = { s.dev with evs := t.evs }) ∧
  (∀ (s : State) (n : Fin 1024), s.dev.sys.logicOn = true → s.dev.timeOn = true → s.dev.now % 200 = 0 → s.dev.pend n =
      true → safetyEvent n = false → s.dev.get (EVC_CFG_EN n) = 1 → s.dev.get (EVC_CFG_AGEN n) = 1 → s.dev.get
      (EVC_CFG_PRIO n) ≤ 13 → (s.dev.evOf n).base + max 1 (s.dev.get EVC_AGE_US) ≤ s.dev.now / 200 →
      Does (.ageingStep n) s fun t => t.evEff n = min 14 (s.dev.get (EVC_CFG_PRIO n) + (s.dev.evOf n).steps + 1) ∧ t =
          { s.dev with evs := t.evs }) ∧
  (∀ (s : State) (m : Master) (n : Fin 1024) (w : Word), s.dev.sys.logicOn = true → s.dev.cfgRights m n = true →
      safetyEvent n = false →
      Does (.eventConfigWrite m n w) s fun t => t.reg (EVC_CFG n) = (s.dev.reg (EVC_CFG n) &&& 0x1F0100FF#32) |||
          (wordPut w 20 4 (min 14 (wordGet w 20 4)) &&& 0xE0FEFF00#32) ∧ t.get (EVC_CFG_PRIO n) ≤ 14 ∧ t =
          { s.dev with regs := t.regs, evs := t.evs } ∧ sameRegs s.dev t ([EVC_CFG n.val])) ∧
  (∀ (s : State) (m : Master) (n : Fin 1024) (w : Word), s.dev.sys.logicOn = true → s.dev.cfgRights m n = true →
      safetyEvent n = true →
      Does (.eventConfigWrite m n w) s fun t => t.reg (EVC_CFG n) = (s.dev.reg (EVC_CFG n) &&& 0xBFFF00FF#32) ||| (w
          &&& 0x4000FF00#32) ∧ t = { s.dev with regs := t.regs } ∧ sameRegs s.dev t ([EVC_CFG n.val])) ∧
  (∀ (s : State) (p : Fin 5) (n : Fin 1024) (w : Word), s.dev.sys.logicOn = true → s.dev.cfgRights (.pair p) n = false
      → ((s.dev.pairOf p).cwGet 0).getLsbD 2 = false →
      Does (.eventConfigWrite (.pair p) n w) s fun t => Traps s.dev t p 4 6 true false (w32 (EVC_CFG n)))

/-- A kick restarts the watchdog of its writer alone. A knell of a mask latches KNELL on each named axis, records mask
and time and raises event 900, and leaves the axis states of the others; a hold also sets the SYS_AXSAFE bits; a pair
that does not supervise takes a bus error with SUB 6. Writing SSQ_LINE, an external pull or the end of both makes
FAULT_N follow its drivers: a fall latches LINE on every axis and raises 903. (R46, R298, R299, R301, R311, R315) -/
def Obligations.KnellsAndLine : Prop :=
  (∀ (s : State) (p : Fin 5) (k : Nat), s.dev.sys.logicOn = true → tget none s.dev.ssq.kicks p = some k →
      Does (.watchdogKick (.pair p)) s fun t => tget none t.ssq.kicks p = some s.dev.now ∧ (∀ q : Fin 5, q ≠ p → tget
          none t.ssq.kicks q = tget none s.dev.ssq.kicks q) ∧ t = { s.dev with ssq := t.ssq }) ∧
  (∀ (s : State) (m : Master) (h : Bool) (w : Word), s.dev.sys.logicOn = true → s.dev.supRights m = true → w ≠ 0 →
      s.dev.ssq.kAt ≠ some s.dev.now → s.dev.peal.running = false →
      Does (.knellRequest m h w) s fun t => (∀ a ∈ halfMask h w, t.bit (PWM_FLT a) 4 = true) ∧ (∀ a : Fin 64, a.val ∉
          halfMask h w → t.bit (PWM_FLT a) 4 = s.dev.bit (PWM_FLT a) 4 ∧ t.axSt a = s.dev.axSt a) ∧ (t.mask64
          SSQ_KMASK_LO SSQ_KMASK_HI = w.toNat * (if h then 2 ^ 32 else 1)) ∧ t.get SSQ_KTS_T = s.dev.now % 2 ^ 32 ∧
          t.pend 900 = true) ∧
  (∀ (s : State) (p : Fin 5) (h : Bool) (w : Word), s.dev.sys.logicOn = true → s.dev.sup ≠ p.val → ((s.dev.pairOf
      p).cwGet 0).getLsbD 2 = false →
      Does (.knellRequest (.pair p) h w) s fun t => (Traps s.dev t p 4 6 true false (w32 (if h then SSQ_KNELL_HI else
          SSQ_KNELL_LO)))) ∧
  (∀ (s : State) (m : Master) (h : Bool) (w : Word), s.dev.sys.logicOn = true → s.dev.supRights m = true → w ≠ 0 →
      s.dev.ssq.kAt ≠ some s.dev.now → s.dev.peal.running = false →
      Does (.holdSafe m h w) s fun t => (∀ a ∈ halfMask h w, t.heldSafe a = true ∧ t.bit (PWM_FLT a) 4 = true) ∧ (∀ a
          : Fin 64, a.val ∉ halfMask h w → t.heldSafe a = s.dev.heldSafe a) ∧ (∀ a : Fin 64, t.host a = s.dev.host a)) ∧
  (∀ (s : State) (m : Master), s.dev.sys.logicOn = true → s.dev.supRights m = true → s.dev.peal.running = false →
      Does (.lineAssertWrite m true) s fun t => t.get SSQ_LINE_ASSERT = 1 ∧ t.get FLT_STAT_DRIVE = 1 ∧ t.get
          FLT_STAT_LEVEL = 1 ∧ t.ssq.restart = [] ∧ (s.dev.get FLT_STAT_LEVEL = 0 → ∀ a : Fin 64, t.bit (PWM_FLT a) 3
          = true)) ∧
  (∀ (s : State) (m : Master), s.dev.sys.logicOn = true → s.dev.supRights m = true → s.dev.ssq.pulseEnd = none →
      s.dev.ssq.xfail = false → s.dev.mode ≠ .lockout → s.dev.ssq.extLine = false →
      Does (.lineAssertWrite m false) s fun t => t.get SSQ_LINE_ASSERT = 0 ∧ t.get FLT_STAT_DRIVE = 0 ∧ t.get
          FLT_STAT_LEVEL = 0 ∧ t = { s.dev with regs := t.regs } ∧ sameRegs s.dev t ([SSQ_LINE, FLT_STAT])) ∧
  (∀ (s : State) (e : Nat), s.dev.sys.logicOn = true → s.dev.ssq.pulseEnd = some e → e ≤ s.dev.now → s.dev.get
      SSQ_LINE_ASSERT = 0 → s.dev.ssq.xfail = false → s.dev.mode ≠ .lockout → s.dev.ssq.extLine = false →
      Does (.faultPulseEnd) s fun t => t.ssq.pulseEnd = none ∧ t.get FLT_STAT_DRIVE = 0 ∧ t.get FLT_STAT_LEVEL = 0 ∧ t
          = { s.dev with regs := t.regs, ssq := t.ssq } ∧ sameRegs s.dev t ([FLT_STAT])) ∧
  (∀ (s : State), s.dev.sys.logicOn = true → s.dev.get FLT_STAT_LEVEL = 0 → s.dev.ssq.pulseEnd = none → s.dev.get
      SSQ_LINE_ASSERT = 0 → s.dev.ssq.xfail = false → s.dev.mode ≠ .lockout → s.dev.peal.running = false →
      Does (.faultLineAssert) s fun t => t.get FLT_STAT_EXTSEEN = 1 ∧ t.get FLT_STAT_LEVEL = 1 ∧ t.ssq.extLine = true
          ∧ t.ssq.restart = [] ∧ t.pend 903 = true ∧ (∀ a : Fin 64, t.bit (PWM_FLT a) 3 = true)) ∧
  (∀ (s : State), s.dev.sys.logicOn = true → s.dev.ssq.pulseEnd = none → s.dev.get SSQ_LINE_ASSERT = 0 →
      s.dev.ssq.xfail = false → s.dev.mode ≠ .lockout →
      Does (.faultLineRelease) s fun t => t.ssq.extLine = false ∧ t.get FLT_STAT_LEVEL = 0 ∧ t.get FLT_STAT_DRIVE = 0
          ∧ t = { s.dev with regs := t.regs, ssq := t.ssq } ∧ sameRegs s.dev t ([FLT_STAT]))

/-- The failure of a spare stops it, tells of it in LSS_FREC and LSS_FTS and raises its event, and moves no axis. A
valid LSS_REHOST, or its timeout, moves the released axes of the failed pair to a spare with REHOST_DONE; another
destination is refused with ERR 1. A restart clears KNELL, LSM and LINE of its axis and takes it from the restart set.
LSS_PRST with its key takes a FAILED pair to RESET, at whose end without a passed test it is FAILED again with RESULT
2. An accepted GO records the migration with T_m; a refused one names the reason. Supervision moves to a healthy pair,
and a debug halt splits a pair that may be halted. (R296, R297, R298, R303, R304, R305, R306, R307, R310, R311, R312)
-/
def Obligations.PairFailureAndRecovery : Prop :=
  (∀ (s : State) (p : Fin 5), s.dev.sys.logicOn = true → s.dev.pairSt p = .spare → s.dev.hosted p = [] → s.dev.get
      LSS_CFG_LINE = 0 → s.dev.ssq.mig = none →
      Does (.pairMismatch p) s fun t => t.pairSt p = .failed ∧ t.get LSS_FREC_CAUSE = 1 ∧ t.get LSS_FREC_PAIR = p.val
          ∧ t.get LSS_FTS_T = s.dev.now % 2 ^ 32 ∧ t.pend 896 = true ∧ t.pend 900 = s.dev.pend 900 ∧ (∀ a : Fin 64,
          t.host a = s.dev.host a ∧ t.axSt a = s.dev.axSt a) ∧ t.sup = s.dev.sup) ∧
  (∀ (s : State) (p : Fin 5) (k : Nat), s.dev.sys.logicOn = true → s.dev.pairSt p = .spare → s.dev.ssq.mig = none →
      tget none s.dev.ssq.kicks p = some k → k + 200 * max 100 (s.dev.get LSS_WDG_US) ≤ s.dev.now →
      Does (.pairWatchdog p) s fun t => t.pairSt p = .failed ∧ t.get LSS_FREC_CAUSE = 3 ∧ t.get LSS_FREC_PAIR = p.val
          ∧ tget none t.ssq.kicks p = none ∧ t.pend 898 = true ∧ (∀ a : Fin 64, t.host a = s.dev.host a ∧ t.axSt a =
          s.dev.axSt a)) ∧
  (∀ (s : State) (m : Master) (f g : Fin 8) (r : Rehost), s.dev.sys.logicOn = true → s.dev.supRights m = true →
      s.dev.ssq.queue = [r] → r.pair = f.val → f.val ≤ 4 → g.val ≤ 4 → s.dev.ssq.moving = false → r.released = true →
      s.dev.pairSt g = .spare → s.dev.pairSt f = .failed →
      Does (.rehost m f g) s fun t => (∀ a : Fin 64, t.host a = (if s.dev.host a = f.val then g.val else s.dev.host
          a)) ∧ t.ssq.queue = [] ∧ t.pend 904 = true ∧ t.get LSS_REHOST_ERR = 0) ∧
  (∀ (s : State) (m : Master) (f g : Fin 8) (r : Rehost), s.dev.sys.logicOn = true → s.dev.supRights m = true →
      s.dev.ssq.queue = [r] → r.pair = f.val → f.val ≠ 7 → s.dev.ssq.moving = false → (4 < g.val ∨ s.dev.pairSt g ≠
      .spare) →
      Does (.rehost m f g) s fun t => t.get LSS_REHOST_ERR = 1 ∧ t = { s.dev with regs := t.regs } ∧ sameRegs s.dev t
          ([LSS_REHOST])) ∧
  (∀ (s : State) (r : Rehost) (p k : Nat), s.dev.sys.logicOn = true → s.dev.ssq.queue = [r] → r.since = some k →
      s.dev.ssq.moving = false → r.released = true → k + 200000 * s.dev.get LSS_CFG_RHTO ≤ s.dev.now → s.dev.spare =
      some p → r.pair ≤ 4 → s.dev.pairSt r.pair = .failed →
      Does (.rehostTimeout) s fun t => (∀ a : Fin 64, t.host a = (if s.dev.host a = r.pair then p else s.dev.host a))
          ∧ t.ssq.queue = [] ∧ t.pend 904 = true) ∧
  (∀ (s : State) (a : Fin 64) (dir : Nat), s.dev.sys.logicOn = true → s.dev.members a = [a.val] → s.dev.restartOk a =
      true → s.dev.ssq.restart = [(a.val, dir)] → s.dev.get ⟨PWM_FLT a, 0, 3⟩ = 0 → s.dev.get ⟨PWM_FLT a, 6, 2⟩ = 0 →
      Does (.restart a) s fun t => t.ssq.restart = [] ∧ t.get ⟨PWM_FLT a, 0, 8⟩ = 0) ∧
  (∀ (s : State) (a : Fin 64) (dir : Fin 2), s.dev.sys.logicOn = true → s.dev.members a = [a.val] → s.dev.restartOk a
      = true → s.dev.ssq.restart = [(a.val, dir.val)] → s.dev.get ⟨PWM_FLT a, 0, 3⟩ = 0 → s.dev.get ⟨PWM_FLT a, 6, 2⟩
      = 0 → s.dev.axSt a = .hiz → (s.dev.put ⟨PWM_FLT a, 3, 3⟩ 0).startReason a = 0 →
      Does (.restart a) s fun t => t.ssq.restart = [] ∧ t.axSt a = .recover ∧ t.get (CU_STATE_DIR a) = dir.val ∧ t.get
          ⟨PWM_FLT a, 0, 8⟩ = 0) ∧
  (∀ (s : State) (m : Master) (p : Fin 5) (u : Bool), s.dev.sys.logicOn = true → s.dev.supRights m = true →
      s.dev.pairSt p = .failed → ¬ (p.val ∈ s.dev.ssq.dead) →
      Does (.pairReset m 0x3A ⟨p.val, by omega⟩ u) s fun t => t.pairSt p = .reset ∧ p.val ∈ t.ssq.resetEnd ∧ t.pairOf
          p = {}) ∧
  (∀ (s : State) (m : Master) (key : Fin 256) (p : Fin 8) (u : Bool), s.dev.sys.logicOn = true → s.dev.supRights m =
      true → (key.val ≠ 0x3A ∨ 4 < p.val) →
      Does (.pairReset m key p u) s fun t => t = s.dev) ∧
  (∀ (s : State) (p : Fin 5), s.dev.sys.logicOn = true → p.val ∈ s.dev.ssq.resetEnd →
      Does (.pairResetDone p false) s fun t => t.pairSt p = .failed ∧ t.get LSS_FREC_RESULT = 2 ∧ t.pend 908 = true ∧
          ¬ (p.val ∈ t.ssq.resetEnd)) ∧
  (∀ (s : State) (p : Fin 5) (g : Fin 8) (lead : Fin 1024), s.dev.sys.logicOn = true → ((s.dev.put LSS_MIGCTL_DEST
      g).put LSS_MIGCTL_LEAD lead).migRefusal (.pair p) = 0 → s.dev.peal.running = false →
      Does (.migrate (.pair p) g lead) s fun t => t.get LSS_MIGRES_RES = 1 ∧ t.get LSS_MIGTS_TM = (s.dev.now + 200 *
          max 2 lead.val) % 2 ^ 32 ∧ t.ssq.mig = some
          { left := maskOf s.dev.migMask, dest := g.val, lead := max 2 lead.val, tm := s.dev.now + 200 * max 2 lead.val }
          ∧ (∀ a : Fin 64, t.host a = s.dev.host a) ∧ t = { s.dev with regs := t.regs, ssq := t.ssq }) ∧
  (∀ (s : State) (p : Fin 5) (g : Fin 8) (lead : Fin 1024), s.dev.sys.logicOn = true → 0 < ((s.dev.put LSS_MIGCTL_DEST
      g).put LSS_MIGCTL_LEAD lead).migRefusal (.pair p) →
      Does (.migrate (.pair p) g lead) s fun t => t.get LSS_MIGRES_RES = ((s.dev.put LSS_MIGCTL_DEST g).put
          LSS_MIGCTL_LEAD lead).migRefusal (.pair p) ∧ t.get LSS_MIGCTL_DEST = g.val ∧ t.get LSS_MIGCTL_LEAD =
          lead.val ∧ t = { s.dev with regs := t.regs } ∧ sameRegs s.dev t ([LSS_MIGCTL, LSS_MIGRES])) ∧
  (∀ (s : State) (m : Master) (g : Fin 8), s.dev.sys.logicOn = true → s.dev.supRights m = true → g.val ≤ 4 →
      s.dev.healthy g = true → s.dev.ssq.queue = [] → s.dev.ssq.mig = none → s.dev.ssq.resetEnd = [] →
      Does (.supMoved m g) s fun t => t.sup = g.val ∧ t.pend 909 = true ∧ t.pairSt g = .active ∧ (∀ a : Fin 64, t.host
          a = s.dev.host a)) ∧
  (∀ (s : State) (m : Master) (g : Fin 8), s.dev.sys.logicOn = true → s.dev.supRights m = true → (4 < g.val ∨
      s.dev.healthy g = false) →
      Does (.supMoved m g) s fun t => t.get LSS_SUPMV_ERR = 1 ∧ t = { s.dev with regs := t.regs } ∧ sameRegs s.dev t
          ([LSS_SUPMV])) ∧
  (∀ (s : State) (p : Fin 5), s.dev.sys.logicOn = true → s.dev.haltOk p = true →
      Does (.debugHaltRequest p) s fun t => t.pairSt p = .split ∧ (t.pairOf p).halted = true ∧ t.bit LSS_SPLIT p =
          true ∧ t.pend 906 = true) ∧
  (∀ (s : State) (p : Fin 5), s.dev.sys.logicOn = true → s.dev.haltOk p = false →
      Does (.debugHaltRequest p) s fun t => t = { s.dev with ssq := t.ssq })

/-- A well-formed submission is queued with its pair and time; one that is refused reports its code, counts in NSUB,
raises JNL_REFUSED and queues nothing. The append of the front of the queue writes exactly the bytes of the record,
with its SEQ, at the head, advances NEXTSEQ and reports OK with the SEQ to its pair. Compaction begins below the
free-block threshold with the live records of the tail, copies each with COPY set and a new SEQ, and moves the tail
after the last. (R317, R318, R319, R320, R322, R325, R330) -/
def Obligations.JournalSubmissions : Prop :=
  (∀ (s : State) (p : Fin 5) (a : Fin 1073741824), s.dev.sys.logicOn = true → submitCode (stagedRec s.mem (4 * a))
      (stagedBad s.mem (4 * a)) false s.dev = 0 →
      Does (.submit (.pair p) a false) s fun t => t.jnl.queue = s.dev.jnl.queue ++
          [{ body := { stagedRec s.mem (4 * a) with time := s.dev.now, pair := p.val }, from_ := some p.val }] ∧
          t.jnl.log = s.dev.jnl.log ∧ t = { s.dev with jnl := t.jnl }) ∧
  (∀ (s : State) (p : Fin 5) (a : Fin 1073741824) (e : Bool), s.dev.sys.logicOn = true → 0 < submitCode (stagedRec
      s.mem (4 * a)) (stagedBad s.mem (4 * a)) e s.dev → submitCode (stagedRec s.mem (4 * a)) (stagedBad s.mem (4 *
      a)) e s.dev ≠ 3 →
      Does (.submit (.pair p) a e) s fun t => t.get (JNL_RES_CODE p) = submitCode (stagedRec s.mem (4 * a)) (stagedBad
          s.mem (4 * a)) e s.dev ∧ t.get (JNL_RES_NSUB p) = (s.dev.get (JNL_RES_NSUB p) + 1) % 256 ∧ t.pend 976 = true
          ∧ t = { s.dev with regs := t.regs, evs := t.evs } ∧ sameRegs s.dev t ((JNL_RES p :: JNL_EVT :: evRegs 976))) ∧
  (∀ (s : State) (p : Fin 5) (q : JSub), s.dev.sys.logicOn = true → s.dev.jnlOpen = true → s.dev.jnl.queue = [q] →
      q.ecc = false → q.from_ = some p.val → q.body.typ ≠ 10 → s.dev.jnl.compacting = false → 0 < s.dev.jnl.headOff →
      s.dev.jnl.headOff + q.body.size ≤ 4096 →
      DoesMem (.recordAppend false) s (memWriteBytes s.mem (blockKey (s.dev.jnl.phys (logBlk s.dev.jnl.headBlk)) +
          s.dev.jnl.headOff) (JRec.bytes
          { q.body with seq := s.dev.jnl.nextSeq, block := s.dev.jnl.headBlk, off := s.dev.jnl.headOff })) fun t =>
          t.jnl.queue = [] ∧ t.jnl.log = s.dev.jnl.log ++
          [{ q.body with seq := s.dev.jnl.nextSeq, block := s.dev.jnl.headBlk, off := s.dev.jnl.headOff }] ∧
          t.jnl.nextSeq = (s.dev.jnl.nextSeq + 1) % 2 ^ 32 ∧ t.jnl.headOff = s.dev.jnl.headOff + q.body.size ∧ t.get
          (JNL_RES_CODE p) = 0 ∧ t.get (JNL_RES_NSUB p) = (s.dev.get (JNL_RES_NSUB p) + 1) % 256 ∧ t.get
          JNL_NEXTSEQ_SEQ = t.jnl.nextSeq ∧ t = { s.dev with regs := t.regs, jnl := t.jnl } ∧ sameRegs s.dev t
          ([JNL_RING, JNL_NEXTSEQ, JNL_SPARE, JNL_WEAR, JNL_STAT, JNL_IMGST, JNL_RES p, JNL_SEQ p])) ∧
  (∀ (s : State), s.dev.sys.logicOn = true → s.dev.jnlOpen = true → s.dev.jnl.sealing = false → s.dev.jnl.compacting =
      false → s.dev.jnl.freeBlks < s.dev.compactAt → s.dev.jnl.tailBlk ≠ s.dev.jnl.headBlk →
      Does (.compaction) s fun t => t.jnl.compacting = true ∧ (t.jnl.copies = s.dev.jnl.log.filter fun r => r.block =
          s.dev.jnl.tailBlk && isLive s.dev.jnl.log r) ∧ t.get JNL_STAT_COMPACT = 1 ∧ t.jnl.log = s.dev.jnl.log ∧ t =
          { s.dev with regs := t.regs, jnl := t.jnl } ∧ sameRegs s.dev t ([JNL_RING, JNL_NEXTSEQ, JNL_SPARE, JNL_WEAR,
          JNL_STAT, JNL_IMGST])) ∧
  (∀ (s : State) (r : JRec) (l : List JRec), s.dev.sys.logicOn = true → s.dev.jnlOpen = true → s.dev.jnl.sealing =
      false → s.dev.jnl.compacting = true → s.dev.jnl.copies = r :: l → s.dev.jnl.queue = [] → 0 < s.dev.jnl.headOff →
      s.dev.jnl.headOff + r.size ≤ 4096 →
      DoesMem (.compaction) s (memWriteBytes s.mem (blockKey (s.dev.jnl.phys (logBlk s.dev.jnl.headBlk)) +
          s.dev.jnl.headOff) (JRec.bytes
          { r with flags := r.flags ||| 1, typ := if r.typ = 6 then 8 else r.typ, txn := 0, seq := s.dev.jnl.nextSeq, block := s.dev.jnl.headBlk, off := s.dev.jnl.headOff }))
          fun t => t.jnl.copies = l ∧ (t.jnl.log = s.dev.jnl.log ++
          [{ r with flags := r.flags ||| 1, typ := if r.typ = 6 then 8 else r.typ, txn := 0, seq := s.dev.jnl.nextSeq, block := s.dev.jnl.headBlk, off := s.dev.jnl.headOff }])
          ∧ t = { s.dev with regs := t.regs, jnl := t.jnl } ∧ sameRegs s.dev t ([JNL_RING, JNL_NEXTSEQ, JNL_SPARE,
          JNL_WEAR, JNL_STAT, JNL_IMGST])) ∧
  (∀ (s : State), s.dev.sys.logicOn = true → s.dev.jnlOpen = true → 4096 ≤ s.dev.jnl.allocs → s.dev.jnl.metaBad = [] →
      s.dev.jnl.metaNew ≤ 1 →
      Does (.metadataWrite none) s fun t => t.jnl.metaNew = 1 - s.dev.jnl.metaNew ∧ t.jnl.metaSeq = s.dev.jnl.metaSeq
          + 1 ∧ t.jnl.allocs = 0 ∧ (s.dev.jnl.map = [] → ∀ i : Fin 8, tget 0 t.jnl.wear (8 * (1 - s.dev.jnl.metaNew) +
          i) = tget 0 s.dev.jnl.wear (8 * (1 - s.dev.jnl.metaNew) + i) + 1) ∧ t =
          { s.dev with regs := t.regs, jnl := t.jnl } ∧ sameRegs s.dev t ([JNL_RING, JNL_NEXTSEQ, JNL_SPARE, JNL_WEAR,
          JNL_STAT, JNL_IMGST])) ∧
  (∀ (s : State) (m : Master) (l : Fin 4096), s.dev.sys.logicOn = true → isPair m = true → l.val < 3840 →
      Does (.mapQuery m l) s fun t => t.get JNL_MAPQ_LOG = l.val ∧ t.get JNL_MAPQ_INVAL = 0 ∧ t.get JNL_MAPQ_PHYS =
          s.dev.jnl.phys l % 4096 ∧ (t.get JNL_MAPQ_RO = (if s.dev.jnl.phys l ∈ s.dev.jnl.ro then 1 else 0)) ∧ t =
          { s.dev with regs := t.regs } ∧ sameRegs s.dev t ([JNL_MAPQ])) ∧
  (∀ (s : State) (m : Master) (l : Fin 4096), s.dev.sys.logicOn = true → isPair m = true → 3840 ≤ l.val →
      Does (.mapQuery m l) s fun t => t.get JNL_MAPQ_LOG = l.val ∧ t.get JNL_MAPQ_INVAL = 1 ∧ t.get JNL_MAPQ_PHYS = 0
          ∧ t.get JNL_MAPQ_RO = 0 ∧ t = { s.dev with regs := t.regs } ∧ sameRegs s.dev t ([JNL_MAPQ]))

/-- An image write that no rule refuses marks its slot WRITING; a refused one reports its ERR; a pair that does not
supervise takes a bus error with SUB 6. At its end the image stands in the blocks of the slot, JNL_IMAGE is raised, a
good image queues an IMAGE record and a bad one leaves the slot BAD. A firmware selection that names VALID FIRMWARE
slots or none is stored and recorded, another is not performed. A whole hour of energised time is counted in the
identity memory of the cartridge. (R331, R332, R338) -/
def Obligations.ImagesAndFirmware : Prop :=
  (∀ (s : State) (m : Master) (n : Fin 8), s.dev.sys.logicOn = true → s.dev.supRights m = true → imageErr n (s.dev,
      s.mem) = 0 →
      Does (.imageWrite m n) s fun t => t.jnl.img = some (n.val, s.dev.get JNL_IMGSRC_ADDR * 4) ∧ tget 0 t.jnl.imgSt n
          = 1 ∧ t.get JNL_IMGWR_ERR = 0 ∧ t.get JNL_STAT_IMGBUSY = 1 ∧ t = { s.dev with regs := t.regs, jnl := t.jnl }
          ∧ sameRegs s.dev t ([JNL_IMGWR, JNL_RING, JNL_NEXTSEQ, JNL_SPARE, JNL_WEAR, JNL_STAT, JNL_IMGST])) ∧
  (∀ (s : State) (m : Master) (n : Fin 8), s.dev.sys.logicOn = true → s.dev.supRights m = true → 0 < imageErr n
      (s.dev, s.mem) →
      Does (.imageWrite m n) s fun t => t.get JNL_IMGWR_ERR = imageErr n (s.dev, s.mem) ∧ t.get JNL_IMGWR_SLOT = n.val
          ∧ t = { s.dev with regs := t.regs } ∧ sameRegs s.dev t ([JNL_IMGWR])) ∧
  (∀ (s : State) (p : Fin 5) (n : Fin 8), s.dev.sys.logicOn = true → s.dev.sup ≠ p.val → ((s.dev.pairOf p).cwGet
      0).getLsbD 2 = false →
      Does (.imageWrite (.pair p) n) s fun t => Traps s.dev t p 4 6 true false (w32 JNL_IMGWR)) ∧
  (∀ (s : State) (n src : Nat), s.dev.sys.logicOn = true → s.dev.jnl.img = some (n, src) →
      DoesMem (.imageWriteDone false none) s ((copyImage n src (s.dev, s.mem)).2) fun t => t.jnl.img = none ∧ t.pend
          982 = true ∧ tget 0 t.jnl.imgSt n = 3 ∧ t.get JNL_STAT_IMGBUSY = 0) ∧
  (∀ (s : State) (n src : Nat), s.dev.sys.logicOn = true → s.dev.jnl.img = some (n, src) → imageOk (copyImage n src
      (s.dev, s.mem)).2 src = true → tget 0 (copyImage n src (s.dev, s.mem)).1.jnl.imgSt n = 1 →
      DoesMem (.imageWriteDone true none) s ((copyImage n src (s.dev, s.mem)).2) fun t => t.jnl.img = none ∧ t.pend
          982 = true ∧ (t.jnl.queue = s.dev.jnl.queue ++
          [{ body := { typ := 10, key := n, payload := (List.range 8).map fun i => memWord (copyImage n src (s.dev, s.mem)).2 (src + 4 * i), time := s.dev.now, srck := 4, pair := 15 } }])) ∧
  (∀ (s : State) (m : Master) (v : Bool) (w : Word), s.dev.sys.logicOn = true → s.dev.supRights m = true → (∀ p : Fin
      5, w.toNat / 16 ^ p.val % 16 = 15 ∨ (w.toNat / 16 ^ p.val % 16 < 6 ∧ tget 0 s.dev.jnl.imgSt (w.toNat / 16 ^
      p.val % 16) = 2 ∧ slotKind (w.toNat / 16 ^ p.val % 16) (s.dev, s.mem) = 1)) →
      Does (.firmwareSelect m v w) s fun t => (t.reg (if v then JNL_FWPREV else JNL_FWCUR) = w32 (w.toNat % 2 ^ 20)) ∧
          t.jnl.queue = s.dev.jnl.queue ++
          [{ body := { typ := 11, payload := [(t.reg JNL_FWCUR).toNat, (t.reg JNL_FWPREV).toNat], time := s.dev.now, srck := 4, pair := 15 } }]
          ∧ t = { s.dev with regs := t.regs, jnl := t.jnl } ∧ (sameRegs s.dev t ([if v then JNL_FWPREV else
          JNL_FWCUR]))) ∧
  (∀ (s : State) (m : Master) (v : Bool) (w : Word), s.dev.sys.logicOn = true → s.dev.supRights m = true → (∃ p : Fin
      5, w.toNat / 16 ^ p.val % 16 ≠ 15 ∧ tget 0 s.dev.jnl.imgSt (w.toNat / 16 ^ p.val % 16) ≠ 2) →
      Does (.firmwareSelect m v w) s fun t => t = s.dev) ∧
  (∀ (s : State) (a : Fin 64) (i : Ident) (e : Nat), s.dev.sys.logicOn = true → s.dev.present (a / 4) = true →
      (s.dev.slotOf (a / 4)).ident = some i → (s.dev.portOf a).enAt = some e →
      Does (.wearHour a) s fun t => ((t.slotOf (a / 4)).ident = some
          { i with hours := (List.range 4).map fun k => i.hours.getD k 0 + (if k = a.val % 4 then ((s.dev.portOf a).enCnt + (s.dev.now - e)) / 720000000000 else 0) })
          ∧ (t.portOf a).enCnt = ((s.dev.portOf a).enCnt + (s.dev.now - e)) % 720000000000 ∧ (t.portOf a).enAt = some
          s.dev.now ∧ t = { s.dev with slots := t.slots, ports := t.ports }) ∧
  (∀ (s : State) (a : Fin 64), s.dev.sys.logicOn = true → s.dev.present (a / 4) = false →
      Does (.wearHour a) s fun t => t = s.dev)

/-- A push takes SP0_QBUF and SP0_QADDR as at the start of its cycle, reports the first result code that applies and
queues the entry when it is 0; another pair takes a bus error. A read frame stores its bytes with words swapped to
little-endian, a write frame sends command, address and data; the last frame of an entry counts in DONE and raises
SP0_DONE with IRQ; an ECC error or a ready timeout halts the queue with its code and SP0_ERR, and a timed-out line
read clears EN with SP0_XIPERR too. RESUME and FLUSH act on the queue. A read of the window answers its word from the
line, which is buffered, or takes a bus error with its subcause. The ports are joined only while both are idle. (R345,
R346, R347, R348, R349, R350, R351, R357, R363, R365, R366) -/
def Obligations.SerialQueueAndWindow : Prop :=
  (∀ (s : State) (m : Master) (w : Word), s.dev.sys.logicOn = true → s.dev.sp0Rights m = true → s.dev.pushCode w = 0 →

      Does (.queuePush m w) s fun t => t.get SP0_QRES_ERR = 0 ∧ t.sp0.queue = s.dev.sp0.queue ++
          [{ buf := s.dev.sp0AtStart.2.1, addr := s.dev.sp0AtStart.2.2, len := wordGet w 16 12, irq := w.getLsbD 10, wsize := 2 ^ wordGet w 8 2, cont := w.getLsbD 6, cs := wordGet w 4 2, fd := wordGet w 0 3 }]
          ∧ (s.dev.get SP0_STAT_HALT = 0 → t.sp0.run = true) ∧ t.get SP0_STAT_QCNT = (s.dev.sp0.queue.length + 1) % 32
          ∧ t.get SP0_QRES_DONE = s.dev.get SP0_QRES_DONE ∧ t = { s.dev with regs := t.regs, sp0 := t.sp0 } ∧ sameRegs
          s.dev t ([SP0_QRES, SP0_STAT])) ∧
  (∀ (s : State) (m : Master) (w : Word), s.dev.sys.logicOn = true → s.dev.sp0Rights m = true →
      Does (.queuePush m w) s fun t => t.get SP0_QRES_ERR = s.dev.pushCode w ∧ (0 < s.dev.pushCode w → t.sp0.queue =
          s.dev.sp0.queue ∧ t.sp0.run = s.dev.sp0.run) ∧ t = { s.dev with regs := t.regs, sp0 := t.sp0 } ∧ sameRegs
          s.dev t ([SP0_QRES, SP0_STAT])) ∧
  (∀ (s : State) (w : Word), s.dev.sp0.snap = none →
      let d := s.dev; let len := wordGet w 16 12; let k := wordGet w 8 2; let fd := wordGet w 0 3
      s.dev.pushCode w = (if 16 ≤ d.sp0.queue.length then 1
        else if 0 < len ∧ (d.get SP0_QBUF_ADDR < 0x10000000 ∨ 0x103FFFFF < d.get SP0_QBUF_ADDR + len - 1) then 2
        else if k ≠ 3 ∧ len % 2 ^ k ≠ 0 then 3
        else if k = 3 ∨ d.get (SP0_FDC_CW fd) = 3 ∨ d.get (SP0_FDP_DIR fd) = 3 ∨ (d.get (SP0_FDP_DIR fd) = 0 ∧ 0 <
            len) ∨
          (d.get SP0_XCON_EN = 1 ∧ d.xconOk (wordGet w 4 2) fd len = false) then 4 else 0)) ∧
  (∀ (s : State) (p : Fin 5) (w : Word), s.dev.sys.logicOn = true → s.dev.sp0Owner ≠ p.val → s.dev.sup ≠ p.val →
      ((s.dev.pairOf p).cwGet 0).getLsbD 2 = false →
      Does (.queuePush (.pair p) w) s fun t => Traps s.dev t p 4 6 true false (w32 SP0_QCTL)) ∧
  (∀ (s : State) (l : List (Fin 256)) (q : QEntry) (r : List QEntry), s.dev.sys.logicOn = true → s.dev.sp0.queue = q
      :: r → s.dev.sp0.run = true → q.cut = false → s.dev.get (SP0_FDP_DIR q.fd) = 1 → q.done + q.frameBytes l.length
      < q.len → l.length = q.frameBytes l.length →
      DoesMem (.sp0FrameDone l false) s (memWriteBytes s.mem (q.buf + q.done) (swapWords q.wsize (l.length / q.wsize)
          (l.map (·.val)))) fun t => t.sp0.queue = { q with done := q.done + q.frameBytes l.length } :: r ∧
          (t.sp0.sent = s.dev.frameHead q.fd (q.addr + (if q.cont then 0 else q.done))) ∧ t =
          { s.dev with sp0 := t.sp0 }) ∧
  (∀ (s : State) (l : List (Fin 256)) (q : QEntry), s.dev.sys.logicOn = true → s.dev.sp0.queue = [q] → s.dev.sp0.run =
      true → q.cut = false → s.dev.get (SP0_FDP_DIR q.fd) = 1 → q.len ≤ q.done + q.frameBytes l.length → l.length =
      q.frameBytes l.length → s.dev.sp0.parting = false →
      DoesMem (.sp0FrameDone l false) s (memWriteBytes s.mem (q.buf + q.done) (swapWords q.wsize (l.length / q.wsize)
          (l.map (·.val)))) fun t => t.sp0.queue = [] ∧ t.sp0.run = false ∧ t.get SP0_QRES_DONE = (s.dev.get
          SP0_QRES_DONE + 1) % 65536 ∧ (q.irq = true → t.pend 912 = true) ∧ t.get SP0_STAT_BUSY = 0 ∧ t =
          { s.dev with regs := t.regs, sp0 := t.sp0, evs := t.evs } ∧ sameRegs s.dev t (([SP0_QRES, SP0_STAT, SP0_EVT]
          ++ evRegs 912))) ∧
  (∀ (s : State) (q : QEntry) (r : List QEntry), s.dev.sys.logicOn = true → s.dev.sp0.queue = q :: r → s.dev.sp0.run =
      true → s.dev.get (SP0_FDP_DIR q.fd) = 2 →
      Does (.sp0FrameDone [] true) s fun t => t.get SP0_STAT_HALT = 1 ∧ t.get SP0_STAT_ERR = 2 ∧ t.pend 913 = true ∧
          t.sp0.queue = r ∧ t.sp0.run = false ∧ t.get SP0_QRES_DONE = s.dev.get SP0_QRES_DONE) ∧
  (∀ (s : State) (q : QEntry) (r : List QEntry), s.dev.sys.logicOn = true → s.dev.sp0.queue = q :: r → s.dev.sp0.run =
      true → q.cut = false → s.dev.get (SP0_FDP_DIR q.fd) = 2 →
      Does (.sp0FrameDone [] false) s fun t => (t.sp0.sent = s.dev.frameHead q.fd (q.addr + (if q.cont then 0 else
          q.done)) ++ swapWords q.wsize (q.frameBytes 0 / q.wsize) (memBytes s.mem (q.buf + q.done) (q.frameBytes
          0)))) ∧
  (∀ (s : State) (q : QEntry) (r : List QEntry), s.dev.sys.logicOn = true → s.dev.get SP0_CFG_RDYEN = 1 →
      s.dev.sp0.queue = q :: r → s.dev.sp0.run = true → 0 < q.len →
      Does (.readyTimeout false) s fun t => t.get SP0_STAT_HALT = 1 ∧ t.get SP0_STAT_ERR = 1 ∧ t.pend 913 = true ∧
          t.sp0.queue = r ∧ t.sp0.run = false ∧ t.get SP0_QRES_DONE = s.dev.get SP0_QRES_DONE) ∧
  (∀ (s : State) (p : Fin 5) (g z : Nat) (b : Bool) (a : Nat), s.dev.sys.logicOn = true → s.dev.get SP0_CFG_RDYEN = 1
      → s.dev.get SP0_STAT_XIPBUSY = 1 → (s.dev.pairOf p).wait = .line g z b a → ((s.dev.pairOf p).cwGet 0).getLsbD 2
      = false → (∀ q : Fin 5, q ≠ p → (s.dev.pairOf q).wait = .none_) →
      Does (.readyTimeout true) s fun t => t.get SP0_XIPCFG_EN = 0 ∧ t.get SP0_STAT_XIPBUSY = 0 ∧ t.pend 914 = true ∧
          (t.pairOf p).cwGet 3 = 0x9004 ∧ (t.pairOf p).cwGet 4 = w32 a ∧ (t.pairOf p).pc = (s.dev.pairOf p).cwGet 5 +
          0x100) ∧
  (∀ (s : State) (v : Bool), s.dev.sys.logicOn = true → s.dev.get SP0_CFG_RDYEN = 0 →
      Does (.readyTimeout v) s fun t => t = s.dev) ∧
  (∀ (s : State), s.dev.sys.logicOn = true →
      Does (.readyStretchEnd) s fun t => t = s.dev) ∧
  (∀ (s : State) (m : Master), s.dev.sys.logicOn = true → s.dev.sp0Rights m = true → s.dev.get SP0_STAT_HALT = 1 →
      s.dev.sp0.queue ≠ [] →
      Does (.queueResume m) s fun t => t.get SP0_STAT_HALT = 0 ∧ t.sp0.run = true ∧ t.sp0.queue = s.dev.sp0.queue ∧ t
          = { s.dev with regs := t.regs, sp0 := t.sp0 } ∧ sameRegs s.dev t ([SP0_STAT])) ∧
  (∀ (s : State) (p : Fin 5), s.dev.sys.logicOn = true → s.dev.sp0Owner ≠ p.val → s.dev.sup ≠ p.val → ((s.dev.pairOf
      p).cwGet 0).getLsbD 2 = false →
      Does (.queueResume (.pair p)) s fun t => Traps s.dev t p 4 6 true false (w32 SP0_CTL)) ∧
  (∀ (s : State) (m : Master), s.dev.sys.logicOn = true → s.dev.sp0Rights m = true → s.dev.sp0.run = false →
      s.dev.sp0.parting = false →
      Does (.queueFlush m) s fun t => t.sp0.queue = [] ∧ t.get SP0_STAT_QCNT = 0 ∧ t.get SP0_QRES_DONE = s.dev.get
          SP0_QRES_DONE ∧ t = { s.dev with regs := t.regs, sp0 := t.sp0 } ∧ sameRegs s.dev t ([SP0_STAT])) ∧
  (∀ (s : State) (m : Master) (q : QEntry) (r : List QEntry), s.dev.sys.logicOn = true → s.dev.sp0Rights m = true →
      s.dev.sp0.run = true → s.dev.sp0.queue = q :: r →
      Does (.queueFlush m) s fun t => t.sp0.queue = [{ q with cut := true }] ∧ t.sp0.run = true ∧ t.get SP0_STAT_QCNT
          = 1 ∧ t = { s.dev with regs := t.regs, sp0 := t.sp0 } ∧ sameRegs s.dev t ([SP0_STAT])) ∧
  (∀ (s : State) (m : Master) (o : Fin 67108864) (l : List (Fin 256)), s.dev.sys.logicOn = true → s.dev.lineWaiters
      (o.val / 32) = [] → l.length = 32 → s.dev.xipSub (o.val / 4 * 4) false = 0 → s.dev.lineAt o.val = none →
      s.dev.sp0.discard = false → s.dev.sp0.lines.length < 8 → s.dev.sp0.parting = false → s.dev.sp0.queue = [] → (∀ p
      : Fin 5, (s.dev.pairOf p).wait = .none_) →
      Does (.xipLineRead m o l) s fun t => t.rdata = w32 (ofBytesLE (((l.map (·.val)).drop (o.val / 4 * 4 % 32)).take
          4)) ∧ t.lineAt o.val = some (l.map (·.val)) ∧ t.sp0.sent = s.dev.frameHead (s.dev.get SP0_XIPCFG_FD)
          (s.dev.get SP0_XIPCFG_XBASE * 4096 + o.val / 32 * 32) ∧ t =
          { s.dev with regs := t.regs, rdata := t.rdata, sp0 := t.sp0 } ∧ sameRegs s.dev t ([SP0_STAT])) ∧
  (∀ (s : State) (m : Master) (o : Fin 67108864) (l : List (Fin 256)) (k : List Nat), s.dev.sys.logicOn = true →
      s.dev.lineWaiters (o.val / 32) = [] → l.length = 32 → s.dev.xipSub (o.val / 4 * 4) false = 0 → s.dev.lineAt
      (o.val / 4 * 4) = some k →
      Does (.xipLineRead m o l) s fun t => t.rdata = w32 (ofBytesLE ((k.drop (o.val / 4 * 4 % 32)).take 4)) ∧ t =
          { s.dev with rdata := t.rdata }) ∧
  (∀ (s : State) (p : Fin 5) (o : Fin 67108864) (l : List (Fin 256)), s.dev.sys.logicOn = true → s.dev.lineWaiters
      (o.val / 32) = [] → l.length = 32 → 0 < s.dev.xipSub (o.val / 4 * 4) false → ((s.dev.pairOf p).cwGet 0).getLsbD
      2 = false →
      Does (.xipLineRead (.pair p) o l) s fun t => Traps s.dev t p 4 9 false false (w32 (0x30000000 + o.val / 4 * 4))) ∧
  (∀ (s : State) (o : Fin 67108864) (f : Bool), s.dev.xipSub o f = (if s.dev.get SP0_XIPCFG_EN = 0 ∨
      2 ^ s.dev.addrBits (s.dev.get SP0_XIPCFG_FD) ≤ s.dev.get SP0_XIPCFG_XBASE * 4096 + o.val / 32 * 32 ∨
      s.dev.get (SP0_FDP_DIR (s.dev.get SP0_XIPCFG_FD)) ≠ 1 ∨ s.dev.get (SP0_FDC_CW (s.dev.get SP0_XIPCFG_FD)) = 3
          then 9
      else if f = true ∧ s.dev.get SP0_XIPCFG_EXEC = 0 then 7 else 0)) ∧
  (∀ (s : State) (m : Master), s.dev.sys.logicOn = true → s.dev.sp0Rights m = true →
      Does (.xipInvalidate m) s fun t => t.sp0.lines = [] ∧ t = { s.dev with sp0 := t.sp0 }) ∧
  (∀ (s : State) (p : Fin 5), s.dev.sys.logicOn = true → s.dev.sp0Owner ≠ p.val → s.dev.sup ≠ p.val → ((s.dev.pairOf
      p).cwGet 0).getLsbD 2 = false →
      Does (.xipInvalidate (.pair p)) s fun t => Traps s.dev t p 4 6 true false (w32 SP0_XIPINV)) ∧
  (∀ (s : State) (m : Master) (w : Word), s.dev.sys.logicOn = true → s.dev.supRights m = true → w.getLsbD 0 = true →
      s.dev.serialIdle = true →
      Does (.crossConnect m w) s fun t => t.get SP0_XCON_EN = 1 ∧ t.get SP1_STAT_XCON = 1 ∧ t =
          { s.dev with regs := t.regs, sp0 := t.sp0 } ∧ sameRegs s.dev t ([SP0_XCON, SP1_STAT])) ∧
  (∀ (s : State) (m : Master) (w : Word), s.dev.sys.logicOn = true → s.dev.supRights m = true → w.getLsbD 0 = true →
      s.dev.serialIdle = false →
      Does (.crossConnect m w) s fun t => t.get SP0_XCON_ERR = 1 ∧ t.get SP0_XCON_EN = s.dev.get SP0_XCON_EN ∧ t =
          { s.dev with regs := t.regs } ∧ sameRegs s.dev t ([SP0_XCON])) ∧
  (∀ (s : State) (m : Master) (w : Word), s.dev.sys.logicOn = true → s.dev.supRights m = true → w.getLsbD 0 = false →
      s.dev.get SP0_XCON_EN = 1 →
      Does (.crossConnect m w) s fun t => t.get SP0_XCON_EN = 0 ∧ (s.dev.serialIdle = true → t.get SP1_STAT_XCON = 0)
          ∧ (s.dev.serialIdle = false → t.get SP1_STAT_XCON = s.dev.get SP1_STAT_XCON ∧ t.sp0.parting = true) ∧ t =
          { s.dev with regs := t.regs, sp0 := t.sp0 } ∧ sameRegs s.dev t ([SP0_XCON, SP1_STAT])) ∧
  (∀ (s : State) (p : Fin 5) (w : Word), s.dev.sys.logicOn = true → s.dev.sup ≠ p.val → ((s.dev.pairOf p).cwGet
      0).getLsbD 2 = false →
      Does (.crossConnect (.pair p) w) s fun t => Traps s.dev t p 4 6 true false (w32 SP0_XCON))

/-- The fall of CS_N begins a transaction with SP1_CFG latched, and in full duplex takes the first word to send. A
received word enters the RX FIFO with its FIRST flag, or is lost with OVF and a count when the FIFO is full; the
header of a half-duplex transaction selects the direction. A word to send comes from the TX FIFO. The rise of CS_N
stores a partial word, reports a cut word, counts and raises SP1_CSEND. A pop answers and removes the head word, a
push appends one, the flushes empty a FIFO; a pair that is neither agent nor supervising takes a bus error. (R353,
R354, R355, R356, R363, R365, R366) -/
def Obligations.SerialTransactions : Prop :=
  (∀ (s : State), s.dev.sys.logicOn = true → s.dev.get SP1_STAT_CSACT = 0 → s.dev.get SP1_CFG_LANES ≠ 0 →
      Does (.csFall) s fun t => t.get SP1_STAT_CSACT = 1 ∧ t.sp1 =
          { s.dev.sp1 with cfg := (s.dev.reg SP1_CFG).toNat, first := true, reads := false, cur := none } ∧ t =
          { s.dev with regs := t.regs, sp1 := t.sp1 } ∧ sameRegs s.dev t ([SP1_STAT, SP1_RXHEAD])) ∧
  (∀ (s : State) (w : Nat) (l : List Nat), s.dev.sys.logicOn = true → s.dev.get SP1_STAT_CSACT = 0 → s.dev.get
      SP1_CFG_LANES = 0 → s.dev.sp1.rx.length < 64 → s.dev.sp1.tx = w :: l → s.dev.get SP1_CFG_WSIZE = 2 →
      Does (.csFall) s fun t => t.sp1.cur = some (w % 2 ^ 32) ∧ t.sp1.tx = l ∧ t.get SP1_STAT_CSACT = 1 ∧ (s.dev.get
          SP1_CFG_TXTH < l.length + 1 → l.length ≤ s.dev.get SP1_CFG_TXTH → t.pend 921 = true) ∧ t =
          { s.dev with regs := t.regs, sp1 := t.sp1, evs := t.evs } ∧ sameRegs s.dev t (([SP1_STAT, SP1_RXHEAD,
          SP1_EVT] ++ evRegs 921))) ∧
  (∀ (s : State), s.dev.sys.logicOn = true → s.dev.get SP1_STAT_CSACT = 1 →
      Does (.csFall) s fun t => t = s.dev) ∧
  (∀ (s : State) (w : Word), s.dev.sys.logicOn = true → s.dev.get SP1_STAT_CSACT = 1 → (s.dev.sp1.duplex = true ∨
      s.dev.sp1.reads = false) → s.dev.sp1.rx.length < 64 →
      Does (.sp1WordReceived w) s fun t => t.sp1.rx = s.dev.sp1.rx ++
          [{ word := w.toNat % 2 ^ s.dev.sp1.bits, first := s.dev.sp1.first }] ∧ t.sp1.first = false ∧ t.sp1.reads =
          (!s.dev.sp1.duplex && s.dev.sp1.first && w.toNat.testBit (s.dev.sp1.bits - 1)) ∧ (s.dev.sp1.rx.length + 1 =
          s.dev.sp1.rxTh → t.pend 920 = true) ∧ t.get SP1_STAT_RXCNT = s.dev.sp1.rx.length + 1 ∧ t =
          { s.dev with regs := t.regs, sp1 := t.sp1, evs := t.evs } ∧ sameRegs s.dev t (([SP1_STAT, SP1_RXHEAD,
          SP1_EVT] ++ evRegs 920))) ∧
  (∀ (s : State) (w : Word), s.dev.sys.logicOn = true → s.dev.get SP1_STAT_CSACT = 1 → (s.dev.sp1.duplex = true ∨
      s.dev.sp1.reads = false) → 64 ≤ s.dev.sp1.rx.length →
      Does (.sp1WordReceived w) s fun t => t.sp1.rx = s.dev.sp1.rx ∧ t.get SP1_STAT_OVF = 1 ∧ (t.reg SP1_OVFCNT = (if
          s.dev.reg SP1_OVFCNT = 0xFFFF#32 then 0xFFFF#32 else s.dev.reg SP1_OVFCNT + 1) ∨ 0xFFFF < (s.dev.reg
          SP1_OVFCNT).toNat) ∧ t.pend 923 = true ∧ t = { s.dev with regs := t.regs, sp1 := t.sp1, evs := t.evs } ∧
          sameRegs s.dev t (([SP1_STAT, SP1_RXHEAD, SP1_OVFCNT, SP1_EVT] ++ evRegs 923))) ∧
  (∀ (s : State) (k : Nat) (l : List Nat), s.dev.sys.logicOn = true → s.dev.get SP1_STAT_CSACT = 1 → s.dev.sp1.reads =
      true → s.dev.sp1.duplex = false → s.dev.sp1.tx = k :: l →
      Does (.sp1WordSent) s fun t => t.sp1.cur = some (k % 2 ^ s.dev.sp1.bits) ∧ t.sp1.tx = l ∧ t.get SP1_STAT_TXCNT =
          l.length % 128 ∧ t = { s.dev with regs := t.regs, sp1 := t.sp1, evs := t.evs } ∧ sameRegs s.dev t
          (([SP1_STAT, SP1_RXHEAD, SP1_EVT] ++ evRegs 921))) ∧
  (∀ (s : State), s.dev.sys.logicOn = true → s.dev.get SP1_STAT_CSACT = 1 → (s.dev.sp1.reads = true ∨ s.dev.sp1.duplex
      = true) → s.dev.sp1.tx = [] →
      Does (.sp1WordSent) s fun t => t.sp1.cur = none ∧ t.sp1.tx = [] ∧ t =
          { s.dev with regs := t.regs, sp1 := t.sp1 } ∧ sameRegs s.dev t ([SP1_STAT, SP1_RXHEAD])) ∧
  (∀ (s : State) (w : Word), s.dev.sys.logicOn = true → s.dev.get SP1_STAT_CSACT = 1 → s.dev.sp0.parting = false →
      Does (.csRise 0 w true) s fun t => t.get SP1_STAT_CSACT = 0 ∧ t.sp1.cur = none ∧ t.reg SP1_TCNT = s.dev.reg
          SP1_TCNT + 1 ∧ t.pend 922 = true ∧ t.get SP1_STAT_RDYLO = 0 ∧ (s.dev.sp1.cur ≠ none → t.get SP1_STAT_TXCUT =
          1) ∧ t.sp1.tx = s.dev.sp1.tx ∧ t.sp1.rx = s.dev.sp1.rx ∧ t =
          { s.dev with regs := t.regs, sp1 := t.sp1, evs := t.evs } ∧ sameRegs s.dev t (([SP1_STAT, SP1_RXHEAD,
          SP1_TCNT, SP1_EVT] ++ evRegs 922))) ∧
  (∀ (s : State) (n : Fin 32) (w : Word), s.dev.sys.logicOn = true → s.dev.get SP1_STAT_CSACT = 1 → 0 < n.val → n.val
      < s.dev.sp1.bits → (s.dev.sp1.duplex = true ∨ s.dev.sp1.reads = false) → s.dev.sp1.rx.length < 64 →
      Does (.csRise n w false) s fun t => t.sp1.rx = s.dev.sp1.rx ++
          [{ word := w.toNat % 2 ^ n.val * 2 ^ (s.dev.sp1.bits - n.val), first := s.dev.sp1.first, bits := some n.val }]
          ∧ t.pend 922 = true ∧ (t.sp1.tx =
          (match s.dev.sp1.cur with | some k => k :: s.dev.sp1.tx | none => s.dev.sp1.tx))) ∧
  (∀ (s : State) (m : Master) (r : RxWord) (l : List RxWord), s.dev.sys.logicOn = true → s.dev.sp1Rights m = true →
      s.dev.sp1.rx = r :: l →
      Does (.sp1Pop m) s fun t => t.rdata = w32 r.word ∧ t.sp1.rx = l ∧ t.get SP1_STAT_RXCNT = l.length % 128 ∧ t =
          { s.dev with regs := t.regs, rdata := t.rdata, sp1 := t.sp1 } ∧ sameRegs s.dev t ([SP1_STAT, SP1_RXHEAD])) ∧
  (∀ (s : State) (m : Master), s.dev.sys.logicOn = true → s.dev.sp1Rights m = true → s.dev.sp1.rx = [] →
      Does (.sp1Pop m) s fun t => t.rdata = 0 ∧ t.get SP1_STAT_UNF = 1 ∧ t =
          { s.dev with regs := t.regs, rdata := t.rdata } ∧ sameRegs s.dev t ([SP1_STAT])) ∧
  (∀ (s : State) (p : Fin 5), s.dev.sys.logicOn = true → s.dev.agent ≠ p.val → s.dev.sup ≠ p.val → ((s.dev.pairOf
      p).cwGet 0).getLsbD 2 = false →
      Does (.sp1Pop (.pair p)) s fun t => Traps s.dev t p 4 6 false false (w32 SP1_RX)) ∧
  (∀ (s : State) (m : Master) (w : Word), s.dev.sys.logicOn = true → s.dev.sp1Rights m = true → s.dev.sp1.tx.length <
      64 → s.dev.txHeld = false →
      Does (.sp1Push m w) s fun t => t.sp1.tx = s.dev.sp1.tx ++ [w.toNat] ∧ t.get SP1_STAT_TXCNT = s.dev.sp1.tx.length
          + 1 ∧ t = { s.dev with regs := t.regs, sp1 := t.sp1 } ∧ sameRegs s.dev t ([SP1_STAT, SP1_RXHEAD])) ∧
  (∀ (s : State) (m : Master) (w : Word), s.dev.sys.logicOn = true → s.dev.sp1Rights m = true → 64 ≤
      s.dev.sp1.tx.length →
      Does (.sp1Push m w) s fun t => t.get SP1_STAT_TXFULLW = 1 ∧ t = { s.dev with regs := t.regs } ∧ sameRegs s.dev t
          ([SP1_STAT])) ∧
  (∀ (s : State) (p : Fin 5) (w : Word), s.dev.sys.logicOn = true → s.dev.agent ≠ p.val → s.dev.sup ≠ p.val →
      ((s.dev.pairOf p).cwGet 0).getLsbD 2 = false →
      Does (.sp1Push (.pair p) w) s fun t => Traps s.dev t p 4 6 true false (w32 SP1_TX)) ∧
  (∀ (s : State) (m : Master) (w : Word), s.dev.sys.logicOn = true → s.dev.sp1Rights m = true → w.getLsbD 8 = false →
      Does (.flushtx m w) s fun t => t.sp1.tx = [] ∧ t.sp1.rx = s.dev.sp1.rx ∧ t.sp1.cur = s.dev.sp1.cur ∧ t.get
          SP1_CTL_ATTN = wordGet w 0 1 ∧ t.get SP1_STAT_TXCNT = 0 ∧ t =
          { s.dev with regs := t.regs, sp1 := t.sp1, evs := t.evs } ∧ sameRegs s.dev t (([SP1_CTL, SP1_STAT,
          SP1_RXHEAD, SP1_EVT] ++ evRegs 921))) ∧
  (∀ (s : State) (m : Master) (w : Word), s.dev.sys.logicOn = true → s.dev.sp1Rights m = true → w.getLsbD 9 = false →
      Does (.flushrx m w) s fun t => t.sp1.rx = [] ∧ t.sp1.tx = s.dev.sp1.tx ∧ t.get SP1_CTL_ATTN = wordGet w 0 1 ∧
          t.get SP1_STAT_RXCNT = 0 ∧ t = { s.dev with regs := t.regs, sp1 := t.sp1 } ∧ sameRegs s.dev t ([SP1_CTL,
          SP1_STAT, SP1_RXHEAD]))

/-- A permitted write of SWC_SEGn gives the segment its owner and flags, with SWC_HSUM and event 928 following;
another leaves it and sets OWNERR. A READ of a HOST segment answers its words with the response header and its CRC,
sets ATTN and advances SEQ; a WRITE of a HOST segment stores its words in ascending order once all arrived; CLAIM and
RELEASE move a segment between FREE and HOST; STATUS answers the segment words; SYNC sets the expected SEQ; a failed
CRC, an unexpected SEQ, a wrong range or owner and a short WRITE are answered with their status and do nothing. The
host takes the response, or the busy pattern. (R358, R359, R360, R361, R362, R363, R365) -/
def Obligations.SharedWindow : Prop :=
  (∀ (s : State) (m : Master) (p : Fin 5) (n : Fin 64) (w : Word), s.dev.sys.logicOn = true → s.dev.asPair m = some
      p.val → s.dev.segAllowed p (s.dev.reg (SWC_SEG n)) (w &&& 0x373#32) = true →
      Does (.segmentOwnership m n w) s fun t => t.reg (SWC_SEG n) = w &&& 0x373#32 ∧ (t.mask64 SWC_HSUM_LO
          SWC_HSUM_HI).testBit n = (segOwn w = 2 : Bool) ∧ (segOwn (s.dev.reg (SWC_SEG n)) ≠ segOwn w → t.pend 928 =
          true) ∧ t = { s.dev with regs := t.regs, win := t.win, evs := t.evs } ∧ sameRegs s.dev t (([SWC_SEG n,
          SWC_HSUM_LO, SWC_HSUM_HI, SWC_EVT] ++ evRegs 928))) ∧
  (∀ (s : State) (m : Master) (p : Fin 5) (n : Fin 64) (w : Word), s.dev.sys.logicOn = true → s.dev.asPair m = some
      p.val → s.dev.segAllowed p (s.dev.reg (SWC_SEG n)) (w &&& 0x373#32) = false →
      Does (.segmentOwnership m n w) s fun t => t.get SWC_STAT_OWNERR = 1 ∧ t = { s.dev with regs := t.regs } ∧
          sameRegs s.dev t ([SWC_STAT])) ∧
  (∀ (d : Dev) (p a b c e : Fin 5), p.val ≠ d.sup →
      (d.segAllowed p 0 (w32 (1 + 16 * a)) = true ↔ p = a) ∧ (d.segAllowed p (w32 (1 + 16 * a)) 0 = true ↔ p = a) ∧
      (d.segAllowed p (w32 (1 + 16 * b)) 2 = true ↔ p = b) ∧ (d.segAllowed p 0 2 = true ↔ p.val = d.agent) ∧
      (d.segAllowed p 2 0 = true ↔ p.val = d.agent) ∧ d.segAllowed p 2 (w32 (1 + 16 * c)) = false ∧
      (d.segAllowed p (w32 (1 + 16 * c)) (w32 (1 + 16 * e)) = true ↔ c = e ∧ p = c)) ∧
  (∀ (s : State) (n : Fin 256) (o : Word) (k : Fin 65536) (c : Word), s.dev.sys.logicOn = true → s.dev.win.expect =
      some n.val → winCrc (winHead 1 n.val k.val) o.toNat = c.toNat → o.toNat < 0x40000 → o.toNat % 4 = 0 → o.toNat %
      4096 + 4 * k.val ≤ 4096 → segOwn (s.dev.reg (SWC_SEG (o.toNat / 4096 % 64))) = 2 →
      Does (.windowRead n o k c) s fun t => (t.win.resp = [0x5A000000 + n.val * 2 ^ 16 + 0 * 2 ^ 8 + 1, k.val, winCrc
          (0x5A000000 + n.val * 2 ^ 16 + 0 * 2 ^ 8 + 1) (k.val)] ++ (List.range k.val).map fun i => memWord s.mem
          (0x103C0000 + o.toNat + 4 * i)) ∧ t.win.expect = some ((n.val + 1) % 256) ∧ t.get SP1_CTL_ATTN = 1 ∧ t =
          { s.dev with regs := t.regs, win := t.win } ∧ sameRegs s.dev t ([SP1_CTL])) ∧
  (∀ (s : State) (n : Fin 256) (o : Word) (k : Fin 65536) (c : Word), s.dev.sys.logicOn = true → s.dev.win.expect =
      some n.val → winCrc (winHead 1 n.val k.val) o.toNat = c.toNat → o.toNat < 0x40000 → o.toNat % 4 = 0 → o.toNat %
      4096 + 4 * k.val ≤ 4096 → segOwn (s.dev.reg (SWC_SEG (o.toNat / 4096 % 64))) ≠ 2 → (s.dev.reg (SWC_SEG (o.toNat
      / 4096 % 64))).getLsbD 8 = false →
      Does (.windowRead n o k c) s fun t => t.win.resp = [0x5A000000 + n.val * 2 ^ 16 + 3 * 2 ^ 8 + 1, 0, winCrc
          (0x5A000000 + n.val * 2 ^ 16 + 3 * 2 ^ 8 + 1) (0)] ∧ t.win.expect = some ((n.val + 1) % 256) ∧ t.get
          SP1_CTL_ATTN = 1 ∧ t = { s.dev with regs := t.regs, win := t.win } ∧ sameRegs s.dev t ([SP1_CTL])) ∧
  (∀ (s : State) (n : Fin 256) (o : Word) (k : Fin 65536) (c : Word), s.dev.sys.logicOn = true → winCrc (winHead 1
      n.val k.val) o.toNat ≠ c.toNat →
      Does (.windowRead n o k c) s fun t => t.win.resp = [0x5A000000 + n.val * 2 ^ 16 + 1 * 2 ^ 8 + 1, 0, winCrc
          (0x5A000000 + n.val * 2 ^ 16 + 1 * 2 ^ 8 + 1) (0)] ∧ t.win.expect = s.dev.win.expect ∧ t.get SP1_CTL_ATTN =
          1 ∧ t = { s.dev with regs := t.regs, win := t.win } ∧ sameRegs s.dev t ([SP1_CTL])) ∧
  (∀ (s : State) (n : Fin 256) (o : Word) (k : Fin 65536) (c : Word), s.dev.sys.logicOn = true → winCrc (winHead 1
      n.val k.val) o.toNat = c.toNat → s.dev.win.expect ≠ some n.val → s.dev.win.expect ≠ some ((n.val + 1) % 256) →
      Does (.windowRead n o k c) s fun t => t.win.resp = [0x5A000000 + n.val * 2 ^ 16 + 2 * 2 ^ 8 + 1, 0, winCrc
          (0x5A000000 + n.val * 2 ^ 16 + 2 * 2 ^ 8 + 1) (0)] ∧ t.win.expect = s.dev.win.expect ∧ t.win.last =
          s.dev.win.last ∧ t = { s.dev with regs := t.regs, win := t.win } ∧ sameRegs s.dev t ([SP1_CTL])) ∧
  (∀ (s : State) (n : Fin 256) (o : Word) (k : Fin 65536) (c : Word), s.dev.sys.logicOn = true → winCrc (winHead 1
      n.val k.val) o.toNat = c.toNat → s.dev.win.expect = some ((n.val + 1) % 256) → s.dev.win.last = some (n.val, 0,
      1, o.toNat, k.val) →
      Does (.windowRead n o k c) s fun t => (t.win.resp = [0x5A000000 + n.val * 2 ^ 16 + 0 * 2 ^ 8 + 1, k.val, winCrc
          (0x5A000000 + n.val * 2 ^ 16 + 0 * 2 ^ 8 + 1) (k.val)] ++ (List.range k.val).map fun i => memWord s.mem
          (0x103C0000 + o.toNat + 4 * i)) ∧ t.win.expect = s.dev.win.expect ∧ t =
          { s.dev with regs := t.regs, win := t.win } ∧ sameRegs s.dev t ([SP1_CTL])) ∧
  (∀ (s : State) (n : Fin 256) (o : Word) (k : Fin 65536) (c : Word) (l : List Word), s.dev.sys.logicOn = true →
      s.dev.win.expect = some n.val → winCrc (winHead 2 n.val k.val) o.toNat = c.toNat → o.toNat < 0x40000 → o.toNat %
      4 = 0 → o.toNat % 4096 + 4 * k.val ≤ 4096 → segOwn (s.dev.reg (SWC_SEG (o.toNat / 4096 % 64))) = 2 → k.val ≤
      l.length →
      DoesMem (.windowWrite n o k c l) s (memWriteBytes s.mem (0x103C0000 + o.toNat) ((l.take k.val).map fun w =>
          bytesLE 4 w.toNat).flatten) fun t => t.win.resp = [0x5A000000 + n.val * 2 ^ 16 + 0 * 2 ^ 8 + 2, 0, winCrc
          (0x5A000000 + n.val * 2 ^ 16 + 0 * 2 ^ 8 + 2) (0)] ∧ t.win.expect = some ((n.val + 1) % 256) ∧ t =
          { s.dev with regs := t.regs, win := t.win } ∧ sameRegs s.dev t ([SP1_CTL])) ∧
  (∀ (s : State) (n : Fin 256) (o : Word) (k : Fin 65536) (c : Word) (l : List Word), s.dev.sys.logicOn = true →
      s.dev.win.expect = some n.val → winCrc (winHead 2 n.val k.val) o.toNat = c.toNat → o.toNat < 0x40000 → o.toNat %
      4 = 0 → o.toNat % 4096 + 4 * k.val ≤ 4096 → segOwn (s.dev.reg (SWC_SEG (o.toNat / 4096 % 64))) = 2 → l.length <
      k.val →
      Does (.windowWrite n o k c l) s fun t => t.win.resp = [0x5A000000 + n.val * 2 ^ 16 + 6 * 2 ^ 8 + 2, 0, winCrc
          (0x5A000000 + n.val * 2 ^ 16 + 6 * 2 ^ 8 + 2) (0)] ∧ t = { s.dev with regs := t.regs, win := t.win } ∧
          sameRegs s.dev t ([SP1_CTL])) ∧
  (∀ (s : State) (n : Fin 256) (o : Word) (k : Fin 65536) (c : Word) (l : List Word), s.dev.sys.logicOn = true →
      s.dev.win.expect = some n.val → winCrc (winHead 2 n.val k.val) o.toNat = c.toNat → (0x40000 ≤ o.toNat ∨ o.toNat
      % 4 ≠ 0 ∨ 4096 < o.toNat % 4096 + 4 * k.val) →
      Does (.windowWrite n o k c l) s fun t => t.win.resp = [0x5A000000 + n.val * 2 ^ 16 + 4 * 2 ^ 8 + 2, 0, winCrc
          (0x5A000000 + n.val * 2 ^ 16 + 4 * 2 ^ 8 + 2) (0)] ∧ t = { s.dev with regs := t.regs, win := t.win } ∧
          sameRegs s.dev t ([SP1_CTL])) ∧
  (∀ (s : State) (n : Fin 256) (o : Word) (k : Fin 65536) (c : Word), s.dev.sys.logicOn = true → s.dev.win.expect =
      some n.val → winCrc (winHead 3 n.val k.val) o.toNat = c.toNat → o.toNat < 0x40000 → o.toNat % 4 = 0 → segOwn
      (s.dev.reg (SWC_SEG (o.toNat / 4096 % 64))) = 0 →
      Does (.windowClaim n o k c) s fun t => segOwn (t.reg (SWC_SEG (o.toNat / 4096 % 64))) = 2 ∧ t.win.resp =
          [0x5A000000 + n.val * 2 ^ 16 + 0 * 2 ^ 8 + 3, 0, winCrc (0x5A000000 + n.val * 2 ^ 16 + 0 * 2 ^ 8 + 3) (0)] ∧
          t.win.expect = some ((n.val + 1) % 256) ∧ (t.mask64 SWC_HSUM_LO SWC_HSUM_HI).testBit (o.toNat / 4096) = true
          ∧ t.pend 928 = true ∧ t = { s.dev with regs := t.regs, win := t.win, evs := t.evs, jnl := t.jnl }) ∧
  (∀ (s : State) (n : Fin 256) (o : Word) (k : Fin 65536) (c : Word), s.dev.sys.logicOn = true → s.dev.win.expect =
      some n.val → winCrc (winHead 3 n.val k.val) o.toNat = c.toNat → o.toNat < 0x40000 → o.toNat % 4 = 0 → segOwn
      (s.dev.reg (SWC_SEG (o.toNat / 4096 % 64))) ≠ 0 →
      Does (.windowClaim n o k c) s fun t => t.win.resp = [0x5A000000 + n.val * 2 ^ 16 + 3 * 2 ^ 8 + 3, 0, winCrc
          (0x5A000000 + n.val * 2 ^ 16 + 3 * 2 ^ 8 + 3) (0)] ∧ t = { s.dev with regs := t.regs, win := t.win } ∧
          sameRegs s.dev t ([SP1_CTL])) ∧
  (∀ (s : State) (n : Fin 256) (o : Word) (k : Fin 65536) (c : Word), s.dev.sys.logicOn = true → s.dev.win.expect =
      some n.val → winCrc (winHead 4 n.val k.val) o.toNat = c.toNat → o.toNat < 0x40000 → o.toNat % 4 = 0 → segOwn
      (s.dev.reg (SWC_SEG (o.toNat / 4096 % 64))) = 2 →
      Does (.windowRelease n o k c) s fun t => segOwn (t.reg (SWC_SEG (o.toNat / 4096 % 64))) = 0 ∧ t.win.resp =
          [0x5A000000 + n.val * 2 ^ 16 + 0 * 2 ^ 8 + 4, 0, winCrc (0x5A000000 + n.val * 2 ^ 16 + 0 * 2 ^ 8 + 4) (0)] ∧
          t.win.expect = some ((n.val + 1) % 256) ∧ (t.mask64 SWC_HSUM_LO SWC_HSUM_HI).testBit (o.toNat / 4096) =
          false ∧ t.pend 928 = true ∧ t = { s.dev with regs := t.regs, win := t.win, evs := t.evs, jnl := t.jnl }) ∧
  (∀ (s : State) (n : Fin 256) (o : Word) (k : Fin 65536) (c : Word), s.dev.sys.logicOn = true → s.dev.win.expect =
      some n.val → winCrc (winHead 4 n.val k.val) o.toNat = c.toNat → o.toNat < 0x40000 → o.toNat % 4 = 0 → segOwn
      (s.dev.reg (SWC_SEG (o.toNat / 4096 % 64))) ≠ 2 →
      Does (.windowRelease n o k c) s fun t => t.win.resp = [0x5A000000 + n.val * 2 ^ 16 + 3 * 2 ^ 8 + 4, 0, winCrc
          (0x5A000000 + n.val * 2 ^ 16 + 3 * 2 ^ 8 + 4) (0)] ∧ t = { s.dev with regs := t.regs, win := t.win } ∧
          sameRegs s.dev t ([SP1_CTL])) ∧
  (∀ (s : State) (n : Fin 256) (o : Word) (k : Fin 65536) (c : Word), s.dev.sys.logicOn = true → s.dev.win.expect =
      some n.val → winCrc (winHead 5 n.val k.val) o.toNat = c.toNat →
      Does (.windowStatus n o k c) s fun t => (t.win.resp = [0x5A000000 + n.val * 2 ^ 16 + 0 * 2 ^ 8 + 5, 64, winCrc
          (0x5A000000 + n.val * 2 ^ 16 + 0 * 2 ^ 8 + 5) (64)] ++ (List.range 64).map fun i => (s.dev.reg (SWC_SEG
          i)).toNat) ∧ t.win.expect = some ((n.val + 1) % 256) ∧ t = { s.dev with regs := t.regs, win := t.win } ∧
          sameRegs s.dev t ([SP1_CTL])) ∧
  (∀ (s : State) (n : Fin 256) (o : Word) (k : Fin 65536) (c : Word), s.dev.sys.logicOn = true → winCrc (winHead 6
      n.val k.val) o.toNat = c.toNat →
      Does (.windowSync n o k c) s fun t => t.win.resp = [0x5A000000 + n.val * 2 ^ 16 + 0 * 2 ^ 8 + 6, 0, winCrc
          (0x5A000000 + n.val * 2 ^ 16 + 0 * 2 ^ 8 + 6) (0)] ∧ t.win.expect = some ((n.val + 1) % 256) ∧ t.get
          SP1_CTL_ATTN = 1 ∧ t = { s.dev with regs := t.regs, win := t.win } ∧ sameRegs s.dev t ([SP1_CTL])) ∧
  (∀ (s : State) (n : Fin 256) (o : Word) (k : Fin 65536) (c : Word), s.dev.sys.logicOn = true → winCrc (winHead 6
      n.val k.val) o.toNat ≠ c.toNat →
      Does (.windowSync n o k c) s fun t => t.win.resp = [0x5A000000 + n.val * 2 ^ 16 + 1 * 2 ^ 8 + 6, 0, winCrc
          (0x5A000000 + n.val * 2 ^ 16 + 1 * 2 ^ 8 + 6) (0)] ∧ t.win.expect = s.dev.win.expect ∧ t =
          { s.dev with regs := t.regs, win := t.win } ∧ sameRegs s.dev t ([SP1_CTL])) ∧
  (∀ (s : State), s.dev.sys.logicOn = true → s.dev.win.resp ≠ [] →
      Does (.windowResponse) s fun t => t.win.out = s.dev.win.resp ∧ t.win.resp = [] ∧ t.get SP1_CTL_ATTN = 0 ∧ t =
          { s.dev with regs := t.regs, win := t.win } ∧ sameRegs s.dev t ([SP1_CTL])) ∧
  (∀ (s : State), s.dev.sys.logicOn = true → s.dev.win.resp = [] →
      Does (.windowResponse) s fun t => t.win.out = [(s.dev.reg SP1_BUSY).toNat] ∧ t = { s.dev with win := t.win })

/-- A request makes its mailboxes pending, an abort of the same cycle cancels one. A sent frame ends its mailbox with
SENT (SENT_ABORT_LATE after a late abort), its attempts and its timestamp, and raises TXDONE; lost arbitration only
counts an attempt; an acknowledgement error counts eight. An abort cancels a pending frame or is noted as late. A
received frame that a filter passes enters the FIFO with RX, is lost with OVR and RXOVR when it is full, and is
ignored without a filter; an FD frame on ISO is a form error. A pop removes the head. Bus-off ends every pending frame
with BUSOFF and loses the clients of the link; recovery starts the address claim of ISO. BUS_ALONE sets and clears
with event 948. Error counters follow ISO 11898-1 (a log entry names the choice). (R367, R368, R373, R374, R386, R395,
R396, R397, R399) -/
def Obligations.CanTransmission : Prop :=
  (∀ (s : State) (m : Master) (c : Fin 3) (w : Word), s.dev.sys.logicOn = true → s.dev.canRights m c = true → (∀ i :
      Fin 8, (s.dev.mbOf c i).abortAt ≠ some s.dev.now) →
      Does (.txRequest m c w) s fun t => (∀ i : Fin 8, t.mbPend c i = (s.dev.mbPend c i || w.toNat.testBit i)) ∧ (∀ i
          : Fin 8, s.dev.mbPend c i = false → w.toNat.testBit i = true → (t.mbOf c i).reqAt = s.dev.now ∧ (t.mbOf c
          i).att = 0) ∧ t = { s.dev with regs := t.regs, can := t.can } ∧ sameRegs s.dev t ([CAN_TXPEND c])) ∧
  (∀ (s : State) (m : Master) (c : Fin 3) (i : Fin 8), s.dev.sys.logicOn = true → s.dev.canRights m c = true →
      (s.dev.mbOf c i).abortAt = some s.dev.now → s.dev.mbPend c i = false →
      Does (.txRequest m c (w32 (2 ^ i.val))) s fun t => t.mbPend c i = false ∧ t.get (CAN_TXRES_RES c i) = 3 ∧ t.get
          (CAN_TXRES_ATT c i) = 0 ∧ t.bit (CAN_EVT c) 1 = true) ∧
  (∀ (s : State) (p : Fin 5) (c : Fin 3) (w : Word), s.dev.sys.logicOn = true → s.dev.canOwner c ≠ p.val → s.dev.sup ≠
      p.val → ((s.dev.pairOf p).cwGet 0).getLsbD 2 = false →
      Does (.txRequest (.pair p) c w) s fun t => Traps s.dev t p 4 6 true false (w32 (CAN_TXREQ c))) ∧
  (∀ (s : State) (c : Fin 3) (n : Nat) (i : Fin 8), s.dev.sys.logicOn = true → s.dev.canLive c = true → s.dev.get
      (CAN_CFG_LISTEN c) = 0 → s.dev.get (CAN_CFG_LOOP c) = 0 → s.dev.contender c (s.dev.now - n) = some i.val →
      Does (.frameTransmitted c n .sent) s fun t => t.mbPend c i = false ∧ (t.get (CAN_TXRES_RES c i) = (if
          (s.dev.mbOf c i).late then 2 else 1)) ∧ t.get (CAN_TXRES_ATT c i) = min 255 ((s.dev.mbOf c i).att + 1) ∧
          t.get (CAN_TXTS_T c i) = (s.dev.now - n) % 2 ^ 32 ∧ t.get (CAN_ERRC_TEC c) = s.dev.get (CAN_ERRC_TEC c) - 1
          ∧ t.pend (945 + 8 * c.val) = true ∧ (∀ k : Fin 8, k ≠ i → t.mbPend c k = s.dev.mbPend c k)) ∧
  (∀ (s : State) (c : Fin 3) (n : Nat) (i : Fin 8), s.dev.sys.logicOn = true → s.dev.canLive c = true → s.dev.get
      (CAN_CFG_LISTEN c) = 0 → s.dev.contender c (s.dev.now - n) = some i.val → (s.dev.mbOf c i).late = false →
      s.dev.get (CAN_STAT_ALONE c) = 0 →
      Does (.frameTransmitted c n .lostArb) s fun t => (t.mbOf c i).att = (s.dev.mbOf c i).att + 1 ∧ t.mbPend c i =
          s.dev.mbPend c i ∧ t = { s.dev with can := t.can }) ∧
  (∀ (s : State) (c : Fin 3) (n : Nat) (i : Fin 8), s.dev.sys.logicOn = true → s.dev.canLive c = true → s.dev.get
      (CAN_CFG_LISTEN c) = 0 → s.dev.contender c (s.dev.now - n) = some i.val → (s.dev.mbOf c i).late = false →
      s.dev.get (CAN_STAT_ALONE c) = 0 → s.dev.get (CAN_STAT_STATE c) = 0 → s.dev.get (CAN_ERRC_REC c) ≤ 127 →
      Does (.frameTransmitted c n .ackError) s fun t => t.get (CAN_ERRC_TEC c) = min 511 (s.dev.get (CAN_ERRC_TEC c) +
          8) ∧ t.get (CAN_STAT_LEC c) = 3 ∧ t.mbPend c i = s.dev.mbPend c i ∧ (t.get (CAN_STAT_STATE c) = (if 127 <
          s.dev.get (CAN_ERRC_TEC c) + 8 then 1 else 0)) ∧ t =
          { s.dev with regs := t.regs, can := t.can, evs := t.evs } ∧ sameRegs s.dev t (([CAN_STAT c, CAN_ERRC c,
          CAN_EVT c] ++ evRegs (946 + 8 * c.val)))) ∧
  (∀ (s : State) (c : Fin 3) (n : Nat) (e : TxEnd), s.dev.sys.logicOn = true → (s.dev.contender c (s.dev.now - n) =
      none ∨ s.dev.canLive c = false) →
      Does (.frameTransmitted c n e) s fun t => t = s.dev) ∧
  (∀ (s : State) (m : Master) (c : Fin 3) (i : Fin 8), s.dev.sys.logicOn = true → s.dev.canRights m c = true →
      s.dev.mbPend c i = true →
      Does (.txAbort m c (w32 (2 ^ i.val)) none) s fun t => t.mbPend c i = false ∧ t.get (CAN_TXRES_RES c i) = 3 ∧
          t.pend (945 + 8 * c.val) = true ∧ (∀ k : Fin 8, k ≠ i → t.mbPend c k = s.dev.mbPend c k)) ∧
  (∀ (s : State) (m : Master) (c : Fin 3) (i : Fin 8), s.dev.sys.logicOn = true → s.dev.canRights m c = true →
      s.dev.mbPend c i = true → (s.dev.mbOf c i).reqAt ≠ s.dev.now →
      Does (.txAbort m c (w32 (2 ^ i.val)) (some i)) s fun t => t.mbPend c i = true ∧ (t.mbOf c i).late = true ∧ t =
          { s.dev with can := t.can }) ∧
  (∀ (s : State) (p : Fin 5) (c : Fin 3) (w : Word), s.dev.sys.logicOn = true → s.dev.canOwner c ≠ p.val → s.dev.sup ≠
      p.val → ((s.dev.pairOf p).cwGet 0).getLsbD 2 = false →
      Does (.txAbort (.pair p) c w none) s fun t => Traps s.dev t p 4 6 true false (w32 (CAN_TXABORT c))) ∧
  (∀ (s : State) (c : Fin 3) (k : Fin 536870912) (b e : Bool) (l : Fin 16) (y : List (Fin 256)) (n : Nat) (f : Nat),
      s.dev.sys.logicOn = true → s.dev.canLive c = true → s.dev.filterOf c true k.val = some f → (s.dev.canOf
      c).rx.length < 64 → s.dev.get (CAN_ERRC_TEC c) ≤ 127 → s.dev.get (CAN_ERRC_REC c) ≤ 127 → s.dev.get
      (CAN_STAT_STATE c) = 0 →
      Does (.frameReceived c k true false b e false l y n) s fun t => (t.canOf c).rx = (s.dev.canOf c).rx ++
          [{ id := k.val, ide := true, brs := b, esi := e, flt := f, dlc := l.val, ts := (s.dev.now - n) % 2 ^ 32, data := (y.map (·.val)).take (min 8 l.val) }]
          ∧ t.get (CAN_RXSTAT_COUNT c) = (s.dev.canOf c).rx.length + 1 ∧ ((s.dev.canOf c).rx = [] → t.pend (944 + 8 *
          c.val) = true) ∧ t.get (CAN_ERRC_REC c) = s.dev.get (CAN_ERRC_REC c) - 1) ∧
  (∀ (s : State) (c : Fin 3) (k : Fin 536870912) (l : Fin 16) (y : List (Fin 256)) (n : Nat) (f : Nat),
      s.dev.sys.logicOn = true → s.dev.canLive c = true → s.dev.filterOf c true k.val = some f → 64 ≤ (s.dev.canOf
      c).rx.length →
      Does (.frameReceived c k true false false false false l y n) s fun t => (t.canOf c).rx = (s.dev.canOf c).rx ∧
          t.get (CAN_RXSTAT_OVR c) = 1 ∧ t.pend (947 + 8 * c.val) = true) ∧
  (∀ (s : State) (c : Fin 3) (k : Fin 536870912) (b : Bool) (l : Fin 16) (y : List (Fin 256)) (n : Nat),
      s.dev.sys.logicOn = true → s.dev.canLive c = true → (b = true ∨ s.dev.filterOf c true k.val = none) →
      Does (.frameReceived c k true false false false b l y n) s fun t => (t.canOf c).rx = (s.dev.canOf c).rx ∧ t.reg
          (CAN_RXID c) = s.dev.reg (CAN_RXID c) ∧ t.get (CAN_RXSTAT_OVR c) = s.dev.get (CAN_RXSTAT_OVR c) ∧ t =
          { s.dev with regs := t.regs, evs := t.evs } ∧ sameRegs s.dev t (([CAN_ERRC c, CAN_STAT c, CAN_EVT c] ++
          evRegs (946 + 8 * c.val)))) ∧
  (∀ (s : State) (k : Fin 536870912) (l : Fin 16) (y : List (Fin 256)) (n : Nat), s.dev.sys.logicOn = true →
      s.dev.canLive 0 = true →
      Does (.frameReceived 0 k true true false false false l y n) s fun t => (t.canOf 0).rx = (s.dev.canOf 0).rx ∧
          t.get (CAN_STAT_LEC 0) = 2 ∧ t.get (CAN_ERRC_REC 0) = min 255 (s.dev.get (CAN_ERRC_REC 0) + 1)) ∧
  (∀ (s : State) (m : Master) (c : Fin 3), s.dev.sys.logicOn = true → s.dev.canRights m c = true → (s.dev.canOf
      c).rx.length ≤ 64 →
      Does (.rxPop m c) s fun t => (t.canOf c).rx = (s.dev.canOf c).rx.tail ∧ t.get (CAN_RXSTAT_COUNT c) =
          (s.dev.canOf c).rx.length - 1) ∧
  (∀ (s : State) (p : Fin 5) (c : Fin 3), s.dev.sys.logicOn = true → s.dev.canOwner c ≠ p.val → s.dev.sup ≠ p.val →
      ((s.dev.pairOf p).cwGet 0).getLsbD 2 = false →
      Does (.rxPop (.pair p) c) s fun t => Traps s.dev t p 4 6 true false (w32 (CAN_RXPOP c))) ∧
  (∀ (s : State) (c : Fin 3), s.dev.sys.logicOn = true → s.dev.canLive c = true →
      Does (.busOff c) s fun t => t.get (CAN_STAT_STATE c) = 2 ∧ (∀ i : Fin 8, t.mbPend c i = false ∧ (s.dev.mbPend c
          i = true → t.get (CAN_TXRES_RES c i) = 6)) ∧ t.pend (946 + 8 * c.val) = true ∧ 256 ≤ t.get (CAN_ERRC_TEC c)
          ∧ (∀ k : Fin 64, (s.dev.clientOf k).used = true → (s.dev.clientOf k).link = c.val → (t.clientOf k).used =
          false ∨ (t.clientOf k).loss = true)) ∧
  (∀ (s : State) (c : Fin 3), s.dev.sys.logicOn = true → s.dev.get (CAN_STAT_STATE c) = 2 → s.dev.get (CAN_CFG_EN c) =
      1 → s.dev.get (CAN_CFG_AUTOREC c) = 1 →
      Does (.busOffRecovery c) s fun t => t.get (CAN_STAT_STATE c) = 0 ∧ t.get (CAN_ERRC_TEC c) = 0 ∧ t.get
          (CAN_ERRC_REC c) = 0 ∧ t.pend (946 + 8 * c.val) = true ∧ (c = 0 → t.bus.addr = none ∧ t.bus.claimAt = some
          s.dev.now ∧ t.bus.cand = s.dev.bus.lastAddr.getD s.dev.preferred) ∧ t =
          { s.dev with regs := t.regs, evs := t.evs, bus := t.bus } ∧ sameRegs s.dev t (([CAN_STAT c, CAN_ERRC c,
          CAN_EVT c] ++ evRegs (946 + 8 * c.val)))) ∧
  (∀ (s : State) (c : Fin 3), s.dev.sys.logicOn = true → (s.dev.get (CAN_STAT_STATE c) ≠ 2 ∨ s.dev.get
      (CAN_CFG_AUTOREC c) = 0) →
      Does (.busOffRecovery c) s fun t => t = s.dev) ∧
  (∀ (s : State) (m : Master) (b : Bool), s.dev.sys.logicOn = true → s.dev.canRights m 0 = true →
      Does (.tbcSwitch m b) s fun t => (t.get (CAN_TBC_EN 0) = (if b then 1 else 0)) ∧ t =
          { s.dev with regs := t.regs } ∧ sameRegs s.dev t ([CAN_TBC 0])) ∧
  (∀ (s : State) (p : Fin 5) (b : Bool), s.dev.sys.logicOn = true → s.dev.canOwner 0 ≠ p.val → s.dev.sup ≠ p.val →
      ((s.dev.pairOf p).cwGet 0).getLsbD 2 = false →
      Does (.tbcSwitch (.pair p) b) s fun t => Traps s.dev t p 4 6 true false (w32 (CAN_TBC 0))) ∧
  (∀ (s : State), s.dev.sys.logicOn = true → s.dev.get (CAN_STAT_ALONE 0) = 0 → s.dev.get (CAN_STAT_STATE 0) = 1 → 127
      < s.dev.get (CAN_ERRC_TEC 0) → s.dev.get (CAN_STAT_LEC 0) = 3 →
      Does (.busAlone) s fun t => t.get (CAN_STAT_ALONE 0) = 1 ∧ t.pend 948 = true ∧ (∀ i : Fin 8, s.dev.mbPend 0 i =
          true → 16 ≤ (s.dev.mbOf 0 i).att → t.mbPend 0 i = false ∧ t.get (CAN_TXRES_RES 0 i) = 4) ∧ (∀ k : Fin 64,
          (s.dev.clientOf k).used = true → (s.dev.clientOf k).link = 0 → (t.clientOf k).used = false ∨ (t.clientOf
          k).loss = true)) ∧
  (∀ (s : State), s.dev.sys.logicOn = true → s.dev.get (CAN_ERRC_TEC 0) ≤ 127 →
      Does (.busAlone) s fun t => t = s.dev) ∧
  (∀ (s : State), s.dev.sys.logicOn = true → s.dev.get (CAN_STAT_ALONE 0) = 1 →
      Does (.busAloneClear) s fun t => t.get (CAN_STAT_ALONE 0) = 0 ∧ t.pend 948 = true ∧ t.bus.addr = none ∧
          t.bus.claimAt = some s.dev.now ∧ t.clients = s.dev.clients ∧ t =
          { s.dev with regs := t.regs, evs := t.evs, bus := t.bus } ∧ sameRegs s.dev t (([CAN_STAT 0, CAN_EVT 0] ++
          evRegs 948)))

/-- The address claim sends Address claimed, uses the address after 250 ms with a record, defends it against a higher
NAME and moves on for a lower one, and repeats after 10 s. A Request for address claimed is answered in every state,
one for a PGN the device does not transmit with a negative acknowledgement when sent to it alone. A transport session
is opened within its limits, refused with connection abort beyond them, and ends. The first valid speed source is
published in shared SRAM with its source and time. DM1 carries the active codes. HELLO is sent and heard; a node
counts as absent 300 ms after its last one, which is the loss of its client. (R370, R371, R372, R373, R375, R376,
R377, R380, R382, R384, R386) -/
def Obligations.BusFirmware : Prop :=
  (∀ (s : State), s.dev.sys.logicOn = true → s.dev.mode ≠ .selftest → s.dev.bus.addr = none → s.dev.bus.claimAt = none
      → s.dev.bus.retryAt = none →
      Does (.addressClaimStart) s fun t => t.bus.cand = s.dev.bus.lastAddr.getD s.dev.preferred ∧ t.bus.claimAt = some
          s.dev.now ∧ t.bus.sent = some
          { src := s.dev.bus.lastAddr.getD s.dev.preferred, pgn := 60928, dst := 255, data := bytesLE 8 s.dev.ownName }
          ∧ t.bus.addr = none ∧ t = { s.dev with bus := t.bus }) ∧
  (∀ (s : State) (k : Nat), s.dev.sys.logicOn = true → s.dev.bus.claimAt = some k → k + 50000000 ≤ s.dev.now →
      Does (.addressClaimTimeout) s fun t => t.bus.addr = some s.dev.bus.cand ∧ t.bus.lastAddr = some s.dev.bus.cand ∧
          t.bus.claimAt = none ∧ (submitCode { typ := 5 } false false s.dev = 0 → t.jnl.queue.length =
          s.dev.jnl.queue.length + 1) ∧ t = { s.dev with regs := t.regs, bus := t.bus, jnl := t.jnl, evs := t.evs }) ∧
  (∀ (s : State) (k : Nat), s.dev.sys.logicOn = true → s.dev.bus.claimAt = some k → s.dev.now < k + 50000000 →
      Does (.addressClaimTimeout) s fun t => t = s.dev) ∧
  (∀ (s : State) (a : Fin 256) (n : BitVec 64), s.dev.sys.logicOn = true → s.dev.bus.addr = some a.val → a.val ≠ 254 →
      s.dev.slotOfName n.toNat = none → tget none s.dev.bus.names a = none → n.toNat < s.dev.ownName →
      Does (.addressClaimedRx a n) s fun t => t.bus.addr = none ∧ (t.bus.retryAt = some (s.dev.now + 2000000000) ∨
          (t.bus.claimAt = some s.dev.now ∧ t.bus.cand ≠ a.val)) ∧ t = { s.dev with bus := t.bus }) ∧
  (∀ (s : State) (a : Fin 256) (n : BitVec 64), s.dev.sys.logicOn = true → s.dev.bus.addr = some a.val → a.val ≠ 254 →
      s.dev.slotOfName n.toNat = none → tget none s.dev.bus.names a = none → s.dev.ownName < n.toNat →
      Does (.addressClaimedRx a n) s fun t => t.bus.addr = some a.val ∧ t.bus.sent = some
          { src := a.val, pgn := 60928, dst := 255, data := bytesLE 8 s.dev.ownName } ∧ tget none t.bus.names a = some
          n.toNat ∧ t = { s.dev with bus := t.bus }) ∧
  (∀ (s : State) (a : Fin 254) (n : BitVec 64) (k : Fin 64), s.dev.sys.logicOn = true → n.toNat ≠ s.dev.ownName →
      s.dev.bus.addr ≠ some a.val → s.dev.bus.addr ≠ none → tget none s.dev.bus.names a = some (s.dev.clientOf k).name
      → (s.dev.clientOf k).name ≠ n.toNat → s.dev.slotOfName (s.dev.clientOf k).name = some k.val → (s.dev.clientOf
      k).link = 0 →
      Does (.addressClaimedRx ⟨a.val, by omega⟩ n) s fun t => tget none t.bus.names a = some n.toNat ∧ ((t.clientOf
          k).used = false ∨ (t.clientOf k).loss = true) ∧ t.bus.addr = s.dev.bus.addr) ∧
  (∀ (s : State) (k : Nat), s.dev.sys.logicOn = true → s.dev.bus.retryAt = some k → k ≤ s.dev.now →
      Does (.claimRetry) s fun t => t.bus.retryAt = none ∧ t.bus.claimAt = some s.dev.now ∧ t.bus.lost = [] ∧
          t.bus.sent = some
          { src := s.dev.bus.lastAddr.getD s.dev.preferred, pgn := 60928, dst := 255, data := bytesLE 8 s.dev.ownName }
          ∧ t = { s.dev with bus := t.bus }) ∧
  (∀ (s : State) (a : Fin 256), s.dev.sys.logicOn = true → s.dev.bus.addr = some 168 →
      Does (.requestRx a 255 60928) s fun t => t.bus.sent = some
          { src := 168, pgn := 60928, dst := 255, data := bytesLE 8 s.dev.ownName } ∧ t = { s.dev with bus := t.bus }) ∧
  (∀ (s : State) (a : Fin 256), s.dev.sys.logicOn = true → s.dev.bus.addr = none → s.dev.bus.claimAt = none →
      Does (.requestRx a 255 60928) s fun t => t.bus.sent = some
          { src := 254, pgn := 60928, dst := 255, data := bytesLE 8 s.dev.ownName } ∧ t = { s.dev with bus := t.bus }) ∧
  (∀ (s : State) (a b : Fin 256) (n : Fin 262144), s.dev.sys.logicOn = true → s.dev.bus.addr = some b.val → b.val ≠
      255 → n.val ≠ 60928 → n.val ≠ 65226 → n.val ≠ 65037 →
      Does (.requestRx a b n) s fun t => t.bus.sent = some
          { src := b.val, pgn := 59392, dst := 255, data := [1, 255, 255, 255, a.val] ++ bytesLE 3 n.val } ∧ t =
          { s.dev with bus := t.bus }) ∧
  (∀ (s : State) (a : Fin 256) (n : Fin 262144), s.dev.sys.logicOn = true → n.val ≠ 60928 → n.val ≠ 65226 → n.val ≠
      65037 →
      Does (.requestRx a 255 n) s fun t => t = s.dev) ∧
  (∀ (s : State) (a : Fin 256) (n : Nat) (g : Fin 262144), s.dev.sys.logicOn = true → s.dev.bus.addr ≠ none → ¬ (a.val
      ∈ s.dev.bus.tp) → s.dev.bus.tp.length < 4 → 9 ≤ n → n ≤ 1785 →
      Does (.tpSession a (.request n false false false g)) s fun t => t.bus.tp = s.dev.bus.tp ++ [a.val] ∧ t.bus.sent
          = s.dev.bus.sent ∧ t = { s.dev with bus := t.bus }) ∧
  (∀ (s : State) (a : Fin 256) (n : Nat) (b : Bool) (g : Fin 262144), s.dev.sys.logicOn = true → s.dev.bus.addr = some
      168 → (s.dev.bus.tp.length = 4 ∨ a.val ∈ s.dev.bus.tp ∨ (b = true ∧ n < 1786)) →
      Does (.tpSession a (.request n b false true g)) s fun t => t.bus.tp = s.dev.bus.tp ∧ (t.bus.sent = some
          { src := 168, pgn := (if b then 51200 else 60416), dst := a.val, data := [255, 1, 255, 255, 255] ++ bytesLE 3 g.val })
          ∧ t = { s.dev with bus := t.bus }) ∧
  (∀ (s : State) (a : Fin 256) (v : Bool), s.dev.sys.logicOn = true →
      Does (.tpSession a (if v then .done else .abort)) s fun t => (t.bus.tp = s.dev.bus.tp.filter fun x => x ≠ a.val)
          ∧ t = { s.dev with bus := t.bus }) ∧
  (∀ (s : State) (k : Fin 3) (v : Int), s.dev.sys.logicOn = true →
      Does (.speedMessage k (some v)) s fun t => tget none t.bus.speed k = some (v, s.dev.now) ∧ (∀ j : Fin 3, j ≠ k →
          tget none t.bus.speed j = tget none s.dev.bus.speed j) ∧ t = { s.dev with bus := t.bus }) ∧
  (∀ (s : State) (k : Fin 3), s.dev.sys.logicOn = true →
      Does (.speedMessage k none) s fun t => tget none t.bus.speed k = none ∧ t = { s.dev with bus := t.bus }) ∧
  (∀ (s : State) (v : Int) (k : Nat), s.dev.sys.logicOn = true → s.dev.mode ≠ .selftest → s.dev.bus.spdAt = none →
      s.dev.item 0x103 15 = 15 → tget none s.dev.bus.speed 0 = none → tget none s.dev.bus.speed 1 = some (v, k) →
      s.dev.now ≤ k + 60000000 →
      DoesMem (.speedSelect) s (memWrite (memWrite (memWrite s.mem 0x103BFF00 4 (w32i v).toNat) 0x103BFF04 4 2)
          0x103BFF08 4 (s.dev.now % 2 ^ 32)) fun t => t.bus.spdAt = some s.dev.now ∧ t = { s.dev with bus := t.bus }) ∧
  (∀ (s : State) (k : Nat), s.dev.sys.logicOn = true → s.dev.bus.spdAt = some k → s.dev.now < k + 2000000 →
      Does (.speedSelect) s fun t => t = s.dev) ∧
  (∀ (s : State), s.dev.sys.logicOn = true → s.dev.mode ≠ .selftest → s.dev.bus.spdAt = none → s.dev.bus.speed = [] →
      s.dev.get GSP_PERIOD_PERIOD = 0xFFFFFFFF →
      DoesMem (.speedSelect) s (memWrite (memWrite (memWrite s.mem 0x103BFF00 4 0) 0x103BFF04 4 0) 0x103BFF08 4
          (s.dev.now % 2 ^ 32)) fun t => t.bus.spdAt = some s.dev.now ∧ t = { s.dev with bus := t.bus }) ∧
  (∀ (s : State) (a : Nat), s.dev.sys.logicOn = true → s.dev.bus.addr = some a → s.dev.bus.dm1At = none → s.dev.dtcs =
      [] → s.dev.mode ≠ .safe → s.dev.mode ≠ .degraded → s.dev.mode ≠ .lockout →
      Does (.dm1Transmit) s fun t => t.bus.sent = some
          { src := a, pgn := 65226, dst := 255, data := [0, 255, 0, 0, 0, 0] } ∧ t.bus.dm1 = [] ∧ t.bus.dm1At = some
          s.dev.now ∧ t = { s.dev with bus := t.bus }) ∧
  (∀ (s : State) (a k : Nat), s.dev.sys.logicOn = true → s.dev.bus.addr = some a → s.dev.bus.dm1At = some k → k +
      200000000 ≤ s.dev.now →
      Does (.dm1Transmit) s fun t => t.bus.dm1At = some s.dev.now ∧ (t.bus.dm1.map (fun c => (c.spn, c.fmi)) =
          s.dev.dtcs) ∧ (∃ b ∈ t.bus.sent, b.pgn = 65226 ∧ b.src = a ∧ b.dst = 255) ∧ t = { s.dev with bus := t.bus }) ∧
  (∀ (s : State) (k : Nat), s.dev.sys.logicOn = true → (s.dev.bus.addr = none ∨ (s.dev.bus.dm1At = some k ∧ s.dev.now
      < k + 20000000)) →
      Does (.dm1Transmit) s fun t => t = s.dev) ∧
  (∀ (s : State) (l : Fin 2), s.dev.sys.logicOn = true → tget none s.dev.bus.hello l = none → s.dev.canLive (1 +
      l.val) = true →
      Does (.helloTx l) s fun t => tget none t.bus.hello l = some (s.dev.now, bytesLE 8 s.dev.ownName ++ [0, s.dev.get
          TRU_CFG_PLROLE, 0, 0]) ∧ t = { s.dev with bus := t.bus }) ∧
  (∀ (s : State) (l : Fin 2) (k : Nat) (y : List Nat), s.dev.sys.logicOn = true → tget none s.dev.bus.hello l = some
      (k, y) → s.dev.now < k + 20000000 →
      Does (.helloTx l) s fun t => t = s.dev) ∧
  (∀ (s : State) (l : Fin 2) (n : Fin 32) (v : BitVec 64), s.dev.sys.logicOn = true → n.val ≠ s.dev.get (CAN_CFG_NODE
      (1 + l.val)) →
      Does (.helloRx l n v) s fun t => tget none t.bus.nodes (32 * l.val + n.val) = some (v.toNat, s.dev.now) ∧
          t.bus.conflict = s.dev.bus.conflict ∧ t = { s.dev with bus := t.bus }) ∧
  (∀ (s : State) (l : Fin 2) (n : Fin 32) (v : BitVec 64), s.dev.sys.logicOn = true → n.val = s.dev.get (CAN_CFG_NODE
      (1 + l.val)) → v.toNat ≠ s.dev.ownName →
      Does (.helloRx l n v) s fun t => tget none t.bus.conflict l = some s.dev.now ∧ t.bus.nodes = s.dev.bus.nodes ∧ t
          = { s.dev with regs := t.regs, bus := t.bus, jnl := t.jnl, evs := t.evs }) ∧
  (∀ (s : State) (l : Fin 2) (n : Fin 32) (v k : Nat), s.dev.sys.logicOn = true → tget none s.dev.bus.nodes (32 *
      l.val + n.val) = some (v, k) → k + 60000000 ≤ s.dev.now → s.dev.slotOfName v = none →
      Does (.nodeAbsent l n) s fun t => tget none t.bus.nodes (32 * l.val + n.val) = none ∧ t =
          { s.dev with bus := t.bus }) ∧
  (∀ (s : State) (l : Fin 2) (n : Fin 32) (v k : Nat) (z : Fin 64), s.dev.sys.logicOn = true → tget none
      s.dev.bus.nodes (32 * l.val + n.val) = some (v, k) → k + 60000000 ≤ s.dev.now → s.dev.slotOfName v = some z.val
      → (s.dev.clientOf z).link = 1 + l.val → (s.dev.clientOf z).loss = false →
      Does (.nodeAbsent l n) s fun t => tget none t.bus.nodes (32 * l.val + n.val) = none ∧ ((t.clientOf z).used =
          false ∨ (t.clientOf z).loss = true) ∧ t.devClaim ≠ some z.val) ∧
  (∀ (s : State) (l : Fin 2) (n : Fin 32) (v k : Nat), s.dev.sys.logicOn = true → tget none s.dev.bus.nodes (32 *
      l.val + n.val) = some (v, k) → s.dev.now < k + 60000000 →
      Does (.nodeAbsent l n) s fun t => t = s.dev)

/-- A status message connects the client: the task controller gets a slot under its NAME and every free axis of
TCMASK; 6 s without one is its loss. Technical capabilities, descriptor and values are answered; a value the device
has not is answered with a negative acknowledgement. A setpoint for an axis the task controller holds is staged and
committed in the process loop of the axis, one for another axis is refused with a record. A trigger is kept, at most
128, and sends its value when its condition holds (the conditions are a log entry). (R370, R378, R379, R386, R391,
R393) -/
def Obligations.TaskControllerClient : Prop :=
  (∀ (s : State) (a : Fin 256) (n : Nat) (z : Nat), s.dev.sys.logicOn = true → s.dev.bus.addr ≠ none → s.dev.bus.tcSrc
      = none → tget none s.dev.bus.names a = some n → s.dev.slotOfName n = none → s.dev.freeSlot = some z →
      s.dev.wouldAccept z = true →
      Does (.tcConnect a) s fun t => (t.clientOf z).used = true ∧ (t.clientOf z).name = n ∧ (t.clientOf z).tc = true ∧
          t.bus.tcSrc = some a.val ∧ t.bus.tcSlot = some z ∧ t.bus.tcAt = s.dev.now ∧ (∀ x ∈ axesOf s.dev.tcMask, tget
          none s.dev.claim x = none → s.dev.axSt x ≠ .absent → tget none t.claim x = some z) ∧ (∀ x : Fin 64, tget
          none s.dev.claim x ≠ none → tget none t.claim x = tget none s.dev.claim x) ∧ t.bus.ddop = 0 :: (axesOf
          s.dev.tcMask).map (· + 16) ∧ t =
          { s.dev with regs := t.regs, clients := t.clients, bus := t.bus, claim := t.claim, jnl := t.jnl, evs := t.evs }) ∧
  (∀ (s : State) (a : Fin 256), s.dev.sys.logicOn = true → s.dev.bus.addr ≠ none → s.dev.bus.tcSrc = some a.val →
      Does (.tcConnect a) s fun t => t.bus.tcAt = s.dev.now ∧ t.bus.tcSlot = s.dev.bus.tcSlot ∧ t =
          { s.dev with bus := t.bus }) ∧
  (∀ (s : State) (a : Fin 256), s.dev.sys.logicOn = true → (s.dev.bus.addr = none ∨ (s.dev.bus.tcSrc = none ∧ tget
      none s.dev.bus.names a = none)) →
      Does (.tcConnect a) s fun t => t = s.dev) ∧
  (∀ (s : State) (a : Nat) (z : Fin 64), s.dev.sys.logicOn = true → s.dev.bus.tcSrc = some a → s.dev.bus.tcSlot = some
      z.val → s.dev.bus.tcAt + 1200000000 ≤ s.dev.now → (s.dev.clientOf z).used = true → (s.dev.clientOf z).loss =
      false →
      Does (.tcLoss) s fun t => t.bus.tcSrc = none ∧ t.bus.trig = [] ∧ ((t.clientOf z).used = false ∨ (t.clientOf
          z).loss = true) ∧ t.devClaim ≠ some z.val) ∧
  (∀ (s : State), s.dev.sys.logicOn = true → s.dev.now < s.dev.bus.tcAt + 1200000000 →
      Does (.tcLoss) s fun t => t = s.dev) ∧
  (∀ (s : State) (a : Fin 256) (z : Fin 64), s.dev.sys.logicOn = true → s.dev.bus.addr ≠ none → s.dev.bus.tcSrc = some
      a.val → s.dev.bus.tcSlot = some z.val →
      Does (.technicalCapabilities a) s fun t => t.bus.pd = some
          { cmd := .technicalCapabilities, elem := 0, ddi := 0, value := some 4 } ∧ t = { s.dev with bus := t.bus }) ∧
  (∀ (s : State) (a : Fin 256), s.dev.sys.logicOn = true → s.dev.bus.tcSrc ≠ some a.val →
      Does (.technicalCapabilities a) s fun t => t = s.dev) ∧
  (∀ (s : State) (a : Fin 256) (z : Fin 64), s.dev.sys.logicOn = true → s.dev.bus.addr ≠ none → s.dev.bus.tcSrc = some
      a.val → s.dev.bus.tcSlot = some z.val →
      Does (.deviceDescriptor a) s fun t => t.bus.ddop = 0 :: (axesOf s.dev.tcMask).map (· + 16) ∧ t.bus.pd = some
          { cmd := .deviceDescriptor, elem := 0, ddi := 0, value := none } ∧ t = { s.dev with bus := t.bus }) ∧
  (∀ (s : State) (a : Fin 256) (z : Fin 64) (x : Fin 64), s.dev.sys.logicOn = true → s.dev.bus.addr ≠ none →
      s.dev.bus.tcSrc = some a.val → s.dev.bus.tcSlot = some z.val → s.dev.tcMask.testBit x.val = true →
      Does (.requestValue a ⟨16 + x.val, by omega⟩ 0xE000) s fun t => t.bus.pd = some
          { cmd := .value, elem := 16 + x.val, ddi := 0xE000, value := some (s.dev.axSt x).code } ∧ t =
          { s.dev with bus := t.bus }) ∧
  (∀ (s : State) (a : Fin 256) (z : Fin 64), s.dev.sys.logicOn = true → s.dev.bus.addr ≠ none → s.dev.bus.tcSrc = some
      a.val → s.dev.bus.tcSlot = some z.val →
      Does (.requestValue a 0 141) s fun t => (t.bus.pd = some
          { cmd := .value, elem := 0, ddi := 141, value := some (if (axesOf s.dev.tcMask).any s.dev.works then 1 else 0) })
          ∧ t = { s.dev with bus := t.bus }) ∧
  (∀ (s : State) (a : Fin 256) (e i : Fin 65536) (z : Fin 64), s.dev.sys.logicOn = true → s.dev.bus.addr ≠ none →
      s.dev.bus.tcSrc = some a.val → s.dev.bus.tcSlot = some z.val → s.dev.pdValue e i = none →
      Does (.requestValue a e i) s fun t => t.bus.pd = some
          { cmd := .negative, elem := e.val, ddi := i.val, value := none } ∧ t = { s.dev with bus := t.bus }) ∧
  (∀ (s : State) (a : Fin 256) (z : Fin 64) (x : Fin 64) (v : Word) (e k : Nat), s.dev.sys.logicOn = true →
      s.dev.bus.addr ≠ none → s.dev.bus.tcSrc = some a.val → s.dev.bus.tcSlot = some z.val → s.dev.tcMask.testBit
      x.val = true → tget none s.dev.claim x = some z.val → s.dev.tcLoop x = some (e, k) → s.dev.wouldAccept z = true
      →
      Does (.value a ⟨16 + x.val, by omega⟩ 6 v) s fun t => (t.loopOf e k).refGo = some (s.dev.now, [v.toInt,
          s.dev.sword (LE_REF1 e k)]) ∧ t.reg (LE_REF0 e k) = v ∧ t.get (LE_LCTL_STAGED e k) = 0 ∧ t.jnl.queue.length
          = s.dev.jnl.queue.length + 1 ∧ t.bus.pd = s.dev.bus.pd) ∧
  (∀ (s : State) (a : Fin 256) (z : Fin 64) (x : Fin 64) (v : Word) (e k : Nat), s.dev.sys.logicOn = true →
      s.dev.bus.addr ≠ none → s.dev.bus.tcSrc = some a.val → s.dev.bus.tcSlot = some z.val → s.dev.tcMask.testBit
      x.val = true → tget none s.dev.claim x = some z.val → s.dev.tcLoop x = some (e, k) → s.dev.wouldAccept z = true
      →
      Does (.setValue a ⟨16 + x.val, by omega⟩ 6 v) s fun t => (t.loopOf e k).refGo = some (s.dev.now, [v.toInt,
          s.dev.sword (LE_REF1 e k)]) ∧ t.reg (LE_REF0 e k) = v ∧ t.get (LE_LCTL_STAGED e k) = 0 ∧ t.jnl.queue.length
          = s.dev.jnl.queue.length + 1 ∧ t.bus.pd = some
          { cmd := .acknowledge, elem := 16 + x.val, ddi := 6, value := none }) ∧
  (∀ (s : State) (a : Fin 256) (z : Fin 64) (x : Fin 64) (v : Word), s.dev.sys.logicOn = true → s.dev.bus.addr ≠ none
      → s.dev.bus.tcSrc = some a.val → s.dev.bus.tcSlot = some z.val → s.dev.tcMask.testBit x.val = true → tget none
      s.dev.claim x ≠ some z.val →
      Does (.setValue a ⟨16 + x.val, by omega⟩ 1 v) s fun t => t.bus.pd = some
          { cmd := .negative, elem := 16 + x.val, ddi := 1, value := none } ∧ t.loops = s.dev.loops ∧ t =
          { s.dev with regs := t.regs, bus := t.bus, jnl := t.jnl, evs := t.evs }) ∧
  (∀ (s : State) (a : Fin 256) (z : Fin 64) (v : Word) (e i : Fin 65536) (k : Int), s.dev.sys.logicOn = true →
      s.dev.bus.addr ≠ none → s.dev.bus.tcSrc = some a.val → s.dev.bus.tcSlot = some z.val → s.dev.pdValue e i = some
      (some k) → s.dev.bus.trig = [] →
      Does (.measurementTimeInterval a e i v) s fun t => t.bus.trig =
          [{ kind := .timeInterval, elem := e.val, ddi := i.val, par := (max 100 v.toNat : Nat), at_ := s.dev.now, last := k }]
          ∧ t.bus.pd = s.dev.bus.pd ∧ t = { s.dev with bus := t.bus }) ∧
  (∀ (s : State) (a : Fin 256) (z : Fin 64) (v : Word) (e i : Fin 65536) (k : Int), s.dev.sys.logicOn = true →
      s.dev.bus.addr ≠ none → s.dev.bus.tcSrc = some a.val → s.dev.bus.tcSlot = some z.val → s.dev.pdValue e i = some
      (some k) → s.dev.bus.trig = [] →
      Does (.measurementDistanceInterval a e i v) s fun t => t.bus.trig =
          [{ kind := .distanceInterval, elem := e.val, ddi := i.val, par := v.toNat, at_ := s.dev.now, last := k }] ∧
          t.bus.pd = s.dev.bus.pd ∧ t = { s.dev with bus := t.bus }) ∧
  (∀ (s : State) (a : Fin 256) (z : Fin 64) (v : Word) (e i : Fin 65536) (k : Int), s.dev.sys.logicOn = true →
      s.dev.bus.addr ≠ none → s.dev.bus.tcSrc = some a.val → s.dev.bus.tcSlot = some z.val → s.dev.pdValue e i = some
      (some k) → s.dev.bus.trig = [] →
      Does (.measurementMinimumThreshold a e i v) s fun t => t.bus.trig =
          [{ kind := .minimum, elem := e.val, ddi := i.val, par := v.toInt, at_ := s.dev.now, last := k }] ∧ t.bus.pd
          = s.dev.bus.pd ∧ t = { s.dev with bus := t.bus }) ∧
  (∀ (s : State) (a : Fin 256) (z : Fin 64) (v : Word) (e i : Fin 65536) (k : Int), s.dev.sys.logicOn = true →
      s.dev.bus.addr ≠ none → s.dev.bus.tcSrc = some a.val → s.dev.bus.tcSlot = some z.val → s.dev.pdValue e i = some
      (some k) → s.dev.bus.trig = [] →
      Does (.measurementMaximumThreshold a e i v) s fun t => t.bus.trig =
          [{ kind := .maximum, elem := e.val, ddi := i.val, par := v.toInt, at_ := s.dev.now, last := k }] ∧ t.bus.pd
          = s.dev.bus.pd ∧ t = { s.dev with bus := t.bus }) ∧
  (∀ (s : State) (a : Fin 256) (z : Fin 64) (v : Word) (e i : Fin 65536) (k : Int), s.dev.sys.logicOn = true →
      s.dev.bus.addr ≠ none → s.dev.bus.tcSrc = some a.val → s.dev.bus.tcSlot = some z.val → s.dev.pdValue e i = some
      (some k) → s.dev.bus.trig = [] →
      Does (.measurementChangeThreshold a e i v) s fun t => t.bus.trig =
          [{ kind := .change, elem := e.val, ddi := i.val, par := v.toNat, at_ := s.dev.now, last := k }] ∧ t.bus.pd =
          s.dev.bus.pd ∧ t = { s.dev with bus := t.bus }) ∧
  (∀ (s : State) (a : Fin 256) (z : Fin 64) (v : Word) (e i : Fin 65536), s.dev.sys.logicOn = true → s.dev.bus.addr ≠
      none → s.dev.bus.tcSrc = some a.val → s.dev.bus.tcSlot = some z.val → (128 ≤ (s.dev.bus.trig.filter fun g =>
      !(g.kind = .minimum && g.elem = e.val && g.ddi = i.val)).length ∨ s.dev.pdValue e i = none) →
      Does (.measurementMinimumThreshold a e i v) s fun t => t.bus.trig = s.dev.bus.trig ∧ t.bus.pd = some
          { cmd := .negative, elem := e.val, ddi := i.val, value := none } ∧ t = { s.dev with bus := t.bus }) ∧
  (∀ (s : State) (a : Fin 256) (z : Fin 64) (e i : Fin 65536), s.dev.sys.logicOn = true → s.dev.bus.addr ≠ none →
      s.dev.bus.tcSrc = some a.val → s.dev.bus.tcSlot = some z.val →
      Does (.processDataAcknowledge a e i) s fun t => t.bus.ackRx = some (e.val, i.val) ∧ t =
          { s.dev with bus := t.bus }) ∧
  (∀ (s : State) (a : Fin 256) (z : Fin 64) (w : Word), s.dev.sys.logicOn = true → s.dev.bus.addr ≠ none →
      s.dev.bus.tcSrc = some a.val → s.dev.bus.tcSlot = some z.val →
      Does (.taskStatus a w) s fun t => t.bus.tcAt = s.dev.now ∧ t.bus.task = w.toNat ∧ t =
          { s.dev with bus := t.bus }) ∧
  (∀ (s : State) (i : Fin 128) (g : Trigger) (k : Int), s.dev.sys.logicOn = true → s.dev.bus.trig[i.val]? = some g →
      s.dev.pdValue g.elem g.ddi = some (some k) → s.dev.fires g k = true →
      Does (.measurementTrigger i) s fun t => t.bus.pd = some
          { cmd := .value, elem := g.elem, ddi := g.ddi, value := some k } ∧ t.bus.trig = s.dev.bus.trig.set i.val
          { g with at_ := s.dev.now, last := k } ∧ t = { s.dev with bus := t.bus }) ∧
  (∀ (s : State) (i : Fin 128), s.dev.sys.logicOn = true → s.dev.bus.trig[i.val]? = none →
      Does (.measurementTrigger i) s fun t => t = s.dev)

/-- OPEN of an unknown client takes the lowest free slot with its interval and SEQ, resumes a slot in loss with its
claims and cancels the holds, and answers FULL or NONAME. A wrong CRC is answered with CRC, an unexpected SEQ with
SEQ, a repeat with the stored response, a message without a token with QUOTA, and none of them does anything else.
BEAT refreshes the heartbeat. READ answers state and fault code. CLAIM takes free axes whole or is refused; RELEASE
gives them back, stopped first. CLOSE ends every claim and frees the slot. A silent client is lost; a hold that ends
stops its axis and ends its claim. (R29, R30, R385, R386, R387, R388, R389, R390, R391, R392, R393, R394) -/
def Obligations.ClientSlots : Prop :=
  (∀ (s : State) (h : Ctl) (x : Fin 256) (g : Fin 16777216) (z n : Nat), s.dev.sys.logicOn = true → s.dev.sender h =
      some (some n) → ctlChecked h { op := 1, axis := x.val, arg := g.val } = true → shortOnly h = true → beatOk g.val
      = true → s.dev.slotOfName n = none → s.dev.freeSlot = some z → s.dev.wouldAccept z = true →
      Does (.openSlot h x g) s fun t => (t.clientOf z).used = true ∧ (t.clientOf z).name = n ∧ ((t.clientOf z).beat =
          (if g.val = 0 then 1000 else g.val)) ∧ (t.clientOf z).expect = (h.seq.val + 1) % 256 ∧ (t.clientOf z).loss =
          false ∧ t.answers h 1 x.val (0) (z) ∧ t.jnl.queue.length = s.dev.jnl.queue.length + 1 ∧ t =
          { s.dev with regs := t.regs, clients := t.clients, reply := t.reply, jnl := t.jnl, evs := t.evs }) ∧
  (∀ (s : State) (h : Ctl) (x : Fin 256) (g : Fin 16777216) (z n : Nat), s.dev.sys.logicOn = true → s.dev.sender h =
      some (some n) → ctlChecked h { op := 1, axis := x.val, arg := g.val } = true → shortOnly h = true → beatOk g.val
      = true → s.dev.slotOfName n = some z → (s.dev.clientOf z).loss = true → s.dev.wouldAccept z = true →
      Does (.openSlot h x g) s fun t => (t.clientOf z).loss = false ∧ (t.clientOf z).expect = (h.seq.val + 1) % 256 ∧
          t.answers h 1 x.val (0) (z) ∧ (∀ a : Fin 64, tget none s.dev.claim a = some z → tget none t.holdEnd a =
          none) ∧ t =
          { s.dev with regs := t.regs, clients := t.clients, reply := t.reply, holdEnd := t.holdEnd, jnl := t.jnl, evs := t.evs }) ∧
  (∀ (s : State) (h : Ctl) (x : Fin 256) (g : Fin 16777216) (n : Nat), s.dev.sys.logicOn = true → s.dev.sender h =
      some (some n) → ctlChecked h { op := 1, axis := x.val, arg := g.val } = true → s.dev.slotOfName n = none →
      s.dev.freeSlot = none →
      Does (.openSlot h x g) s fun t => t.answers h 1 x.val (13) (0) ∧ t = { s.dev with reply := t.reply }) ∧
  (∀ (s : State) (h : Ctl) (x : Fin 256) (g : Fin 16777216), s.dev.sys.logicOn = true → s.dev.sender h = some none →
      ctlChecked h { op := 1, axis := x.val, arg := g.val } = true →
      Does (.openSlot h x g) s fun t => t.answers h 1 x.val (14) (0) ∧ t = { s.dev with reply := t.reply }) ∧
  (∀ (s : State) (h : Ctl) (x : Fin 256) (g : Fin 16777216), s.dev.sys.logicOn = true → s.dev.sender h = none →
      Does (.openSlot h x g) s fun t => t = s.dev) ∧
  (∀ (s : State) (h : Ctl) (x : Fin 256) (g : Fin 16777216) (z n : Nat), s.dev.sys.logicOn = true → s.dev.sender h =
      some (some n) → s.dev.slotOfName n = some z → (s.dev.clientOf z).loss = false → ctlChecked h
      { op := 3, axis := x.val, arg := g.val } = true → shortOnly h = true →
      Does (.beat h x g) s fun t => (t.clientOf z).heard = s.dev.now ∧ (t.clientOf z).expect = (s.dev.clientOf
          z).expect ∧ (t.clientOf z).tok = (s.dev.clientOf z).tok ∧ t.answers h 3 x.val (0) (0) ∧ t =
          { s.dev with clients := t.clients, reply := t.reply }) ∧
  (∀ (s : State) (h : Ctl) (x : Fin 256) (g : Fin 16777216), s.dev.sys.logicOn = true → s.dev.sender h ≠ none →
      ctlChecked h { op := 3, axis := x.val, arg := g.val } = false →
      Does (.beat h x g) s fun t => t.answers h 3 x.val (1) (0) ∧ t =
          { s.dev with clients := t.clients, reply := t.reply }) ∧
  (∀ (s : State) (h : Ctl) (x : Fin 256) (g : Fin 16777216) (z : Nat), s.dev.sys.logicOn = true → s.dev.expects h 8
      x.val g.val z → shortOnly h = true → x.val < 64 →
      Does (.read h x g) s fun t => t.answers h 8 x.val (0) (s.dev.get (CU_STATE_STATE x) + 256 * s.dev.get
          (CU_FLT_CODE x)) ∧ (t.clientOf z).expect = (h.seq.val + 1) % 256 ∧ t =
          { s.dev with clients := t.clients, reply := t.reply }) ∧
  (∀ (s : State) (h : Ctl) (g : Fin 16777216) (z : Nat), s.dev.sys.logicOn = true → s.dev.expects h 8 255 g.val z →
      shortOnly h = true →
      Does (.read h 255 g) s fun t => t.answers h 8 255 (0) (s.dev.get SYS_MODE_MODE) ∧ (t.clientOf z).expect =
          (h.seq.val + 1) % 256 ∧ t = { s.dev with clients := t.clients, reply := t.reply }) ∧
  (∀ (s : State) (h : Ctl) (x : Fin 256) (g : Fin 16777216) (z n : Nat), s.dev.sys.logicOn = true → s.dev.sender h =
      some (some n) → s.dev.slotOfName n = some z → ctlChecked h { op := 8, axis := x.val, arg := g.val } = false → z
      < 64 →
      Does (.read h x g) s fun t => t.answers h 8 x.val (1) (0) ∧ t.clientOf z =
          { s.dev.clientOf z with crcBad := (s.dev.clientOf z).crcBad + 1 } ∧ t =
          { s.dev with clients := t.clients, reply := t.reply }) ∧
  (∀ (s : State) (h : Ctl) (x : Fin 256) (g : Fin 16777216) (z n : Nat), s.dev.sys.logicOn = true → s.dev.sender h =
      some (some n) → s.dev.slotOfName n = some z → (s.dev.clientOf z).loss = false → ctlChecked h
      { op := 8, axis := x.val, arg := g.val } = true → 200000000 ≤ s.dev.tokens z → (h.seq.val + 1) % 256 =
      (s.dev.clientOf z).expect →
      Does (.read h x g) s fun t => t.reply = (s.dev.clientOf z).resp ∧ (t.clientOf z).expect = (s.dev.clientOf
          z).expect ∧ t = { s.dev with clients := t.clients, reply := t.reply }) ∧
  (∀ (s : State) (h : Ctl) (x : Fin 256) (g : Fin 16777216) (z n : Nat), s.dev.sys.logicOn = true → s.dev.sender h =
      some (some n) → s.dev.slotOfName n = some z → (s.dev.clientOf z).loss = false → ctlChecked h
      { op := 8, axis := x.val, arg := g.val } = true → 200000000 ≤ s.dev.tokens z → (h.seq.val + 1) % 256 ≠
      (s.dev.clientOf z).expect → h.seq.val ≠ (s.dev.clientOf z).expect →
      Does (.read h x g) s fun t => t.answers h 8 x.val (2) (0) ∧ (t.clientOf z).expect = (s.dev.clientOf z).expect ∧
          t = { s.dev with clients := t.clients, reply := t.reply }) ∧
  (∀ (s : State) (h : Ctl) (x : Fin 256) (g : Fin 16777216) (z n : Nat), s.dev.sys.logicOn = true → s.dev.sender h =
      some (some n) → s.dev.slotOfName n = some z → (s.dev.clientOf z).loss = false → ctlChecked h
      { op := 8, axis := x.val, arg := g.val } = true → s.dev.tokens z < 200000000 →
      Does (.read h x g) s fun t => t.answers h 8 x.val (7) (0) ∧ (t.clientOf z).expect = (s.dev.clientOf z).expect ∧
          t = { s.dev with regs := t.regs, clients := t.clients, reply := t.reply, jnl := t.jnl, evs := t.evs }) ∧
  (∀ (s : State) (h : Ctl) (x : Fin 256) (g : Fin 16777216) (z : Nat), s.dev.sys.logicOn = true → s.dev.expects h 16
      x.val g.val z → shortOnly h = true → x.val < 64 → s.dev.axSt x ≠ .absent → tget none s.dev.claim x = none →
      Does (.claim h x g none) s fun t => tget none t.claim x = some z ∧ (∀ a : Fin 64, a.val ≠ x.val → tget none
          t.claim a = tget none s.dev.claim a) ∧ t.answers h 16 x.val (0) (0) ∧ (t.clientOf z).expect = (h.seq.val +
          1) % 256 ∧ t.jnl.queue.length = s.dev.jnl.queue.length + 1 ∧ t =
          { s.dev with regs := t.regs, clients := t.clients, reply := t.reply, claim := t.claim, jnl := t.jnl }) ∧
  (∀ (s : State) (h : Ctl) (x : Fin 256) (g : Fin 16777216) (k : BitVec 64) (z : Nat), s.dev.sys.logicOn = true →
      s.dev.expects h 16 x.val g.val z → isLong h = true → (∀ a ∈ axesOf k.toNat, s.dev.axSt a ≠ .absent ∧ (tget none
      s.dev.claim a = none ∨ tget none s.dev.claim a = some z)) →
      Does (.claim h x g (some k)) s fun t => (∀ a : Fin 64, tget none t.claim a = (if k.toNat.testBit a then some z
          else tget none s.dev.claim a)) ∧ t.answers h 16 x.val (0) (0) ∧ t =
          { s.dev with regs := t.regs, clients := t.clients, reply := t.reply, claim := t.claim, jnl := t.jnl }) ∧
  (∀ (s : State) (h : Ctl) (g : Fin 16777216) (z : Nat), s.dev.sys.logicOn = true → s.dev.expects h 16 255 g.val z →
      shortOnly h = true → s.dev.devClaim = none →
      Does (.claim h 255 g none) s fun t => t.devClaim = some z ∧ t.answers h 16 255 (0) (0) ∧ (t.clientOf z).expect =
          (h.seq.val + 1) % 256 ∧ t =
          { s.dev with regs := t.regs, clients := t.clients, reply := t.reply, devClaim := t.devClaim, jnl := t.jnl }) ∧
  (∀ (s : State) (h : Ctl) (x : Fin 256) (g : Fin 16777216) (z y : Nat), s.dev.sys.logicOn = true → s.dev.expects h 16
      x.val g.val z → shortOnly h = true → x.val < 64 → s.dev.axSt x ≠ .absent → tget none s.dev.claim x = some y → y
      ≠ z →
      Does (.claim h x g none) s fun t => t.claim = s.dev.claim ∧ t.answers h 16 x.val (5) (0) ∧ (t.clientOf z).expect
          = (h.seq.val + 1) % 256 ∧ t =
          { s.dev with regs := t.regs, clients := t.clients, reply := t.reply, jnl := t.jnl, evs := t.evs }) ∧
  (∀ (s : State) (h : Ctl) (x : Fin 256) (g : Fin 16777216) (z : Nat), s.dev.sys.logicOn = true → s.dev.expects h 16
      x.val g.val z → shortOnly h = true → x.val < 64 → s.dev.axSt x = .absent →
      Does (.claim h x g none) s fun t => t.claim = s.dev.claim ∧ t.answers h 16 x.val (8) (0) ∧ t =
          { s.dev with regs := t.regs, clients := t.clients, reply := t.reply, jnl := t.jnl, evs := t.evs }) ∧
  (∀ (s : State) (h : Ctl) (x : Fin 256) (g : Fin 16777216) (z : Nat), s.dev.sys.logicOn = true → s.dev.expects h 17
      x.val g.val z → shortOnly h = true → x.val < 64 → tget none s.dev.claim x = some z → (s.dev.axSt x).driving =
      false → (s.dev.clientOf z).loss = false →
      Does (.release h x g none) s fun t => tget none t.claim x = none ∧ tget (2000, 0) t.policy x = (2000, 0) ∧
          t.answers h 17 x.val (0) (0) ∧ (∀ a : Fin 64, t.axSt a = s.dev.axSt a)) ∧
  (∀ (s : State) (h : Ctl) (x : Fin 256) (g : Fin 16777216) (z : Nat), s.dev.sys.logicOn = true → s.dev.expects h 17
      x.val g.val z → shortOnly h = true → x.val < 64 → tget none s.dev.claim x = some z → (s.dev.axSt x).driving =
      true → g.val % 2 = 0 →
      Does (.release h x g none) s fun t => t.claim = s.dev.claim ∧ t.answers h 17 x.val (12) (0) ∧ (∀ a : Fin 64,
          t.axSt a = s.dev.axSt a) ∧ t = { s.dev with clients := t.clients, reply := t.reply }) ∧
  (∀ (s : State) (h : Ctl) (x : Fin 256) (g : Fin 16777216) (z : Nat), s.dev.sys.logicOn = true → s.dev.expects h 17
      x.val g.val z → shortOnly h = true → x.val < 64 → tget none s.dev.claim x = some z → s.dev.axSt x = .ramp →
      g.val % 2 = 1 → s.dev.members x = [x.val] →
      Does (.release h x g none) s fun t => tget none t.claim x = none ∧ t.axSt x = .hiz ∧ t.answers h 17 x.val (0)
          (0)) ∧
  (∀ (s : State) (h : Ctl) (g : Fin 16777216) (z : Nat), s.dev.sys.logicOn = true → s.dev.expects h 17 255 g.val z →
      shortOnly h = true → s.dev.devClaim = some z →
      Does (.release h 255 g none) s fun t => t.devClaim = none ∧ t.answers h 17 255 (0) (0) ∧ t =
          { s.dev with regs := t.regs, clients := t.clients, reply := t.reply, devClaim := t.devClaim, jnl := t.jnl }) ∧
  (∀ (s : State) (h : Ctl) (x : Fin 256) (g : Fin 16777216) (z : Nat), s.dev.sys.logicOn = true → s.dev.expects h 2
      x.val g.val z → shortOnly h = true → (∀ a : Fin 64, tget none s.dev.claim a = some z → (s.dev.axSt a).driving =
      false) →
      Does (.closeSlot h x g) s fun t => (t.clientOf z).used = false ∧ (∀ a : Fin 64, tget none t.claim a ≠ some z) ∧
          t.devClaim ≠ some z ∧ t.answers h 2 x.val (0) (0)) ∧
  (∀ (s : State) (k : Fin 64), s.dev.sys.logicOn = true → (s.dev.clientOf k).used = true → (s.dev.clientOf k).loss =
      false → (s.dev.clientOf k).tc = false → (s.dev.clientOf k).heard + 3 * (s.dev.clientOf k).beat * 200000 ≤
      s.dev.now →
      Does (.slotLoss k) s fun t => ((t.clientOf k).used = false ∨ (t.clientOf k).loss = true) ∧ t.devClaim ≠ some
          k.val ∧ (∀ a : Fin 64, tget none s.dev.claim a = some k.val → (s.dev.axSt a).driving = false → tget none
          t.claim a = none) ∧ (∀ a : Fin 64, tget none s.dev.claim a = some k.val → (s.dev.axSt a).driving = true →
          tget none t.claim a = some k.val ∧ tget none t.holdEnd a = some (s.dev.now + 200000 * (tget (2000, 0)
          s.dev.policy a).1)) ∧ (∀ a : Fin 64, t.axSt a = s.dev.axSt a)) ∧
  (∀ (s : State) (k : Fin 64), s.dev.sys.logicOn = true → s.dev.now < (s.dev.clientOf k).heard + 3 * (s.dev.clientOf
      k).beat * 200000 →
      Does (.slotLoss k) s fun t => t = s.dev) ∧
  (∀ (s : State) (a : Fin 64) (k : Nat), s.dev.sys.logicOn = true → tget none s.dev.holdEnd a = some k → k ≤ s.dev.now
      → (tget (2000, 0) s.dev.policy a).2 = 1 → s.dev.members a = [a.val] → s.dev.axSt a = .sixstep →
      Does (.lossHoldExpiry a) s fun t => (t.axSt a = (if s.dev.turning a then .hiz else .off)) ∧ tget none t.claim a
          = none ∧ tget none t.holdEnd a = none) ∧
  (∀ (s : State) (a : Fin 64), s.dev.sys.logicOn = true → tget none s.dev.holdEnd a = none →
      Does (.lossHoldExpiry a) s fun t => t = s.dev)

/-- With the expected SEQ, a valid check, a token and its claims, a message is carried out: AXCMD commands an axis or
answers the refusal of the hardware; SETREF stages and commits a reference, or leaves it staged; POLICY sets the hold;
PEAL starts a peal whose response waits, or answers REFUSED with its result; MODE requests a mode; CARTREL releases a
cartridge; AUX sets the outputs; CFGITEM and CFGCOMMIT stage and commit a transaction; CAPTURE starts a session;
IMAGESEG stores bytes in the staging area (its place is a log entry); IMAGEWR starts an image write; LOOPSET commits
its loops. A message whose axis or device claim is not held is answered with NOTHELD and does nothing but its record.
(R40, R52, R95, R108, R178, R216, R242, R331, R333, R334, R390, R391) -/
def Obligations.ControlMessages : Prop :=
  (∀ (s : State) (h : Ctl) (x : Fin 256) (g : Fin 16777216) (z : Nat), s.dev.sys.logicOn = true → s.dev.expects h 32
      x.val g.val z → shortOnly h = true → x.val < 64 → tget none s.dev.claim x = some z → g.val % 16 = 3 →
      s.dev.members x = [x.val] → s.dev.axSt x = .sixstep → tget none s.dev.holdEnd x = none →
      Does (.axcmd h x g) s fun t => (t.axSt x = (if s.dev.turning x then .hiz else .off)) ∧ t.answers h 32 x.val (0)
          (0) ∧ (t.clientOf z).expect = (h.seq.val + 1) % 256) ∧
  (∀ (s : State) (h : Ctl) (x : Fin 256) (g : Fin 16777216) (z : Nat), s.dev.sys.logicOn = true → s.dev.expects h 32
      x.val g.val z → shortOnly h = true → x.val < 64 → tget none s.dev.claim x = some z → g.val % 16 = 1 →
      s.dev.members x = [x.val] → s.dev.axSt x ≠ .off → 0 < s.dev.startReason x →
      Does (.axcmd h x g) s fun t => t.axSt x = s.dev.axSt x ∧ t.answers h 32 x.val (6) (s.dev.startReason x) ∧
          (t.clientOf z).expect = (h.seq.val + 1) % 256 ∧ t.get (CU_STAT_REFUSE x) = s.dev.startReason x ∧ t =
          { s.dev with regs := t.regs, clients := t.clients, reply := t.reply } ∧ sameRegs s.dev t ([CU_STAT x.val])) ∧
  (∀ (s : State) (h : Ctl) (x : Fin 256) (g : Fin 16777216) (z : Nat), s.dev.sys.logicOn = true → s.dev.expects h 32
      x.val g.val z → shortOnly h = true → x.val < 64 → tget none s.dev.claim x = none → 1 ≤ g.val % 16 → g.val % 16 ≤
      5 →
      Does (.axcmd h x g) s fun t => (∀ a : Fin 64, t.axSt a = s.dev.axSt a) ∧ t.answers h 32 x.val (4) (0) ∧
          (t.clientOf z).expect = (h.seq.val + 1) % 256 ∧ t =
          { s.dev with regs := t.regs, clients := t.clients, reply := t.reply, jnl := t.jnl, evs := t.evs }) ∧
  (∀ (s : State) (h : Ctl) (x : Fin 64) (g : Fin 16777216) (z : Nat), s.dev.sys.logicOn = true → s.dev.expects h 33
      (x.val + 64) g.val z → shortOnly h = true → tget none s.dev.claim x = some z →
      Does (.setref h ⟨x.val + 64, by omega⟩ g none) s fun t => t.reg (LE_REF1 (x.val / 8) (x.val % 8)) = w32i (sx 24
          g.val) ∧ (t.loopOf (x.val / 8) (x.val % 8)).refGo = some (s.dev.now, [s.dev.sword (LE_REF0 (x.val / 8)
          (x.val % 8)), sx 24 g.val]) ∧ t.get (LE_LCTL_STAGED (x.val / 8) (x.val % 8)) = 0 ∧ t.answers h 33 (x.val +
          64) (0) (0)) ∧
  (∀ (s : State) (h : Ctl) (x : Fin 64) (g : Fin 16777216) (w : Word) (z : Nat), s.dev.sys.logicOn = true →
      s.dev.expects h 33 x.val g.val z → isLong h = true → tget none s.dev.claim x = some z →
      Does (.setref h ⟨x.val, by omega⟩ g (some (w, true))) s fun t => t.reg (LE_REF0 (x.val / 8) (x.val % 8)) = w ∧
          t.get (LE_LCTL_STAGED (x.val / 8) (x.val % 8)) = 1 ∧ (t.loopOf (x.val / 8) (x.val % 8)).refGo =
          (s.dev.loopOf (x.val / 8) (x.val % 8)).refGo ∧ t.answers h 33 x.val (0) (0)) ∧
  (∀ (s : State) (h : Ctl) (x : Fin 64) (n : Fin 65536) (e : Fin 256) (z : Nat), s.dev.sys.logicOn = true →
      s.dev.expects h 34 x.val 0 z → isLong h = true → tget none s.dev.claim x = some z → n.val ≤ 60000 → e.val ≤ 1 →
      Does (.policy h ⟨x.val, by omega⟩ n e) s fun t => tget (2000, 0) t.policy x = (n.val, e.val) ∧ (∀ a : Fin 64, a
          ≠ x → tget (2000, 0) t.policy a = tget (2000, 0) s.dev.policy a) ∧ t.answers h 34 x.val (0) (0) ∧
          (t.clientOf z).expect = (h.seq.val + 1) % 256 ∧ t =
          { s.dev with regs := t.regs, clients := t.clients, reply := t.reply, policy := t.policy, jnl := t.jnl }) ∧
  (∀ (s : State) (h : Ctl) (x : Fin 64) (n : Fin 65536) (e : Fin 256) (z : Nat), s.dev.sys.logicOn = true →
      s.dev.expects h 34 x.val 0 z → isLong h = true → tget none s.dev.claim x = some z → 60000 < n.val →
      Does (.policy h ⟨x.val, by omega⟩ n e) s fun t => t.policy = s.dev.policy ∧ t.answers h 34 x.val (9) (0) ∧
          (t.clientOf z).expect = (h.seq.val + 1) % 256 ∧ t = { s.dev with clients := t.clients, reply := t.reply }) ∧
  (∀ (s : State) (h : Ctl) (k : BitVec 64) (c l : Fin 1024) (z : Nat), s.dev.sys.logicOn = true → s.dev.expects h 40
      0xFF 0 z → isLong h = true → c.val ≤ 5 → k ≠ 0 → (∀ a ∈ axesOf k.toNat, tget none s.dev.claim a = some z ∧
      s.dev.pealRefuses c.val a = false) → s.dev.peal.running = false → s.dev.pealFor = none →
      Does (.pealOp h k c l) s fun t => t.peal.running = true ∧ t.peal.mask = k.toNat ∧ t.peal.action = c.val ∧ t.get
          SYS_PEAL_RES_RES = 1 ∧ t.reply = s.dev.reply ∧ (∃ r ∈ t.pealFor, r.1 = z ∧ r.2.op = 0xA8 ∧ r.2.seq =
          h.seq.val) ∧ (t.clientOf z).expect = (h.seq.val + 1) % 256) ∧
  (∀ (s : State) (h : Ctl) (c l : Fin 1024) (z : Nat), s.dev.sys.logicOn = true → s.dev.expects h 40 0xFF 0 z → isLong
      h = true → c.val ≤ 5 → s.dev.peal.running = false → s.dev.pealFor = none →
      Does (.pealOp h 0 c l) s fun t => t.peal = s.dev.peal ∧ t.answers h 40 255 (6) (7) ∧ (t.clientOf z).expect =
          (h.seq.val + 1) % 256) ∧
  (∀ (s : State) (h : Ctl) (g : Fin 16777216) (r : Fin 65536) (k : Mode) (z : Nat), s.dev.sys.logicOn = true →
      s.dev.expects h 48 255 g.val z → shortOnly h = true → s.dev.devClaim = some z → Mode.ofCode (g.val % 16) = some
      k → s.dev.modeRefusal k = 0 → s.dev.mustStop k = false → k ≠ .dormant → s.dev.mode ≠ .safe →
      Does (.mode h 255 g r) s fun t => t.mode = k ∧ t.get SYS_MODE_PREV = s.dev.mode.code ∧ t.answers h 48 255 (0)
          (0) ∧ (t.clientOf z).expect = (h.seq.val + 1) % 256) ∧
  (∀ (s : State) (h : Ctl) (g : Fin 16777216) (r : Fin 65536) (k : Mode) (z : Nat), s.dev.sys.logicOn = true →
      s.dev.expects h 48 255 g.val z → shortOnly h = true → s.dev.devClaim = some z → Mode.ofCode (g.val % 16) = some
      k → 0 < s.dev.modeRefusal k →
      Does (.mode h 255 g r) s fun t => t.mode = s.dev.mode ∧ t.answers h 48 255 (6) (s.dev.modeRefusal k) ∧ t.get
          SYS_MODE_REFUSE = s.dev.modeRefusal k) ∧
  (∀ (s : State) (h : Ctl) (g : Fin 16777216) (r : Fin 65536) (z : Nat), s.dev.sys.logicOn = true → s.dev.expects h 48
      255 g.val z → shortOnly h = true → s.dev.devClaim = none →
      Does (.mode h 255 g r) s fun t => t.mode = s.dev.mode ∧ t.answers h 48 255 (4) (0) ∧ t =
          { s.dev with regs := t.regs, clients := t.clients, reply := t.reply, jnl := t.jnl, evs := t.evs }) ∧
  (∀ (s : State) (h : Ctl) (q : Fin 16) (z : Nat), s.dev.sys.logicOn = true → s.dev.expects h 49 255 q.val z →
      shortOnly h = true → s.dev.devClaim = some z → s.dev.get (CSL_STAT_STATE q) = 2 → (∀ k : Fin 16, k ≠ q →
      s.dev.get (CSL_STAT_STATE k) ≠ 4) →
      Does (.cartrel h 255 ⟨q.val, by omega⟩) s fun t => t.get (CSL_STAT_STATE q) = 4 ∧ t.pend 1009 = true ∧ t.answers
          h 49 255 (0) (0)) ∧
  (∀ (s : State) (h : Ctl) (q : Fin 16) (z : Nat), s.dev.sys.logicOn = true → s.dev.expects h 49 255 q.val z →
      shortOnly h = true → s.dev.devClaim = some z → s.dev.get (CSL_STAT_STATE q) ≠ 2 →
      Does (.cartrel h 255 ⟨q.val, by omega⟩) s fun t => t.get CSL_PANEL_RELREF = 1 ∧ t.answers h 49 255 (6) (0) ∧ (∀
          k : Fin 16, t.get (CSL_STAT_STATE k) = s.dev.get (CSL_STAT_STATE k))) ∧
  (∀ (s : State) (h : Ctl) (g : Fin 16777216) (z : Nat), s.dev.sys.logicOn = true → s.dev.expects h 50 255 g.val z →
      shortOnly h = true → s.dev.devClaim = some z →
      Does (.aux h 255 g) s fun t => t.get AUX_OUT_ON = g.val % 65536 ∧ t.answers h 50 255 (0) (0) ∧ (t.clientOf
          z).expect = (h.seq.val + 1) % 256) ∧
  (∀ (s : State) (h : Ctl) (n : Fin 65536) (w : Word) (l : List Word) (z : Nat), s.dev.sys.logicOn = true →
      s.dev.expects h 56 0xFF 0 z → isLong h = true → n.val ≠ 0 → l.length ≤ 1000 → w.toNat / 2 ^ 30 = 3 → 64 <
      w.toNat % 2 ^ 30 → w.toNat % 2 ^ 30 < 0x140 → s.dev.devClaim = some z → (s.dev.itemsOf n).length < 256 →
      s.dev.sys.bootFault = false →
      Does (.cfgitem h n w l) s fun t => (∃ q ∈ t.jnl.queue, q.body.typ = 6 ∧ q.body.txn = n.val ∧ q.body.key =
          w.toNat ∧ q.body.payload = l.map (·.toNat) ∧ q.body.slot = z) ∧ t.answers h 56 255 (0) (0) ∧ (t.clientOf
          z).expect = (h.seq.val + 1) % 256) ∧
  (∀ (s : State) (h : Ctl) (n : Fin 65536) (w : Word) (l : List Word) (z : Nat), s.dev.sys.logicOn = true →
      s.dev.expects h 56 0xFF 0 z → isLong h = true → n.val ≠ 0 → l.length ≤ 1000 → w.toNat / 2 ^ 30 = 3 → 64 <
      w.toNat % 2 ^ 30 → w.toNat % 2 ^ 30 < 0x140 → s.dev.devClaim = some z → s.dev.sys.bootFault = true →
      Does (.cfgitem h n w l) s fun t => t.answers h 56 255 (6) (0) ∧ (t.clientOf z).expect = (h.seq.val + 1) % 256 ∧
          t = { s.dev with clients := t.clients, reply := t.reply }) ∧
  (∀ (s : State) (h : Ctl) (n : Fin 65536) (z : Nat), s.dev.sys.logicOn = true → s.dev.expects h 57 0xFF 0 z → isLong
      h = true → n.val ≠ 0 → s.dev.devClaim = some z → (s.dev.itemsOf n).map (·.key) = [0xC0000107] →
      s.dev.sys.bootFault = false →
      Does (.cfgcommit h n true) s fun t => t.answers h 57 255 (0) (0) ∧ (t.clientOf z).expect = (h.seq.val + 1) % 256
          ∧ (∃ q ∈ t.jnl.queue, q.body.typ = 7 ∧ q.body.txn = n.val ∧ q.body.payload = [1, 1, 0, 0, 0, 0, 0, 0, 0])) ∧
  (∀ (s : State) (h : Ctl) (n : Fin 65536) (z : Nat), s.dev.sys.logicOn = true → s.dev.expects h 57 0xFF 0 z → isLong
      h = true → n.val ≠ 0 → s.dev.itemsOf n = [] →
      Does (.cfgcommit h n true) s fun t => t.answers h 57 255 (6) (0) ∧ t =
          { s.dev with clients := t.clients, reply := t.reply }) ∧
  (∀ (s : State) (h : Ctl) (x : Fin 64) (i : Fin 4) (z : Nat), s.dev.sys.logicOn = true → s.dev.expects h 64 x.val 0 z
      → isLong h = true → tget none s.dev.claim x = some z → s.dev.sessRunning i = false → (((s.dev.put (SCU_STGT_ENG
      i) (x.val / 8)).put (SCU_STGT_LOOP i) (x.val % 8)).put (SCU_SCTL_RING i) 0).startCause i = 0 → s.dev.captureLoad
      z + s.dev.get (SCU_CBW_BWMAX i) ≤ max 1 (s.dev.item 0x109 1000) →
      Does (.capture h ⟨x.val, by omega⟩ i false []) s fun t => t.sessRunning i = true ∧ tget none t.capSlot i = some
          z ∧ t.answers h 64 x.val (0) (0)) ∧
  (∀ (s : State) (h : Ctl) (x : Fin 64) (i : Fin 4) (l : List (Fin 32 × Word)) (z : Nat), s.dev.sys.logicOn = true →
      s.dev.expects h 64 x.val 0 z → isLong h = true → tget none s.dev.claim x = some z → s.dev.sessRunning i = true →

      Does (.capture h ⟨x.val, by omega⟩ i false l) s fun t => t.answers h 64 x.val (6) (1) ∧ (t.clientOf z).expect =
          (h.seq.val + 1) % 256 ∧ t = { s.dev with clients := t.clients, reply := t.reply }) ∧
  (∀ (s : State) (h : Ctl) (w : Word) (l : List (Fin 256)) (z : Nat), s.dev.sys.logicOn = true → s.dev.expects h 72
      0xFF 0 z → isLong h = true → s.dev.devClaim = some z → w.toNat + l.length ≤ 278528 →
      DoesMem (.imageseg h w l) s (memWriteBytes s.mem (stagingArea + w.toNat) (l.map (·.val))) fun t => t.answers h
          72 255 (0) (0) ∧ (t.clientOf z).expect = (h.seq.val + 1) % 256 ∧ t =
          { s.dev with regs := t.regs, clients := t.clients, reply := t.reply, jnl := t.jnl }) ∧
  (∀ (s : State) (h : Ctl) (w : Word) (l : List (Fin 256)) (z : Nat), s.dev.sys.logicOn = true → s.dev.expects h 72
      0xFF 0 z → isLong h = true → s.dev.devClaim = some z → 278528 < w.toNat + l.length →
      Does (.imageseg h w l) s fun t => t.answers h 72 255 (9) (0) ∧ t =
          { s.dev with clients := t.clients, reply := t.reply }) ∧
  (∀ (s : State) (h : Ctl) (n : Fin 8) (z : Nat), s.dev.sys.logicOn = true → s.dev.expects h 73 0xFF 0 z → isLong h =
      true → s.dev.devClaim = some z → imageErr n (s.dev.put JNL_IMGSRC_ADDR (stagingArea / 4), s.mem) = 0 →
      Does (.imagewr h n) s fun t => t.jnl.img = some (n.val, stagingArea) ∧ tget 0 t.jnl.imgSt n = 1 ∧ t.answers h 73
          255 (0) (0)) ∧
  (∀ (s : State) (h : Ctl) (n : Fin 8) (z : Nat), s.dev.sys.logicOn = true → s.dev.expects h 73 0xFF 0 z → isLong h =
      true → s.dev.devClaim = some z → 0 < imageErr n (s.dev.put JNL_IMGSRC_ADDR (stagingArea / 4), s.mem) →
      Does (.imagewr h n) s fun t => t.answers h 73 255 (6) (imageErr n (s.dev.put JNL_IMGSRC_ADDR (stagingArea / 4),
          s.mem)) ∧ t.jnl.img = s.dev.jnl.img) ∧
  (∀ (s : State) (h : Ctl) (n : Fin 8) (b : Bool) (z : Nat), s.dev.sys.logicOn = true → s.dev.expects h 74 0xFF 0 z →
      isLong h = true → sectionsOf (s.dev.imageMem s.mem n) 0 = [] → tget 0 s.dev.jnl.imgSt n ≠ 2 →
      Does (.loopset h n b) s fun t => t.answers h 74 255 (6) (0) ∧ (t.clientOf z).expect = (h.seq.val + 1) % 256 ∧ t
          = { s.dev with clients := t.clients, reply := t.reply }) ∧
  (∀ (s : State) (h : Ctl) (n : Fin 8) (z : Nat), s.dev.sys.logicOn = true → s.dev.expects h 74 0xFF 0 z → isLong h =
      true → s.dev.sys.bootFault = false → tget 0 s.dev.jnl.imgSt n = 2 → memWord (s.dev.imageMem s.mem n) 4 % 256 = 2
      → loopsetNeed (setLoops s.dev (sectionsOf (s.dev.imageMem s.mem n) 0)) (decide ((((sectionsOf (s.dev.imageMem
      s.mem n) 0).filter (·.kind = 6)).map fun s => s.target / 65536) ≠ [])) z s.dev = 0 →
      Does (.loopset h n true) s fun t => t.answers h 74 255 (0) (0) ∧ (t.clientOf z).expect = (h.seq.val + 1) % 256 ∧
          (∀ l ∈ setLoops s.dev (sectionsOf (s.dev.imageMem s.mem n) 0), (t.engOf l.1).commits.testBit l.2 = true))

/-- A write by an allowed writer sets the read-write bits of a plain register to what is written and clears the
write-one-to-clear bits written 1; every other bit, every other register and everything else stay, and at an
unoccupied offset all stays. Of two writes of one cycle, what the later writer in the order of R23 wrote remains. A
pair that neither hosts an axis nor supervises takes a bus error with SUB 3 at every offset of the axis's blocks; a
pair at task privilege takes a privilege exception, a misaligned write an alignment exception, a write outside every
block SUB 1, one into a read window SUB 4; an engine reaches no other axis. The debug access acts in SERVICE mode
alone. (R7, R8, R9, R10, R11, R21, R23, R24, R26, R47, R270) -/
def Obligations.RegisterWrites : Prop :=
  (∀ (s : State) (m : Master) (w : Word) (r : Nat × Word), s.dev.sys.logicOn = true → s.dev.supRights m = true → (∀ p
      : Fin 5, m = .pair p → ((s.dev.pairOf p).cwGet 0).getLsbD 0 = true) → r ∈ ([(LSS_WDG, 0xFFFF), (LSS_CFG,
      0xFFFFFF03), (SYS_STOPTO, 0xFFFF), (PSE_PUSER, 0xFFFF), (TRU_GAIN, 0x1FFF), (JNL_QUOTA, 0xFFFF), (EVC_AGE,
      0xFFFF), (SP1_BUSY, 0xFFFFFFFF)] : List (Nat × Word)) → (tget none s.dev.wrote r.1).all
      (fun x => decide (x.1 ≠ s.dev.now)) = true →
      Does (.registerWrite m (w32 r.1) w) s fun t => t.reg r.1 = (s.dev.reg r.1 &&& ~~~r.2) ||| (w &&& r.2) ∧ (∀ p :
          Fin 5, t.pairOf p = { s.dev.pairOf p with took := (t.pairOf p).took }) ∧ t =
          { s.dev with regs := t.regs, pairs := t.pairs, wrote := t.wrote } ∧ sameRegs s.dev t ([r.1])) ∧
  (∀ (s : State) (m : Master) (w : Word) (r : Nat × Word), s.dev.sys.logicOn = true → s.dev.supRights m = true → (∀ p
      : Fin 5, m = .pair p → ((s.dev.pairOf p).cwGet 0).getLsbD 0 = true) → r ∈ ([(TRU_EVT, 0xF), (PSE_EVT, 0xFFF),
      (SYS_RCAUSE, 0x3F), (EVC_STAT, 7), (LSS_EVT, 0x3FFF), (JNL_EVT, 0x1FF), (SP0_EVT, 7), (SWC_EVT, 3), (SCU_EVT,
      0xFFFF)] : List (Nat × Word)) →
      Does (.registerWrite m (w32 r.1) w) s fun t => t.reg r.1 = s.dev.reg r.1 &&& ~~~(w &&& r.2) ∧ (∀ p : Fin 5,
          t.pairOf p = { s.dev.pairOf p with took := (t.pairOf p).took }) ∧ t =
          { s.dev with regs := t.regs, pairs := t.pairs, wrote := t.wrote } ∧ sameRegs s.dev t ([r.1])) ∧
  (∀ (s : State) (m : Master) (w : Word) (a : Nat), s.dev.sys.logicOn = true → s.dev.supRights m = true → (∀ p : Fin
      5, m = .pair p → ((s.dev.pairOf p).cwGet 0).getLsbD 0 = true) → a ∈ [0x4000FFFC, 0x4002FFF0, 0x4003FFFC,
      0x4004FFFC, 0x40050FFC, 0x4010FFFC, 0x402003FC, 0x403007FC, 0x4050FFFC, 0x40600FFC] →
      Does (.registerWrite m (w32 a) w) s fun t => (∀ p : Fin 5, t.pairOf p =
          { s.dev.pairOf p with took := (t.pairOf p).took }) ∧ t = { s.dev with pairs := t.pairs }) ∧
  (∀ (s : State) (m : Master) (w : Word) (r : Nat), s.dev.sys.logicOn = true → s.dev.supRights m = true → (∀ p : Fin
      5, m = .pair p → ((s.dev.pairOf p).cwGet 0).getLsbD 0 = true) → tget none s.dev.wrote LSS_CFG = some (s.dev.now,
      r) → s.dev.rank m < r →
      Does (.registerWrite m (w32 LSS_CFG) w) s fun t => t.reg LSS_CFG &&& 0xFFFFFF03 = s.dev.reg LSS_CFG &&&
          0xFFFFFF03 ∧ (∀ p : Fin 5, t.pairOf p = { s.dev.pairOf p with took := (t.pairOf p).took }) ∧ t =
          { s.dev with regs := t.regs, pairs := t.pairs } ∧ sameRegs s.dev t ([LSS_CFG])) ∧
  (∀ (s : State) (p : Fin 5) (a : Fin 64) (o : Fin 192) (w : Word), s.dev.sys.logicOn = true → s.dev.superv p = true →
      ((s.dev.pairOf p).cwGet 0).getLsbD 2 = false → s.dev.host a ≠ p → s.dev.sup ≠ p →
      Does (.registerWrite (.pair p) (w32 (0x40200000 + 0x400 * a.val + 4 * o.val)) w) s fun t => Traps s.dev t p 4 3
          true false (w32 (0x40200000 + 0x400 * a.val + 4 * o.val))) ∧
  (∀ (s : State) (p : Fin 5) (a : Fin 64) (o : Fin 512) (w : Word), s.dev.sys.logicOn = true → s.dev.superv p = true →
      ((s.dev.pairOf p).cwGet 0).getLsbD 2 = false → s.dev.host a ≠ p → s.dev.sup ≠ p →
      Does (.registerWrite (.pair p) (w32 (0x40300000 + 0x800 * a.val + 4 * o.val)) w) s fun t => Traps s.dev t p 4 3
          true false (w32 (0x40300000 + 0x800 * a.val + 4 * o.val))) ∧
  (∀ (s : State) (p : Fin 5) (a w : Word), s.dev.sys.logicOn = true → s.dev.superv p = false → ((s.dev.pairOf p).cwGet
      0).getLsbD 2 = false → 0x40000000 ≤ a.toNat →
      Does (.registerWrite (.pair p) a w) s fun t => Traps s.dev t p 2 1 true false a) ∧
  (∀ (s : State) (p : Fin 5) (a w : Word), s.dev.sys.logicOn = true → s.dev.superv p = true → ((s.dev.pairOf p).cwGet
      0).getLsbD 2 = false → a.toNat % 4 ≠ 0 →
      Does (.registerWrite (.pair p) a w) s fun t => Traps s.dev t p 3 0 true false a) ∧
  (∀ (s : State) (p : Fin 5) (a w : Word), s.dev.sys.logicOn = true → s.dev.superv p = true → ((s.dev.pairOf p).cwGet
      0).getLsbD 2 = false → a.toNat % 4 = 0 → ((0x40052000 ≤ a.toNat ∧ a.toNat < 0x40060000) ∨ 0x40610000 ≤ a.toNat)
      →
      Does (.registerWrite (.pair p) a w) s fun t => Traps s.dev t p 4 1 true false a) ∧
  (∀ (s : State) (p : Fin 5) (a w : Word), s.dev.sys.logicOn = true → s.dev.superv p = true → ((s.dev.pairOf p).cwGet
      0).getLsbD 2 = false → a.toNat % 4 = 0 → ((0x20000000 ≤ a.toNat ∧ a.toNat < 0x21000000) ∨ (0x30000000 ≤ a.toNat
      ∧ a.toNat < 0x34000000)) →
      Does (.registerWrite (.pair p) a w) s fun t => Traps s.dev t p 4 4 true false a) ∧
  (∀ (s : State) (e : Fin 8) (a : Fin 64) (o : Fin 192) (w : Word), s.dev.sys.logicOn = true → a.val / 8 ≠ e.val →
      Does (.registerWrite (.engine e) (w32 (0x40200000 + 0x400 * a.val + 4 * o.val)) w) s fun t => t = s.dev) ∧
  (∀ (s : State) (b : Bool) (a w : Word), s.dev.sys.logicOn = true → s.dev.mode ≠ .service →
      Does (.debugAccess b a w) s fun t => t = s.dev) ∧
  (∀ (s : State) (a w : Word), s.dev.sys.logicOn = true → s.dev.mode = .service → a.toNat % 4 = 0 → ((0x10000000 ≤
      a.toNat ∧ a.toNat < 0x103C0000) ∨ (0x18000000 ≤ a.toNat ∧ a.toNat < 0x18800000)) →
      DoesMem (.debugAccess true a w) s (memWrite s.mem a.toNat 4 w.toNat) fun t => t = s.dev) ∧
  (∀ (s : State) (a w : Word), s.dev.sys.logicOn = true → s.dev.mode = .service → a.toNat % 4 = 0 → ((0x10000000 ≤
      a.toNat ∧ a.toNat < 0x10400000) ∨ (0x18000000 ≤ a.toNat ∧ a.toNat < 0x18800000) ∨ (0x20000000 ≤ a.toNat ∧
      a.toNat < 0x21000000 ∧ s.dev.metaAt a.toNat = false)) →
      Does (.debugAccess false a w) s fun t => t.rdata = w32 (memRead s.mem a.toNat 4) ∧ t =
          { s.dev with rdata := t.rdata }) ∧
  (∀ (s : State) (w : Word), s.dev.sys.logicOn = true → s.dev.mode = .service →
      Does (.debugAccess false (w32 LSS_CFG) w) s fun t => t.rdata = s.dev.reg LSS_CFG ∧ t =
          { s.dev with rdata := t.rdata })

/-- For every command and state, a step with the command at the front of the queue is exec of the command with the
queue's rest. The queue itself is the model's (log 1). (R23, R81) -/
def Obligations.StepRunsFront : Prop :=
  ∀ (c : Instr) (s : State), step { s with pending := c :: s.pending } = exec c s

/-- On an empty queue a step adds one 5 ns count to device time while device time runs, changes nothing while it does
not, and changes nothing else. That time passes on an idle step is the model's choice (log 1). (R79, R81) -/
def Obligations.IdleStepCountsTime : Prop :=
  (∀ s : State, s.pending = [] → s.dev.timeOn = true → step s = .next
      { s with dev := { s.dev with now := s.dev.now + 1 } }) ∧
  (∀ s : State, s.pending = [] → s.dev.timeOn = false → step s = .next s)

/-- For every command and state exec answers a next state whose queue is the queue it was given: no command stops the
block. (R8, R11) -/
def Obligations.EveryCommandAnswers : Prop :=
  ∀ (c : Instr) (s : State), ∃ t, exec c s = .next t ∧ t.pending = s.pending

/-- While the logic domain is off, every command but the always-on domain's (presence sensing, a pulled cartridge, the
loss of the always-on supply, the motor wake test, a wake, a power-on reset) changes nothing at all. (R14, R62, R102)
-/
def Obligations.LogicOffNothingActs : Prop :=
  ∀ (c : Instr) (s : State), alwaysOn c = false → s.dev.sys.logicOn = false → exec c s = .next s

/-- A command outside the list of those that store (register and debug writes, Litos stores and atomics, the journal
and image commands, boot and reset, a loop run, a capture sample, SP0 frames, window commands, the speed message and
the client commands journalled or staged) leaves every byte of pair-local RAM, shared SRAM, capture RAM and the store
as it was. (R26, R27, R323) -/
def Obligations.MemoryFrame : Prop :=
  ∀ (c : Instr) (s t : State), storesBytes c = false → exec c s = .next t → ∀ k, memGet t.mem k = memGet s.mem k

/-- The byte memories after a power-on reset list nothing, and so have their canonical form. (R25) -/
def Obligations.MemoryFormAtReset : Prop :=
  State.reset.MemWf ∧ State.reset.mem = []

/-- From every state whose byte memories are in canonical form (keys strictly rising, no byte 0 listed), a step
answers only states whose byte memories are: equal memories stay equal data. (R25) -/
def Obligations.MemoryFormKept : Prop :=
  ∀ s t : State, s.MemWf → step s = .next t → t.MemWf

/-- For every Litos instruction, with every operand at every value the encoding admits, the decoder reads from its
word the instruction; LEL's row is read with the kind of its register. An error of the memory a load or atomic meets
is no part of its word. (R258, R259, R260, R261, R262, R264, R265, R266, R269) -/
def Obligations.LitosEncodeDecode : Prop :=
  (∀ (p : Fin 5) (gd ga gb : Fin 32) (k : Fin 4), decodeLitos p k (litosWord (.add p gd ga gb)) = some (.add p gd ga
      gb) ∧ decodeLitos p k (litosWord (.sub p gd ga gb)) = some (.sub p gd ga gb) ∧ decodeLitos p k (litosWord (.and
      p gd ga gb)) = some (.and p gd ga gb) ∧ decodeLitos p k (litosWord (.or p gd ga gb)) = some (.or p gd ga gb) ∧
      decodeLitos p k (litosWord (.xor p gd ga gb)) = some (.xor p gd ga gb) ∧ decodeLitos p k (litosWord (.nor p gd
      ga gb)) = some (.nor p gd ga gb) ∧ decodeLitos p k (litosWord (.slt p gd ga gb)) = some (.slt p gd ga gb) ∧
      decodeLitos p k (litosWord (.sltu p gd ga gb)) = some (.sltu p gd ga gb) ∧ decodeLitos p k (litosWord (.sll p gd
      ga gb)) = some (.sll p gd ga gb) ∧ decodeLitos p k (litosWord (.srl p gd ga gb)) = some (.srl p gd ga gb) ∧
      decodeLitos p k (litosWord (.sra p gd ga gb)) = some (.sra p gd ga gb) ∧ decodeLitos p k (litosWord (.mul p gd
      ga gb)) = some (.mul p gd ga gb) ∧ decodeLitos p k (litosWord (.mulh p gd ga gb)) = some (.mulh p gd ga gb) ∧
      decodeLitos p k (litosWord (.mulhu p gd ga gb)) = some (.mulhu p gd ga gb) ∧ decodeLitos p k (litosWord (.div p
      gd ga gb)) = some (.div p gd ga gb) ∧ decodeLitos p k (litosWord (.divu p gd ga gb)) = some (.divu p gd ga gb) ∧
      decodeLitos p k (litosWord (.rem p gd ga gb)) = some (.rem p gd ga gb) ∧ decodeLitos p k (litosWord (.remu p gd
      ga gb)) = some (.remu p gd ga gb) ∧ decodeLitos p k (litosWord (.min p gd ga gb)) = some (.min p gd ga gb) ∧
      decodeLitos p k (litosWord (.max p gd ga gb)) = some (.max p gd ga gb)) ∧
  (∀ (p : Fin 5) (gd ga sh : Fin 32) (k : Fin 4), decodeLitos p k (litosWord (.slli p gd ga sh)) = some (.slli p gd ga
      sh) ∧ decodeLitos p k (litosWord (.srli p gd ga sh)) = some (.srli p gd ga sh) ∧ decodeLitos p k (litosWord
      (.srai p gd ga sh)) = some (.srai p gd ga sh)) ∧
  (∀ (p : Fin 5) (gd ga : Fin 32) (k : Fin 4), decodeLitos p k (litosWord (.clz p gd ga)) = some (.clz p gd ga)) ∧
  (∀ (p : Fin 5) (gd ga : Fin 32) (imm : BitVec 16) (k : Fin 4), decodeLitos p k (litosWord (.addi p gd ga imm)) =
      some (.addi p gd ga imm) ∧ decodeLitos p k (litosWord (.slti p gd ga imm)) = some (.slti p gd ga imm) ∧
      decodeLitos p k (litosWord (.sltiu p gd ga imm)) = some (.sltiu p gd ga imm) ∧ decodeLitos p k (litosWord (.andi
      p gd ga imm)) = some (.andi p gd ga imm) ∧ decodeLitos p k (litosWord (.ori p gd ga imm)) = some (.ori p gd ga
      imm) ∧ decodeLitos p k (litosWord (.xori p gd ga imm)) = some (.xori p gd ga imm) ∧ decodeLitos p k (litosWord
      (.jalr p gd ga imm)) = some (.jalr p gd ga imm) ∧ decodeLitos p k (litosWord (.sw p gd ga imm)) = some (.sw p gd
      ga imm) ∧ decodeLitos p k (litosWord (.sh p gd ga imm)) = some (.sh p gd ga imm) ∧ decodeLitos p k (litosWord
      (.sb p gd ga imm)) = some (.sb p gd ga imm) ∧ decodeLitos p k (litosWord (.beq p gd ga imm)) = some (.beq p gd
      ga imm) ∧ decodeLitos p k (litosWord (.bne p gd ga imm)) = some (.bne p gd ga imm) ∧ decodeLitos p k (litosWord
      (.blt p gd ga imm)) = some (.blt p gd ga imm) ∧ decodeLitos p k (litosWord (.bge p gd ga imm)) = some (.bge p gd
      ga imm) ∧ decodeLitos p k (litosWord (.bltu p gd ga imm)) = some (.bltu p gd ga imm) ∧ decodeLitos p k
      (litosWord (.bgeu p gd ga imm)) = some (.bgeu p gd ga imm)) ∧
  (∀ (p : Fin 5) (gd ga : Fin 32) (imm : BitVec 16) (k : Fin 4), decodeLitos p k (litosWord (.lw p gd ga imm false)) =
      some (.lw p gd ga imm false) ∧ decodeLitos p k (litosWord (.lh p gd ga imm false)) = some (.lh p gd ga imm
      false) ∧ decodeLitos p k (litosWord (.lhu p gd ga imm false)) = some (.lhu p gd ga imm false) ∧ decodeLitos p k
      (litosWord (.lb p gd ga imm false)) = some (.lb p gd ga imm false) ∧ decodeLitos p k (litosWord (.lbu p gd ga
      imm false)) = some (.lbu p gd ga imm false)) ∧
  (∀ (p : Fin 5) (gd : Fin 32) (imm : BitVec 16) (k : Fin 4), decodeLitos p k (litosWord (.lui p gd imm)) = some (.lui
      p gd imm)) ∧
  (∀ (p : Fin 5) (off : BitVec 26) (k : Fin 4), decodeLitos p k (litosWord (.j p off)) = some (.j p off) ∧ decodeLitos
      p k (litosWord (.jal p off)) = some (.jal p off)) ∧
  (∀ (p : Fin 5) (acd : Fin 4) (ga gb : Fin 32) (k : Fin 4), decodeLitos p k (litosWord (.mula p acd ga gb)) = some
      (.mula p acd ga gb) ∧ decodeLitos p k (litosWord (.mac p acd ga gb)) = some (.mac p acd ga gb) ∧ decodeLitos p k
      (litosWord (.msu p acd ga gb)) = some (.msu p acd ga gb) ∧ decodeLitos p k (litosWord (.macu p acd ga gb)) =
      some (.macu p acd ga gb) ∧ decodeLitos p k (litosWord (.acld p acd ga gb)) = some (.acld p acd ga gb)) ∧
  (∀ (p : Fin 5) (acd : Fin 4) (ga gb : Fin 32) (i : Fin 64) (k : Fin 4), decodeLitos p k (litosWord (.fmac p acd ga
      gb i)) = some (.fmac p acd ga gb i) ∧ decodeLitos p k (litosWord (.bmac p acd ga gb i)) = some (.bmac p acd ga
      gb i)) ∧
  (∀ (p : Fin 5) (gd : Fin 32) (acs : Fin 4) (i : Fin 64) (k : Fin 4), decodeLitos p k (litosWord (.acrd p gd acs i))
      = some (.acrd p gd acs i)) ∧
  (∀ (p : Fin 5) (gd : Fin 32) (acs : Fin 4) (k : Fin 4), decodeLitos p k (litosWord (.aclo p gd acs)) = some (.aclo p
      gd acs) ∧ decodeLitos p k (litosWord (.achi p gd acs)) = some (.achi p gd acs) ∧ decodeLitos p k (litosWord
      (.bexp p gd acs)) = some (.bexp p gd acs)) ∧
  (∀ (p : Fin 5) (gd : Fin 32) (acs : Fin 4) (gb : Fin 32) (k : Fin 4), decodeLitos p k (litosWord (.bmant p gd acs
      gb)) = some (.bmant p gd acs gb)) ∧
  (∀ (p : Fin 5) (acd acs : Fin 4) (k : Fin 4), decodeLitos p k (litosWord (.acmov p acd acs)) = some (.acmov p acd
      acs)) ∧
  (∀ (p : Fin 5) (gd ga gb : Fin 32) (k : Fin 4), decodeLitos p k (litosWord (.aswap p gd ga gb false)) = some (.aswap
      p gd ga gb false) ∧ decodeLitos p k (litosWord (.aadd p gd ga gb false)) = some (.aadd p gd ga gb false) ∧
      decodeLitos p k (litosWord (.aand p gd ga gb false)) = some (.aand p gd ga gb false) ∧ decodeLitos p k
      (litosWord (.aor p gd ga gb false)) = some (.aor p gd ga gb false) ∧ decodeLitos p k (litosWord (.acas p gd ga
      gb false)) = some (.acas p gd ga gb false)) ∧
  (∀ (p : Fin 5) (g : Fin 32) (index : Fin 4096) (k : Fin 4), decodeLitos p k (litosWord (.cwr p g index)) = some
      (.cwr p g index) ∧ decodeLitos p k (litosWord (.cww p g index)) = some (.cww p g index)) ∧
  (∀ (p : Fin 5) (code : Fin 1048576) (k : Fin 4), decodeLitos p k (litosWord (.sysc p code)) = some (.sysc p code) ∧
      decodeLitos p k (litosWord (.brk p code)) = some (.brk p code)) ∧
  (∀ (p : Fin 5) (k : Fin 4), decodeLitos p k (litosWord (.eret p)) = some (.eret p)) ∧
  (∀ (p : Fin 5) (gd ga : Fin 32) (b : Bool) (k : Fin 4), decodeLitos p k (litosWord (.wev p gd ga b)) = some (.wev p
      gd ga b) ∧ decodeLitos p k (litosWord (.peal p gd ga b)) = some (.peal p gd ga b)) ∧
  (∀ (p : Fin 5) (ga gb : Fin 32), decodeLitos p 0 (litosWord (.lelRefgo p ga gb)) = some (.lelRefgo p ga gb) ∧
      decodeLitos p 1 (litosWord (.lelCommit p ga gb)) = some (.lelCommit p ga gb) ∧ decodeLitos p 2 (litosWord
      (.lelProof p ga gb)) = some (.lelProof p ga gb) ∧ decodeLitos p 3 (litosWord (.lelSchcmt p ga gb)) = some
      (.lelSchcmt p ga gb))

/-- Every word the decoder reads as an instruction is the word of that instruction: no legal word has a bit the
instruction does not carry, no two words stand for one instruction of one pair, and every other word is illegal.
(R258) -/
def Obligations.LitosDecodeEncode : Prop :=
  ∀ (p : Fin 5) (k : Fin 4) (w : Word) (i : Instr), decodeLitos p k w = some i → litosWord i = w

/-- The five words of the chapter's worked example decode to the instructions they stand beside, and a word with a bit
set in a field that must be 0, or with an opcode the tables lack, is illegal. (R258, R262, R263) -/
def Obligations.LitosWords : Prop :=
  ∀ (p : Fin 5) (k : Fin 4), decodeLitos p k 0xC000000F = some (.acld p 0 0 0) ∧ decodeLitos p k 0xC0220188 = some
      (.fmac p 0 1 2 6) ∧ decodeLitos p k 0xC0640DC8 = some (.fmac p 0 3 4 55) ∧ decodeLitos p k 0xC0A60008 = some
      (.fmac p 0 5 6 0) ∧ decodeLitos p k 0xC0E007CC = some (.acrd p 7 0 31) ∧ decodeLitos p k 0xC000100F = none ∧
      decodeLitos p k 0xFC000000 = none ∧ decodeLitos p k 0 = none

/-- After a power-on reset CP0 is active and supervises, CP1 to CP3 are active and CP4 is the spare; CP0 hosts axes 0
to 15, CP1 16 to 31, CP2 32 to 47, CP3 48 to 63 and CP4 none. (R20) -/
def Obligations.ResetHosting : Prop :=
  (State.reset.dev.sup = 0 ∧ State.reset.dev.pairSt 0 = .active ∧ State.reset.dev.pairSt 1 = .active ∧
      State.reset.dev.pairSt 2 = .active ∧ State.reset.dev.pairSt 3 = .active ∧ State.reset.dev.pairSt 4 = .spare) ∧
  (∀ a : Fin 64, State.reset.dev.host a = a.val / 16)

/-- After a power-on reset every address of the map reads its register's reset word, 0 where none stands, the queue
and the byte memories list nothing and device time has not started. Reset words the tables show as "var" are the
model's (log 5). (R8, R12, R20) -/
def Obligations.ResetRegisters : Prop :=
  (∀ a : Nat, State.reset.dev.reg a = (match rowAt a with | some r => w32 r.reset | none => 0)) ∧ State.reset.pending
      = [] ∧ State.reset.mem = [] ∧ State.reset.dev.now = 0 ∧ State.reset.dev.timeOn = false
end

