-- ==== Sys2Proof/Laws/Sparse.lean ====
section
/-! SUPPORT. Laws of the sparse tables and of the byte memory: a read after a write, the canonical form. -/

namespace Sys2Proof.Laws
open Sys2Proof Sys2Proof.Machine

variable {α : Type}

/-- A deleted key reads as unlisted. -/
theorem tget_tdel_same (dflt : α) (t : Tab α) (i : Nat) : tget dflt (tdel t i) i = dflt := by
  induction t with
  | nil => rfl
  | cons e t ih =>
    obtain ⟨k, v⟩ := e
    by_cases h : k = i
    · simpa [tdel, h] using ih
    · simpa [tdel, tget, h] using ih

/-- A deletion leaves every other key. -/
theorem tget_tdel_ne (dflt : α) (t : Tab α) {i j : Nat} (h : j ≠ i) : tget dflt (tdel t i) j = tget dflt t j := by
  induction t with
  | nil => rfl
  | cons e t ih =>
    obtain ⟨k, v⟩ := e
    by_cases hk : k = i
    · have : k ≠ j := fun hh => h (hh.symm.trans hk)
      simpa [tdel, hk, tget, this, Ne.symm h] using ih
    · by_cases hj : k = j
      · simp [tdel, tget, hj, h]
      · simpa [tdel, tget, hk, hj] using ih

/-- A listed write reads back. -/
theorem tget_tput_same (dflt : α) (t : Tab α) (i : Nat) (x : α) : tget dflt (tput t i x) i = x := by
  induction t with
  | nil => simp [tput, tget]
  | cons e t ih =>
    obtain ⟨k, v⟩ := e
    unfold tput
    split
    · simp [tget]
    · split
      · simp [tget]
      · rename_i h; simpa [tget, Ne.symm h] using ih

/-- A listed write leaves every other key. -/
theorem tget_tput_ne (dflt : α) (t : Tab α) {i j : Nat} (x : α) (h : j ≠ i) :
    tget dflt (tput t i x) j = tget dflt t j := by
  induction t with
  | nil => simp [tput, tget, Ne.symm h]
  | cons e t ih =>
    obtain ⟨k, v⟩ := e
    unfold tput
    split
    · simp [tget, Ne.symm h]
    · split
      · rename_i hk; subst hk; simp [tget, Ne.symm h]
      · by_cases hj : k = j
        · simp [tget, hj]
        · simpa [tget, hj] using ih

/-- The members of a table after a listed write: the written entry, or old ones. -/
theorem mem_tput {t : Tab α} {i : Nat} {x : α} {e : Nat × α} (h : e ∈ tput t i x) : e = (i, x) ∨ e ∈ t := by
  induction t with
  | nil => simpa [tput] using h
  | cons c t ih =>
    obtain ⟨k, v⟩ := c
    unfold tput at h
    split at h
    · simpa using h
    · split at h
      · rcases List.mem_cons.1 h with h | h
        · exact .inl h
        · exact .inr (List.mem_cons_of_mem _ h)
      · rcases List.mem_cons.1 h with h | h
        · exact .inr (h ▸ List.mem_cons_self)
        · exact (ih h).imp id (List.mem_cons_of_mem _)

/-- A listed write keeps keys strictly rising. -/
theorem pairwise_tput {t : Tab α} (i : Nat) (x : α) (h : t.Pairwise (fun a b => a.1 < b.1)) :
    (tput t i x).Pairwise (fun a b => a.1 < b.1) := by
  induction t with
  | nil => simp [tput]
  | cons c t ih =>
    obtain ⟨k, v⟩ := c
    obtain ⟨h1, h2⟩ := List.pairwise_cons.1 h
    unfold tput
    split
    · rename_i hk
      refine List.pairwise_cons.2 ⟨fun e he => ?_, h⟩
      rcases List.mem_cons.1 he with rfl | he
      · exact hk
      · exact lt_trans hk (h1 e he)
    · split
      · rename_i hk; subst hk; exact List.pairwise_cons.2 ⟨h1, h2⟩
      · rename_i hn hk
        refine List.pairwise_cons.2 ⟨fun e he => ?_, ih h2⟩
        rcases mem_tput he with rfl | he
        · exact lt_of_le_of_ne (not_lt.1 hn) (Ne.symm hk)
        · exact h1 e he

variable [DecidableEq α]

/-- A written key reads back what was written, in any table. -/
@[simp] theorem tget_tset_same (dflt : α) (t : Tab α) (i : Nat) (x : α) : tget dflt (tset dflt t i x) i = x := by
  unfold tset
  split
  · rename_i h; rw [tget_tdel_same, h]
  · exact tget_tput_same dflt t i x

/-- A write leaves what every other key reads as, under any reading of unlisted keys. -/
theorem tget_tset_ne (d d' : α) (t : Tab α) {i j : Nat} (x : α) (h : j ≠ i) :
    tget d' (tset d t i x) j = tget d' t j := by
  unfold tset
  split
  · exact tget_tdel_ne d' t h
  · exact tget_tput_ne d' t x h

/-- What a table reads as after a write, at any key. -/
theorem tget_tset (dflt : α) (t : Tab α) (i j : Nat) (x : α) :
    tget dflt (tset dflt t i x) j = if j = i then x else tget dflt t j := by
  split
  · rename_i h; subst h; simp
  · rename_i h; exact tget_tset_ne dflt dflt t x h

/-- The canonical form as pairwise facts: keys strictly rising, no entry at its default. -/
theorem tabWf_iff (dflt : Nat → α) (t : Tab α) :
    tabWf dflt t = true ↔ t.Pairwise (fun a b => a.1 < b.1) ∧ ∀ e ∈ t, e.2 ≠ dflt e.1 := by
  induction t with
  | nil => simp [tabWf]
  | cons e t ih =>
    obtain ⟨k, v⟩ := e
    cases t with
    | nil => simp [tabWf]
    | cons e' t =>
      obtain ⟨k', v'⟩ := e'
      simp only [tabWf, Bool.and_eq_true, decide_eq_true_eq, ih, List.pairwise_cons, List.mem_cons, forall_eq_or_imp]
      constructor
      · rintro ⟨⟨hv, hk⟩, ⟨h1, h2⟩, h3, h4⟩
        exact ⟨⟨⟨hk, fun a ha => lt_trans hk (h1 a ha)⟩, h1, h2⟩, hv, h3, h4⟩
      · rintro ⟨⟨⟨hk, _⟩, h1, h2⟩, hv, h3, h4⟩
        exact ⟨⟨hv, hk⟩, ⟨h1, h2⟩, h3, h4⟩

/-- A write keeps the canonical form of a table whose unlisted keys read as `dflt`. -/
theorem tset_keeps_wf (dflt : Nat → α) (t : Tab α) (i : Nat) (x : α) (h : tabWf dflt t = true) :
    tabWf dflt (tset (dflt i) t i x) = true := by
  rw [tabWf_iff] at h ⊢
  obtain ⟨hp, hd⟩ := h
  unfold tset
  split
  · exact ⟨hp.filter _, fun e he => hd e (List.mem_of_mem_filter he)⟩
  · rename_i hx
    refine ⟨pairwise_tput i x hp, fun e he => ?_⟩
    rcases mem_tput he with rfl | he
    · exact hx
    · exact hd e he

/-! Byte memory. -/

/-- A written byte reads back. -/
@[simp] theorem memGet_memSet_same (m : List Host.Cell) (k : Nat) (b : Byte) : memGet (memSet m k b) k = b :=
  tget_tset_same 0 m k b

/-- Writing a byte leaves every other byte. -/
theorem memGet_memSet_ne (m : List Host.Cell) {k j : Nat} (b : Byte) (h : j ≠ k) :
    memGet (memSet m k b) j = memGet m j := tget_tset_ne 0 0 m b h

/-- Writing a byte keeps the canonical form. -/
theorem memSet_keeps_wf (m : List Host.Cell) (k : Nat) (b : Byte) (h : memWf m = true) : memWf (memSet m k b) = true :=
  tset_keeps_wf (fun _ => 0) m k b h

/-- Writing a number keeps the canonical form. -/
theorem memWrite_keeps_wf (n : Nat) : ∀ (m : List Host.Cell) (k v : Nat), memWf m = true → memWf (memWrite m k n v) = true := by
  induction n with
  | zero => intro m k v h; exact h
  | succ n ih => intro m k v h; exact ih _ _ _ (memSet_keeps_wf m k _ h)

/-- Writing a list of bytes keeps the canonical form. -/
theorem memWriteBytes_keeps_wf (bs : List Nat) :
    ∀ (m : List Host.Cell) (k : Nat), memWf m = true → memWf (memWriteBytes m k bs) = true := by
  induction bs with
  | nil => intro m k h; exact h
  | cons b bs ih => intro m k h; exact ih _ _ (memSet_keeps_wf m k _ h)

/-- Writing a number leaves every byte outside it. -/
theorem memGet_memWrite_out (n : Nat) : ∀ (m : List Host.Cell) (k v j : Nat), (j < k ∨ k + n ≤ j) →
    memGet (memWrite m k n v) j = memGet m j := by
  induction n with
  | zero => intro m k v j _; rfl
  | succ n ih =>
    intro m k v j h
    rw [memWrite, ih _ _ _ _ (by omega), memGet_memSet_ne _ _ (by omega)]

/-- Writing a list of bytes leaves every byte outside it. -/
theorem memGet_memWriteBytes_out (bs : List Nat) : ∀ (m : List Host.Cell) (k j : Nat), (j < k ∨ k + bs.length ≤ j) →
    memGet (memWriteBytes m k bs) j = memGet m j := by
  induction bs with
  | nil => intro m k j _; rfl
  | cons b bs ih =>
    intro m k j h
    have hl : (b :: bs).length = bs.length + 1 := rfl
    rw [memWriteBytes, ih _ _ _ (by omega), memGet_memSet_ne _ _ (by omega)]

/-- A number written reads back, modulo its width. -/
theorem memRead_memWrite (n : Nat) : ∀ (m : List Host.Cell) (k v : Nat),
    memRead (memWrite m k n v) k n = v % 256 ^ n := by
  induction n with
  | zero => intro m k v; simp [memRead, Nat.mod_one]
  | succ n ih =>
    intro m k v
    have h : v % 256 ^ (n + 1) = v % 256 + 256 * (v / 256 % 256 ^ n) := by rw [pow_succ', Nat.mod_mul]
    rw [memRead, memWrite, ih, memGet_memWrite_out _ _ _ _ _ (by omega), memGet_memSet_same, BitVec.toNat_ofNat, h]

end Sys2Proof.Laws
end

