-- ==== Sys2Proof/Laws/Image.lean ====
section
/-! SUPPORT. Laws of images laid out for a loop set: what each byte of the layout is. -/

namespace Sys2Proof.Laws
open Sys2Proof Sys2Proof.Machine

/-- A table made from a list of keys by a function, without the keys it maps to 0. -/
theorem tget_filterMap (f : Nat → Byte) (l : List Nat) (j : Nat) :
    tget 0 (l.filterMap fun i => let b := f i; if b = 0 then none else some (i, b)) j = if j ∈ l then f j else 0 := by
  induction l with
  | nil => simp [tget]
  | cons x l ih =>
    simp only [List.filterMap_cons, List.mem_cons]
    by_cases hx : f x = 0
    · simp only [hx, if_true] at ih ⊢
      rw [ih]
      by_cases h : j = x
      · subst h; simp [hx]
      · simp [h]
    · simp only [hx, if_false, tget]
      by_cases h : x = j
      · subst h; simp
      · have hj : ¬ j = x := Ne.symm h
        simpa [h, hj] using ih

/-- A byte of the layout of an image in a slot. -/
theorem memGet_imageMem (d : Dev) (m : List Host.Cell) (s i : Nat) :
    memGet (d.imageMem m s) i = if i < 278528 then d.imageByte m s i else 0 := by
  rw [memGet, Dev.imageMem, tget_filterMap]
  simp

/-- A word by its four bytes. -/
theorem memWord_bytes (m : List Host.Cell) (k : Nat) : memWord m k =
    (memGet m k).toNat + 256 * ((memGet m (k + 1)).toNat + 256 * ((memGet m (k + 1 + 1)).toNat + 256 *
      ((memGet m (k + 1 + 1 + 1)).toNat + 256 * 0))) := rfl

end Sys2Proof.Laws
end

