-- ==== Sys2Proof/Laws/Memory.lean ====
section
/-! SUPPORT. Every operation over the byte memories keeps their canonical form. -/

namespace Sys2Proof.Laws
open Sys2Proof Sys2Proof.Machine

/-- Leaving entries out keeps the canonical form. -/
theorem filter_keeps_wf (m : List Host.Cell) (p : Host.Cell → Bool) (h : memWf m = true) : memWf (m.filter p) = true := by
  unfold memWf at h ⊢
  rw [tabWf_iff] at h ⊢
  exact ⟨h.1.filter _, fun e he => h.2 e (List.mem_of_mem_filter he)⟩

/-- A fold of operations that keep the canonical form keeps it. -/
theorem foldl_keeps_wf {α : Type} (f : List Host.Cell → α → List Host.Cell)
    (hf : ∀ m x, memWf m = true → memWf (f m x) = true) (l : List α) :
    ∀ m, memWf m = true → memWf (l.foldl f m) = true := by
  induction l with
  | nil => exact fun _ h => h
  | cons x l ih => exact fun m h => ih _ (hf m x h)

/-- Copying a block keeps the canonical form. -/
theorem copyBlock_keeps_wf (a b : Nat) (m : List Host.Cell) (h : memWf m = true) : memWf (copyBlock a b m) = true :=
  memWriteBytes_keeps_wf _ _ _ h

/-- Clearing a pair's RAM keeps the canonical form. -/
theorem clearRam_keeps_wf (p : Nat) (m : List Host.Cell) (h : memWf m = true) : memWf (clearRam p m) = true :=
  filter_keeps_wf m _ h

/-- What a power-on reset keeps is in canonical form. -/
theorem keepStore_keeps_wf (m : List Host.Cell) (h : memWf m = true) : memWf (keepStore m) = true := filter_keeps_wf m _ h

/-- What a warm reset keeps is in canonical form. -/
theorem keepWarm_keeps_wf (m : List Host.Cell) (h : memWf m = true) : memWf (keepWarm m) = true := filter_keeps_wf m _ h

/-- Loading an image keeps the canonical form. -/
theorem loadImage_keeps_wf (p b : Nat) (src m : List Host.Cell) (h : memWf m = true) :
    memWf (loadImage p b src m) = true := by
  refine foldl_keeps_wf _ (fun k s hk => ?_) _ m h
  split
  · exact memWriteBytes_keeps_wf _ _ _ hk
  · split
    · exact memWriteBytes_keeps_wf _ _ _ hk
    · exact hk

end Sys2Proof.Laws
end

