-- ==== Sys2Proof/Laws/State.lean ====
section
/-! SUPPORT. Laws of the state's updates: what each changes and what it leaves, field by field. -/

namespace Sys2Proof.Laws
open Sys2Proof Sys2Proof.Machine

/-! ### Registers and fields -/

/-- A written register reads back. -/
@[simp] theorem reg_setReg_same (d : Dev) (a : Nat) (w : Word) : (d.setReg a w).reg a = w := tget_tset_same _ _ _ _

/-- Writing a register leaves every other register. -/
theorem reg_setReg_ne (d : Dev) {a b : Nat} (w : Word) (h : b ≠ a) : (d.setReg a w).reg b = d.reg b :=
  tget_tset_ne _ _ _ _ h

/-- Replacing a field leaves every other register. -/
theorem reg_put_ne (d : Dev) (f : Fld) (v : Nat) {b : Nat} (h : b ≠ f.addr) : (d.put f v).reg b = d.reg b :=
  reg_setReg_ne d _ h

/-- The word of a register after one of its fields was replaced. -/
@[simp] theorem reg_put_same (d : Dev) (f : Fld) (v : Nat) :
    (d.put f v).reg f.addr = wordPut (d.reg f.addr) f.lo f.width v := reg_setReg_same _ _ _

/-- The number a word holds after a field was replaced. -/
theorem toNat_wordPut (w : Word) {lo width v : Nat} (h : lo + width ≤ 32) :
    (wordPut w lo width v).toNat =
      w.toNat % 2 ^ lo + v % 2 ^ width * 2 ^ lo + w.toNat / 2 ^ (lo + width) * 2 ^ (lo + width) := by
  have hw := w.isLt
  have h1 : w.toNat % 2 ^ lo < 2 ^ lo := Nat.mod_lt _ (Nat.two_pow_pos _)
  have h2 : v % 2 ^ width + 1 ≤ 2 ^ width := Nat.mod_lt _ (Nat.two_pow_pos _)
  have h3 : (v % 2 ^ width + 1) * 2 ^ lo ≤ 2 ^ width * 2 ^ lo := Nat.mul_le_mul_right _ h2
  have h4 : 2 ^ (lo + width) = 2 ^ width * 2 ^ lo := by rw [pow_add, Nat.mul_comm]
  have h5 : 2 ^ 32 = 2 ^ (32 - (lo + width)) * 2 ^ (lo + width) := by rw [← pow_add]; congr 1; omega
  have h6 : w.toNat / 2 ^ (lo + width) + 1 ≤ 2 ^ (32 - (lo + width)) := by
    refine (Nat.div_lt_iff_lt_mul (Nat.two_pow_pos _)).2 ?_
    rw [← h5]; exact hw
  have h7 := Nat.mul_le_mul_right (2 ^ (lo + width)) h6
  rw [← h5] at h7
  unfold wordPut w32
  rw [BitVec.toNat_ofNat, Nat.mod_eq_of_lt]
  rw [Nat.add_mul, Nat.one_mul] at h3 h7
  omega

/-- A replaced field holds its value, modulo its width. -/
theorem wordGet_wordPut_same (w : Word) {lo width v : Nat} (h : lo + width ≤ 32) :
    wordGet (wordPut w lo width v) lo width = v % 2 ^ width := by
  unfold wordGet
  rw [toNat_wordPut w h, pow_add]
  have h1 : w.toNat % 2 ^ lo < 2 ^ lo := Nat.mod_lt _ (Nat.two_pow_pos _)
  have : w.toNat % 2 ^ lo + v % 2 ^ width * 2 ^ lo + w.toNat / (2 ^ lo * 2 ^ width) * (2 ^ lo * 2 ^ width) =
      w.toNat % 2 ^ lo + 2 ^ lo * (v % 2 ^ width + 2 ^ width * (w.toNat / (2 ^ lo * 2 ^ width))) := by ring
  rw [this, Nat.add_mul_div_left _ _ (Nat.two_pow_pos _), Nat.div_eq_of_lt h1, Nat.zero_add,
    Nat.add_mul_mod_self_left, Nat.mod_mod]

/-- Replacing a field leaves the bits below it. -/
theorem wordGet_wordPut_below (w : Word) {lo width v lo' width' : Nat} (h : lo + width ≤ 32) (hd : lo' + width' ≤ lo) :
    wordGet (wordPut w lo width v) lo' width' = wordGet w lo' width' := by
  have key : ∀ x : Nat, x / 2 ^ lo' % 2 ^ width' = x % 2 ^ lo / 2 ^ lo' % 2 ^ width' := by
    intro x
    obtain ⟨k, rfl⟩ := Nat.exists_eq_add_of_le hd
    rw [show lo' + width' + k = lo' + (width' + k) by omega, pow_add, Nat.mod_mul_right_div_self, pow_add,
      Nat.mod_mul_right_mod]
  unfold wordGet
  rw [key, key w.toNat, toNat_wordPut w h]
  congr 2
  rw [pow_add, show w.toNat % 2 ^ lo + v % 2 ^ width * 2 ^ lo + w.toNat / (2 ^ lo * 2 ^ width) * (2 ^ lo * 2 ^ width) =
      w.toNat % 2 ^ lo + 2 ^ lo * (v % 2 ^ width + 2 ^ width * (w.toNat / (2 ^ lo * 2 ^ width))) by ring,
    Nat.add_mul_mod_self_left, Nat.mod_mod]

/-- Replacing a field leaves the bits above it. -/
theorem wordGet_wordPut_above (w : Word) {lo width v lo' width' : Nat} (h : lo + width ≤ 32) (hd : lo + width ≤ lo') :
    wordGet (wordPut w lo width v) lo' width' = wordGet w lo' width' := by
  obtain ⟨k, rfl⟩ := Nat.exists_eq_add_of_le hd
  have h1 : w.toNat % 2 ^ lo < 2 ^ lo := Nat.mod_lt _ (Nat.two_pow_pos _)
  have h2 : v % 2 ^ width + 1 ≤ 2 ^ width := Nat.mod_lt _ (Nat.two_pow_pos _)
  have h3 := Nat.mul_le_mul_right (2 ^ lo) h2
  have h4 : 2 ^ (lo + width) = 2 ^ width * 2 ^ lo := by rw [pow_add, Nat.mul_comm]
  unfold wordGet
  rw [toNat_wordPut w h, pow_add _ (lo + width) k, ← Nat.div_div_eq_div_mul, ← Nat.div_div_eq_div_mul]
  congr 2
  rw [Nat.add_mul_div_right _ _ (Nat.two_pow_pos _), Nat.div_eq_of_lt, Nat.zero_add]
  rw [Nat.add_mul, Nat.one_mul] at h3
  omega

/-- A replaced field reads back, modulo its width. -/
theorem get_put_same (d : Dev) (f : Fld) (v : Nat) (h : f.lo + f.width ≤ 32) : (d.put f v).get f = v % 2 ^ f.width := by
  unfold Dev.get
  rw [reg_put_same, wordGet_wordPut_same _ h]

/-- Replacing a field leaves the fields of other registers. -/
theorem get_put_ne (d : Dev) (f g : Fld) (v : Nat) (h : g.addr ≠ f.addr) : (d.put f v).get g = d.get g := by
  unfold Dev.get
  rw [reg_put_ne d f v h]

/-- Replacing a field leaves the other fields of its register. -/
theorem get_put_disjoint (d : Dev) (f g : Fld) (v : Nat) (ha : g.addr = f.addr) (h : f.lo + f.width ≤ 32)
    (hd : g.lo + g.width ≤ f.lo ∨ f.lo + f.width ≤ g.lo) : (d.put f v).get g = d.get g := by
  unfold Dev.get
  rw [ha, reg_put_same]
  rcases hd with hd | hd
  · exact wordGet_wordPut_below _ h hd
  · exact wordGet_wordPut_above _ h hd

/-- A field is below its width's bound. -/
theorem get_lt (d : Dev) (f : Fld) : d.get f < 2 ^ f.width := Nat.mod_lt _ (Nat.two_pow_pos _)

/-- A set bit is set. -/
theorem bit_setBit_same (d : Dev) (a : Nat) {n : Nat} (h : n < 32) : (d.setBit a n).bit a n = true := by
  unfold Dev.bit Dev.setBit Dev.on
  rw [get_put_same d ⟨a, n, 1⟩ 1 (by show n + 1 ≤ 32; omega)]
  rfl

/-- A cleared bit is clear. -/
theorem bit_clrBit_same (d : Dev) (a : Nat) {n : Nat} (h : n < 32) : (d.clrBit a n).bit a n = false := by
  unfold Dev.bit Dev.clrBit Dev.on
  rw [get_put_same d ⟨a, n, 1⟩ 0 (by show n + 1 ≤ 32; omega)]
  rfl

/-! ### Frames: one lemma per field and update -/

@[simp] theorem setReg_now (d : Dev) (a : Nat) (w : Word) : (d.setReg a w).now = d.now := rfl
@[simp] theorem setReg_timeOn (d : Dev) (a : Nat) (w : Word) : (d.setReg a w).timeOn = d.timeOn := rfl
@[simp] theorem setReg_stamp (d : Dev) (a : Nat) (w : Word) : (d.setReg a w).stamp = d.stamp := rfl
@[simp] theorem setReg_pwm (d : Dev) (a : Nat) (w : Word) : (d.setReg a w).pwm = d.pwm := rfl
@[simp] theorem setReg_link (d : Dev) (a : Nat) (w : Word) : (d.setReg a w).link = d.link := rfl
@[simp] theorem setReg_six (d : Dev) (a : Nat) (w : Word) : (d.setReg a w).six = d.six := rfl
@[simp] theorem setReg_dtc (d : Dev) (a : Nat) (w : Word) : (d.setReg a w).dtc = d.dtc := rfl
@[simp] theorem setReg_bond (d : Dev) (a : Nat) (w : Word) : (d.setReg a w).bond = d.bond := rfl
@[simp] theorem setReg_clu (d : Dev) (a : Nat) (w : Word) : (d.setReg a w).clu = d.clu := rfl
@[simp] theorem setReg_evs (d : Dev) (a : Nat) (w : Word) : (d.setReg a w).evs = d.evs := rfl
@[simp] theorem setReg_eng (d : Dev) (a : Nat) (w : Word) : (d.setReg a w).eng = d.eng := rfl
@[simp] theorem setReg_loops (d : Dev) (a : Nat) (w : Word) : (d.setReg a w).loops = d.loops := rfl
@[simp] theorem setReg_sess (d : Dev) (a : Nat) (w : Word) : (d.setReg a w).sess = d.sess := rfl
@[simp] theorem setReg_pairs (d : Dev) (a : Nat) (w : Word) : (d.setReg a w).pairs = d.pairs := rfl
@[simp] theorem setReg_sys (d : Dev) (a : Nat) (w : Word) : (d.setReg a w).sys = d.sys := rfl
@[simp] theorem setReg_peal (d : Dev) (a : Nat) (w : Word) : (d.setReg a w).peal = d.peal := rfl
@[simp] theorem setReg_ssq (d : Dev) (a : Nat) (w : Word) : (d.setReg a w).ssq = d.ssq := rfl
@[simp] theorem setReg_jnl (d : Dev) (a : Nat) (w : Word) : (d.setReg a w).jnl = d.jnl := rfl
@[simp] theorem setReg_slots (d : Dev) (a : Nat) (w : Word) : (d.setReg a w).slots = d.slots := rfl
@[simp] theorem setReg_ports (d : Dev) (a : Nat) (w : Word) : (d.setReg a w).ports = d.ports := rfl
@[simp] theorem setReg_panel (d : Dev) (a : Nat) (w : Word) : (d.setReg a w).panel = d.panel := rfl
@[simp] theorem setReg_aux (d : Dev) (a : Nat) (w : Word) : (d.setReg a w).aux = d.aux := rfl
@[simp] theorem setReg_gspAt (d : Dev) (a : Nat) (w : Word) : (d.setReg a w).gspAt = d.gspAt := rfl
@[simp] theorem setReg_jtag (d : Dev) (a : Nat) (w : Word) : (d.setReg a w).jtag = d.jtag := rfl
@[simp] theorem setReg_inputs (d : Dev) (a : Nat) (w : Word) : (d.setReg a w).inputs = d.inputs := rfl
@[simp] theorem setReg_pse (d : Dev) (a : Nat) (w : Word) : (d.setReg a w).pse = d.pse := rfl
@[simp] theorem setReg_tru (d : Dev) (a : Nat) (w : Word) : (d.setReg a w).tru = d.tru := rfl
@[simp] theorem setReg_sp0 (d : Dev) (a : Nat) (w : Word) : (d.setReg a w).sp0 = d.sp0 := rfl
@[simp] theorem setReg_sp1 (d : Dev) (a : Nat) (w : Word) : (d.setReg a w).sp1 = d.sp1 := rfl
@[simp] theorem setReg_win (d : Dev) (a : Nat) (w : Word) : (d.setReg a w).win = d.win := rfl
@[simp] theorem setReg_can (d : Dev) (a : Nat) (w : Word) : (d.setReg a w).can = d.can := rfl
@[simp] theorem setReg_bus (d : Dev) (a : Nat) (w : Word) : (d.setReg a w).bus = d.bus := rfl
@[simp] theorem setReg_clients (d : Dev) (a : Nat) (w : Word) : (d.setReg a w).clients = d.clients := rfl
@[simp] theorem setReg_claim (d : Dev) (a : Nat) (w : Word) : (d.setReg a w).claim = d.claim := rfl
@[simp] theorem setReg_devClaim (d : Dev) (a : Nat) (w : Word) : (d.setReg a w).devClaim = d.devClaim := rfl
@[simp] theorem setReg_policy (d : Dev) (a : Nat) (w : Word) : (d.setReg a w).policy = d.policy := rfl
@[simp] theorem setReg_holdEnd (d : Dev) (a : Nat) (w : Word) : (d.setReg a w).holdEnd = d.holdEnd := rfl
@[simp] theorem setReg_capSlot (d : Dev) (a : Nat) (w : Word) : (d.setReg a w).capSlot = d.capSlot := rfl
@[simp] theorem setReg_reply (d : Dev) (a : Nat) (w : Word) : (d.setReg a w).reply = d.reply := rfl
@[simp] theorem setReg_pealFor (d : Dev) (a : Nat) (w : Word) : (d.setReg a w).pealFor = d.pealFor := rfl
@[simp] theorem setReg_wrote (d : Dev) (a : Nat) (w : Word) : (d.setReg a w).wrote = d.wrote := rfl
@[simp] theorem setReg_rdata (d : Dev) (a : Nat) (w : Word) : (d.setReg a w).rdata = d.rdata := rfl
@[simp] theorem setReg_free (d : Dev) (a : Nat) (w : Word) : (d.setReg a w).free = d.free := rfl
@[simp] theorem put_now (d : Dev) (f : Fld) (v : Nat) : (d.put f v).now = d.now := rfl
@[simp] theorem put_timeOn (d : Dev) (f : Fld) (v : Nat) : (d.put f v).timeOn = d.timeOn := rfl
@[simp] theorem put_stamp (d : Dev) (f : Fld) (v : Nat) : (d.put f v).stamp = d.stamp := rfl
@[simp] theorem put_pwm (d : Dev) (f : Fld) (v : Nat) : (d.put f v).pwm = d.pwm := rfl
@[simp] theorem put_link (d : Dev) (f : Fld) (v : Nat) : (d.put f v).link = d.link := rfl
@[simp] theorem put_six (d : Dev) (f : Fld) (v : Nat) : (d.put f v).six = d.six := rfl
@[simp] theorem put_dtc (d : Dev) (f : Fld) (v : Nat) : (d.put f v).dtc = d.dtc := rfl
@[simp] theorem put_bond (d : Dev) (f : Fld) (v : Nat) : (d.put f v).bond = d.bond := rfl
@[simp] theorem put_clu (d : Dev) (f : Fld) (v : Nat) : (d.put f v).clu = d.clu := rfl
@[simp] theorem put_evs (d : Dev) (f : Fld) (v : Nat) : (d.put f v).evs = d.evs := rfl
@[simp] theorem put_eng (d : Dev) (f : Fld) (v : Nat) : (d.put f v).eng = d.eng := rfl
@[simp] theorem put_loops (d : Dev) (f : Fld) (v : Nat) : (d.put f v).loops = d.loops := rfl
@[simp] theorem put_sess (d : Dev) (f : Fld) (v : Nat) : (d.put f v).sess = d.sess := rfl
@[simp] theorem put_pairs (d : Dev) (f : Fld) (v : Nat) : (d.put f v).pairs = d.pairs := rfl
@[simp] theorem put_sys (d : Dev) (f : Fld) (v : Nat) : (d.put f v).sys = d.sys := rfl
@[simp] theorem put_peal (d : Dev) (f : Fld) (v : Nat) : (d.put f v).peal = d.peal := rfl
@[simp] theorem put_ssq (d : Dev) (f : Fld) (v : Nat) : (d.put f v).ssq = d.ssq := rfl
@[simp] theorem put_jnl (d : Dev) (f : Fld) (v : Nat) : (d.put f v).jnl = d.jnl := rfl
@[simp] theorem put_slots (d : Dev) (f : Fld) (v : Nat) : (d.put f v).slots = d.slots := rfl
@[simp] theorem put_ports (d : Dev) (f : Fld) (v : Nat) : (d.put f v).ports = d.ports := rfl
@[simp] theorem put_panel (d : Dev) (f : Fld) (v : Nat) : (d.put f v).panel = d.panel := rfl
@[simp] theorem put_aux (d : Dev) (f : Fld) (v : Nat) : (d.put f v).aux = d.aux := rfl
@[simp] theorem put_gspAt (d : Dev) (f : Fld) (v : Nat) : (d.put f v).gspAt = d.gspAt := rfl
@[simp] theorem put_jtag (d : Dev) (f : Fld) (v : Nat) : (d.put f v).jtag = d.jtag := rfl
@[simp] theorem put_inputs (d : Dev) (f : Fld) (v : Nat) : (d.put f v).inputs = d.inputs := rfl
@[simp] theorem put_pse (d : Dev) (f : Fld) (v : Nat) : (d.put f v).pse = d.pse := rfl
@[simp] theorem put_tru (d : Dev) (f : Fld) (v : Nat) : (d.put f v).tru = d.tru := rfl
@[simp] theorem put_sp0 (d : Dev) (f : Fld) (v : Nat) : (d.put f v).sp0 = d.sp0 := rfl
@[simp] theorem put_sp1 (d : Dev) (f : Fld) (v : Nat) : (d.put f v).sp1 = d.sp1 := rfl
@[simp] theorem put_win (d : Dev) (f : Fld) (v : Nat) : (d.put f v).win = d.win := rfl
@[simp] theorem put_can (d : Dev) (f : Fld) (v : Nat) : (d.put f v).can = d.can := rfl
@[simp] theorem put_bus (d : Dev) (f : Fld) (v : Nat) : (d.put f v).bus = d.bus := rfl
@[simp] theorem put_clients (d : Dev) (f : Fld) (v : Nat) : (d.put f v).clients = d.clients := rfl
@[simp] theorem put_claim (d : Dev) (f : Fld) (v : Nat) : (d.put f v).claim = d.claim := rfl
@[simp] theorem put_devClaim (d : Dev) (f : Fld) (v : Nat) : (d.put f v).devClaim = d.devClaim := rfl
@[simp] theorem put_policy (d : Dev) (f : Fld) (v : Nat) : (d.put f v).policy = d.policy := rfl
@[simp] theorem put_holdEnd (d : Dev) (f : Fld) (v : Nat) : (d.put f v).holdEnd = d.holdEnd := rfl
@[simp] theorem put_capSlot (d : Dev) (f : Fld) (v : Nat) : (d.put f v).capSlot = d.capSlot := rfl
@[simp] theorem put_reply (d : Dev) (f : Fld) (v : Nat) : (d.put f v).reply = d.reply := rfl
@[simp] theorem put_pealFor (d : Dev) (f : Fld) (v : Nat) : (d.put f v).pealFor = d.pealFor := rfl
@[simp] theorem put_wrote (d : Dev) (f : Fld) (v : Nat) : (d.put f v).wrote = d.wrote := rfl
@[simp] theorem put_rdata (d : Dev) (f : Fld) (v : Nat) : (d.put f v).rdata = d.rdata := rfl
@[simp] theorem put_free (d : Dev) (f : Fld) (v : Nat) : (d.put f v).free = d.free := rfl

@[simp] theorem onPwm_now (d : Dev) (a : Nat) (f : PwmH → PwmH) : (d.onPwm a f).now = d.now := rfl
@[simp] theorem onPwm_timeOn (d : Dev) (a : Nat) (f : PwmH → PwmH) : (d.onPwm a f).timeOn = d.timeOn := rfl
@[simp] theorem onPwm_regs (d : Dev) (a : Nat) (f : PwmH → PwmH) : (d.onPwm a f).regs = d.regs := rfl
@[simp] theorem onPwm_sys (d : Dev) (a : Nat) (f : PwmH → PwmH) : (d.onPwm a f).sys = d.sys := rfl
@[simp] theorem onPwm_free (d : Dev) (a : Nat) (f : PwmH → PwmH) : (d.onPwm a f).free = d.free := rfl
@[simp] theorem onPwm_six (d : Dev) (a : Nat) (f : PwmH → PwmH) : (d.onPwm a f).six = d.six := rfl
@[simp] theorem onPwm_dtc (d : Dev) (a : Nat) (f : PwmH → PwmH) : (d.onPwm a f).dtc = d.dtc := rfl
@[simp] theorem onPwm_evs (d : Dev) (a : Nat) (f : PwmH → PwmH) : (d.onPwm a f).evs = d.evs := rfl
@[simp] theorem onPwm_jnl (d : Dev) (a : Nat) (f : PwmH → PwmH) : (d.onPwm a f).jnl = d.jnl := rfl
@[simp] theorem onPwm_reg (d : Dev) (a : Nat) (f : PwmH → PwmH) (y : Nat) : (d.onPwm a f).reg y = d.reg y := rfl
@[simp] theorem onPwm_get (d : Dev) (a : Nat) (f : PwmH → PwmH) (y : Fld) : (d.onPwm a f).get y = d.get y := rfl
@[simp] theorem onSix_now (d : Dev) (a : Nat) (f : SixH → SixH) : (d.onSix a f).now = d.now := rfl
@[simp] theorem onSix_timeOn (d : Dev) (a : Nat) (f : SixH → SixH) : (d.onSix a f).timeOn = d.timeOn := rfl
@[simp] theorem onSix_regs (d : Dev) (a : Nat) (f : SixH → SixH) : (d.onSix a f).regs = d.regs := rfl
@[simp] theorem onSix_sys (d : Dev) (a : Nat) (f : SixH → SixH) : (d.onSix a f).sys = d.sys := rfl
@[simp] theorem onSix_free (d : Dev) (a : Nat) (f : SixH → SixH) : (d.onSix a f).free = d.free := rfl
@[simp] theorem onSix_pwm (d : Dev) (a : Nat) (f : SixH → SixH) : (d.onSix a f).pwm = d.pwm := rfl
@[simp] theorem onSix_dtc (d : Dev) (a : Nat) (f : SixH → SixH) : (d.onSix a f).dtc = d.dtc := rfl
@[simp] theorem onSix_evs (d : Dev) (a : Nat) (f : SixH → SixH) : (d.onSix a f).evs = d.evs := rfl
@[simp] theorem onSix_jnl (d : Dev) (a : Nat) (f : SixH → SixH) : (d.onSix a f).jnl = d.jnl := rfl
@[simp] theorem onSix_reg (d : Dev) (a : Nat) (f : SixH → SixH) (y : Nat) : (d.onSix a f).reg y = d.reg y := rfl
@[simp] theorem onSix_get (d : Dev) (a : Nat) (f : SixH → SixH) (y : Fld) : (d.onSix a f).get y = d.get y := rfl
@[simp] theorem onDtc_now (d : Dev) (a : Nat) (f : DtcH → DtcH) : (d.onDtc a f).now = d.now := rfl
@[simp] theorem onDtc_timeOn (d : Dev) (a : Nat) (f : DtcH → DtcH) : (d.onDtc a f).timeOn = d.timeOn := rfl
@[simp] theorem onDtc_regs (d : Dev) (a : Nat) (f : DtcH → DtcH) : (d.onDtc a f).regs = d.regs := rfl
@[simp] theorem onDtc_sys (d : Dev) (a : Nat) (f : DtcH → DtcH) : (d.onDtc a f).sys = d.sys := rfl
@[simp] theorem onDtc_free (d : Dev) (a : Nat) (f : DtcH → DtcH) : (d.onDtc a f).free = d.free := rfl
@[simp] theorem onDtc_pwm (d : Dev) (a : Nat) (f : DtcH → DtcH) : (d.onDtc a f).pwm = d.pwm := rfl
@[simp] theorem onDtc_six (d : Dev) (a : Nat) (f : DtcH → DtcH) : (d.onDtc a f).six = d.six := rfl
@[simp] theorem onDtc_evs (d : Dev) (a : Nat) (f : DtcH → DtcH) : (d.onDtc a f).evs = d.evs := rfl
@[simp] theorem onDtc_jnl (d : Dev) (a : Nat) (f : DtcH → DtcH) : (d.onDtc a f).jnl = d.jnl := rfl
@[simp] theorem onDtc_reg (d : Dev) (a : Nat) (f : DtcH → DtcH) (y : Nat) : (d.onDtc a f).reg y = d.reg y := rfl
@[simp] theorem onDtc_get (d : Dev) (a : Nat) (f : DtcH → DtcH) (y : Fld) : (d.onDtc a f).get y = d.get y := rfl
@[simp] theorem onClu_now (d : Dev) (q : Nat) (f : ClusterH → ClusterH) : (d.onClu q f).now = d.now := rfl
@[simp] theorem onClu_timeOn (d : Dev) (q : Nat) (f : ClusterH → ClusterH) : (d.onClu q f).timeOn = d.timeOn := rfl
@[simp] theorem onClu_regs (d : Dev) (q : Nat) (f : ClusterH → ClusterH) : (d.onClu q f).regs = d.regs := rfl
@[simp] theorem onClu_sys (d : Dev) (q : Nat) (f : ClusterH → ClusterH) : (d.onClu q f).sys = d.sys := rfl
@[simp] theorem onClu_free (d : Dev) (q : Nat) (f : ClusterH → ClusterH) : (d.onClu q f).free = d.free := rfl
@[simp] theorem onClu_reg (d : Dev) (q : Nat) (f : ClusterH → ClusterH) (y : Nat) : (d.onClu q f).reg y = d.reg y := rfl
@[simp] theorem onClu_get (d : Dev) (q : Nat) (f : ClusterH → ClusterH) (y : Fld) : (d.onClu q f).get y = d.get y := rfl
@[simp] theorem onEv_now (d : Dev) (n : Nat) (f : EvH → EvH) : (d.onEv n f).now = d.now := rfl
@[simp] theorem onEv_timeOn (d : Dev) (n : Nat) (f : EvH → EvH) : (d.onEv n f).timeOn = d.timeOn := rfl
@[simp] theorem onEv_regs (d : Dev) (n : Nat) (f : EvH → EvH) : (d.onEv n f).regs = d.regs := rfl
@[simp] theorem onEv_sys (d : Dev) (n : Nat) (f : EvH → EvH) : (d.onEv n f).sys = d.sys := rfl
@[simp] theorem onEv_free (d : Dev) (n : Nat) (f : EvH → EvH) : (d.onEv n f).free = d.free := rfl
@[simp] theorem onEv_pwm (d : Dev) (n : Nat) (f : EvH → EvH) : (d.onEv n f).pwm = d.pwm := rfl
@[simp] theorem onEv_six (d : Dev) (n : Nat) (f : EvH → EvH) : (d.onEv n f).six = d.six := rfl
@[simp] theorem onEv_dtc (d : Dev) (n : Nat) (f : EvH → EvH) : (d.onEv n f).dtc = d.dtc := rfl
@[simp] theorem onEv_jnl (d : Dev) (n : Nat) (f : EvH → EvH) : (d.onEv n f).jnl = d.jnl := rfl
@[simp] theorem onEv_reg (d : Dev) (n : Nat) (f : EvH → EvH) (y : Nat) : (d.onEv n f).reg y = d.reg y := rfl
@[simp] theorem onEv_get (d : Dev) (n : Nat) (f : EvH → EvH) (y : Fld) : (d.onEv n f).get y = d.get y := rfl
@[simp] theorem onEng_now (d : Dev) (e : Nat) (f : EngineH → EngineH) : (d.onEng e f).now = d.now := rfl
@[simp] theorem onEng_timeOn (d : Dev) (e : Nat) (f : EngineH → EngineH) : (d.onEng e f).timeOn = d.timeOn := rfl
@[simp] theorem onEng_regs (d : Dev) (e : Nat) (f : EngineH → EngineH) : (d.onEng e f).regs = d.regs := rfl
@[simp] theorem onEng_sys (d : Dev) (e : Nat) (f : EngineH → EngineH) : (d.onEng e f).sys = d.sys := rfl
@[simp] theorem onEng_free (d : Dev) (e : Nat) (f : EngineH → EngineH) : (d.onEng e f).free = d.free := rfl
@[simp] theorem onEng_reg (d : Dev) (e : Nat) (f : EngineH → EngineH) (y : Nat) : (d.onEng e f).reg y = d.reg y := rfl
@[simp] theorem onEng_get (d : Dev) (e : Nat) (f : EngineH → EngineH) (y : Fld) : (d.onEng e f).get y = d.get y := rfl
@[simp] theorem onLoop_now (d : Dev) (e k : Nat) (f : LoopH → LoopH) : (d.onLoop e k f).now = d.now := rfl
@[simp] theorem onLoop_timeOn (d : Dev) (e k : Nat) (f : LoopH → LoopH) : (d.onLoop e k f).timeOn = d.timeOn := rfl
@[simp] theorem onLoop_regs (d : Dev) (e k : Nat) (f : LoopH → LoopH) : (d.onLoop e k f).regs = d.regs := rfl
@[simp] theorem onLoop_sys (d : Dev) (e k : Nat) (f : LoopH → LoopH) : (d.onLoop e k f).sys = d.sys := rfl
@[simp] theorem onLoop_free (d : Dev) (e k : Nat) (f : LoopH → LoopH) : (d.onLoop e k f).free = d.free := rfl
@[simp] theorem onLoop_reg (d : Dev) (e k : Nat) (f : LoopH → LoopH) (y : Nat) : (d.onLoop e k f).reg y = d.reg y := rfl
@[simp] theorem onLoop_get (d : Dev) (e k : Nat) (f : LoopH → LoopH) (y : Fld) : (d.onLoop e k f).get y = d.get y := rfl
@[simp] theorem onSess_now (d : Dev) (s : Nat) (f : SessH → SessH) : (d.onSess s f).now = d.now := rfl
@[simp] theorem onSess_timeOn (d : Dev) (s : Nat) (f : SessH → SessH) : (d.onSess s f).timeOn = d.timeOn := rfl
@[simp] theorem onSess_regs (d : Dev) (s : Nat) (f : SessH → SessH) : (d.onSess s f).regs = d.regs := rfl
@[simp] theorem onSess_sys (d : Dev) (s : Nat) (f : SessH → SessH) : (d.onSess s f).sys = d.sys := rfl
@[simp] theorem onSess_free (d : Dev) (s : Nat) (f : SessH → SessH) : (d.onSess s f).free = d.free := rfl
@[simp] theorem onSess_reg (d : Dev) (s : Nat) (f : SessH → SessH) (y : Nat) : (d.onSess s f).reg y = d.reg y := rfl
@[simp] theorem onSess_get (d : Dev) (s : Nat) (f : SessH → SessH) (y : Fld) : (d.onSess s f).get y = d.get y := rfl
@[simp] theorem onPair_now (d : Dev) (p : Nat) (f : PairH → PairH) : (d.onPair p f).now = d.now := rfl
@[simp] theorem onPair_timeOn (d : Dev) (p : Nat) (f : PairH → PairH) : (d.onPair p f).timeOn = d.timeOn := rfl
@[simp] theorem onPair_regs (d : Dev) (p : Nat) (f : PairH → PairH) : (d.onPair p f).regs = d.regs := rfl
@[simp] theorem onPair_sys (d : Dev) (p : Nat) (f : PairH → PairH) : (d.onPair p f).sys = d.sys := rfl
@[simp] theorem onPair_free (d : Dev) (p : Nat) (f : PairH → PairH) : (d.onPair p f).free = d.free := rfl
@[simp] theorem onPair_reg (d : Dev) (p : Nat) (f : PairH → PairH) (y : Nat) : (d.onPair p f).reg y = d.reg y := rfl
@[simp] theorem onPair_get (d : Dev) (p : Nat) (f : PairH → PairH) (y : Fld) : (d.onPair p f).get y = d.get y := rfl
@[simp] theorem onSys_now (d : Dev) (f : SysH → SysH) : (d.onSys f).now = d.now := rfl
@[simp] theorem onSys_timeOn (d : Dev) (f : SysH → SysH) : (d.onSys f).timeOn = d.timeOn := rfl
@[simp] theorem onSys_regs (d : Dev) (f : SysH → SysH) : (d.onSys f).regs = d.regs := rfl
@[simp] theorem onSys_free (d : Dev) (f : SysH → SysH) : (d.onSys f).free = d.free := rfl
@[simp] theorem onSys_reg (d : Dev) (f : SysH → SysH) (y : Nat) : (d.onSys f).reg y = d.reg y := rfl
@[simp] theorem onSys_get (d : Dev) (f : SysH → SysH) (y : Fld) : (d.onSys f).get y = d.get y := rfl
@[simp] theorem onPeal_now (d : Dev) (f : Peal → Peal) : (d.onPeal f).now = d.now := rfl
@[simp] theorem onPeal_timeOn (d : Dev) (f : Peal → Peal) : (d.onPeal f).timeOn = d.timeOn := rfl
@[simp] theorem onPeal_regs (d : Dev) (f : Peal → Peal) : (d.onPeal f).regs = d.regs := rfl
@[simp] theorem onPeal_sys (d : Dev) (f : Peal → Peal) : (d.onPeal f).sys = d.sys := rfl
@[simp] theorem onPeal_free (d : Dev) (f : Peal → Peal) : (d.onPeal f).free = d.free := rfl
@[simp] theorem onPeal_reg (d : Dev) (f : Peal → Peal) (y : Nat) : (d.onPeal f).reg y = d.reg y := rfl
@[simp] theorem onPeal_get (d : Dev) (f : Peal → Peal) (y : Fld) : (d.onPeal f).get y = d.get y := rfl
@[simp] theorem onSsq_now (d : Dev) (f : SsqH → SsqH) : (d.onSsq f).now = d.now := rfl
@[simp] theorem onSsq_timeOn (d : Dev) (f : SsqH → SsqH) : (d.onSsq f).timeOn = d.timeOn := rfl
@[simp] theorem onSsq_regs (d : Dev) (f : SsqH → SsqH) : (d.onSsq f).regs = d.regs := rfl
@[simp] theorem onSsq_sys (d : Dev) (f : SsqH → SsqH) : (d.onSsq f).sys = d.sys := rfl
@[simp] theorem onSsq_free (d : Dev) (f : SsqH → SsqH) : (d.onSsq f).free = d.free := rfl
@[simp] theorem onSsq_reg (d : Dev) (f : SsqH → SsqH) (y : Nat) : (d.onSsq f).reg y = d.reg y := rfl
@[simp] theorem onSsq_get (d : Dev) (f : SsqH → SsqH) (y : Fld) : (d.onSsq f).get y = d.get y := rfl
@[simp] theorem onJnl_now (d : Dev) (f : JnlH → JnlH) : (d.onJnl f).now = d.now := rfl
@[simp] theorem onJnl_timeOn (d : Dev) (f : JnlH → JnlH) : (d.onJnl f).timeOn = d.timeOn := rfl
@[simp] theorem onJnl_regs (d : Dev) (f : JnlH → JnlH) : (d.onJnl f).regs = d.regs := rfl
@[simp] theorem onJnl_sys (d : Dev) (f : JnlH → JnlH) : (d.onJnl f).sys = d.sys := rfl
@[simp] theorem onJnl_free (d : Dev) (f : JnlH → JnlH) : (d.onJnl f).free = d.free := rfl
@[simp] theorem onJnl_pwm (d : Dev) (f : JnlH → JnlH) : (d.onJnl f).pwm = d.pwm := rfl
@[simp] theorem onJnl_six (d : Dev) (f : JnlH → JnlH) : (d.onJnl f).six = d.six := rfl
@[simp] theorem onJnl_dtc (d : Dev) (f : JnlH → JnlH) : (d.onJnl f).dtc = d.dtc := rfl
@[simp] theorem onJnl_evs (d : Dev) (f : JnlH → JnlH) : (d.onJnl f).evs = d.evs := rfl
@[simp] theorem onJnl_reg (d : Dev) (f : JnlH → JnlH) (y : Nat) : (d.onJnl f).reg y = d.reg y := rfl
@[simp] theorem onJnl_get (d : Dev) (f : JnlH → JnlH) (y : Fld) : (d.onJnl f).get y = d.get y := rfl
@[simp] theorem onSlot_now (d : Dev) (q : Nat) (f : SlotH → SlotH) : (d.onSlot q f).now = d.now := rfl
@[simp] theorem onSlot_timeOn (d : Dev) (q : Nat) (f : SlotH → SlotH) : (d.onSlot q f).timeOn = d.timeOn := rfl
@[simp] theorem onSlot_regs (d : Dev) (q : Nat) (f : SlotH → SlotH) : (d.onSlot q f).regs = d.regs := rfl
@[simp] theorem onSlot_sys (d : Dev) (q : Nat) (f : SlotH → SlotH) : (d.onSlot q f).sys = d.sys := rfl
@[simp] theorem onSlot_free (d : Dev) (q : Nat) (f : SlotH → SlotH) : (d.onSlot q f).free = d.free := rfl
@[simp] theorem onSlot_reg (d : Dev) (q : Nat) (f : SlotH → SlotH) (y : Nat) : (d.onSlot q f).reg y = d.reg y := rfl
@[simp] theorem onSlot_get (d : Dev) (q : Nat) (f : SlotH → SlotH) (y : Fld) : (d.onSlot q f).get y = d.get y := rfl
@[simp] theorem onPort_now (d : Dev) (a : Nat) (f : PortH → PortH) : (d.onPort a f).now = d.now := rfl
@[simp] theorem onPort_timeOn (d : Dev) (a : Nat) (f : PortH → PortH) : (d.onPort a f).timeOn = d.timeOn := rfl
@[simp] theorem onPort_regs (d : Dev) (a : Nat) (f : PortH → PortH) : (d.onPort a f).regs = d.regs := rfl
@[simp] theorem onPort_sys (d : Dev) (a : Nat) (f : PortH → PortH) : (d.onPort a f).sys = d.sys := rfl
@[simp] theorem onPort_free (d : Dev) (a : Nat) (f : PortH → PortH) : (d.onPort a f).free = d.free := rfl
@[simp] theorem onPort_reg (d : Dev) (a : Nat) (f : PortH → PortH) (y : Nat) : (d.onPort a f).reg y = d.reg y := rfl
@[simp] theorem onPort_get (d : Dev) (a : Nat) (f : PortH → PortH) (y : Fld) : (d.onPort a f).get y = d.get y := rfl
@[simp] theorem onInput_now (d : Dev) (x : Nat) (f : InputH → InputH) : (d.onInput x f).now = d.now := rfl
@[simp] theorem onInput_timeOn (d : Dev) (x : Nat) (f : InputH → InputH) : (d.onInput x f).timeOn = d.timeOn := rfl
@[simp] theorem onInput_regs (d : Dev) (x : Nat) (f : InputH → InputH) : (d.onInput x f).regs = d.regs := rfl
@[simp] theorem onInput_sys (d : Dev) (x : Nat) (f : InputH → InputH) : (d.onInput x f).sys = d.sys := rfl
@[simp] theorem onInput_free (d : Dev) (x : Nat) (f : InputH → InputH) : (d.onInput x f).free = d.free := rfl
@[simp] theorem onInput_reg (d : Dev) (x : Nat) (f : InputH → InputH) (y : Nat) : (d.onInput x f).reg y = d.reg y := rfl
@[simp] theorem onInput_get (d : Dev) (x : Nat) (f : InputH → InputH) (y : Fld) : (d.onInput x f).get y = d.get y := rfl
@[simp] theorem onAux_now (d : Dev) (f : AuxH → AuxH) : (d.onAux f).now = d.now := rfl
@[simp] theorem onAux_timeOn (d : Dev) (f : AuxH → AuxH) : (d.onAux f).timeOn = d.timeOn := rfl
@[simp] theorem onAux_regs (d : Dev) (f : AuxH → AuxH) : (d.onAux f).regs = d.regs := rfl
@[simp] theorem onAux_sys (d : Dev) (f : AuxH → AuxH) : (d.onAux f).sys = d.sys := rfl
@[simp] theorem onAux_free (d : Dev) (f : AuxH → AuxH) : (d.onAux f).free = d.free := rfl
@[simp] theorem onAux_reg (d : Dev) (f : AuxH → AuxH) (y : Nat) : (d.onAux f).reg y = d.reg y := rfl
@[simp] theorem onAux_get (d : Dev) (f : AuxH → AuxH) (y : Fld) : (d.onAux f).get y = d.get y := rfl
@[simp] theorem onPse_now (d : Dev) (f : PseH → PseH) : (d.onPse f).now = d.now := rfl
@[simp] theorem onPse_timeOn (d : Dev) (f : PseH → PseH) : (d.onPse f).timeOn = d.timeOn := rfl
@[simp] theorem onPse_regs (d : Dev) (f : PseH → PseH) : (d.onPse f).regs = d.regs := rfl
@[simp] theorem onPse_sys (d : Dev) (f : PseH → PseH) : (d.onPse f).sys = d.sys := rfl
@[simp] theorem onPse_free (d : Dev) (f : PseH → PseH) : (d.onPse f).free = d.free := rfl
@[simp] theorem onPse_reg (d : Dev) (f : PseH → PseH) (y : Nat) : (d.onPse f).reg y = d.reg y := rfl
@[simp] theorem onPse_get (d : Dev) (f : PseH → PseH) (y : Fld) : (d.onPse f).get y = d.get y := rfl
@[simp] theorem onSp0_now (d : Dev) (f : Sp0H → Sp0H) : (d.onSp0 f).now = d.now := rfl
@[simp] theorem onSp0_timeOn (d : Dev) (f : Sp0H → Sp0H) : (d.onSp0 f).timeOn = d.timeOn := rfl
@[simp] theorem onSp0_regs (d : Dev) (f : Sp0H → Sp0H) : (d.onSp0 f).regs = d.regs := rfl
@[simp] theorem onSp0_sys (d : Dev) (f : Sp0H → Sp0H) : (d.onSp0 f).sys = d.sys := rfl
@[simp] theorem onSp0_free (d : Dev) (f : Sp0H → Sp0H) : (d.onSp0 f).free = d.free := rfl
@[simp] theorem onSp0_reg (d : Dev) (f : Sp0H → Sp0H) (y : Nat) : (d.onSp0 f).reg y = d.reg y := rfl
@[simp] theorem onSp0_get (d : Dev) (f : Sp0H → Sp0H) (y : Fld) : (d.onSp0 f).get y = d.get y := rfl
@[simp] theorem onSp1_now (d : Dev) (f : Sp1H → Sp1H) : (d.onSp1 f).now = d.now := rfl
@[simp] theorem onSp1_timeOn (d : Dev) (f : Sp1H → Sp1H) : (d.onSp1 f).timeOn = d.timeOn := rfl
@[simp] theorem onSp1_regs (d : Dev) (f : Sp1H → Sp1H) : (d.onSp1 f).regs = d.regs := rfl
@[simp] theorem onSp1_sys (d : Dev) (f : Sp1H → Sp1H) : (d.onSp1 f).sys = d.sys := rfl
@[simp] theorem onSp1_free (d : Dev) (f : Sp1H → Sp1H) : (d.onSp1 f).free = d.free := rfl
@[simp] theorem onSp1_reg (d : Dev) (f : Sp1H → Sp1H) (y : Nat) : (d.onSp1 f).reg y = d.reg y := rfl
@[simp] theorem onSp1_get (d : Dev) (f : Sp1H → Sp1H) (y : Fld) : (d.onSp1 f).get y = d.get y := rfl
@[simp] theorem onWin_now (d : Dev) (f : WinH → WinH) : (d.onWin f).now = d.now := rfl
@[simp] theorem onWin_timeOn (d : Dev) (f : WinH → WinH) : (d.onWin f).timeOn = d.timeOn := rfl
@[simp] theorem onWin_regs (d : Dev) (f : WinH → WinH) : (d.onWin f).regs = d.regs := rfl
@[simp] theorem onWin_sys (d : Dev) (f : WinH → WinH) : (d.onWin f).sys = d.sys := rfl
@[simp] theorem onWin_free (d : Dev) (f : WinH → WinH) : (d.onWin f).free = d.free := rfl
@[simp] theorem onWin_reg (d : Dev) (f : WinH → WinH) (y : Nat) : (d.onWin f).reg y = d.reg y := rfl
@[simp] theorem onWin_get (d : Dev) (f : WinH → WinH) (y : Fld) : (d.onWin f).get y = d.get y := rfl
@[simp] theorem onCan_now (d : Dev) (c : Nat) (f : CanH → CanH) : (d.onCan c f).now = d.now := rfl
@[simp] theorem onCan_timeOn (d : Dev) (c : Nat) (f : CanH → CanH) : (d.onCan c f).timeOn = d.timeOn := rfl
@[simp] theorem onCan_regs (d : Dev) (c : Nat) (f : CanH → CanH) : (d.onCan c f).regs = d.regs := rfl
@[simp] theorem onCan_sys (d : Dev) (c : Nat) (f : CanH → CanH) : (d.onCan c f).sys = d.sys := rfl
@[simp] theorem onCan_free (d : Dev) (c : Nat) (f : CanH → CanH) : (d.onCan c f).free = d.free := rfl
@[simp] theorem onCan_reg (d : Dev) (c : Nat) (f : CanH → CanH) (y : Nat) : (d.onCan c f).reg y = d.reg y := rfl
@[simp] theorem onCan_get (d : Dev) (c : Nat) (f : CanH → CanH) (y : Fld) : (d.onCan c f).get y = d.get y := rfl
@[simp] theorem onBus_now (d : Dev) (f : BusH → BusH) : (d.onBus f).now = d.now := rfl
@[simp] theorem onBus_timeOn (d : Dev) (f : BusH → BusH) : (d.onBus f).timeOn = d.timeOn := rfl
@[simp] theorem onBus_regs (d : Dev) (f : BusH → BusH) : (d.onBus f).regs = d.regs := rfl
@[simp] theorem onBus_sys (d : Dev) (f : BusH → BusH) : (d.onBus f).sys = d.sys := rfl
@[simp] theorem onBus_free (d : Dev) (f : BusH → BusH) : (d.onBus f).free = d.free := rfl
@[simp] theorem onBus_reg (d : Dev) (f : BusH → BusH) (y : Nat) : (d.onBus f).reg y = d.reg y := rfl
@[simp] theorem onBus_get (d : Dev) (f : BusH → BusH) (y : Fld) : (d.onBus f).get y = d.get y := rfl
@[simp] theorem onClient_now (d : Dev) (s : Nat) (f : ClientH → ClientH) : (d.onClient s f).now = d.now := rfl
@[simp] theorem onClient_timeOn (d : Dev) (s : Nat) (f : ClientH → ClientH) : (d.onClient s f).timeOn = d.timeOn := rfl
@[simp] theorem onClient_regs (d : Dev) (s : Nat) (f : ClientH → ClientH) : (d.onClient s f).regs = d.regs := rfl
@[simp] theorem onClient_sys (d : Dev) (s : Nat) (f : ClientH → ClientH) : (d.onClient s f).sys = d.sys := rfl
@[simp] theorem onClient_free (d : Dev) (s : Nat) (f : ClientH → ClientH) : (d.onClient s f).free = d.free := rfl
@[simp] theorem onClient_reg (d : Dev) (s : Nat) (f : ClientH → ClientH) (y : Nat) : (d.onClient s f).reg y = d.reg y := rfl
@[simp] theorem onClient_get (d : Dev) (s : Nat) (f : ClientH → ClientH) (y : Fld) : (d.onClient s f).get y = d.get y := rfl
@[simp] theorem onTru_now (d : Dev) (f : TruH → TruH) : (d.onTru f).now = d.now := rfl
@[simp] theorem onTru_timeOn (d : Dev) (f : TruH → TruH) : (d.onTru f).timeOn = d.timeOn := rfl
@[simp] theorem onTru_regs (d : Dev) (f : TruH → TruH) : (d.onTru f).regs = d.regs := rfl
@[simp] theorem onTru_sys (d : Dev) (f : TruH → TruH) : (d.onTru f).sys = d.sys := rfl
@[simp] theorem onTru_free (d : Dev) (f : TruH → TruH) : (d.onTru f).free = d.free := rfl
@[simp] theorem onTru_reg (d : Dev) (f : TruH → TruH) (y : Nat) : (d.onTru f).reg y = d.reg y := rfl
@[simp] theorem onTru_get (d : Dev) (f : TruH → TruH) (y : Fld) : (d.onTru f).get y = d.get y := rfl

@[simp] theorem pwmOf_onPwm_same (d : Dev) (a : Nat) (f : PwmH → PwmH) : (d.onPwm a f).pwmOf a = f (d.pwmOf a) :=
  tget_tset_same _ _ _ _
theorem pwmOf_onPwm_ne (d : Dev) {a b : Nat} (f : PwmH → PwmH) (h : b ≠ a) : (d.onPwm a f).pwmOf b = d.pwmOf b :=
  tget_tset_ne _ _ _ _ h
@[simp] theorem sixOf_onSix_same (d : Dev) (a : Nat) (f : SixH → SixH) : (d.onSix a f).sixOf a = f (d.sixOf a) :=
  tget_tset_same _ _ _ _
theorem sixOf_onSix_ne (d : Dev) {a b : Nat} (f : SixH → SixH) (h : b ≠ a) : (d.onSix a f).sixOf b = d.sixOf b :=
  tget_tset_ne _ _ _ _ h
@[simp] theorem dtcOf_onDtc_same (d : Dev) (a : Nat) (f : DtcH → DtcH) : (d.onDtc a f).dtcOf a = f (d.dtcOf a) :=
  tget_tset_same _ _ _ _
theorem dtcOf_onDtc_ne (d : Dev) {a b : Nat} (f : DtcH → DtcH) (h : b ≠ a) : (d.onDtc a f).dtcOf b = d.dtcOf b :=
  tget_tset_ne _ _ _ _ h
@[simp] theorem cluOf_onClu_same (d : Dev) (q : Nat) (f : ClusterH → ClusterH) : (d.onClu q f).cluOf q = f (d.cluOf q) :=
  tget_tset_same _ _ _ _
theorem cluOf_onClu_ne (d : Dev) {q b : Nat} (f : ClusterH → ClusterH) (h : b ≠ q) : (d.onClu q f).cluOf b = d.cluOf b :=
  tget_tset_ne _ _ _ _ h
@[simp] theorem evOf_onEv_same (d : Dev) (n : Nat) (f : EvH → EvH) : (d.onEv n f).evOf n = f (d.evOf n) :=
  tget_tset_same _ _ _ _
theorem evOf_onEv_ne (d : Dev) {n b : Nat} (f : EvH → EvH) (h : b ≠ n) : (d.onEv n f).evOf b = d.evOf b :=
  tget_tset_ne _ _ _ _ h
@[simp] theorem engOf_onEng_same (d : Dev) (e : Nat) (f : EngineH → EngineH) : (d.onEng e f).engOf e = f (d.engOf e) :=
  tget_tset_same _ _ _ _
theorem engOf_onEng_ne (d : Dev) {e b : Nat} (f : EngineH → EngineH) (h : b ≠ e) : (d.onEng e f).engOf b = d.engOf b :=
  tget_tset_ne _ _ _ _ h
@[simp] theorem sessOf_onSess_same (d : Dev) (s : Nat) (f : SessH → SessH) : (d.onSess s f).sessOf s = f (d.sessOf s) :=
  tget_tset_same _ _ _ _
theorem sessOf_onSess_ne (d : Dev) {s b : Nat} (f : SessH → SessH) (h : b ≠ s) : (d.onSess s f).sessOf b = d.sessOf b :=
  tget_tset_ne _ _ _ _ h
@[simp] theorem pairOf_onPair_same (d : Dev) (p : Nat) (f : PairH → PairH) : (d.onPair p f).pairOf p = f (d.pairOf p) :=
  tget_tset_same _ _ _ _
theorem pairOf_onPair_ne (d : Dev) {p b : Nat} (f : PairH → PairH) (h : b ≠ p) : (d.onPair p f).pairOf b = d.pairOf b :=
  tget_tset_ne _ _ _ _ h
@[simp] theorem slotOf_onSlot_same (d : Dev) (q : Nat) (f : SlotH → SlotH) : (d.onSlot q f).slotOf q = f (d.slotOf q) :=
  tget_tset_same _ _ _ _
theorem slotOf_onSlot_ne (d : Dev) {q b : Nat} (f : SlotH → SlotH) (h : b ≠ q) : (d.onSlot q f).slotOf b = d.slotOf b :=
  tget_tset_ne _ _ _ _ h
@[simp] theorem portOf_onPort_same (d : Dev) (a : Nat) (f : PortH → PortH) : (d.onPort a f).portOf a = f (d.portOf a) :=
  tget_tset_same _ _ _ _
theorem portOf_onPort_ne (d : Dev) {a b : Nat} (f : PortH → PortH) (h : b ≠ a) : (d.onPort a f).portOf b = d.portOf b :=
  tget_tset_ne _ _ _ _ h
@[simp] theorem inputOf_onInput_same (d : Dev) (x : Nat) (f : InputH → InputH) : (d.onInput x f).inputOf x = f (d.inputOf x) :=
  tget_tset_same _ _ _ _
theorem inputOf_onInput_ne (d : Dev) {x b : Nat} (f : InputH → InputH) (h : b ≠ x) : (d.onInput x f).inputOf b = d.inputOf b :=
  tget_tset_ne _ _ _ _ h
@[simp] theorem canOf_onCan_same (d : Dev) (c : Nat) (f : CanH → CanH) : (d.onCan c f).canOf c = f (d.canOf c) :=
  tget_tset_same _ _ _ _
theorem canOf_onCan_ne (d : Dev) {c b : Nat} (f : CanH → CanH) (h : b ≠ c) : (d.onCan c f).canOf b = d.canOf b :=
  tget_tset_ne _ _ _ _ h
@[simp] theorem clientOf_onClient_same (d : Dev) (s : Nat) (f : ClientH → ClientH) : (d.onClient s f).clientOf s = f (d.clientOf s) :=
  tget_tset_same _ _ _ _
theorem clientOf_onClient_ne (d : Dev) {s b : Nat} (f : ClientH → ClientH) (h : b ≠ s) : (d.onClient s f).clientOf b = d.clientOf b :=
  tget_tset_ne _ _ _ _ h

end Sys2Proof.Laws
end

