-- ==== Sys2Proof/Laws/Ops.lean ====
section
/-! SUPPORT. Laws of the shared operations: what a meaning does around its effect, what raising and acknowledging an event,
taking an exception and refusing a write change, and nothing else. -/

namespace Sys2Proof.Laws
open Sys2Proof Sys2Proof.Machine Reg

/-! ### The shapes of a meaning -/

/-- A meaning over the block answers a next state; with the logic domain on it is the effect. -/
theorem onDev_next (f : Dev → Dev) (s : State) (h : s.dev.sys.logicOn = true) :
    onDev f s = .next { s with dev := f s.dev } := by simp [onDev, onAny, h]

/-- With the logic domain off it changes nothing. -/
theorem onDev_off (f : Dev → Dev) (s : State) (h : s.dev.sys.logicOn = false) : onDev f s = .next s := by
  simp [onDev, onAny, h]

/-- A meaning over block and memories answers a next state; with the logic domain on it is the effect. -/
theorem onDM_next (f : DM → DM) (s : State) (h : s.dev.sys.logicOn = true) :
    onDM f s = .next { s with dev := (f (s.dev, s.mem)).1, mem := (f (s.dev, s.mem)).2 } := by
  simp [onDM, onAnyDM, h]

/-- With the logic domain off it changes nothing. -/
theorem onDM_off (f : DM → DM) (s : State) (h : s.dev.sys.logicOn = false) : onDM f s = .next s := by
  simp [onDM, onAnyDM, h]

/-- A conditional effect whose condition holds. -/
@[simp] theorem when_true (f : Dev → Dev) (d : Dev) : Dev.when true f d = f d := rfl

/-- A conditional effect whose condition does not. -/
@[simp] theorem when_false (f : Dev → Dev) (d : Dev) : Dev.when false f d = d := rfl

/-- An effect of the block leaves the memories. -/
@[simp] theorem dm_dev_mem (x : DM) (f : Dev → Dev) : (x.dev f).2 = x.2 := rfl

/-- An effect of the block. -/
@[simp] theorem dm_dev_dev (x : DM) (f : Dev → Dev) : (x.dev f).1 = f x.1 := rfl

/-- What every step of a repeated operation keeps, the whole keeps. -/
theorem each_keeps {α : Type} (P : Dev → Prop) (l : List α) (f : α → Dev → Dev) (hf : ∀ x d, P d → P (f x d)) :
    ∀ d : Dev, P d → P (d.each l f) := by
  induction l with
  | nil => exact fun _ h => h
  | cons x l ih => exact fun d h => ih (f x d) (hf x d h)

/-- A part of the block that every step of a repeated operation leaves, the whole leaves. -/
theorem each_frame {α β : Type} (g : Dev → β) (l : List α) (f : α → Dev → Dev) (hf : ∀ x d, g (f x d) = g d) (d : Dev) :
    g (d.each l f) = g d := each_keeps (fun t => g t = g d) l f (fun x t h => (hf x t).trans h) d rfl

/-! ### Events (R284, R291) -/

/-- All a raise does: registers and the hidden state of events. -/
theorem raise_shape (n : Nat) (d : Dev) : raise n d = { d with regs := (raise n d).regs, evs := (raise n d).evs } := by
  unfold raise
  split
  · rfl
  · split <;> rfl

/-- A raise writes no register but the event's PEND and RERAISE words. -/
theorem raise_reg (n : Nat) (d : Dev) {a : Nat} (h1 : a ≠ EVC_PEND (n / 32)) (h2 : a ≠ EVC_RERAISE (n / 32)) :
    (raise n d).reg a = d.reg a := by
  unfold raise
  split
  · rfl
  · split
    · exact reg_put_ne d _ 1 h2
    · exact reg_put_ne d _ 1 h1

/-- A raise leaves the hidden state of every other event. -/
theorem raise_evOf (n : Nat) (d : Dev) {k : Nat} (h : k ≠ n) : (raise n d).evOf k = d.evOf k := by
  unfold raise
  split
  · rfl
  · split
    · exact evOf_onEv_ne (d.setBit (EVC_RERAISE (n / 32)) (n % 32)) _ h
    · exact evOf_onEv_ne (d.setBit (EVC_PEND (n / 32)) (n % 32)) _ h

/-- All an acknowledgement does: registers and the hidden state of events. -/
theorem ackEvent_shape (n : Nat) (d : Dev) :
    ackEvent n d = { d with regs := (ackEvent n d).regs, evs := (ackEvent n d).evs } := by
  unfold ackEvent
  split
  · rfl
  · split <;> rfl

/-! ### Exceptions and refused writes (R8, R270) -/

/-- Taking an exception outside EXL: the pair enters it and nothing else changes. -/
theorem pairExc_enter (p cause sub : Nat) (w f : Bool) (addr epc : Word) (d : Dev)
    (h : ((d.pairOf p).cwGet 0).getLsbD 2 = false) :
    pairExc p cause sub w f addr epc d = d.onPair p fun q => q.enter cause sub w f addr epc := by
  simp only [pairExc, h, Bool.false_eq_true, if_false]

/-- A refused write of an engine changes nothing. -/
@[simp] theorem busError_engine (e : Fin 8) (sub addr : Nat) (w : Bool) (d : Dev) :
    busError (.engine e) sub addr w d = d := rfl

/-- A refused write of the SCU changes nothing. -/
@[simp] theorem busError_scu (sub addr : Nat) (w : Bool) (d : Dev) : busError .scu sub addr w d = d := rfl

/-- A refused write of the debug access changes nothing. -/
@[simp] theorem busError_debug (sub addr : Nat) (w : Bool) (d : Dev) : busError .debug sub addr w d = d := rfl

/-- A refused write of a pair is a bus-error exception with its subcause. -/
@[simp] theorem busError_pair (p : Fin 5) (sub addr : Nat) (w : Bool) (d : Dev) :
    busError (.pair p) sub addr w d = pairExc p 4 sub w false (w32 addr) (d.pairOf p).pc d := rfl

/-- A write of an axis block by a writer of the axis is its effect (R21). -/
theorem asAxisWriter_ok {m : Master} {a addr : Nat} {d : Dev} (f : Dev → Dev) (h : d.axisRights m a = true) :
    asAxisWriter m a addr f d = f d := by simp [asAxisWriter, h]

/-- By another it is a bus error with SUB 3 (R21). -/
theorem asAxisWriter_no {m : Master} {a addr : Nat} {d : Dev} (f : Dev → Dev) (h : d.axisRights m a = false) :
    asAxisWriter m a addr f d = busError m 3 addr true d := by simp [asAxisWriter, h]

/-- A write by the supervising pair is its effect. -/
theorem asSup_ok {m : Master} {addr : Nat} {d : Dev} (f : Dev → Dev) (h : d.supRights m = true) :
    asSup m addr f d = f d := by simp [asSup, h]

/-- A plain store of a register changes nothing but the registers. -/
theorem storeReg_shape (addr : Nat) (w : Word) (d : Dev) :
    storeReg addr w d = { d with regs := (storeReg addr w d).regs } := by
  unfold storeReg
  split <;> rfl

/-- A plain store leaves every other register (R8). -/
theorem storeReg_ne (addr : Nat) (w : Word) (d : Dev) {a : Nat} (h : a ≠ addr) : (storeReg addr w d).reg a = d.reg a := by
  unfold storeReg
  split
  · exact reg_setReg_ne d _ h
  · rfl

/-! ### Control words and registers of a pair (R255, R265) -/

/-- A general register other than g0 reads back. -/
theorem gr_setGr_same (h : PairH) {i : Nat} (w : Word) (hi : i ≠ 0) : (h.setGr i w).gr i = w := by
  simp [PairH.setGr, PairH.gr, hi]

/-- Writing a general register leaves every other. -/
theorem gr_setGr_ne (h : PairH) {i j : Nat} (w : Word) (hj : j ≠ i) : (h.setGr i w).gr j = h.gr j := by
  unfold PairH.setGr
  split
  · rfl
  · unfold PairH.gr
    split
    · rfl
    · exact tget_tset_ne 0 0 _ _ hj

/-- g0 reads 0 (R255). -/
@[simp] theorem gr_zero (h : PairH) : h.gr 0 = 0 := rfl

/-- A write of g0 is discarded (R255). -/
@[simp] theorem setGr_zero (h : PairH) (w : Word) : h.setGr 0 w = h := rfl

/-- A control word reads back. -/
@[simp] theorem cwGet_cwSet_same (h : PairH) (i : Nat) (w : Word) : (h.cwSet i w).cwGet i = w :=
  tget_tset_same (cwReset i) h.cw i w

/-- Writing a control word leaves every other. -/
theorem cwGet_cwSet_ne (h : PairH) {i j : Nat} (w : Word) (hj : j ≠ i) : (h.cwSet i w).cwGet j = h.cwGet j :=
  tget_tset_ne (cwReset i) (cwReset j) h.cw w hj

end Sys2Proof.Laws
end

