-- ==== Sys2Proof/WellFormed.lean ====
section
/-! DEFINITION. Commands whose lists and free operands have a shape the spec gives them. The operands of every other row are
bounded by their types. -/

namespace Sys2Proof

/-- A PSE measurement names every axis (R72, R74). -/
def PseMeas.wf (v : PseMeas) : Bool := v.link.length = 64 && v.rms.length = 64

/-- An identity memory holds the trims of channels 0 to 31 and 35 and the hours of four bridges (R137, R338). -/
def Ident.wf (i : Ident) : Bool := i.chcal.length ≤ 36 && i.hours.length = 4

/-- The shape of a command's operands. -/
def Instr.wf : Instr → Bool
  | .registerWrite _ addr _ => addr.toNat % 4 = 0
  | .debugAccess _ addr _ => addr.toNat % 4 = 0
  | .presenceMake _ i => i.wf
  | .arbitration v => v.wf
  | .xipLineRead _ _ data => data.length = 32
  | .frameReceived _ id ide fdf brs esi rtr _ data _ =>
    (ide || id.val < 2048) && (fdf || (!brs && !esi && data.length ≤ 8)) && !(fdf && rtr) && data.length ≤ 64
  | .cfgitem _ _ key payload => payload.length ≤ 1000 && (key.toNat / 2 ^ 30 ≠ 0 || payload.length = 2)
  | .imageseg _ ofs data => ofs.toNat + data.length ≤ 278528
  | _ => true

end Sys2Proof
end

