-- ==== Sys2Proof/Tests/Base.lean ====
section
/-! SUPPORT. Small states for the tests: a change of the block right after reset. -/

namespace Sys2Proof.Tests
open Sys2Proof Sys2Proof.Machine Reg

/-- The reset state with a change of the block. -/
def ws (f : Dev → Dev) : State := { State.reset with dev := f {} }

/-- The reset state with byte memories and a change of the block. -/
def wsm (m : List Host.Cell) (f : Dev → Dev) : State := { ws f with mem := m }

/-- The smallest firmware image at 0x1000_0100 (R278 to R280): one CODE section of one word. -/
def tinyImage : List Host.Cell :=
  memWriteBytes [] 0x10000100 ([0x4C54494D, 0x10101, 52, 0, 0, 0, 0, 0xFE18A9B2, 1, 0, 4, 0xEE00D08C, 5].map
    (bytesLE 4)).flatten

/-- Slot 3 belongs to the client with NAME 77 at address 33 of ISOBUS; the journal is open. -/
def cl (f : Dev → Dev) : State :=
  ws fun d => f { (d.put JNL_STAT_MODE 1).onBus fun b => { b with addr := some 168, names := [(33, some 77)] } with
    clients := [(3, { used := true, name := 77, node := 33, tok := 200000000, expect := 5 })] }

/-- The header of that client's next message: short with its CRC, or long. -/
def hS (op axis arg : Nat) : Ctl :=
  { link := 0, src := 33, seq := 5, chk := .short (Fin.ofNat 65536 (crc16 ([op, 5, axis] ++ bytesLE 3 arg))) }

/-- See `hS`. -/
def hL : Ctl := { link := 0, src := 33, seq := 5, chk := .long true }

/-- The module's NAME has its self-configurable bit set (R372). -/
theorem own_pos (d : Dev) : 2 ^ 63 ≤ d.ownName := by simp only [Dev.ownName]; omega

/-- The integrator's fields of the NAME at reset leave it below every NAME of ones. -/
theorem own_small {d : Dev} (h : d.item 0x101 (4 * 2 ^ 17 + 2 * 2 ^ 28) = 537395200) :
    d.ownName < 18446744073709551615 := by
  have h1 := Nat.mod_lt Config.serialNumber (show 0 < 2 ^ 21 by decide)
  have h2 := Nat.mod_lt Config.manufacturerCode (show 0 < 2 ^ 11 by decide)
  unfold Dev.ownName
  rw [h]; clear h
  generalize Config.serialNumber % 2 ^ 21 = a at *
  generalize Config.manufacturerCode % 2 ^ 11 = b at *
  norm_num at *
  omega

/-- A NAME above the module's own. -/
theorem own_lt : (cl id).dev.ownName < (0xFFFFFFFFFFFFFFFF : BitVec 64).toNat :=
  (show (0xFFFFFFFFFFFFFFFF : BitVec 64).toNat = 18446744073709551615 by decide) ▸ own_small (by decide)

/-- A store whose image slot 2 holds the header of a loop set without sections. -/
def setMem : List Host.Cell := [(0x20000000 + 0x1000 * (16 + 68 * 2) + 4, 2)]

/-- The header word of that image, in any block that maps every block to itself. -/
theorem set_word {d : Dev} (h : d.jnl.map = []) : memWord (d.imageMem setMem (2 : Fin 8)) 4 = 2 := by
  rw [Laws.memWord_bytes]
  simp only [Laws.memGet_imageMem, Dev.imageByte, JnlH.phys, h, tget]
  decide

/-- That image has no section. -/
theorem set_sections {d : Dev} (h : d.jnl.map = []) : sectionsOf (d.imageMem setMem (2 : Fin 8)) 0 = [] := by
  simp only [sectionsOf, Nat.zero_add, set_word h]
  rfl

/-- The whole module's client may load that image. -/
theorem set_need :
    loopsetNeed (setLoops (cl (fun d => d.onJnl fun j => { j with imgSt := [(2, 2)] })).dev [])
      (decide (((([] : List _).filter fun x : Section => decide (x.kind = 6)).map fun s => s.target / 65536) ≠ [])) 3
      (cl (fun d => d.onJnl fun j => { j with imgSt := [(2, 2)] })).dev = 0 := by
  decide +kernel

/-- The block with an active loop for an axis: enabled, scheduled, in automatic mode, one region of the six-step class. -/
def active (a : Nat) (d : Dev) : Dev :=
  let e := a / 8
  let k := a % 8
  (((d.setReg (bankBase e 0 + 0x200 + 0x80 * k) 0x80010000).setReg (bankBase e 0) 0x10000000).setReg (bankBase e 0 + 4)
    (w32 k)).put (LE_LCTL_AUTO e k) 1

end Sys2Proof.Tests
end

