-- ==== Sys2Proof/Tests/Slice0.lean ====
section
/-! SUPPORT. Tests: an ill-formed command for each check, and the manual's worked examples and check values. -/

set_option Elab.async false

namespace Sys2Proof.Tests
open Sys2Proof Sys2Proof.Machine Reg

/-! Each check of WellFormed refuses an ill-formed command. -/

/-- A register access of no word address. -/
theorem test_wf_write : (Instr.registerWrite .debug 0x40000002 0).wf = false := by decide +kernel

/-- The same of the debug access. -/
theorem test_wf_debug : (Instr.debugAccess true 0x40000001 0).wf = false := by decide +kernel

/-- A line of 31 bytes. -/
theorem test_wf_line : (Instr.xipLineRead .debug 0 (List.replicate 31 0)).wf = false := by decide +kernel

/-- A classical frame of 9 bytes. -/
theorem test_wf_frame :
    (Instr.frameReceived 0 5 false false false false false 9 (List.replicate 9 0) 0).wf = false := by decide +kernel

/-- A base-format identifier of 12 bits. -/
theorem test_wf_ident : (Instr.frameReceived 0 2048 false false false false false 0 [] 0).wf = false := by decide +kernel

/-- A class-0 item of one payload byte. -/
theorem test_wf_item : (Instr.cfgitem hL 255 5 [0]).wf = false := by decide +kernel

/-- A segment that ends past the slot. -/
theorem test_wf_segment : (Instr.imageseg hL 278528 [0]).wf = false := by decide +kernel

/-- An identity memory without hours. -/
theorem test_wf_identity (i : Ident) : ({ i with hours := [] } : Ident).wf = false := by simp [Ident.wf]

/-- A measurement without axes. -/
theorem test_wf_meas (v : PseMeas) : ({ v with link := [] } : PseMeas).wf = false := by simp [PseMeas.wf]

/-! The manual's check values and worked examples. -/

/-- R280: the CRC-32C of "123456789". -/
theorem test_crc32c : crc32c [49, 50, 51, 52, 53, 54, 55, 56, 57] = 0xE3069283 := by decide +kernel

/-- Chapter 17: the CRC-16 of "123456789". -/
theorem test_crc16 : crc16 [49, 50, 51, 52, 53, 54, 55, 56, 57] = 0x29B1 := by decide +kernel

/-- R33: 22 kΩ is code 9, on both edges of its band; outside it is none. -/
theorem test_coding :
    [22000, 20240, 23760, 20239, 23761].map decodeOhms = [9, 9, 9, 16, 16] := by decide +kernel

/-- R71: 70 °C allow 8,000 W. -/
theorem test_pcont : pCont 700 = 8000 := by decide +kernel

/-- The drives of R74's worked example: fan, pump, 48 rows. -/
def rows74 : List AllocD :=
  { ax := 60, prio := 6, floor := 2000, want := 4000 } :: { ax := 56, prio := 5, floor := 1000, want := 2000 } ::
    (List.range 48).map fun a => { ax := a, prio := 3, floor := 150, want := 250 }

/-- R74: without regeneration every row gets 2.08 A. -/
theorem test_budget : (allocate74 rows74 16000).map (·.ceil) = 4000 :: 2000 :: List.replicate 48 208 := by decide +kernel

/-- R74: with 12 A returned every row gets 2.33 A. -/
theorem test_budget_regen :
    (allocate74 rows74 17200).map (·.ceil) = 4000 :: 2000 :: List.replicate 48 233 := by decide +kernel

/-- R124: the bridging period of the example. -/
theorem test_bridge : bridgeLen 1000010000 8000 0 = 6000 := by decide +kernel

/-- Axis 5 of R123's example at an instant. -/
def ldAxis (t : Nat) : State :=
  ws fun d => { (d.put (PWM_APO_PER 5) 10000).put (PWM_APO_OFS 5) 780 with now := t, timeOn := true }

/-- R123: a load-all 10 counts ahead loads at this period start, one 5 counts ahead at the next. -/
theorem test_loadall : (loadAll 5 (ldAxis 1000010770).dev).loadStart 5 = some 1000010780 ∧
    (loadAll 5 (ldAxis 1000010775).dev).loadStart 5 = some 1000020780 := by decide +kernel

/-- R168: the bounds of the first two predictions for G = 4,000. -/
theorem test_bounds : predFactor 1 * 4000 = 28000 ∧ predFactor 2 * 4000 = 68000 := by decide +kernel

/-- R169: six intervals of the example, 83.23 Hz. -/
theorem test_speed : freqOf 2403060 = 8323 := by decide +kernel

/-- R188: iβ and the torque of the DTC example. -/
theorem test_torque : iBeta (-400) (-926) = 1300 ∧
    (((({} : Dev).put (CU_DTCCFG_PP 20) 4).onDtc 20 fun t =>
      { t with psiA := 30000 * 65536, psiB := 10000 * 65536 }).torque 20 (-400) (-926)) = 1574 := by decide +kernel

/-- Chapter 10, Number formats: the example's row of u. -/
theorem test_row :
    fixOut (fixRow 0 [(⟨1249902592, 6⟩, 1500), (⟨1357347104, -9⟩, -2347), (⟨-1073741824, 0⟩, 7)]) = (55869, 0) := by
  decide +kernel

/-- R263: ACRD of the example's accumulator. -/
theorem test_acrd : (match execAcrd 2 7 0 31 (ws fun d => d.onPair 2 fun h =>
      { h with started := true, ac := [(0, 119976910581316)] }) with
    | .next s => (s.dev.gr 2 7).toNat | _ => 0) = 55869 := by decide +kernel

/-- The samples of R249's example. -/
def samples249 : List Int := [1000, 1180, 1420, 1650, 1830, 1950, 2010, 2030, 2020, 2000, 1985, 1975, 1970, 1968, 1967, 1967]

/-- R248, R249: the example's block, channel 2, count 0x2C. -/
theorem test_block : blockBytes 1000 (encodeBlock 8 samples249).1 (encodeBlock 8 samples249).2 false 2 0x2C =
    [0xE8, 3, 1, 2, 0x5A, 0x78, 0x73, 0x5A, 0x3C, 0x1E, 0x0A, 0xFB, 0xF6, 0xF8, 0xFB, 0xFE, 0xFF, 0xFF, 1, 0x2C] := by
  decide +kernel

/-- Chapter 19: the result of entry 5 of converter B of AC3, its instant, and an offset without a register. -/
theorem test_addresses : AC_RSLT 3 1 5 = 0x401033D4 ∧ AC_RTS 3 1 5 = 0x40103454 ∧ rowAt 0x401034C0 = none := by
  decide +kernel

/-- Chapter 1: a write by CP2 of the commutation block of axis 63, hosted by CP3, takes a bus error with SUB 3. -/
theorem test_nothost : (match execRegisterWrite (.pair 2) 0x4031F9F0 0 (ws fun d => d.onPair 2 fun h =>
      { h with cw := [(0, 1)] }) with
    | .next s => ((s.dev.pairOf 2).cwGet 3).toNat | _ => 0) = 0x3204 := by decide +kernel

/-- R145: of two requests of one instant that name converter A the one of position 0 is served, the other dropped as
SIMULTANEOUS. -/
theorem test_simultaneous : (match execUrgentRequest 2 (ws fun d =>
      { ((d.put (CSL_STAT_STATE 2) 2).setReg (AC_UCFG 2 0) 0x80).setReg (AC_UCFG 2 3) 0x98 |>.onClu 2 fun c => { c with
        reqs := [{ pos := 3, src := .trig0, tr := 77 }, { pos := 0, src := .trig0, tr := 77 }],
        ann := [{ pos := 3, src := .trig0, tr := 77, annAt := 57 }, { pos := 0, src := .trig0, tr := 77, annAt := 57 }] }
        with now := 77 }) with
    | .next s => (s.dev.get (AC_DROPCNT_CNT 2 0), (s.dev.reg (AC_DROPINFO 2 0)).toNat, (s.dev.cluOf 2).a.busy)
    | _ => (0, 0, 0)) = (1, 77 * 65536 + 3 * 16 + 3, 87) := by decide +kernel

/-- R258: the words of the example (chapter 12). -/
theorem test_words : litosWord (.acld 2 0 0 0) = 0xC000000F ∧ litosWord (.fmac 2 0 1 2 6) = 0xC0220188 ∧
    litosWord (.fmac 2 0 3 4 55) = 0xC0640DC8 ∧ litosWord (.fmac 2 0 5 6 0) = 0xC0A60008 ∧
    litosWord (.acrd 2 7 0 31) = 0xC0E007CC := by decide +kernel

end Sys2Proof.Tests
end

