-- ==== Sys2Proof/Tests/Witness.lean ====
section
/-! SUPPORT. For every statement with hypotheses, states and operands that meet them, one theorem a clause. -/

set_option Elab.async false

namespace Sys2Proof.Tests
open Sys2Proof Sys2Proof.Machine Reg

theorem wit_PortsAndProbe_0 :
    let s : State := (ws id)
    s.dev.sys.logicOn = true := by decide +kernel

theorem wit_PortsAndProbe_1 :
    let s : State := (ws fun d =>
        { (d.put (CSL_STAT_STATE 15) 2).onClu 15 fun c => { c with idPos := tset none c.idPos 3 (some (5, 0)), idNeg := tset none c.idNeg 3 (some (5, 1)) } with now := 200000 })
    let a : Fin 64 := 63
    s.dev.sys.logicOn = true ∧ s.dev.present (a / 4) = true ∧ s.dev.now % 200000 = 0 ∧ s.dev.halfFresh (a / 4) (a % 4)
        true = true ∧ s.dev.halfFresh (a / 4) (a % 4) false = true := by decide +kernel

theorem wit_PortsAndProbe_2 :
    let s : State := (ws fun d => d.put (CSL_STAT_STATE 0) 2)
    let a : Fin 64 := 0
    s.dev.sys.logicOn = true ∧ s.dev.present (a / 4) = true ∧ (s.dev.portOf a).agree < 3 := by decide +kernel

theorem wit_PortsAndProbe_3 :
    let s : State := (ws fun d => ((((d.put (CSL_STAT_STATE 15) 2).put (CSL_PORT_ST 15 3) 1).put (CU_STATE_STATE 63)
        0)).onPort 63 fun p => { p with agree := 3, accepted := 9 })
    let a : Fin 64 := 63
    s.dev.sys.logicOn = true ∧ s.dev.present (a / 4) = true ∧ 3 ≤ (s.dev.portOf a).agree ∧ (s.dev.portOf a).last = 0 ∧
        s.dev.wanted a = [a.val] ∧ s.dev.axSt a = .off ∧ s.dev.get (CSL_PORT_ST (a / 4) (a % 4)) = 1 := by
        decide +kernel

theorem wit_PortsAndProbe_4 :
    let s : State := (ws fun d => ((((d.put (CSL_STAT_STATE 15) 2).put (CSL_PORT_ST 15 3) 1).put SYS_MODE_MODE 5).put
        (CU_STATE_STATE 63) 0).onPort 63 fun p => { p with probeDue := true })
    let a : Fin 64 := 63
    s.dev.sys.logicOn = true ∧ s.dev.wanted a = [a.val] ∧ (s.dev.portOf a).probeDue = true ∧ s.dev.probeReady a = true
        ∧ s.dev.mode.power = true ∧ s.dev.releasing a = false ∧ s.dev.get FLT_STAT_LEVEL = 0 := by decide +kernel

theorem wit_PortsAndProbe_5 :
    let s : State := (ws fun d =>
        { (d.put (CU_STATE_STATE 63) 1).onPort 63 fun p => { p with probe := .measuring 0 } with now := 200000 })
    let a : Fin 64 := 63
    let e : Fin 16384 := 113
    let k : Nat := 0
    s.dev.sys.logicOn = true ∧ (s.dev.portOf a).probe = .measuring k ∧ k + 200000 ≤ s.dev.now ∧ s.dev.axSt a = .probe
        ∧ e.val < 114 := by decide +kernel

theorem wit_PortsAndProbe_6 :
    let s : State := (ws fun d =>
        { (d.put (CU_STATE_STATE 63) 1).onPort 63 fun p => { p with probe := .measuring 0 } with now := 200000 })
    let a : Fin 64 := 63
    let e : Fin 16384 := 114
    let u : Fin 16384 := 100
    let v : Fin 16384 := 100
    let w : Fin 16384 := 19
    let k : Nat := 0
    s.dev.sys.logicOn = true ∧ (s.dev.portOf a).probe = .measuring k ∧ k + 200000 ≤ s.dev.now ∧ s.dev.axSt a = .probe
        ∧ 114 ≤ e.val ∧ max u.val (max v.val w.val) ≤ 5 * u.val ∧ max u.val (max v.val w.val) ≤ 5 * v.val ∧ 5 * w.val
        < max u.val (max v.val w.val) := by decide +kernel

theorem wit_PortsAndProbe_7 :
    let s : State := (ws fun d =>
        { (d.put (CU_STATE_STATE 63) 1).onPort 63 fun p => { p with probe := .pulses 0 [true, true] } with now := 80000 })
    let a : Fin 64 := 63
    let k : Nat := 0
    let l : List Bool := [true, true]
    s.dev.sys.logicOn = true ∧ (s.dev.portOf a).probe = .pulses k l ∧ l.length < 3 ∧ k + 40000 * l.length ≤ s.dev.now
        ∧ s.dev.axSt a = .probe := by decide +kernel

theorem wit_PortsAndProbe_8 :
    let s : State := (ws fun d =>
        { (d.put (CU_STATE_STATE 63) 1).onPort 63 fun p => { p with probe := .pulses 0 [true, true, true] } with now := 120000 })
    let a : Fin 64 := 63
    let k : Nat := 0
    s.dev.sys.logicOn = true ∧ s.dev.members a = [a.val] ∧ s.dev.axSt a = .probe ∧ (s.dev.portOf a).probe = .pulses k
        [true, true, true] ∧ k + 120000 ≤ s.dev.now ∧ (s.dev.portOf a).stand = none := by decide +kernel

theorem wit_PortsAndProbe_9 :
    let s : State := (ws fun d =>
        { (d.put (CU_STATE_STATE 63) 1).onPort 63 fun p => { p with probe := .pulses 0 [false, true, false] } with now := 120000 })
    let a : Fin 64 := 63
    let k : Nat := 0
    s.dev.sys.logicOn = true ∧ s.dev.members a = [a.val] ∧ s.dev.axSt a = .probe ∧ s.dev.peal.running = false ∧
        (s.dev.portOf a).probe = .pulses k [false, true, false] ∧ k + 120000 ≤ s.dev.now := by decide +kernel

theorem wit_PortsAndProbe_10 :
    let s : State := (ws fun d => (d.put (CU_STATE_STATE 63) 12).onPort 63 fun p => { p with noMotor := 3 })
    let a : Fin 64 := 63
    s.dev.sys.logicOn = true ∧ s.dev.members a = [a.val] ∧ s.dev.axSt a = .fault ∧ 3 ≤ (s.dev.portOf a).noMotor := by
        decide +kernel

theorem wit_PortsAndProbe_11 :
    let s : State := (ws id)
    let a : Fin 64 := 63
    s.dev.sys.logicOn = true ∧ (s.dev.axSt a).driving = false := by decide +kernel

theorem wit_PortsAndProbe_12 :
    let s : State := (ws fun d => { d.onPort 63 fun p => { p with hallOff := some 0 } with now := 20000000 })
    let a : Fin 64 := 63
    let k : Nat := 0
    s.dev.sys.logicOn = true ∧ (s.dev.portOf a).hallOff = some k ∧ k + 20000000 ≤ s.dev.now := by decide +kernel

theorem wit_AuxiliaryOutputsAndPulse_0 :
    let s : State := (ws id)
    let m : Master := .pair 0
    s.dev.sys.logicOn = true ∧ s.dev.supRights m = true ∧ s.dev.mode ≠ .transport ∧ s.dev.aux.maskUntil = none ∧
        s.dev.reg AUX_GSTAT = 0 := by decide +kernel

theorem wit_AuxiliaryOutputsAndPulse_1 :
    let s : State := (ws id)
    let p : Fin 5 := 4
    s.dev.sys.logicOn = true ∧ s.dev.sup ≠ p.val ∧ ((s.dev.pairOf p).cwGet 0).getLsbD 2 = false := by decide +kernel

theorem wit_AuxiliaryOutputsAndPulse_2 :
    let s : State := (ws fun d =>
        { (d.put (AUX_GSTAT_HSON 3) 1).onAux fun x => { x with offAt := tset none x.offAt 3 (some 0) } with now := 200000 })
    let g : Fin 4 := 3
    let k : Nat := 0
    s.dev.sys.logicOn = true ∧ tget none s.dev.aux.offAt g = some k ∧ k + 200000 ≤ s.dev.now ∧ s.dev.groupOn g =
        false := by decide +kernel

theorem wit_AuxiliaryOutputsAndPulse_3 :
    let s : State := (ws fun d => { d.onAux fun x => { x with on := 0x8000 } with now := 20000000 })
    let n : Fin 16 := 15
    s.dev.sys.logicOn = true ∧ s.dev.aux.on.testBit n = true ∧ tget 0 s.dev.aux.since n + s.dev.get (AUX_GCFG_PULLIN
        (n / 4)) * 200000 ≤ s.dev.now := by decide +kernel

theorem wit_AuxiliaryOutputsAndPulse_4 :
    let s : State := (ws fun d => { d with now := 19600000 })
    let g : Fin 4 := 3
    s.dev.sys.logicOn = true ∧ s.dev.groupOn g = false ∧ tget none s.dev.aux.diag g = none ∧ tget 0 s.dev.aux.diagEnd
        g + 19600000 ≤ s.dev.now := by decide +kernel

theorem wit_AuxiliaryOutputsAndPulse_5 :
    let s : State := (ws fun d =>
        { d.onAux fun x => { x with diag := tset none x.diag 3 (some 0) } with now := 400000 })
    let g : Fin 4 := 3
    let k : Nat := 0
    s.dev.sys.logicOn = true ∧ tget none s.dev.aux.diag g = some k ∧ k + 400000 ≤ s.dev.now := by decide +kernel

theorem wit_AuxiliaryOutputsAndPulse_6 :
    let s : State := (ws id)
    s.dev.sys.logicOn = true := by decide +kernel

theorem wit_AuxiliaryOutputsAndPulse_7 :
    let s : State := (ws fun d => (d.setReg AUX_GSTAT 0x02020202).onAux fun x => { x with on := 0x8000 })
    let m : Master := .debug
    s.dev.sys.logicOn = true ∧ s.dev.supRights m = true := by decide +kernel

theorem wit_AuxiliaryOutputsAndPulse_8 :
    let s : State := (ws fun d => { d with gspAt := some 5, now := 2 ^ 40 })
    let k : Nat := 5
    s.dev.sys.logicOn = true ∧ s.dev.gspAt = some k := by decide +kernel

theorem wit_AuxiliaryOutputsAndPulse_9 :
    let s : State := (ws fun d => { d with gspAt := some 0, now := 400000000 })
    let k : Nat := 0
    s.dev.sys.logicOn = true ∧ s.dev.gspAt = some k ∧ k + 400000000 ≤ s.dev.now := by decide +kernel

theorem wit_AuxiliaryOutputsAndPulse_10 :
    let s : State := (ws id)
    s.dev.sys.logicOn = true := by decide +kernel

theorem wit_AuxiliaryOutputsAndPulse_11 :
    let s : State := (ws id)
    s.dev.sys.logicOn = true := by decide +kernel

theorem wit_AuxiliaryOutputsAndPulse_12 :
    let s : State := (ws id)
    s.dev.sys.logicOn = true := by decide +kernel

theorem wit_AuxiliaryOutputsAndPulse_13 :
    let s : State := (ws fun d => d.put SYS_MODE_MODE 8)
    s.dev.sys.logicOn = true ∧ s.dev.mode = .service ∧ (∀ a : Fin 64, s.dev.axSt a = .off ∨ s.dev.axSt a = .absent) :=
        by decide +kernel

theorem wit_AuxiliaryOutputsAndPulse_14 :
    let s : State := (ws id)
    s.dev.sys.logicOn = true ∧ s.dev.mode ≠ .service := by decide +kernel

theorem wit_PanelAndCartridges_0 :
    let s : State := (ws fun d => ((d.put CSL_PANEL_SELVALID 1).put CSL_PANEL_SEL 15).put (CSL_STAT_PRES 15) 1)
    let q : Nat := 15
    s.dev.sys.logicOn = true ∧ s.dev.mode ≠ .dormant ∧ s.dev.nextSlot = some q ∧ q < 16 := by decide +kernel

theorem wit_PanelAndCartridges_1 :
    let s : State := (ws fun d => d.put SYS_MODE_MODE 0)
    s.dev.sys.logicOn = true ∧ s.dev.mode = .dormant := by decide +kernel

theorem wit_PanelAndCartridges_2 :
    let s : State := (ws fun d => { d with panel := { keyAt := some 0 }, now := 2000000000 })
    let k : Nat := 0
    s.dev.sys.logicOn = true ∧ s.dev.panel.keyAt = some k ∧ k + 2000000000 ≤ s.dev.now := by decide +kernel

theorem wit_PanelAndCartridges_3 :
    let s : State := (ws fun d => (d.put CSL_PANEL_SELVALID 1).put CSL_PANEL_SEL 15)
    let q : Fin 16 := 15
    s.dev.sys.logicOn = true ∧ s.dev.mode ≠ .dormant ∧ s.dev.get CSL_PANEL_SELVALID = 1 ∧ s.dev.get CSL_PANEL_SEL =
        q.val ∧ s.dev.get (CSL_STAT_STATE q) ≠ 2 := by decide +kernel

theorem wit_PanelAndCartridges_4 :
    let s : State := (ws fun d => ((d.put CSL_PANEL_SELVALID 1).put CSL_PANEL_SEL 15).put (CSL_STAT_STATE 15) 2)
    let q : Fin 16 := 15
    s.dev.sys.logicOn = true ∧ s.dev.mode ≠ .dormant ∧ s.dev.get CSL_PANEL_SELVALID = 1 ∧ s.dev.get CSL_PANEL_SEL =
        q.val ∧ s.dev.get (CSL_STAT_STATE q) = 2 ∧ (∀ x : Fin 16, s.dev.get (CSL_STAT_STATE x) ≠ 4) ∧ (∀ a : Fin 64,
        a.val / 4 = q.val → (s.dev.axSt a).driving = false) := by decide +kernel

theorem wit_PanelAndCartridges_5 :
    let s : State := (ws fun d => (((d.put CSL_PANEL_SELVALID 1).put CSL_PANEL_SEL 15).put (CSL_STAT_STATE 15) 5).put
        (CSL_STAT_LOCK 15) 1)
    let q : Fin 16 := 15
    s.dev.sys.logicOn = true ∧ s.dev.mode ≠ .dormant ∧ s.dev.get CSL_PANEL_SELVALID = 1 ∧ s.dev.get CSL_PANEL_SEL =
        q.val ∧ s.dev.get (CSL_STAT_STATE q) = 5 ∧ s.dev.now ≤ (s.dev.slotOf q).safeAt + 6000000000 := by
        decide +kernel

theorem wit_PanelAndCartridges_6 :
    let s : State := (ws fun d => (d.put (CSL_STAT_STATE 0) 4).put (CSL_STAT_STATE 15) 2)
    let m : Master := .pair 0
    let q : Fin 16 := 15
    s.dev.sys.logicOn = true ∧ s.dev.supRights m = true ∧ (∃ x : Fin 16, x ≠ q ∧ s.dev.get (CSL_STAT_STATE x) = 4) :=
        by decide +kernel

theorem wit_PanelAndCartridges_7 :
    let s : State := (ws fun d =>
        { ((d.put (CSL_STAT_STATE 15) 4).put (CSL_STAT_SEGSW 15) 1).setBit PSE_SEG 15 with now := 20000000 })
    let q : Fin 16 := 15
    s.dev.sys.logicOn = true ∧ s.dev.get (CSL_STAT_STATE q) = 4 ∧ s.dev.get (CSL_STAT_SEGSW q) = 1 ∧ (∀ a : Fin 64,
        a.val / 4 = q.val → (s.dev.axSt a).driving = false ∧ s.dev.bemfAtLeast a 455 = false ∧ max (s.dev.sixOf
        a).hotAt (s.dev.sixOf a).restAt + 20000000 ≤ s.dev.now) := by decide +kernel

theorem wit_PanelAndCartridges_8 :
    let s : State := (ws fun d => d.put (CSL_STAT_STATE 15) 4)
    let q : Fin 16 := 15
    s.dev.sys.logicOn = true ∧ s.dev.get (CSL_STAT_STATE q) = 4 ∧ s.dev.get (CSL_STAT_SEGSW q) = 0 := by
        decide +kernel

theorem wit_PanelAndCartridges_9 :
    let s : State := (ws fun d => { d.put (CSL_STAT_STATE 15) 4 with now := 2000000000 })
    let q : Fin 16 := 15
    s.dev.sys.logicOn = true ∧ s.dev.get (CSL_STAT_STATE q) = 4 ∧ (s.dev.slotOf q).relAt + max 1 (s.dev.get
        CSL_RTO_SEC) * 200000000 ≤ s.dev.now := by decide +kernel

theorem wit_PanelAndCartridges_10 :
    let s : State := (ws fun d => { d.put (CSL_STAT_STATE 15) 5 with now := 6000000000 })
    let q : Fin 16 := 15
    s.dev.sys.logicOn = true ∧ s.dev.get (CSL_STAT_STATE q) = 5 ∧ (s.dev.slotOf q).safeAt + 6000000000 ≤ s.dev.now :=
        by decide +kernel

theorem wit_PanelAndCartridges_11 :
    let s : State := (ws fun d => { d.put (CSL_STAT_STATE 15) 6 with now := 12000000000 })
    let q : Fin 16 := 15
    s.dev.sys.logicOn = true ∧ s.dev.get (CSL_STAT_STATE q) = 6 ∧ (s.dev.slotOf q).openAt + 12000000000 ≤ s.dev.now :=
        by decide +kernel

theorem wit_PanelAndCartridges_12 :
    let s : State := (ws id)
    let q : Fin 16 := 15
    s.dev.get (CSL_STAT_PRES q) = 0 := by decide +kernel

theorem wit_PanelAndCartridges_13 :
    let s : State := (ws fun d =>
        { ((d.put SYS_MODE_MODE 3).put (CSL_STAT_PRES 15) 1).onSlot 15 fun x => { x with stage := .presence } with now := 2000000 })
    let q : Fin 16 := 15
    s.dev.sys.logicOn = true ∧ (s.dev.slotOf q).stage = .presence ∧ s.dev.get (CSL_STAT_PRES q) = 1 ∧ s.dev.mode ≠
        .selftest ∧ s.dev.mode ≠ .dormant ∧ (s.dev.slotOf q).presAt + 2000000 ≤ s.dev.now ∧ (s.dev.slotOf q).boot =
        false := by decide +kernel

theorem wit_PanelAndCartridges_14 :
    let s : State := (ws fun d => (d.put PSE_VLINK_VLINK 16000).onSlot 15 fun x =>
        { x with stage := .checking, ident := some {} })
    let q : Fin 16 := 15
    let i : Ident := {}
    s.dev.sys.logicOn = true ∧ (s.dev.slotOf q).stage = .checking ∧ (s.dev.slotOf q).ident = some i ∧ i.crcOk = true ∧
        i.letter = 2 ∧ 2 ≤ i.digit ∧ i.digit < 16 ∧ i.calOk = true ∧ 16000 ≤ s.dev.get PSE_VLINK_VLINK := by
        decide +kernel

theorem wit_PanelAndCartridges_15 :
    let s : State := (ws fun d => d.onSlot 15 fun x => { x with stage := .checking, ident := some { digit := 1 } })
    let q : Fin 16 := 15
    let i : Ident := { digit := 1 }
    s.dev.sys.logicOn = true ∧ (s.dev.slotOf q).stage = .checking ∧ (s.dev.slotOf q).ident = some i ∧ i.crcOk = true ∧
        (i.letter ≠ 2 ∨ i.digit < 2) := by decide +kernel

theorem wit_PanelAndCartridges_16 :
    let s : State := (ws fun d => d.onSlot 15 fun x => { x with stage := .waitLink })
    let q : Fin 16 := 15
    let v : Fin 65536 := 16000
    s.dev.sys.logicOn = true ∧ (s.dev.slotOf q).stage = .waitLink ∧ 16000 ≤ v.val := by decide +kernel

theorem wit_PanelAndCartridges_17 :
    let s : State := (ws fun d => d.onSlot 15 fun x => { x with stage := .precharge })
    let q : Fin 16 := 15
    s.dev.sys.logicOn = true ∧ (s.dev.slotOf q).stage = .precharge := by decide +kernel

theorem wit_PanelAndCartridges_18 :
    let s : State := (ws fun d => d.onSlot 15 fun x => { x with stage := .precharge })
    let q : Fin 16 := 15
    s.dev.sys.logicOn = true ∧ (s.dev.slotOf q).stage = .precharge := by decide +kernel

theorem wit_PanelAndCartridges_19 :
    let s : State := (ws fun d => d.onSlot 15 fun x => { x with stage := .ready, ident := some {} })
    let q : Fin 16 := 15
    s.dev.sys.logicOn = true ∧ (s.dev.slotOf q).stage = .ready ∧ (∀ a : Fin 64, a.val / 4 = q.val → s.dev.axSt a =
        .absent) := by decide +kernel

theorem wit_PanelAndCartridges_20 :
    let s : State := (ws fun d => (d.put (CSL_STAT_PRES 15) 1).put (CSL_STAT_STATE 15) 3)
    let q : Fin 16 := 15
    s.dev.sys.logicOn = true ∧ s.dev.get (CSL_STAT_PRES q) = 1 ∧ s.dev.get (CSL_STAT_STATE q) = 3 := by decide +kernel

theorem wit_PanelAndCartridges_21 :
    let s : State := (ws fun d => ((d.put SYS_MODE_MODE 8).onSlot 15 fun x =>
        { x with ident := some { serial := 7 } }).onJnl fun j =>
        { j with log := [{ typ := 12, key := 7, payload := [7, 1, 2, 3, 4, 5, 6] }] })
    let q : Fin 16 := 15
    let i : Ident := { serial := 7 }
    let r : JRec := { typ := 12, key := 7, payload := [7, 1, 2, 3, 4, 5, 6] }
    s.dev.sys.logicOn = true ∧ s.dev.mode = .service ∧ (s.dev.slotOf q).ident = some i ∧ liveRec s.dev.jnl.log 12
        (i.serial % 2 ^ 32) = some r := by decide +kernel

theorem wit_InputsAndSegments_0 :
    let s : State := (ws id)
    let x : Fin 2 := 1
    let v : Fin 65536 := 10000
    s.dev.sys.logicOn = true ∧ 10000 ≤ v.val ∧ s.dev.inputsAllowed = true ∧ s.dev.get (inClosed x) = 0 ∧
        (s.dev.inputOf x).preAt = none ∧ (s.dev.inputOf x).retryAt = none := by decide +kernel

theorem wit_InputsAndSegments_1 :
    let s : State := (ws id)
    let v : Fin 65536 := 9999
    s.dev.sys.logicOn = true ∧ v.val < 10000 := by decide +kernel

theorem wit_InputsAndSegments_2 :
    let s : State := (ws fun d => d.onInput 1 fun h => { h with preAt := some 0 })
    let x : Fin 2 := 1
    let v : Fin 65536 := 24000
    let l : Fin 65536 := 23500
    let k : Nat := 0
    s.dev.sys.logicOn = true ∧ (s.dev.inputOf x).preAt = some k ∧ v.val ≤ l.val + 500 ∧ l.val ≤ v.val + 500 := by
        decide +kernel

theorem wit_InputsAndSegments_3 :
    let s : State := (ws fun d => { d.onInput 1 fun h => { h with preAt := some 0 } with now := 50000000 })
    let x : Fin 2 := 1
    let k : Nat := 0
    s.dev.sys.logicOn = true ∧ (s.dev.inputOf x).preAt = some k ∧ k + 50000000 ≤ s.dev.now := by decide +kernel

theorem wit_InputsAndSegments_4 :
    let s : State := (ws fun d => d.onInput 1 fun h => { h with retryAt := some 0 })
    let x : Fin 2 := 1
    let v : Fin 65536 := 10000
    let k : Nat := 0
    s.dev.sys.logicOn = true ∧ (s.dev.inputOf x).retryAt = some k ∧ k ≤ s.dev.now ∧ 10000 ≤ v.val ∧
        s.dev.inputsAllowed = true := by decide +kernel

theorem wit_InputsAndSegments_5 :
    let s : State := (ws fun d => d.put PSE_STAT_INB 1)
    let x : Fin 2 := 1
    s.dev.sys.logicOn = true ∧ s.dev.get (inClosed x) = 1 := by decide +kernel

theorem wit_InputsAndSegments_6 :
    let s : State := (ws fun d => (d.put PSE_STAT_INB 1).put PSE_CFG_REVB 1)
    let x : Fin 2 := 1
    s.dev.sys.logicOn = true ∧ s.dev.get (inClosed x) = 1 ∧ s.dev.get (inRevCfg x) = 1 := by decide +kernel

theorem wit_InputsAndSegments_7 :
    let s : State := (ws fun d => ((((d.put (CSL_STAT_SEGSW 15) 1).put (CU_STATE_STATE 60) 0).put (CU_STATE_STATE 61)
        0).put (CU_STATE_STATE 62) 6).put (CU_STATE_STATE 63) 6 |>.onSlot 15 fun x => { x with ident := some {} })
    let q : Fin 16 := 15
    let i : Ident := {}
    s.dev.sys.logicOn = true ∧ s.dev.get (CSL_STAT_SEGSW q) = 1 ∧ (s.dev.slotOf q).ident = some i ∧ s.dev.peal.running
        = false ∧ (∀ a : Fin 64, a.val / 4 = q.val → s.dev.axSt a ≠ .absent) := by decide +kernel

theorem wit_InputsAndSegments_8 :
    let s : State := (ws fun d => ((((d.put (CSL_STAT_STATE 15) 2).put (CU_STATE_STATE 60) 0).put (CU_STATE_STATE 61)
        0).put (CU_STATE_STATE 62) 12).put (CU_STATE_STATE 63) 12)
    s.dev.sys.logicOn = true := by decide +kernel

theorem wit_InputsAndSegments_9 :
    let s : State := (ws fun d => ((((((d.put (CSL_STAT_STATE 15) 2).put (CSL_STAT_SEGSW 15) 1).put PSE_VLINK_VLINK
        2500).put (CU_STATE_STATE 60) 0).put (CU_STATE_STATE 61) 0).put (CU_STATE_STATE 62) 6).put (CU_STATE_STATE 63)
        6)
    let q : Fin 16 := 15
    s.dev.sys.logicOn = true ∧ s.dev.present q = true ∧ s.dev.get (CSL_STAT_SEGSW q) = 1 ∧ 2500 ≤ s.dev.get
        PSE_VLINK_VLINK ∧ s.dev.peal.running = false ∧ (∀ a : Fin 64, a.val / 4 = q.val → s.dev.axSt a ≠ .absent) :=
        by decide +kernel

theorem wit_LinkAndLogicSupplies_0 :
    let s : State := (ws fun d => d.put PSE_STAT_SRC 2)
    let v : Fin 65536 := 8800
    s.dev.sys.logicOn = true ∧ s.dev.get PSE_STAT_SRC = 2 ∧ 8800 ≤ v.val := by decide +kernel

theorem wit_LinkAndLogicSupplies_1 :
    let s : State := (ws fun d => d.put PSE_STAT_SRC 1)
    let v : Fin 65536 := 7999
    let a : Fin 65536 := 15000
    let b : Fin 65536 := 0
    s.dev.sys.logicOn = true ∧ s.dev.get PSE_STAT_SRC = 1 ∧ v.val < 8000 ∧ 15000 ≤ max a.val b.val := by
        decide +kernel

theorem wit_LinkAndLogicSupplies_2 :
    let s : State := (ws fun d => d.put PSE_STAT_SRC 1)
    let v : Fin 65536 := 8799
    s.dev.sys.logicOn = true ∧ 8000 ≤ v.val ∧ v.val < 8800 := by decide +kernel

theorem wit_LinkAndLogicSupplies_3 : let s : State := (ws id); s.dev.sys.logicOn = true ∧ s.dev.get PSE_STAT_HOLDUP =
    0 := by decide +kernel

theorem wit_LinkAndLogicSupplies_4 :
    let s : State := (ws fun d => d.put (CU_STATE_STATE 63) 6)
    let v : Fin 65536 := 13999
    s.dev.sys.logicOn = true ∧ v.val < 14000 ∧ s.dev.get PSE_STAT_LINKUV = 0 ∧ s.dev.get PSE_STAT_HOLDUP = 0 ∧
        s.dev.peal.running = false := by decide +kernel

theorem wit_LinkAndLogicSupplies_5 :
    let s : State := (ws fun d => d.put (CU_STATE_STATE 63) 6)
    let v : Fin 65536 := 32501
    s.dev.sys.logicOn = true ∧ 32500 < v.val ∧ s.dev.get PSE_STAT_LINKOV = 0 ∧ s.dev.peal.running = false := by
        decide +kernel

theorem wit_LinkAndLogicSupplies_6 :
    let s : State := (ws fun d => ((d.put PSE_STAT_LINKUV 1).put (CU_STATE_STATE 63) 12).onPse fun p =>
        { p with faulted := 2 ^ 63 })
    let v : Fin 65536 := 16000
    s.dev.sys.logicOn = true ∧ 16000 ≤ v.val ∧ v.val ≤ 30000 ∧ (s.dev.get PSE_STAT_LINKUV = 1 ∨ s.dev.get
        PSE_STAT_LINKOV = 1) := by decide +kernel

theorem wit_LinkAndLogicSupplies_7 :
    let s : State := (ws id)
    let v : Fin 65536 := 28000
    s.dev.sys.logicOn = true ∧ s.dev.get PSE_VTHR0_VDECEL ≤ v.val / 5 ∧ s.dev.get PSE_STAT_VDECEL = 0 := by
        decide +kernel

theorem wit_LinkAndLogicSupplies_8 :
    let s : State := (ws id)
    s.dev.sys.logicOn = true := by decide +kernel

theorem wit_LinkAndLogicSupplies_9 :
    let s : State := (ws fun d => d.put PSE_CFG_CLMPEN 1)
    let v : Fin 65536 := 30000
    s.dev.sys.logicOn = true ∧ s.dev.get PSE_CFG_CLMPEN = 1 ∧ s.dev.get PSE_VTHR1_VCLON ≤ v.val / 5 ∧ s.dev.get
        PSE_STAT_CLAMPON = 0 := by decide +kernel

theorem wit_LinkAndLogicSupplies_10 :
    let s : State := (ws fun d => d.put PSE_STAT_CLAMPON 1)
    let v : Fin 65536 := 29499
    s.dev.sys.logicOn = true ∧ v.val / 5 < s.dev.get PSE_VTHR1_VCLOFF := by decide +kernel

theorem wit_LinkAndLogicSupplies_11 :
    let s : State := (ws id)
    let w : Word := 0x16A81388
    s.dev.sys.logicOn = true ∧ 5000 ≤ wordGet w 0 16 ∧ wordGet w 0 16 < wordGet w 16 16 ∧ wordGet w 16 16 < s.dev.get
        PSE_VTHR1_VCLOFF ∧ s.dev.get PSE_VTHR1_VCLOFF < s.dev.get PSE_VTHR1_VCLON ∧ s.dev.get PSE_VTHR1_VCLON ≤
        6200 := by decide +kernel

theorem wit_LinkAndLogicSupplies_12_0 :
    let s : State := (ws id)
    let w : Word := 0x1839170C
    s.dev.sys.logicOn = true ∧ (wordGet w 16 16 ≤ wordGet w 0 16 ∨ 6200 < wordGet w 16 16 ∨ wordGet w 0 16 ≤ s.dev.get
        PSE_VTHR0_VREGEN0) := by decide +kernel

theorem wit_LinkAndLogicSupplies_12_1 :
    let s : State := (ws id)
    let w : Word := 0x177016A8
    s.dev.sys.logicOn = true ∧ (wordGet w 16 16 ≤ wordGet w 0 16 ∨ 6200 < wordGet w 16 16 ∨ wordGet w 0 16 ≤ s.dev.get
        PSE_VTHR0_VREGEN0) := by decide +kernel

theorem wit_LinkAndLogicSupplies_13 :
    let s : State := (ws fun d => d.put PSE_STAT_CLAMPON 1)
    s.dev.sys.logicOn = true ∧ s.dev.get PSE_STAT_CLAMPON = 1 ∧ s.dev.get PSE_STAT_CLAMPLIM = 0 := by decide +kernel

theorem wit_LinkAndLogicSupplies_14 :
    let s : State := (ws fun d => d.put PSE_STAT_CLAMPLIM 1)
    s.dev.sys.logicOn = true ∧ 2 * s.dev.pse.clampUsed < 1050000000 := by decide +kernel

theorem wit_LinkAndLogicSupplies_15 :
    let s : State := (ws id)
    let x : Fin 32768 := 850
    s.dev.sys.logicOn = true ∧ 600 < x.val ∧ x.val ≤ 850 ∧ s.dev.get PSE_STAT_DERATE = 0 := by decide +kernel

theorem wit_LinkAndLogicSupplies_16 :
    let s : State := (ws fun d => d.put SYS_MODE_MODE 5)
    let x : Fin 32768 := 900
    s.dev.sys.logicOn = true ∧ 900 ≤ x.val ∧ s.dev.get PSE_STAT_OVTEMP = 0 := by decide +kernel

theorem wit_LinkAndLogicSupplies_17 :
    let s : State := (ws fun d => d.put PSE_STAT_OVTEMP 1)
    s.dev.sys.logicOn = true := by decide +kernel

theorem wit_PowerBudget_0 :
    let s : State := (ws id)
    s.dev.sys.logicOn = true := by decide +kernel

theorem wit_PowerBudget_1 :
    let s : State := (ws fun d => d.put PSE_STAT_INB 1)
    let x : Fin 2 := 1
    s.dev.sys.logicOn = true ∧ s.dev.get (inClosed x) = 1 ∧ s.dev.get (inClosed (1 - x.val)) = 0 := by decide +kernel

theorem wit_PowerBudget_2 :
    let s : State := (ws id)
    let a : Fin 64 := 63
    s.dev.sys.logicOn = true ∧ s.dev.lowest a = a.val := by decide +kernel

theorem wit_PowerBudget_3 :
    let s : State := (ws id)
    let v : Fin 65536 := 2000
    s.dev.sys.logicOn = true ∧ 1500 < v.val ∧ s.dev.get PSE_STAT_RIPPLE = 0 := by decide +kernel

theorem wit_PowerBudget_4 :
    let s : State := (ws id)
    s.dev.sys.logicOn = true ∧ (s.dev.now % 2000 ≠ 0 ∨ s.dev.timeOn = false) := by decide +kernel

theorem wit_PowerBudget_5 :
    let s : State := (ws fun d =>
        { ((d.put (CU_STATE_STATE 63) 6).put (CU_STATE_STATE 5) 6).put PSE_STAT_INA 1 with timeOn := true })
    s.dev.sys.logicOn = true ∧ s.dev.now % 2000 = 0 ∧ s.dev.timeOn = true := by decide +kernel

theorem wit_ClocksAndReferences_0 :
    let s : State := (ws id)
    s.dev.sys.logicOn = true := by decide +kernel

theorem wit_ClocksAndReferences_1 :
    let s : State := (ws fun d =>
        { ((d.put TRU_STAT_PLLALK 1).put TRU_STAT_PLLBLK 1).onTru fun x => { x with outage := true } with now := 9 })
    s.dev.sys.logicOn = true ∧ s.dev.timeOn = false ∧ s.dev.get TRU_STAT_PLLALK = 1 ∧ s.dev.get TRU_STAT_PLLBLK = 1 :=
        by decide +kernel

theorem wit_ClocksAndReferences_2 :
    let s : State := (ws fun d => { d with timeOn := true })
    s.dev.sys.logicOn = true ∧ s.dev.timeOn = true := by decide +kernel

theorem wit_ClocksAndReferences_3 :
    let s : State := (ws fun d => ((d.put SYS_MODE_MODE 5).put TRU_STAT_PLLALK 1))
    s.dev.sys.logicOn = true ∧ s.dev.mode ≠ .dormant ∧ s.dev.mode ≠ .selftest ∧ s.dev.mode ≠ .lockout := by
        decide +kernel

theorem wit_ClocksAndReferences_4 :
    let s : State := (ws fun d => { d with now := 2 ^ 33 + 5 })
    s.dev.sys.logicOn = true := by decide +kernel

theorem wit_ClocksAndReferences_5 :
    let s : State := (ws fun d => d.onTru fun x => { x with sits := 2 ^ 33 + 5 })
    s.dev.sys.logicOn = true := by decide +kernel

theorem wit_ClocksAndReferences_6 :
    let s : State := (ws fun d => d.put TRU_STAT_XQ 1)
    s.dev.sys.logicOn = true ∧ s.dev.get TRU_STAT_XTALFAIL = 0 ∧ s.dev.get TRU_STAT_XQ = 1 ∧ s.dev.get TRU_STAT_SEL =
        0 ∧ s.dev.get TRU_STAT_SIQ = 0 ∧ s.dev.get TRU_STAT_PLQ = 0 := by decide +kernel

theorem wit_ClocksAndReferences_7 :
    let s : State := (ws fun d => ((d.put TRU_STAT_SIQ 1).put TRU_CFG_SIMODE 2).put TRU_STAT_SEL 2)
    let w : Word := 1
    s.dev.sys.logicOn = true ∧ s.dev.get TRU_STAT_SIQ = 1 ∧ s.dev.siMode ≠ wordGet w 0 2 % 3 := by decide +kernel

theorem wit_ClocksAndReferences_8 :
    let s : State := (ws id)
    s.dev.sys.logicOn = true ∧ s.dev.siMode = 0 := by decide +kernel

theorem wit_ClocksAndReferences_9 :
    let s : State := (ws fun d =>
        { (d.put TRU_CFG_SIMODE 2).onTru fun x => { x with siEdge := some 0 } with now := 20000 })
    s.dev.sys.logicOn = true ∧ s.dev.siMode = 2 ∧ s.dev.tru.siEdge ≠ none := by decide +kernel

theorem wit_ClocksAndReferences_10 :
    let s : State := (ws fun d => (d.put TRU_CFG_SIMODE 1).onTru fun x => { x with siGood := 3 })
    s.dev.sys.logicOn = true ∧ s.dev.get TRU_STAT_SIQ = 0 ∧ s.dev.siMode ≠ 0 ∧ s.dev.siNeed ≤ s.dev.tru.siGood ∧
        s.dev.get TRU_STAT_SEL ≠ 2 := by decide +kernel

theorem wit_ClocksAndReferences_11 :
    let s : State := (ws fun d => d.put TRU_STAT_SIQ 1)
    s.dev.sys.logicOn = true ∧ s.dev.get TRU_STAT_SIQ = 1 ∧ s.dev.tru.siBad < 2 := by decide +kernel

theorem wit_ClocksAndReferences_12 :
    let s : State := (ws fun d =>
        { (((d.put TRU_CFG_SIMODE 2).put TRU_STAT_SIQ 1).put TRU_STAT_SEL 2).onTru fun x => { x with siEdge := some 0 } with now := 30000 })
    let k : Nat := 0
    s.dev.sys.logicOn = true ∧ s.dev.tru.siEdge = some k ∧ s.dev.siMode = 2 ∧ k + 30000 ≤ s.dev.now ∧ s.dev.get
        TRU_STAT_SIQ = 1 ∧ s.dev.get TRU_STAT_SEL = 2 := by decide +kernel

theorem wit_ClocksAndReferences_13 :
    let s : State := (ws fun d => { d.onTru fun x => { x with plAt := some 0 } with now := 10000000 })
    let k : Nat := 0
    s.dev.sys.logicOn = true ∧ s.dev.tru.plAt = some k ∧ k + 10000000 ≤ s.dev.now := by decide +kernel

theorem wit_SteeringAndSync_0 :
    let s : State := (ws fun d => { d.setReg TRU_FCORR 18000 with timeOn := true, now := 200000 })
    s.dev.sys.logicOn = true ∧ s.dev.timeOn = true ∧ s.dev.now % 200000 = 0 ∧ s.dev.get TRU_STAT_SEL = 0 ∧ -300000 ≤
        s.dev.fCorr ∧ s.dev.fCorr ≤ 300000 := by decide +kernel

theorem wit_SteeringAndSync_1 :
    let s : State := (ws fun d => { d with now := 1 })
    s.dev.sys.logicOn = true ∧ (s.dev.now % 200000 ≠ 0 ∨ s.dev.get TRU_STAT_SEL = 3) := by decide +kernel

theorem wit_SteeringAndSync_2 : (-300000 : Int) ≤ 18000 ∧ (18000 : Int) ≤ 300000 := by decide +kernel

theorem wit_SteeringAndSync_3 :
    let s : State := (ws fun d =>
        { ((d.put TRU_STAT_STATE 1).put TRU_STAT_SEL 2).onTru fun x => { x with lockSince := some 0 } with now := 200000000 })
    let k : Nat := 0
    s.dev.sys.logicOn = true ∧ s.dev.get TRU_STAT_STATE = 1 ∧ s.dev.get TRU_STAT_SEL = 2 ∧ s.dev.tru.lockSince = some
        k ∧ k + 200000000 ≤ s.dev.now := by decide +kernel

theorem wit_SteeringAndSync_4 :
    let s : State := (ws fun d => { d.put TRU_CFG_PLROLE 1 with timeOn := true })
    s.dev.sys.logicOn = true ∧ s.dev.timeOn = true ∧ s.dev.plRole = 1 ∧ s.dev.now % 2000000 = 0 := by decide +kernel

theorem wit_SteeringAndSync_5 :
    let s : State := (ws fun d => (d.put TRU_CFG_PLROLE 1).onTru fun x => { x with txSync := [(1, some 5)] })
    let l : Fin 2 := 1
    let n : Nat := 5
    s.dev.sys.logicOn = true ∧ s.dev.plRole = 1 ∧ tget none s.dev.tru.txSync l = some n := by decide +kernel

theorem wit_SteeringAndSync_6 :
    let s : State := (ws fun d => d.put TRU_CFG_PLROLE 1)
    s.dev.sys.logicOn = true ∧ s.dev.plRole = 1 := by decide +kernel

theorem wit_SteeringAndSync_7 :
    let s : State := (ws fun d => d.put TRU_CFG_PLROLE 2)
    s.dev.sys.logicOn = true ∧ s.dev.plRole ≠ 1 := by decide +kernel

theorem wit_SteeringAndSync_8 :
    let s : State := (ws fun d => (d.put TRU_CFG_PLROLE 2).onTru fun x =>
        { x with sync := [(1, some (31, 255, 0))], plAt := some 0 })
    let l : Fin 2 := 1
    let v : Fin 32 := 31
    let n : Fin 256 := 255
    let k : Nat := 0
    s.dev.sys.logicOn = true ∧ s.dev.plRole = 2 ∧ tget none s.dev.tru.sync l = some (v.val, n.val, k) ∧ s.dev.now ≤ k
        + 400000 ∧ s.dev.tru.plLast ≠ some (v.val, n.val) ∧ s.dev.tru.plAt ≠ none := by decide +kernel

theorem wit_SteeringAndSync_9 :
    let s : State := (ws fun d => { d.put TRU_SOCFG_EN 1 with timeOn := true })
    s.dev.sys.logicOn = true ∧ s.dev.timeOn = true ∧ s.dev.get TRU_SOCFG_EN = 1 ∧ s.dev.get TRU_SOCFG_QUALONLY = 0 ∧
        s.dev.get TRU_SOCFG_MODE = s.dev.tru.soMode ∧ s.dev.get TRU_SOOFS_OFS = s.dev.tru.soOfs ∧ soHit
        s.dev.tru.soMode s.dev.tru.soOfs s.dev.now = true ∧ s.dev.tru.soEdge = none := by decide +kernel

theorem wit_SteeringAndSync_10 :
    let s : State := (ws id)
    s.dev.sys.logicOn = true ∧ s.dev.get TRU_SOCFG_EN = 0 := by decide +kernel

theorem wit_ModeRequests_0_0 :
    let s : State := (ws fun d => d.put SYS_MODE_MODE 3)
    let w : Word := 0x80000006
    let k : Mode := .transport
    s.dev.sys.logicOn = true ∧ w.toNat.testBit 31 = true ∧ Mode.ofCode (wordGet w 0 4) = some k ∧ s.dev.modeRefusal k
        = 0 ∧ s.dev.mustStop k = false ∧ k ≠ .dormant ∧ (s.dev.mode ≠ .safe ∨ s.dev.pairLost = false) := by
        decide +kernel

theorem wit_ModeRequests_0_1 :
    let s : State := (ws fun d => d.put SYS_MODE_MODE 4)
    let w : Word := 0x80000005
    let k : Mode := .run
    s.dev.sys.logicOn = true ∧ w.toNat.testBit 31 = true ∧ Mode.ofCode (wordGet w 0 4) = some k ∧ s.dev.modeRefusal k
        = 0 ∧ s.dev.mustStop k = false ∧ k ≠ .dormant ∧ (s.dev.mode ≠ .safe ∨ s.dev.pairLost = false) := by
        decide +kernel

theorem wit_ModeRequests_1 :
    let s : State := (ws fun d => ((d.put SYS_MODE_MODE 3).put PSE_CFG_CLMPEN 1).put (CSL_PORT_ST 15 3) 1 |>.put
        (CU_STATE_STATE 63) 0)
    let m : Master := .debug
    let w : Word := 0x80000004
    s.dev.sys.logicOn = true ∧ isPair m = true ∧ w.toNat.testBit 31 = true ∧ wordGet w 0 4 = 4 ∧ s.dev.mode = .standby
        ∧ s.dev.get SYS_MODE_PEND = 0 ∧ s.dev.mustStop .armed = false ∧ s.dev.get PSE_CFG_CLMPEN = 1 := by
        decide +kernel

theorem wit_ModeRequests_2 :
    let s : State := (ws fun d => (((d.put SYS_MODE_MODE 10).put TRU_STAT_PLLALK 1).put TRU_STAT_PLLBLK 1).put
        (LSS_HOST_HOST 7 7) 7)
    let w : Word := 0x80000003
    s.dev.sys.logicOn = true ∧ w.toNat.testBit 31 = true ∧ wordGet w 0 4 = 3 ∧ s.dev.modeRefusal .standby = 0 ∧
        s.dev.mustStop .standby = false ∧ s.dev.mode = .safe ∧ s.dev.pairLost = true := by decide +kernel

theorem wit_ModeRequests_3_0 :
    let s : State := (ws fun d => (d.put SYS_MODE_MODE 5).put (CU_STATE_STATE 63) 5)
    let w : Word := 0x80000003
    let k : Mode := .standby
    s.dev.sys.logicOn = true ∧ w.toNat.testBit 31 = true ∧ Mode.ofCode (wordGet w 0 4) = some k ∧ s.dev.modeRefusal k
        = 0 ∧ s.dev.mustStop k = true := by decide +kernel

theorem wit_ModeRequests_3_1 :
    let s : State := (ws fun d => (d.put SYS_MODE_MODE 3).put (CU_STATE_STATE 63) 2)
    let w : Word := 0x80000000
    let k : Mode := .dormant
    s.dev.sys.logicOn = true ∧ w.toNat.testBit 31 = true ∧ Mode.ofCode (wordGet w 0 4) = some k ∧ s.dev.modeRefusal k
        = 0 ∧ s.dev.mustStop k = true := by decide +kernel

theorem wit_ModeRequests_4_0 :
    let s : State := (ws fun d => (d.put SYS_MODE_MODE 4).put JNL_STAT_MODE 1)
    let w : Word := 0x80000008
    let k : Mode := .service
    s.dev.sys.logicOn = true ∧ w.toNat.testBit 31 = true ∧ Mode.ofCode (wordGet w 0 4) = some k ∧ 0 <
        s.dev.modeRefusal k := by decide +kernel

theorem wit_ModeRequests_4_1 :
    let s : State := (ws fun d => (d.put SYS_MODE_MODE 10).put SYS_MODE_PEND 1)
    let w : Word := 0x80000003
    let k : Mode := .standby
    s.dev.sys.logicOn = true ∧ w.toNat.testBit 31 = true ∧ Mode.ofCode (wordGet w 0 4) = some k ∧ 0 <
        s.dev.modeRefusal k := by decide +kernel

theorem wit_ModeRequests_5 :
    let s : State := (ws id)
    let w : Word := 0x8000000F
    s.dev.sys.logicOn = true ∧ w.toNat.testBit 31 = true ∧ 12 ≤ wordGet w 0 4 := by decide +kernel

theorem wit_ModeRequests_6 :
    let s : State := (ws id)
    let w : Word := 5
    s.dev.sys.logicOn = true ∧ w.toNat.testBit 31 = false := by decide +kernel

theorem wit_ModeRequests_7_0 :
    let s : State := (ws fun d => d.put SYS_MODE_MODE 3)
    let v : Bool := true
    s.dev.sys.logicOn = true ∧ s.dev.mode = (if v then .standby else .service) ∧ s.dev.get SYS_MODE_PEND = 0 ∧ (∀ a :
        Fin 64, (s.dev.axSt a).atRest = true) := by decide +kernel

theorem wit_ModeRequests_7_1 :
    let s : State := (ws fun d => d.put SYS_MODE_MODE 8)
    let v : Bool := false
    s.dev.sys.logicOn = true ∧ s.dev.mode = (if v then .standby else .service) ∧ s.dev.get SYS_MODE_PEND = 0 ∧ (∀ a :
        Fin 64, (s.dev.axSt a).atRest = true) := by decide +kernel

theorem wit_ModeRequests_8 :
    let s : State := (ws fun d => d.put SYS_MODE_MODE 11)
    s.dev.sys.logicOn = true ∧ s.dev.mode = .lockout := by decide +kernel

theorem wit_ModeRequests_9 :
    let s : State := (ws fun d => ((d.put SYS_MODE_MODE 5).put SYS_MODE_PEND 1).put SYS_MODE_TARGET 6)
    let k : Mode := .transport
    s.dev.sys.logicOn = true ∧ s.dev.get SYS_MODE_PEND = 1 ∧ (∀ a : Fin 64, (s.dev.axSt a).atRest = true) ∧
        s.dev.sys.autoPend = false ∧ s.dev.get SYS_MODE_TARGET = k.code ∧ k ≠ .dormant ∧ s.dev.mode ≠ .safe := by
        decide +kernel

theorem wit_ModeRequests_10 :
    let s : State := (ws fun d => ((d.put SYS_MODE_MODE 5).put SYS_MODE_PEND 1).onSys fun h =>
        { h with autoPend := true })
    s.dev.sys.logicOn = true ∧ s.dev.get SYS_MODE_PEND = 1 ∧ (∀ a : Fin 64, (s.dev.axSt a).atRest = true) ∧
        s.dev.sys.autoPend = true ∧ (s.dev.mode = .run ∨ s.dev.mode = .service ∨ s.dev.mode = .degraded) := by
        decide +kernel

theorem wit_ModeRequests_11 :
    let s : State := (ws fun d => (d.put SYS_MODE_PEND 1).put (CU_STATE_STATE 63) 9)
    let a : Fin 64 := 63
    s.dev.sys.logicOn = true ∧ (s.dev.axSt a).atRest = false := by decide +kernel

theorem wit_ModeRequests_12 :
    let s : State := (ws fun d =>
        { ((d.put SYS_MODE_PEND 1).put SYS_STOPTO_MS 0).onSys fun h => { h with pendSince := some 3 } with now := 200003 })
    let k : Nat := 3
    s.dev.sys.logicOn = true ∧ s.dev.sys.pendSince = some k ∧ s.dev.get SYS_MODE_PEND = 1 ∧ s.dev.sys.autoPend = false
        ∧ k + max 1 (s.dev.get SYS_STOPTO_MS) * 200000 ≤ s.dev.now := by decide +kernel

theorem wit_ModeRequests_13 :
    let s : State := (ws fun d =>
        { ((d.put SYS_MODE_PEND 1).put SYS_STOPTO_MS 0).onSys fun h => { h with pendSince := some 3 } with now := 200002 })
    let k : Nat := 3
    s.dev.sys.logicOn = true ∧ s.dev.sys.pendSince = some k ∧ s.dev.now < k + max 1 (s.dev.get SYS_STOPTO_MS) *
        200000 := by decide +kernel

theorem wit_ModeRequests_14 :
    let s : State := (ws fun d =>
        { (d.put (CU_STATE_STATE 63) 2).onSix 63 fun x => { x with bemfLow := some 1 } with now := 2000001 })
    let a : Fin 64 := 63
    s.dev.sys.logicOn = true ∧ s.dev.axSt a = .hiz ∧ s.dev.lowest a = a.val ∧ (∀ k ∈ s.dev.members a, ∃ x ∈
        (s.dev.sixOf k).bemfLow, x + 2000000 ≤ s.dev.now) := by decide +kernel

theorem wit_ModeRequests_15 :
    let s : State := (ws id)
    let a : Fin 64 := 0
    s.dev.sys.logicOn = true ∧ ((s.dev.sixOf a).bemfLow = none ∨ s.dev.axSt a ≠ .hiz) ∧ s.dev.members a = [a.val] :=
        by decide +kernel

theorem wit_DormantAndResets_0 :
    let s : State := (ws fun d =>
        { ((d.put SYS_MODE_MODE 3).put JNL_STAT_MODE 1).onSys fun h => { h with autoSince := some 1 } with now := 2000000001 })
    let k : Nat := 1
    s.dev.sys.logicOn = true ∧ s.dev.sys.autoSince = some k ∧ s.dev.get SYS_DLY_SEC ≠ 0 ∧ k + s.dev.get SYS_DLY_SEC *
        200000000 ≤ s.dev.now := by decide +kernel

theorem wit_DormantAndResets_1 :
    let s : State := (ws fun d =>
        { (d.put SYS_DLY_SEC 0).onSys fun h => { h with autoSince := some 1 } with now := 2000000001 })
    let k : Nat := 1
    s.dev.sys.logicOn = true ∧ s.dev.sys.autoSince = some k ∧ (s.dev.get SYS_DLY_SEC = 0 ∨ s.dev.now < k + s.dev.get
        SYS_DLY_SEC * 200000000) := by decide +kernel

theorem wit_DormantAndResets_2 :
    let s : State := (ws fun d => d.put SYS_MODE_MODE 0)
    s.dev.sys.logicOn = true ∧ s.dev.mode = .dormant ∧ s.dev.sys.wakeLatch = 0 := by decide +kernel

theorem wit_DormantAndResets_3 :
    let s : State := (ws fun d => (d.put SYS_MODE_MODE 0).onSys fun h => { h with wakeLatch := 0x81 })
    s.dev.sys.logicOn = true ∧ s.dev.mode = .dormant ∧ 0 < s.dev.sys.wakeLatch := by decide +kernel

theorem wit_DormantAndResets_4 :
    let s : State := (ws fun d =>
        { (d.put SYS_MODE_MODE 0).onSys fun h => { h with logicOn := false } with now := 7 })
    let n : Fin 256 := 0x90
    s.dev.sys.logicOn = false ∧ s.dev.mode = .dormant ∧ s.dev.wakeEnabled n ≠ 0 := by decide +kernel

theorem wit_DormantAndResets_5 :
    let s : State := (ws fun d =>
        { (d.put SYS_MODE_MODE 0).onSys fun h => { h with logicOn := false } with now := 7 })
    let n : Fin 256 := 0x10
    s.dev.sys.logicOn = false ∧ s.dev.mode = .dormant ∧ s.dev.wakeEnabled n ≠ 0 := by decide +kernel

theorem wit_DormantAndResets_6 :
    let s : State := (ws fun d => d.put SYS_MODE_MODE 0)
    let n : Fin 256 := 0x10
    s.dev.sys.logicOn = true ∧ s.dev.mode = .dormant ∧ s.dev.wakeEnabled n ≠ 0 := by decide +kernel

theorem wit_DormantAndResets_7 :
    let s : State := (ws fun d => d.put SYS_MODE_MODE 0)
    let n : Fin 256 := 0x80
    (s.dev.mode ≠ .dormant ∨ s.dev.wakeEnabled n = 0) := by decide +kernel

theorem wit_DormantAndResets_8 :
    let s : State := (ws fun d => (d.put SYS_MODE_MODE 0).onSys fun h => { h with logicOn := false, slots := 0x8000 })
    let a : Fin 64 := 63
    let l : Bool := true
    s.dev.sys.logicOn = false ∧ s.dev.mode = .dormant ∧ s.dev.sys.slots.testBit (a.val / 4) = true ∧
        s.dev.sys.motorPins.testBit a.val = !l ∧ s.dev.get SYS_WAKEEN_MOTOR = 1 ∧ s.dev.sys.wakeLatch = 0 := by
        decide +kernel

theorem wit_DormantAndResets_9 :
    let s : State := (ws fun d => ((d.put SYS_MODE_MODE 0).put SYS_WAKEEN_MOTOR 0).onSys fun h =>
        { h with logicOn := false, slots := 0x8000 })
    let a : Fin 64 := 63
    let l : Bool := true
    s.dev.sys.logicOn = false ∧ s.dev.mode = .dormant ∧ s.dev.sys.slots.testBit (a.val / 4) = true ∧
        s.dev.sys.motorPins.testBit a.val = !l ∧ s.dev.get SYS_WAKEEN_MOTOR = 0 := by decide +kernel

theorem wit_DormantAndResets_10 :
    let s : State := (ws id)
    let a : Fin 64 := 63
    let l : Bool := false
    s.dev.sys.motorPins.testBit a.val = l := by decide +kernel

theorem wit_DormantAndResets_11_0 :
    let s : State := (ws fun d =>
        { (((d.put SYS_LOCK_LATCH 1).put SYS_LOCK_CAUSE 3).onSys fun h => { h with logicOn := false, aon := true }) with now := 7 })
    s.dev.sys.logicOn = false := by decide +kernel

theorem wit_DormantAndResets_11_1 :
    let s : State := (ws fun d => (d.onSys fun h => { h with logicOn := false, aon := false }).onJnl fun j =>
        { j with log := [{ typ := 13, payload := [0x80000003] }] })
    s.dev.sys.logicOn = false := by decide +kernel

theorem wit_DormantAndResets_12 :
    let s : State := (wsm (memSet [] 0x10000000 5) fun d => d.onSys fun h => { h with logicOn := false })
    s.dev.sys.logicOn = false := by decide +kernel

theorem wit_DormantAndResets_13 :
    let s : State := (ws fun d => { d with timeOn := true })
    s.dev.sys.logicOn = true ∧ (s.dev.mode ≠ .selftest ∨ s.dev.timeOn = true) := by decide +kernel

theorem wit_DormantAndResets_14 :
    let s : State := (ws fun d => { d.onSys fun h => { h with logicOn := false, aon := true } with now := 7 })
    s.dev.sys.logicOn = false := by decide +kernel

theorem wit_DormantAndResets_15 :
    let s : State := (ws id)
    s.dev.sys.logicOn = true := by decide +kernel

theorem wit_DormantAndResets_16 :
    let s : State := (ws fun d =>
        { (d.put PSE_STAT_HOLDUP 1).onPse fun x => { x with holdAt := 1 } with now := 2400001 })
    s.dev.sys.logicOn = true ∧ s.dev.get PSE_STAT_HOLDUP = 1 ∧ s.dev.pse.holdAt + 2400000 ≤ s.dev.now := by
        decide +kernel

theorem wit_DormantAndResets_17 :
    let s : State := (ws fun d =>
        { (d.put PSE_STAT_HOLDUP 1).onPse fun x => { x with holdAt := 1 } with now := 2400001 })
    s.dev.sys.logicOn = true ∧ s.dev.get PSE_STAT_HOLDUP = 1 ∧ s.dev.pse.holdAt + 2400000 ≤ s.dev.now := by
        decide +kernel

theorem wit_DormantAndResets_18 :
    let s : State := (ws id)
    s.dev.sys.logicOn = true ∧ (s.dev.get PSE_STAT_HOLDUP = 0 ∨ s.dev.now < s.dev.pse.holdAt + 2400000) := by
        decide +kernel

theorem wit_DormantAndResets_19 : (ws fun d => { d with timeOn := true }).dev.sys.logicOn = true ∧ (ws fun d =>
    { d with timeOn := true }).dev.mode = .selftest ∧ (ws fun d => { d with timeOn := true }).dev.timeOn = true := by
    decide +kernel

theorem wit_DormantAndResets_20 :
    let s : State := (wsm (memSet [] 0x100000000 5) fun d => (d.put SYS_MODE_MODE 3).put JNL_STAT_MODE 4)
    let w : Word := 0xC5000001
    s.dev.sys.logicOn = true ∧ wordGet w 24 8 = 0xC5 ∧ w.toNat.testBit 0 = true ∧ s.dev.warmRefused = false ∧
        s.dev.jnlOpen = false ∧ s.dev.get JNL_STAT_MODE ≠ 3 := by decide +kernel

theorem wit_DormantAndResets_21 :
    let s : State := (ws fun d => (d.put SYS_MODE_MODE 3).put JNL_STAT_MODE 1)
    let w : Word := 0xC5000001
    s.dev.sys.logicOn = true ∧ wordGet w 24 8 = 0xC5 ∧ w.toNat.testBit 0 = true ∧ s.dev.warmRefused = false := by
        decide +kernel

theorem wit_DormantAndResets_22 :
    let s : State := (ws id)
    let w : Word := 0xC5000001
    s.dev.sys.logicOn = true ∧ wordGet w 24 8 = 0xC5 ∧ w.toNat.testBit 0 = true ∧ s.dev.warmRefused = true := by
        decide +kernel

theorem wit_DormantAndResets_23 :
    let s : State := (ws id)
    let w : Word := 0xC5000000
    s.dev.sys.logicOn = true ∧ (wordGet w 24 8 ≠ 0xC5 ∨ w.toNat.testBit 0 = false) := by decide +kernel

theorem wit_DormantAndResets_24 :
    let s : State := (ws fun d => (d.put SYS_MODE_MODE 3).put (CSL_STAT_STATE 15) 4)
    s.dev.sys.logicOn = true ∧ s.dev.warmRefused = false := by decide +kernel

theorem wit_DormantAndResets_25 :
    let s : State := (ws fun d => (d.put SYS_MODE_MODE 5).put (CU_STATE_STATE 63) 2)
    s.dev.sys.logicOn = true ∧ s.dev.warmRefused = true := by decide +kernel

theorem wit_DormantAndResets_26 :
    let s : State := (ws fun d => d.put SYS_MODE_MODE 5)
    s.dev.sys.logicOn = true ∧ s.dev.mode ≠ .dormant := by decide +kernel

theorem wit_DormantAndResets_27 :
    let s : State := (ws fun d => (d.put SYS_MODE_MODE 11).setReg SYS_LOCK 0xC0000001)
    s.dev.sys.logicOn = true ∧ s.dev.mode = .lockout ∧ s.dev.get SYS_LOCK_PORSEEN = 1 := by decide +kernel

theorem wit_DormantAndResets_28 :
    let s : State := (ws fun d => (d.put SYS_MODE_MODE 11).setReg SYS_LOCK 0xC0000001)
    let k : Nat := 999999
    s.dev.sys.logicOn = true ∧ 0 < k ∧ k < 1000000 := by decide +kernel

theorem wit_DormantAndResets_29 :
    let s : State := (ws fun d => d.put SYS_MODE_MODE 11)
    s.dev.sys.logicOn = true ∧ (s.dev.mode ≠ .lockout ∨ s.dev.get SYS_LOCK_PORSEEN = 0) := by decide +kernel

theorem wit_Peals_0 :
    let s : State := (ws id)
    let w : Word := 0x7FFFFFFF
    s.dev.sys.logicOn = true ∧ w.toNat.testBit 31 = false := by decide +kernel

theorem wit_Peals_1 :
    let s : State := (ws fun d => d.onPeal fun x => { x with running := true })
    let w : Word := 0x80000000
    s.dev.sys.logicOn = true ∧ w.toNat.testBit 31 = true ∧ s.dev.peal.running = true := by decide +kernel

theorem wit_Peals_2_0 :
    let s : State := (ws id)
    let p : Fin 5 := 0
    let w : Word := 0x80000000
    s.dev.sys.logicOn = true ∧ w.toNat.testBit 31 = true ∧ s.dev.peal.running = false ∧ (axesOf s.dev.pealMask = [] ∨
        5 < wordGet w 16 4 ∨ (s.dev.sup ≠ p.val ∧ ∃ a ∈ axesOf s.dev.pealMask, s.dev.host a ≠ p.val)) := by
        decide +kernel

theorem wit_Peals_2_1 :
    let s : State := (ws fun d => d.setReg SYS_PEAL_MHI 0x80000000)
    let p : Fin 5 := 0
    let w : Word := 0x80060000
    s.dev.sys.logicOn = true ∧ w.toNat.testBit 31 = true ∧ s.dev.peal.running = false ∧ (axesOf s.dev.pealMask = [] ∨
        5 < wordGet w 16 4 ∨ (s.dev.sup ≠ p.val ∧ ∃ a ∈ axesOf s.dev.pealMask, s.dev.host a ≠ p.val)) := by
        decide +kernel

theorem wit_Peals_2_2 :
    let s : State := (ws fun d => d.setReg SYS_PEAL_MHI 0x80000000)
    let p : Fin 5 := 1
    let w : Word := 0x80000000
    s.dev.sys.logicOn = true ∧ w.toNat.testBit 31 = true ∧ s.dev.peal.running = false ∧ (axesOf s.dev.pealMask = [] ∨
        5 < wordGet w 16 4 ∨ (s.dev.sup ≠ p.val ∧ ∃ a ∈ axesOf s.dev.pealMask, s.dev.host a ≠ p.val)) := by
        decide +kernel

theorem wit_Peals_3_0 :
    let s : State := (ws fun d => ((d.setReg SYS_PEAL_MHI 0x80000000).put (CU_STATE_STATE 63) 6))
    let p : Fin 5 := 0
    let w : Word := 0x80020001
    s.dev.sys.logicOn = true ∧ w.toNat.testBit 31 = true ∧ s.dev.peal.running = false ∧ axesOf s.dev.pealMask ≠ [] ∧
        wordGet w 16 4 ≤ 5 ∧ (s.dev.sup = p.val ∨ (∀ a ∈ axesOf s.dev.pealMask, s.dev.host a = p.val)) ∧ (∀ a ∈ axesOf
        s.dev.pealMask, s.dev.pealRefuses (wordGet w 16 4) a = false) := by decide +kernel

theorem wit_Peals_3_1 :
    let s : State := (ws fun d => ((d.setReg SYS_PEAL_MHI 0x80000000).put (CU_STATE_STATE 63) 6))
    let p : Fin 5 := 3
    let w : Word := 0x800403FF
    s.dev.sys.logicOn = true ∧ w.toNat.testBit 31 = true ∧ s.dev.peal.running = false ∧ axesOf s.dev.pealMask ≠ [] ∧
        wordGet w 16 4 ≤ 5 ∧ (s.dev.sup = p.val ∨ (∀ a ∈ axesOf s.dev.pealMask, s.dev.host a = p.val)) ∧ (∀ a ∈ axesOf
        s.dev.pealMask, s.dev.pealRefuses (wordGet w 16 4) a = false) := by decide +kernel

theorem wit_Peals_4 :
    let s : State := (ws fun d => (d.setReg SYS_PEAL_MHI 0x80000000).setReg SYS_PEAL_MLO 1)
    let p : Fin 5 := 0
    let w : Word := 0x80010000
    s.dev.sys.logicOn = true ∧ w.toNat.testBit 31 = true ∧ s.dev.peal.running = false ∧ axesOf s.dev.pealMask ≠ [] ∧
        wordGet w 16 4 ≤ 5 ∧ (s.dev.sup = p.val ∨ (∀ a ∈ axesOf s.dev.pealMask, s.dev.host a = p.val)) ∧ (∃ a ∈ axesOf
        s.dev.pealMask, s.dev.pealRefuses (wordGet w 16 4) a = true) := by decide +kernel

theorem wit_Peals_5 :
    let s : State := (ws fun d =>
        { d.onPeal fun x => { x with running := true, mask := 2 ^ 63 + 1, voted := [0] } with now := 20000 })
    s.dev.sys.logicOn = true ∧ s.dev.peal.running = true ∧ s.dev.peal.tc = none ∧ s.dev.peal.goAt + 20000 ≤
        s.dev.now := by decide +kernel

theorem wit_Peals_6 :
    let s : State := (ws id)
    s.dev.sys.logicOn = true ∧ (s.dev.peal.running = false ∨ s.dev.peal.tc ≠ none ∨ s.dev.now < s.dev.peal.goAt +
        20000) := by decide +kernel

theorem wit_Peals_7 :
    let s : State := (ws fun d => (d.onPeal fun x =>
        { x with running := true, mask := 2 ^ 63 + 1, tc := some 0, action := 5, mixed := 1 }))
    let k : Nat := 0
    s.dev.sys.logicOn = true ∧ s.dev.peal.running = true ∧ s.dev.peal.tc = some k ∧ k ≤ s.dev.now := by decide +kernel

theorem wit_Peals_8 :
    let s : State := (ws fun d => ((d.put (CU_STATE_STATE 63) 6).onPeal fun x =>
        { x with running := true, mask := 2 ^ 63, tc := some 0, action := 2 }))
    let k : Nat := 0
    let a : Fin 64 := 63
    s.dev.sys.logicOn = true ∧ s.dev.peal.running = true ∧ s.dev.peal.tc = some k ∧ k ≤ s.dev.now ∧ s.dev.peal.action
        = 2 ∧ s.dev.peal.mask = 2 ^ a.val ∧ s.dev.peal.mixed = 0 ∧ s.dev.members a = [a.val] ∧ s.dev.axSt a =
        .sixstep := by decide +kernel

theorem wit_Peals_9 :
    let s : State := (ws id)
    s.dev.sys.logicOn = true ∧ (s.dev.peal.running = false ∨ s.dev.peal.tc = none) := by decide +kernel

theorem wit_PwmLoads_0_0 :
    let s : State := (ws fun d => { d with now := 1001 })
    let m : Master := .debug
    let a : Fin 64 := 5
    s.dev.sys.logicOn = true ∧ s.dev.ldRights m a = true ∧ s.dev.members a = [a.val] ∧ (s.dev.pwmOf a).armed = [] ∧
        s.dev.firstStart a (s.dev.now + 8) ≠ s.dev.now + 8 := by decide +kernel

theorem wit_PwmLoads_0_1 :
    let s : State := (ws fun d => { d with now := 7 })
    let m : Master := .engine 7
    let a : Fin 64 := 63
    s.dev.sys.logicOn = true ∧ s.dev.ldRights m a = true ∧ s.dev.members a = [a.val] ∧ (s.dev.pwmOf a).armed = [] ∧
        s.dev.firstStart a (s.dev.now + 8) ≠ s.dev.now + 8 := by decide +kernel

theorem wit_PwmLoads_1 :
    let s : State := (ws fun d => { d.onPwm 63 (fun p => { p with armed := [9995] }) with now := 9992 })
    let a : Fin 64 := 63
    let T : Nat := 10000
    s.dev.sys.logicOn = true ∧ s.dev.loadStart a = some T ∧ T ≤ s.dev.now + 8 ∧ (s.dev.pwmOf a).capt = none ∧
        (s.dev.pwmOf a).wr = none := by decide +kernel

theorem wit_PwmLoads_2 :
    let s : State := (ws fun d =>
        { (d.put (CU_STATE_STATE 3) 0).onPwm 3 (fun p => { p with capt := some (20000, [1000, 3, 4, 5, 6, 7, 8, 9, 10]) }) with now := 20000, timeOn := true })
    let a : Fin 64 := 3
    let T : Nat := 20000
    let p : Nat := 1000
    let o : Nat := 3
    let u : Nat := 4
    let v : Nat := 5
    let w : Nat := 6
    let c : Nat := 7
    let b : Nat := 8
    let g : Nat := 9
    let h : Nat := 10
    s.dev.sys.logicOn = true ∧ s.dev.timeOn = true ∧ s.dev.members a = [a.val] ∧ s.dev.axSt a = .off ∧ s.dev.ssq.mig =
        none ∧ s.dev.ssq.moves = [] ∧ (s.dev.pwmOf a).bridge = none ∧ (s.dev.pwmOf a).armed = [] ∧ (s.dev.pwmOf
        a).capt = some (T, [p, o, u, v, w, c, b, g, h]) ∧ T ≤ s.dev.now ∧ (s.dev.pwmOf a).refDue = 0 ∧ s.dev.cnt a
        s.dev.now = 0 := by decide +kernel

theorem wit_PwmGates_0 :
    let s : State := (ws fun d =>
        { d.onPwm 9 (fun p => { p with phV := { old := 2, tgt := 2 } }) with now := 200000 })
    let a : Fin 64 := 9
    s.dev.sys.logicOn = true ∧ s.dev.members a = [a.val] ∧ s.dev.refreshDue a ≠ 0 := by decide +kernel

theorem wit_PwmGates_1 :
    let s : State := (ws fun d =>
        { ((d.put (CSL_STAT_STATE 15) 2).onPwm 63 (fun p => { p with trig1 := 0x80140025 })) with now := 10017 })
    let a : Fin 64 := 63
    let n : Fin 2 := 1
    s.dev.sys.logicOn = true ∧ s.dev.present (a.val / 4) = true ∧ s.dev.trigOn a n = true ∧ s.dev.bridging a s.dev.now
        = none ∧ s.dev.bridging a (s.dev.now + s.dev.trigAnn a n) = none ∧ s.dev.cnt a (s.dev.now + s.dev.trigAnn a n)
        = s.dev.trigPos a n := by decide +kernel

theorem wit_PwmGates_2 :
    let s : State := (ws fun d =>
        { ((d.put (CSL_STAT_STATE 15) 2).onPwm 63 (fun p => { p with trig1 := 0x80140005 })) with now := 10005 })
    let a : Fin 64 := 63
    let n : Fin 2 := 1
    s.dev.sys.logicOn = true ∧ s.dev.present (a.val / 4) = true ∧ s.dev.trigOn a n = true ∧ s.dev.bridging a s.dev.now
        = none ∧ s.dev.cnt a s.dev.now = s.dev.trigPos a n := by decide +kernel

theorem wit_PwmGates_3_0 :
    let s : State := (ws fun d => d.put (CU_STATE_STATE 0) 0)
    let a : Fin 64 := 0
    s.dev.sys.logicOn = true ∧ s.dev.axSt a ≠ .absent := by decide +kernel

theorem wit_PwmGates_3_1 :
    let s : State := (ws fun d => d.put (CU_STATE_STATE 63) 8)
    let a : Fin 64 := 63
    s.dev.sys.logicOn = true ∧ s.dev.axSt a ≠ .absent := by decide +kernel

theorem wit_PwmGates_4 :
    let s : State := (ws fun d => d.put (CU_STATE_STATE 5) 6)
    let a : Fin 64 := 5
    let iu : Int := -451
    s.dev.sys.logicOn = true ∧ s.dev.axSt a ≠ .absent ∧ clampN 50 499 (s.dev.get (PWM_OCTRIP_TRIP a)) < iu.natAbs :=
        by decide +kernel

theorem wit_PwmGates_5 :
    let s : State := (ws fun d => d.put (CU_STATE_STATE 62) 1)
    let a : Fin 64 := 62
    s.dev.sys.logicOn = true ∧ s.dev.axSt a ≠ .absent := by decide +kernel

theorem wit_PwmGates_6 :
    let s : State := (ws fun d => d.setReg (PWM_FLT 2) 0x7FF)
    let a : Fin 64 := 2
    s.dev.sys.logicOn = true ∧ s.dev.asserted a = 0 := by decide +kernel

theorem wit_CartridgeLink_0 :
    let s : State := (ws fun d => { d.put (CSL_STAT_STATE 3) 2 with now := 77 })
    let q : Fin 16 := 3
    s.dev.sys.logicOn = true ∧ s.dev.present q = true := by decide +kernel

theorem wit_CartridgeLink_1 :
    let s : State := (ws fun d => { d.put (CSL_STAT_STATE 3) 2 with now := 77 })
    let q : Fin 16 := 3
    s.dev.sys.logicOn = true ∧ s.dev.present q = true := by decide +kernel

theorem wit_CartridgeLink_2 :
    let s : State := (ws fun d => d.put (CSL_STAT_STATE 3) 2)
    let q : Fin 16 := 3
    s.dev.sys.logicOn = true ∧ s.dev.present q = true := by decide +kernel

theorem wit_CartridgeLink_3 :
    let s : State := (ws fun d => d.put (CSL_STAT_STATE 3) 2)
    let q : Fin 16 := 3
    s.dev.sys.logicOn = true ∧ s.dev.present q = true := by decide +kernel

theorem wit_CartridgeLink_4 :
    let s : State := (ws fun d => d.put (CSL_STAT_STATE 0) 2)
    let q : Fin 16 := 0
    s.dev.sys.logicOn = true ∧ s.dev.present q = true := by decide +kernel

theorem wit_CartridgeLink_5 :
    let s : State := (ws fun d => { d.put (CSL_STAT_STATE 15) 2 with now := 20 })
    let q : Fin 16 := 15
    s.dev.sys.logicOn = true ∧ s.dev.present q = true ∧ (s.dev.linkOf q).validAt + 20 ≤ s.dev.now := by decide +kernel

theorem wit_CartridgeLink_6 :
    let s : State := (ws fun d => (((((d.put (CU_STATE_STATE 8) 0).put (CU_STATE_STATE 9) 6).put (CU_STATE_STATE 10)
        2).put (CU_STATE_STATE 11) 12).onLink 2 fun l => { l with badUp := List.replicate 16 0 }))
    let q : Fin 16 := 2
    s.dev.sys.logicOn = true ∧ 16 ≤ ((s.dev.linkOf q).badUp.filter fun x => s.dev.now < x + 200000).length ∧ (∀ p :
        Fin 4, s.dev.axSt (4 * q.val + p.val) ≠ .absent) := by decide +kernel

theorem wit_ConversionResults_0_0 :
    let s : State := (ws fun d => d.put (CSL_STAT_STATE 15) 2)
    let q : Fin 16 := 15
    let x : Fin 2 := 1
    s.dev.sys.logicOn = true ∧ s.dev.present q = true ∧ s.dev.away q = none ∧ s.dev.holdFree q x s.dev.now = true ∧
        s.dev.get (AC_CTL_INTLV q) = 0 ∧ s.dev.get (AC_STAT_INTLV q) = 0 := by decide +kernel

theorem wit_ConversionResults_0_1 :
    let s : State := (ws fun d => d.put (CSL_STAT_STATE 0) 2)
    let q : Fin 16 := 0
    let x : Fin 2 := 0
    s.dev.sys.logicOn = true ∧ s.dev.present q = true ∧ s.dev.away q = none ∧ s.dev.holdFree q x s.dev.now = true ∧
        s.dev.get (AC_CTL_INTLV q) = 0 ∧ s.dev.get (AC_STAT_INTLV q) = 0 := by decide +kernel

theorem wit_ConversionResults_1_0 :
    let s : State := (ws fun d =>
        { ((d.put (CSL_STAT_STATE 2) 2).onClu 2 fun c => { c with a := { c.a with seq := [0, 33] } }) with now := 1000 })
    let q : Fin 16 := 2
    let x : Fin 2 := 0
    let n : Fin 32 := 1
    let ch : Nat := 33
    s.dev.sys.logicOn = true ∧ s.dev.present q = true ∧ s.dev.get (AC_STAT_INTLV q) = 0 ∧ s.dev.entryCh q x n
        (s.dev.now - 17) = some ch ∧ ch < 64 ∧ (32 ≤ ch ∨ ch % 8 ≤ 1) := by decide +kernel

theorem wit_ConversionResults_1_1 :
    let s : State := (ws fun d =>
        { ((d.put (CSL_STAT_STATE 2) 2).onClu 2 fun c => { c with a := { c.a with seq := [0, 33] } }) with now := 1000 })
    let q : Fin 16 := 2
    let x : Fin 2 := 0
    let n : Fin 32 := 0
    let ch : Nat := 0
    s.dev.sys.logicOn = true ∧ s.dev.present q = true ∧ s.dev.get (AC_STAT_INTLV q) = 0 ∧ s.dev.entryCh q x n
        (s.dev.now - 17) = some ch ∧ ch < 64 ∧ (32 ≤ ch ∨ ch % 8 ≤ 1) := by decide +kernel

theorem wit_ConversionResults_2_0 :
    let s : State := (ws fun d => { (d.put (CSL_STAT_STATE 15) 2) with now := 20 })
    let q : Fin 16 := 15
    s.dev.sys.logicOn = true ∧ s.dev.present q = true := by decide +kernel

theorem wit_ConversionResults_2_1 :
    let s : State := (ws fun d => { (d.put (CSL_STAT_STATE 15) 2) with now := 20 })
    let q : Fin 16 := 15
    s.dev.sys.logicOn = true ∧ s.dev.present q = true := by decide +kernel

theorem wit_ConversionResults_3_0 :
    let s : State := (ws fun d =>
        { ((d.put (CSL_STAT_STATE 2) 2).onClu 2 fun c => { c with a := { c.a with hk := 1 } }) with now := 1000 })
    let q : Fin 16 := 2
    s.dev.sys.logicOn = true ∧ s.dev.present q = true ∧ s.dev.hkDue q 0 = true ∧ ((s.dev.cluOf q).conv 0).hk = 1 := by
        decide +kernel

theorem wit_ConversionResults_3_1 :
    let s : State := (ws fun d =>
        { ((d.put (CSL_STAT_STATE 2) 2).onClu 2 fun c => { c with a := { c.a with hk := 1 } }) with now := 1000 })
    let q : Fin 16 := 2
    s.dev.sys.logicOn = true ∧ s.dev.present q = true ∧ s.dev.hkDue q 0 = true ∧ ((s.dev.cluOf q).conv 0).hk = 1 := by
        decide +kernel

theorem wit_UrgentRequests_0 :
    let s : State := (ws fun d => { ((d.put (CSL_STAT_STATE 2) 2).put (CU_STATE_STATE 8) 8) with now := 980 })
    let a : Fin 64 := 8
    s.dev.sys.logicOn = true ∧ s.dev.lowest a = a.val ∧ s.dev.present (a.val / 4) = true ∧ s.dev.ticking a = true ∧
        s.dev.onTick a (s.dev.now + 20) = true := by decide +kernel

theorem wit_UrgentRequests_1 :
    let s : State := (ws fun d =>
        { (((d.put (CSL_STAT_STATE 2) 2).setReg (AC_UCFG 2 3) 0x98).onClu 2 fun c => { c with reqs := [{ pos := 3, src := .trig0, tr := 77 }] }) with now := 77 })
    let q : Fin 16 := 2
    let r : UReq := { pos := 3, src := .trig0, tr := 77 }
    s.dev.sys.logicOn = true ∧ s.dev.present q = true ∧ r.tr = s.dev.now ∧ r.src = .trig0 ∧ r.pos < 4 ∧ (s.dev.cluOf
        q).reqs = [r] ∧ (s.dev.cluOf q).ann = [] ∧ wordGet (s.dev.reg (AC_UCFG q r.pos)) 7 1 = 1 ∧ wordGet (s.dev.reg
        (AC_UCFG q r.pos)) 15 1 = 0 := by decide +kernel

theorem wit_UrgentRequests_2 :
    let s : State := (ws fun d =>
        { (((d.put (CSL_STAT_STATE 2) 2).setReg (AC_UCFG 2 3) 0x98).onClu 2 fun c => { c with reqs := [{ pos := 3, src := .trig0, tr := 77 }], ann := [{ pos := 3, src := .trig0, tr := 77, annAt := 57 }] }) with now := 77 })
    let q : Fin 16 := 2
    let r : UReq := { pos := 3, src := .trig0, tr := 77 }
    s.dev.sys.logicOn = true ∧ s.dev.present q = true ∧ r.tr = s.dev.now ∧ r.src = .trig0 ∧ r.pos < 4 ∧ (s.dev.cluOf
        q).reqs = [r] ∧ (s.dev.cluOf q).ann = [{ r with annAt := s.dev.now - 20 }] ∧ 20 ≤ s.dev.now ∧ s.dev.away q =
        none ∧ (s.dev.cluOf q).a.busy ≤ s.dev.now ∧ wordGet (s.dev.reg (AC_UCFG q r.pos)) 7 1 = 1 ∧ wordGet (s.dev.reg
        (AC_UCFG q r.pos)) 15 1 = 0 := by decide +kernel

theorem wit_UrgentRequests_3 :
    let s : State := (ws fun d => d.onClu 15 fun c => { c with drops := 16 })
    let q : Fin 16 := 15
    s.dev.sys.logicOn = true ∧ s.dev.get (AC_DROPTH_TH q) ≠ 0 ∧ (s.dev.cluOf q).win = s.dev.now / 200000 ∧ s.dev.get
        (AC_DROPTH_TH q) ≤ (s.dev.cluOf q).drops ∧ (s.dev.cluOf q).dropRaised = false := by decide +kernel

theorem wit_ReferenceMonitor_0 :
    let s : State := (ws fun d => { (d.onClu 3 fun c => { c with refAt := some 0 }) with now := 80000 })
    let q : Fin 16 := 3
    let x : Nat := 0
    s.dev.sys.logicOn = true ∧ (s.dev.cluOf q).refAt = some x ∧ x + 80000 ≤ s.dev.now := by decide +kernel

theorem wit_ReferenceMonitor_1 :
    let s : State := (ws fun d => d.onClu 15 fun c => { c with b := { c.b with bad := 3 } })
    let q : Fin 16 := 15
    s.dev.sys.logicOn = true ∧ (3 ≤ (s.dev.cluOf q).a.bad ∨ 3 ≤ (s.dev.cluOf q).b.bad) ∧ s.dev.get (AC_STAT_REFBAD q)
        = 0 ∧ (∀ p : Fin 4, (s.dev.axSt (4 * q.val + p.val)).driving = false) := by decide +kernel

theorem wit_ReferenceMonitor_2 :
    let s : State := (ws fun d => (d.put (CU_STATE_STATE 62) 6).onClu 15 fun c =>
        { c with a := { c.a with bad := 3 } })
    let q : Fin 16 := 15
    let p : Fin 4 := 2
    s.dev.sys.logicOn = true ∧ 3 ≤ (s.dev.cluOf q).a.bad ∧ s.dev.get (AC_STAT_REFBAD q) = 0 ∧ s.dev.bondBits q = 0 ∧
        s.dev.axSt (4 * q.val + p.val) = .sixstep := by decide +kernel

theorem wit_ReferenceMonitor_3 :
    let s : State := (ws fun d => (d.put (AC_STAT_REFBAD 4) 1).onClu 4 fun c =>
        { c with a := { c.a with good := 64 }, b := { c.b with good := 64 } })
    let q : Fin 16 := 4
    s.dev.sys.logicOn = true ∧ 64 ≤ (s.dev.cluOf q).a.good ∧ 64 ≤ (s.dev.cluOf q).b.good := by decide +kernel

theorem wit_Recalibration_0 :
    let s : State := (ws fun d => (d.put (CSL_STAT_STATE 2) 2).put (AC_STAT_REFRDY 2) 1)
    let q : Fin 16 := 2
    s.dev.sys.logicOn = true ∧ s.dev.get (AC_STAT_CALBUSY q) = 0 ∧ s.dev.get (AC_STAT_REFRDY q) = 1 ∧ s.dev.get
        (AC_STAT_REFBAD q) = 0 ∧ s.dev.present q = true := by decide +kernel

theorem wit_Recalibration_1 :
    let s : State := (ws fun d => d.put (AC_STAT_CALBUSY 2) 1)
    let q : Fin 16 := 2
    s.dev.sys.logicOn = true ∧ s.dev.get (AC_STAT_CALBUSY q) = 1 := by decide +kernel

theorem wit_Recalibration_2 :
    let s : State := (ws id)
    let q : Fin 16 := 2
    s.dev.sys.logicOn = true ∧ s.dev.get (AC_STAT_CALBUSY q) = 0 ∧ (s.dev.get (AC_STAT_REFRDY q) = 0 ∨ s.dev.get
        (AC_STAT_REFBAD q) = 1) := by decide +kernel

theorem wit_Recalibration_3 :
    let s : State := (ws fun d => d.put (AC_CAL_PHASE 2) 1)
    let q : Fin 16 := 2
    s.dev.sys.logicOn = true ∧ s.dev.get (AC_CAL_PHASE q) = 1 ∧ (s.dev.cluOf q).calConv ≤ 1 := by decide +kernel

theorem wit_Recalibration_4 :
    let s : State := (ws fun d => d.put (AC_CAL_PHASE 2) 2)
    let q : Fin 16 := 2
    s.dev.sys.logicOn = true ∧ s.dev.get (AC_CAL_PHASE q) = 2 ∧ (s.dev.cluOf q).calEnd ≤ s.dev.now := by
        decide +kernel

theorem wit_Recalibration_5 :
    let s : State := (ws fun d => (d.put (AC_CAL_PHASE 2) 3).onClu 2 fun c => { c with calSkew := true })
    let q : Fin 16 := 2
    let sum : Nat := 49152000
    s.dev.sys.logicOn = true ∧ s.dev.get (AC_CAL_PHASE q) = 3 ∧ (s.dev.cluOf q).calEnd ≤ s.dev.now ∧ (s.dev.cluOf
        q).calSkew = true ∧ (s.dev.cluOf q).calOfs * 4096 < sum * 16 := by decide +kernel

theorem wit_Recalibration_6 :
    let s : State := (ws fun d => (d.put (AC_CAL_PHASE 2) 4).onClu 2 fun c => { c with calSkew := true })
    let q : Fin 16 := 2
    let skew : Int := 41
    s.dev.sys.logicOn = true ∧ s.dev.get (AC_CAL_PHASE q) = 4 ∧ (s.dev.cluOf q).calEnd ≤ s.dev.now ∧ (s.dev.cluOf
        q).calSkew = true ∧ 40 < (skew - s.dev.getS (AC_SKEW_SKEW q 1)).natAbs := by decide +kernel

theorem wit_Recalibration_7 :
    let s : State := (ws fun d => (d.put (AC_CAL_PHASE 2) 4).onClu 2 fun c => { c with calSkew := true })
    let q : Fin 16 := 2
    let skew : Int := -40
    s.dev.sys.logicOn = true ∧ s.dev.get (AC_CAL_PHASE q) = 4 ∧ (s.dev.cluOf q).calEnd ≤ s.dev.now ∧ (s.dev.cluOf
        q).calSkew = true ∧ (s.dev.cluOf q).calConv ≤ 1 ∧ (skew - s.dev.getS (AC_SKEW_SKEW q 1)).natAbs ≤ 40 ∧
        ((s.dev.cluOf q).calOfs - s.dev.getS (AC_OFS_OFS q (s.dev.cluOf q).calConv)).natAbs ≤ 512 ∧ ((s.dev.cluOf
        q).calGain - s.dev.getS (AC_GAIN_GAIN q (s.dev.cluOf q).calConv)).natAbs ≤ 2621 := by decide +kernel

theorem wit_Recalibration_8 :
    let s : State := (ws fun d => d.put (AC_CAL_PHASE 15) 5)
    let q : Fin 16 := 15
    s.dev.sys.logicOn = true ∧ s.dev.get (AC_CAL_PHASE q) = 5 := by decide +kernel

theorem wit_SixStepCommutation_0_0 :
    let s : State := (ws fun d => ((d.put (CU_STATE_STATE 7) 6).put (CU_STATE_STEP 7) 5).onSix 7 fun h =>
        { h with nextC := some 0 })
    let a : Fin 64 := 7
    let k : Nat := 0
    s.dev.sys.logicOn = true ∧ s.dev.members a = [a.val] ∧ s.dev.axSt a = .sixstep ∧ (s.dev.sixOf a).nextC = some
        s.dev.now ∧ (s.dev.sixOf a).nextS = none ∧ (s.dev.sixOf a).test = none ∧ (s.dev.sixOf a).pkSteps < 5 ∧ k =
        nextStep (s.dev.get (CU_STATE_STEP a)) (s.dev.get (CU_STATE_DIR a)) := by decide +kernel

theorem wit_SixStepCommutation_0_1 :
    let s : State := (ws fun d => (((d.put (CU_STATE_STATE 7) 6).put (CU_STATE_STEP 7) 0).put (CU_STATE_DIR 7)
        1).onSix 7 fun h => { h with nextC := some 0 })
    let a : Fin 64 := 7
    let k : Nat := 5
    s.dev.sys.logicOn = true ∧ s.dev.members a = [a.val] ∧ s.dev.axSt a = .sixstep ∧ (s.dev.sixOf a).nextC = some
        s.dev.now ∧ (s.dev.sixOf a).nextS = none ∧ (s.dev.sixOf a).test = none ∧ (s.dev.sixOf a).pkSteps < 5 ∧ k =
        nextStep (s.dev.get (CU_STATE_STEP a)) (s.dev.get (CU_STATE_DIR a)) := by decide +kernel

theorem wit_SixStepCommutation_1 :
    let s : State := (ws fun d =>
        { ((d.put (CU_STATE_STATE 45) 6).put (CU_T1_T 45) 400000).onSix 45 fun h => { h with tExp := some 404000 } with now := 404000 })
    let a : Fin 64 := 45
    let te : Nat := 404000
    s.dev.sys.logicOn = true ∧ s.dev.axSt a = .sixstep ∧ s.dev.hallDrives a = false ∧ (s.dev.sixOf a).tExp = some te ∧
        te ≤ s.dev.now ∧ (s.dev.sixOf a).crossed = false ∧ (s.dev.sixOf a).test = none ∧ (s.dev.sixOf a).perReq ≤ te ∧
        (s.dev.sixOf a).cls = .skipped ∧ s.dev.get (CU_STAT_NPRED a) < 7 := by decide +kernel

theorem wit_SixStepCommutation_2 :
    let s : State := (ws fun d =>
        { (d.put (CU_STATE_STATE 45) 6).onSix 45 fun h => { h with tExp := some 404000, cls := .valid } with now := 404000 })
    let a : Fin 64 := 45
    let te : Nat := 404000
    s.dev.sys.logicOn = true ∧ s.dev.axSt a = .sixstep ∧ s.dev.hallDrives a = false ∧ (s.dev.sixOf a).tExp = some te ∧
        te ≤ s.dev.now ∧ (s.dev.sixOf a).crossed = false ∧ (s.dev.sixOf a).test = none ∧ (s.dev.sixOf a).perReq ≤ te ∧
        (s.dev.sixOf a).cls = .valid := by decide +kernel

theorem wit_SixStepCommutation_3 :
    let s : State := (ws fun d => (d.put (CU_STATE_STATE 0) 6).put (CU_STAT_NPRED 0) 8)
    let a : Fin 64 := 0
    s.dev.sys.logicOn = true ∧ s.dev.axSt a = .sixstep ∧ s.dev.get (CU_STAT_NPRED a) = 8 ∧ (s.dev.sixOf a).fltAt ≠
        some s.dev.now := by decide +kernel

theorem wit_SixStepCommutation_4 :
    let s : State := (ws fun d => (d.put (CU_STATE_STATE 63) 6).onSix 63 fun h => { h with lateEnd := some 0 })
    let a : Fin 64 := 63
    let te : Nat := 0
    s.dev.sys.logicOn = true ∧ s.dev.members a = [a.val] ∧ s.dev.axSt a = .sixstep ∧ (s.dev.sixOf a).lateEnd = some te
        ∧ te ≤ s.dev.now ∧ (s.dev.sixOf a).crossed = false := by decide +kernel

theorem wit_PhaseTest_0_0 :
    let s : State := (ws fun d => (d.put (CU_STATE_STATE 63) 6).onSix 63 fun h => { h with test := some .late })
    let a : Fin 64 := 63
    let o : TestOrigin := .late
    s.dev.sys.logicOn = true ∧ (s.dev.sixOf a).test = some o ∧ s.dev.axSt a ≠ .absent ∧ (s.dev.sixOf a).fltAt ≠ some
        s.dev.now := by decide +kernel

theorem wit_PhaseTest_0_1 :
    let s : State := (ws fun d => (d.put (CU_STATE_STATE 63) 4).onSix 63 fun h => { h with test := some .align })
    let a : Fin 64 := 63
    let o : TestOrigin := .align
    s.dev.sys.logicOn = true ∧ (s.dev.sixOf a).test = some o ∧ s.dev.axSt a ≠ .absent ∧ (s.dev.sixOf a).fltAt ≠ some
        s.dev.now := by decide +kernel

theorem wit_PhaseTest_1 :
    let s : State := (ws fun d => (d.put (CU_STATE_STATE 63) 6).onSix 63 fun h => { h with test := some .late })
    let a : Fin 64 := 63
    let o : TestOrigin := .late
    s.dev.sys.logicOn = true ∧ (s.dev.sixOf a).test = some o ∧ s.dev.axSt a ≠ .absent ∧ (s.dev.sixOf a).fltAt ≠ some
        s.dev.now := by decide +kernel

theorem wit_PhaseTest_2 :
    let s : State := (ws fun d => (d.put (CU_STATE_STATE 63) 4).onSix 63 fun h => { h with alignEnd := some 0 })
    let a : Fin 64 := 63
    let te : Nat := 0
    s.dev.sys.logicOn = true ∧ s.dev.members a = [a.val] ∧ s.dev.axSt a = .align ∧ (s.dev.sixOf a).alignEnd = some te
        ∧ te ≤ s.dev.now := by decide +kernel

theorem wit_PhaseTest_3 :
    let s : State := (ws fun d =>
        { (d.put (CU_STATE_STATE 63) 4).onSix 63 fun h => { h with noCurSince := some 0 } with now := 2000000 })
    let a : Fin 64 := 63
    let x : Nat := 0
    s.dev.sys.logicOn = true ∧ s.dev.members a = [a.val] ∧ s.dev.axSt a = .align ∧ (s.dev.sixOf a).noCurSince = some x
        ∧ x + 2000000 ≤ s.dev.now := by decide +kernel

theorem wit_PhaseTest_4 :
    let s : State := (ws fun d => (d.put (CU_STATE_STATE 63) 5).onSix 63 fun h =>
        { h with rampX := some 5, rampC := 100000 })
    let a : Fin 64 := 63
    let x : Nat := 5
    s.dev.sys.logicOn = true ∧ s.dev.members a = [a.val] ∧ s.dev.axSt a = .ramp ∧ (s.dev.sixOf a).rampX = some x := by
        decide +kernel

theorem wit_PhaseTest_5 :
    let s : State := (ws fun d => { d.put (CU_STATE_STATE 3) 5 with now := 65535 * 200000 })
    let a : Fin 64 := 3
    s.dev.sys.logicOn = true ∧ s.dev.axSt a = .ramp ∧ (s.dev.sixOf a).rampAt + max 1 (s.dev.get (CU_RAMP1_T a)) *
        200000 ≤ s.dev.now ∧ (s.dev.sixOf a).fltAt ≠ some s.dev.now := by decide +kernel

theorem wit_PhaseTest_6 :
    let s : State := (ws fun d => (d.put (CU_STATE_STATE 63) 6).onSix 63 fun h => { h with lowBoth := 4 })
    let a : Fin 64 := 63
    s.dev.sys.logicOn = true ∧ s.dev.axSt a = .sixstep ∧ (s.dev.sixOf a).lowBoth = 4 ∧ (s.dev.sixOf a).fltAt ≠ some
        s.dev.now := by decide +kernel

theorem wit_PhaseTest_7 :
    let s : State := (ws id)
    let a : Fin 64 := 3
    let code : Fin 8 := 7
    s.dev.sys.logicOn = true ∧ 6 ≤ s.dev.get (CU_HALLMAP_MAP a code.val) ∧ (s.dev.sixOf a).hallBad = none := by
        decide +kernel

theorem wit_PhaseTest_8 :
    let s : State := (ws fun d => (d.put (CU_STATE_STATE 3) 5).put (CU_HALL_MODE 3) 2)
    let a : Fin 64 := 3
    let code : Fin 8 := 1
    s.dev.sys.logicOn = true ∧ s.dev.get (CU_HALLMAP_MAP a code.val) < 6 ∧ s.dev.axSt a = .ramp ∧ s.dev.hallMode a =
        2 := by decide +kernel

theorem wit_PhaseTest_9 :
    let s : State := (ws fun d =>
        { ((d.put (CU_STATE_STATE 3) 6).put (CU_HALL_MODE 3) 2).onSix 3 fun h => { h with hallBad := some 0 } with now := 2000 })
    let a : Fin 64 := 3
    let x : Nat := 0
    s.dev.sys.logicOn = true ∧ s.dev.axSt a = .sixstep ∧ s.dev.hallMode a ≠ 0 ∧ (s.dev.sixOf a).hallBad = some x ∧ x +
        2000 ≤ s.dev.now ∧ (s.dev.sixOf a).fltAt ≠ some s.dev.now := by decide +kernel

theorem wit_CatchAndRecover_0 :
    let s : State := (ws fun d => d.put (CU_STATE_STATE 3) 3)
    let a : Fin 64 := 3
    let e : Fin 16384 := 113
    s.dev.sys.logicOn = true ∧ s.dev.members a = [a.val] ∧ s.dev.axSt a = .catch_ ∧ (s.dev.sixOf a).joinAt = none ∧
        (s.dev.sixOf a).catchAt + (s.dev.sixOf a).catchLen * ((s.dev.sixOf a).catchExt + 1) ≤ s.dev.now ∧ e.val <
        s.dev.get (CU_CATCH_BEMFMIN a) ∧ s.dev.hallMode a = 0 := by decide +kernel

theorem wit_CatchAndRecover_1 :
    let s : State := (ws fun d => d.put (CU_STATE_STATE 3) 3)
    let a : Fin 64 := 3
    let e : Fin 16384 := 16383
    let dth : Int := 910
    s.dev.sys.logicOn = true ∧ s.dev.axSt a = .catch_ ∧ (s.dev.sixOf a).joinAt = none ∧ (s.dev.sixOf a).catchAt +
        (s.dev.sixOf a).catchLen * ((s.dev.sixOf a).catchExt + 1) ≤ s.dev.now ∧ s.dev.get (CU_CATCH_BEMFMIN a) ≤ e.val
        ∧ dth.natAbs * 360 < 5 * 65536 ∧ (s.dev.sixOf a).catchExt < 3 := by decide +kernel

theorem wit_CatchAndRecover_2 :
    let s : State := (ws fun d => (d.put (CU_STATE_STATE 3) 3).put PSE_VLINK_VLINK 24000)
    let a : Fin 64 := 3
    let e : Fin 16384 := 500
    let dth : Int := 911
    s.dev.sys.logicOn = true ∧ s.dev.axSt a = .catch_ ∧ (s.dev.sixOf a).joinAt = none ∧ (s.dev.sixOf a).catchAt +
        (s.dev.sixOf a).catchLen * ((s.dev.sixOf a).catchExt + 1) ≤ s.dev.now ∧ s.dev.get (CU_CATCH_BEMFMIN a) ≤ e.val
        ∧ 5 * 65536 ≤ dth.natAbs * 360 ∧ 3 * e.val * e.val ≤ (s.dev.vseg (a.val / 4)).toNat * (s.dev.vseg (a.val /
        4)).toNat ∧ s.dev.get (CU_STATE_DIR a) = (if dth < 0 then 1 else 0) := by decide +kernel

theorem wit_CatchAndRecover_3 :
    let s : State := (ws fun d =>
        { (d.put (CU_STATE_STATE 3) 3).onSix 3 fun h => { h with joinAt := some 0, catchM := { th := 40000, dth := 911, dt := 100 } } with timeOn := true })
    let a : Fin 64 := 3
    let x : Nat := 0
    s.dev.sys.logicOn = true ∧ s.dev.members a = [a.val] ∧ s.dev.axSt a = .catch_ ∧ (s.dev.sixOf a).joinAt = some x ∧
        x ≤ s.dev.now ∧ s.dev.atStart a = true ∧ (s.dev.dtcOf a).revOn = false ∧ s.dev.get (CU_DTCCFG_EN a) = 0 := by
        decide +kernel

theorem wit_CatchAndRecover_4 :
    let s : State := (ws fun d => (d.put (CU_STATE_STATE 3) 11).onSix 3 fun h => { h with recoverEnd := some 0 })
    let a : Fin 64 := 3
    let x : Nat := 0
    s.dev.sys.logicOn = true ∧ s.dev.members a = [a.val] ∧ s.dev.axSt a = .recover ∧ (s.dev.sixOf a).recoverEnd = some
        x ∧ x ≤ s.dev.now := by decide +kernel

theorem wit_AxisCommands_0 :
    let s : State := (ws fun d => ((d.put (CU_STATE_STATE 3) 0).put SYS_MODE_MODE 5).put (CSL_PORT_ST 0 3) 1)
    let a : Fin 64 := 3
    s.dev.sys.logicOn = true ∧ s.dev.get ⟨CU_BOND (4 * (a.val / 4)), 0, 3⟩ = 0 ∧ s.dev.bondBits (a.val / 4) = 0 ∧
        s.dev.axSt a = .off ∧ s.dev.startReason a = 0 := by decide +kernel

theorem wit_AxisCommands_1_0 :
    let s : State := (ws fun d => ((d.put (CU_STATE_STATE 3) 2).put SYS_MODE_MODE 5).put (CSL_PORT_ST 0 3) 1)
    let a : Fin 64 := 3
    s.dev.sys.logicOn = true ∧ s.dev.members a = [a.val] ∧ (s.dev.axSt a = .hiz ∨ s.dev.axSt a = .fault) ∧
        s.dev.startReason a = 0 := by decide +kernel

theorem wit_AxisCommands_1_1 :
    let s : State := (ws fun d => ((d.put (CU_STATE_STATE 3) 12).put SYS_MODE_MODE 5).put (CSL_PORT_ST 0 3) 1)
    let a : Fin 64 := 3
    s.dev.sys.logicOn = true ∧ s.dev.members a = [a.val] ∧ (s.dev.axSt a = .hiz ∨ s.dev.axSt a = .fault) ∧
        s.dev.startReason a = 0 := by decide +kernel

theorem wit_AxisCommands_2_0 :
    let s : State := (ws fun d => d.put (CU_STATE_STATE 3) 6)
    let a : Fin 64 := 3
    s.dev.sys.logicOn = true ∧ s.dev.members a = [a.val] ∧ s.dev.axSt a ≠ .off ∧ s.dev.startReason a ≠ 0 ∧
        s.dev.startReason a < 16 := by decide +kernel

theorem wit_AxisCommands_2_1 :
    let s : State := (ws id)
    let a : Fin 64 := 3
    s.dev.sys.logicOn = true ∧ s.dev.members a = [a.val] ∧ s.dev.axSt a ≠ .off ∧ s.dev.startReason a ≠ 0 ∧
        s.dev.startReason a < 16 := by decide +kernel

theorem wit_AxisCommands_3 :
    let s : State := (ws fun d => d.put (CU_STATE_STATE 3) 5)
    let a : Fin 64 := 3
    s.dev.sys.logicOn = true ∧ s.dev.members a = [a.val] ∧ s.dev.axSt a = .ramp := by decide +kernel

theorem wit_AxisCommands_4 :
    let s : State := (ws fun d => active 3 (d.put (CU_STATE_STATE 3) 6))
    let a : Fin 64 := 3
    s.dev.sys.logicOn = true ∧ s.dev.members a = [a.val] ∧ s.dev.axSt a = .sixstep ∧ s.dev.isQuad a = false ∧
        s.dev.loopActive a = true := by decide +kernel

theorem wit_AxisCommands_5 :
    let s : State := (ws fun d => d.put (CU_STATE_STATE 3) 12)
    let a : Fin 64 := 3
    s.dev.sys.logicOn = true ∧ s.dev.members a = [a.val] ∧ s.dev.axSt a = .fault ∧ (s.dev.dtcOf a).revWaiting =
        false := by decide +kernel

theorem wit_AxisCommands_6 :
    let s : State := (ws fun d => d.put (CU_STATE_STATE 3) 6)
    let a : Fin 64 := 3
    s.dev.sys.logicOn = true ∧ s.dev.members a = [a.val] ∧ s.dev.axSt a = .sixstep := by decide +kernel

theorem wit_AxisCommands_7 :
    let s : State := (ws fun d => (d.put (CU_STATE_STATE 3) 12).put (CU_FLT_CODE 3) 8)
    let a : Fin 64 := 3
    s.dev.sys.logicOn = true ∧ s.dev.members a = [a.val] ∧ s.dev.axSt a = .fault := by decide +kernel

theorem wit_AxisCommands_8 :
    let s : State := (ws fun d => active 3 (d.put (CU_STATE_STATE 3) 6))
    let a : Fin 64 := 3
    s.dev.sys.logicOn = true ∧ s.dev.members a = [a.val] ∧ s.dev.axSt a = .sixstep ∧ s.dev.isQuad a = false ∧
        s.dev.loopActive a = true := by decide +kernel

theorem wit_AxisCommands_9 :
    let s : State := (ws fun d => d.put (CU_STATE_STATE 3) 2)
    let a : Fin 64 := 3
    s.dev.sys.logicOn = true ∧ s.dev.members a = [a.val] ∧ s.dev.axSt a = .hiz := by decide +kernel

theorem wit_TorqueControl_0 :
    let s : State := (ws fun d =>
        { (d.put (CU_STATE_STATE 3) 8).onDtc 3 fun h => { h with tickAt := some 0 } with now := 45 })
    let a : Fin 64 := 3
    let x : Nat := 0
    s.dev.sys.logicOn = true ∧ s.dev.lowest a = a.val ∧ s.dev.ticking a = true ∧ (s.dev.dtcOf a).tickAt = some x ∧
        s.dev.now = x + (if s.dev.duty a then 38 else 45) ∧ s.dev.tickCurrents a x = none := by decide +kernel

theorem wit_TorqueControl_1 :
    let s : State := (ws fun d =>
        { (((d.put (CU_STATE_STATE 3) 7).put (CSL_STAT_STATE 0) 2).setReg (AC_RSLT 0 0 0) 0x60064 |>.setReg (AC_RSLT 0 1 0) 0x64032).onDtc 3 fun h => { h with tickAt := some 100, psiA := 655360 } with now := 145, stamp := [(AC_RSLT 0 0 0, some 100), (AC_RSLT 0 1 0, some 100)] })
    let a : Fin 64 := 3
    let x : Nat := 100
    let iu : Int := 100
    let iw : Int := 50
    let age : Nat := 17
    s.dev.sys.logicOn = true ∧ s.dev.members a = [a.val] ∧ s.dev.axSt a = .handover ∧ (s.dev.dtcOf a).tickAt = some x
        ∧ s.dev.now = x + (if s.dev.duty a then 38 else 45) ∧ s.dev.tickCurrents a x = some (iu, iw, age) ∧
        (s.dev.dtcOf a).hoReady = false ∧ s.dev.psi0 a = 0 ∧ (s.dev.speed a).natAbs < s.dev.dnSpd a := by
        decide +kernel

theorem wit_TorqueControl_2 :
    let s : State := (ws fun d => (d.put (CU_STATE_STATE 63) 8).onDtc 63 fun h => { h with noInt := 64 })
    let a : Fin 64 := 63
    s.dev.sys.logicOn = true ∧ s.dev.axSt a = .dtc ∧ 64 ≤ (s.dev.dtcOf a).noInt ∧ (s.dev.sixOf a).fltAt ≠ some
        s.dev.now := by decide +kernel

theorem wit_TorqueControl_3 :
    let s : State := (ws fun d => d.put (CU_STATE_STATE 63) 7)
    let a : Fin 64 := 63
    s.dev.sys.logicOn = true ∧ s.dev.members a = [a.val] ∧ s.dev.axSt a = .handover ∧ (s.dev.dtcOf a).hoReady = false
        ∧ (s.dev.dtcOf a).hoAt + 4 * s.dev.get (CU_TPRED_T a) ≤ s.dev.now := by decide +kernel

theorem wit_TorqueControl_4_0 :
    let s : State := (ws fun d => d.put SYS_MODE_MODE 2)
    let w : Word := 4
    s.dev.sys.logicOn = true ∧ s.dev.mode = .configure ∧ (w.toNat.testBit 2 = false ∨ w.toNat % 4 = 0) := by
        decide +kernel

theorem wit_TorqueControl_4_1 :
    let s : State := (ws fun d => d.put SYS_MODE_MODE 2)
    let w : Word := 3
    s.dev.sys.logicOn = true ∧ s.dev.mode = .configure ∧ (w.toNat.testBit 2 = false ∨ w.toNat % 4 = 0) := by
        decide +kernel

theorem wit_TorqueControl_5_0 :
    let s : State := (ws fun d => d.put SYS_MODE_MODE 2)
    let w : Word := 5
    s.dev.sys.logicOn = true ∧ (s.dev.mode ≠ .configure ∨ (w.toNat.testBit 2 = true ∧ w.toNat % 4 ≠ 0)) := by
        decide +kernel

theorem wit_TorqueControl_5_1 :
    let s : State := (ws id)
    let w : Word := 1
    s.dev.sys.logicOn = true ∧ (s.dev.mode ≠ .configure ∨ (w.toNat.testBit 2 = true ∧ w.toNat % 4 ≠ 0)) := by
        decide +kernel

theorem wit_TorqueControl_6 :
    let s : State := (ws fun d => ((d.put (CU_STATE_STATE 62) 8).put (CU_DTCSTAT_SHMEM 60) 2).onDtc 60 fun h =>
        { h with shBad := 255 })
    let a : Fin 64 := 60
    s.dev.sys.logicOn = true ∧ s.dev.lowest a = a.val ∧ max 1 (s.dev.get (CU_BTOL_SHN a)) ≤ (s.dev.dtcOf a).shBad ∧
        s.dev.axSt (4 * (a.val / 4) + s.dev.get (CU_DTCSTAT_SHMEM a)) ≠ .absent ∧ (s.dev.sixOf (4 * (a.val / 4) +
        s.dev.get (CU_DTCSTAT_SHMEM a))).fltAt ≠ some s.dev.now := by decide +kernel

theorem wit_TorqueControl_7 :
    let s : State := (ws fun d =>
        { (((d.put (CU_STATE_STATE 3) 2).put SYS_MODE_MODE 5).put (CSL_PORT_ST 0 3) 1).onDtc 3 fun h => { h with revWaiting := true, revLow := some 0, revDir := 1 } with now := 1000000000 })
    let a : Fin 64 := 3
    let x : Nat := 0
    s.dev.sys.logicOn = true ∧ s.dev.members a = [a.val] ∧ s.dev.axSt a = .hiz ∧ (s.dev.dtcOf a).revLow = some x ∧
        (s.dev.dtcOf a).revWaiting = true ∧ x + s.dev.get (CU_REV_WAIT a) * 200000 ≤ s.dev.now ∧ s.dev.startReason a =
        0 ∧ (s.dev.dtcOf a).revDir < 2 := by decide +kernel

theorem wit_TorqueControl_8 :
    let s : State := (ws fun d =>
        { d.onDtc 3 fun h => { h with revWaiting := true, revLow := some 0 } with now := 1000000000 })
    let a : Fin 64 := 3
    let x : Nat := 0
    s.dev.sys.logicOn = true ∧ (s.dev.dtcOf a).revLow = some x ∧ (s.dev.dtcOf a).revWaiting = true ∧ x + s.dev.get
        (CU_REV_WAIT a) * 200000 ≤ s.dev.now ∧ s.dev.startReason a ≠ 0 ∧ s.dev.startReason a < 16 := by decide +kernel

theorem wit_LoopFramesAndRuns_0 :
    let s : State := (ws fun d =>
        { (d.put (LE_STAT_RUN 7) 1).onEng 7 fun g => { g with schPend := true } with now := 2000, timeOn := true })
    let e : Fin 8 := 7
    s.dev.sys.logicOn = true ∧ s.dev.frameStart e = true ∧ (s.dev.engOf e).schPend = true := by decide +kernel

theorem wit_LoopFramesAndRuns_1 :
    let s : State := (ws fun d => (((d.put (LE_STAT_RUN 7) 1).setReg (bankBase 7 0 + 0x200 + 0x80 * 23)
        0x80000111).setReg (bankBase 7 0) 0x10000000).setReg (bankBase 7 0 + 4) 23)
    let e : Fin 8 := 7
    let k : Fin 24 := 23
    let i : Fin 64 := 0
    let b : Nat := 0
    s.dev.entryNow e i = true ∧ (s.dev.schedEntry e (s.dev.get (LE_CTL_SCHBANK e)) i).kind = 1 ∧ (s.dev.schedEntry e
        (s.dev.get (LE_CTL_SCHBANK e)) i).loop = k.val ∧ 8 ≤ k.val ∧ s.dev.commitDue e k = false ∧ b = s.dev.formeBank
        e k ∧ s.dev.loopEn e b k = true ∧ (s.dev.loopOf e k).memStop = false ∧ (s.dev.loopOf e k).stop = false ∧
        s.dev.regionsOf e b k 0 ≠ [] ∧ s.dev.loopM e b k = 1 ∧ s.dev.dest e b k 0 0 = 0 := by decide +kernel

theorem wit_LoopFramesAndRuns_2 :
    let s : State := (ws fun d => (((d.put (LE_STAT_RUN 7) 1).setReg (bankBase 7 0 + 0x200 + 0x80 * 23)
        0x80000111).setReg (bankBase 7 0) 0x10000000).setReg (bankBase 7 0 + 4) 23)
    let e : Fin 8 := 7
    let k : Fin 24 := 23
    let i : Fin 64 := 0
    s.dev.entryNow e i = true ∧ (s.dev.schedEntry e (s.dev.get (LE_CTL_SCHBANK e)) i).kind = 1 ∧ (s.dev.schedEntry e
        (s.dev.get (LE_CTL_SCHBANK e)) i).loop = k.val ∧ 8 ≤ k.val ∧ s.dev.loopEn e (s.dev.formeBank e k) k = true ∧
        (s.dev.loopOf e k).memStop = false ∧ (s.dev.loopOf e k).stop = false := by decide +kernel

theorem wit_LoopFramesAndRuns_3 :
    let s : State := (ws fun d => d.onLoop 7 23 fun l => { l with impl := 1 })
    let e : Fin 8 := 7
    let k : Fin 24 := 23
    s.dev.sys.logicOn = true ∧ (s.dev.loopOf e k).impl ≠ 0 ∧ 8 ≤ k.val ∧ s.dev.descF e (s.dev.formeBank e k) k 0 28 2
        = 0 := by decide +kernel

theorem wit_LoopFramesAndRuns_4 :
    let s : State := (ws fun d => d.onLoop 0 8 fun l => { l with inval := true })
    let e : Fin 8 := 0
    let k : Fin 24 := 8
    s.dev.sys.logicOn = true ∧ (s.dev.loopOf e k).inval = true ∧ 8 ≤ k.val ∧ s.dev.descF e (s.dev.formeBank e k) k 0
        28 2 = 0 := by decide +kernel

theorem wit_LoopFramesAndRuns_5 :
    let s : State := (ws fun d =>
        { (d.put (LE_STAT_RUN 3) 1).onEng 3 fun g => { g with shares := [24] } with now := 31 })
    let e : Fin 8 := 3
    s.dev.sys.logicOn = true ∧ s.dev.get (LE_STAT_RUN e) = 1 ∧ (s.dev.engOf e).frameAt ≤ s.dev.now ∧ s.dev.now <
        (s.dev.engOf e).frameAt + 32 := by decide +kernel

theorem wit_LoopSetup_0 :
    let s : State := (ws id)
    let e : Fin 8 := 7
    s.dev.sys.logicOn = true ∧ s.dev.schedErr e (s.dev.get (LE_CTL_SCHBANK e)) = 0 := by decide +kernel

theorem wit_LoopSetup_1 :
    let s : State := (ws fun d => d.setReg (bankBase 7 0) 0x10000000)
    let e : Fin 8 := 7
    s.dev.sys.logicOn = true ∧ s.dev.schedErr e (s.dev.get (LE_CTL_SCHBANK e)) ≠ 0 := by decide +kernel

theorem wit_LoopSetup_2 :
    let s : State := (ws id)
    let e : Fin 8 := 7
    s.dev.sys.logicOn = true ∧ s.dev.schedErr e (1 - s.dev.get (LE_CTL_SCHBANK e)) = 0 := by decide +kernel

theorem wit_LoopSetup_3 :
    let s : State := (ws id)
    s.dev.sys.logicOn = true := by decide +kernel

theorem wit_LoopSetup_4 :
    let s : State := (ws fun d => d.put (LE_PROVED_PROVED 7) 0xFFFFFF)
    let e : Fin 8 := 7
    let b : Fin 2 := 1
    let k : Fin 24 := 23
    s.dev.sys.logicOn = true ∧ s.dev.formeBank e k ≠ b.val ∧ (s.dev.engOf e).proof = none := by decide +kernel

theorem wit_LoopSetup_5 :
    let s : State := (ws fun d => d.setReg (bankBase 7 0 + 0x200) 0x80000000)
    let e : Fin 8 := 7
    let b : Fin 2 := 0
    let k : Fin 24 := 0
    let p : Fin 5 := 0
    s.dev.sys.logicOn = true ∧ s.dev.engineRights (.pair p) e = true ∧ s.dev.formeBank e k = b.val ∧ s.dev.loopEn e b
        k = true := by decide +kernel

theorem wit_LoopSetup_6 :
    let s : State := (ws fun d => ((d.setReg (bankBase 7 1 + 0x200 + 0x80 * 23) 0x00000111).setReg (bankBase 7 0)
        0x20400000).setReg (bankBase 7 1 + 0x200 + 0x80 * 23 + 0x30) 0x10000000)
    let e : Fin 8 := 7
    let k : Fin 24 := 23
    s.dev.sys.logicOn = true ∧ s.dev.proofRefusal e k = 0 := by decide +kernel

theorem wit_LoopSetup_7 :
    let s : State := (ws fun d => d.onEng 7 fun g => { g with proof := some { loop := 3, n := 5 } })
    let e : Fin 8 := 7
    s.dev.sys.logicOn = true ∧ (s.dev.engOf e).proof ≠ none := by decide +kernel

theorem wit_LoopSetup_8 :
    let s : State := (ws fun d => d.onEng 7 fun g => { g with proof := some { loop := 23, n := 5, done := 5 } })
    let e : Fin 8 := 7
    let p : ProofH := { loop := 23, n := 5, done := 5 }
    s.dev.sys.logicOn = true ∧ (s.dev.engOf e).proof = some p ∧ p.cause = 0 ∧ p.n ≤ p.done ∧ p.loop < 24 := by
        decide +kernel

theorem wit_LoopSetup_9 :
    let s : State := (ws fun d => d.put (LE_LCTL_STAGED 7 23) 1)
    let e : Fin 8 := 7
    let k : Fin 24 := 23
    s.dev.sys.logicOn = true ∧ (s.dev.loopOf e k).refWr = none := by decide +kernel

theorem wit_LoopSetup_10 :
    let s : State := (ws id)
    s.dev.sys.logicOn = true := by decide +kernel

theorem wit_LoopSetup_11 :
    let s : State := (ws fun d => d.put (LE_LSTAT_HOLD 7 23) 1)
    s.dev.sys.logicOn = true := by decide +kernel

theorem wit_LoopSetup_12 :
    let s : State := (ws fun d =>
        { ((raise 1023 d).put (EVC_CFG_TARGET 1023) 7).put (EVC_CFG_EN 1023) 1 with now := 9 })
    let n : Fin 1024 := 1023
    s.dev.sys.logicOn = true ∧ s.dev.pend n = true ∧ s.dev.get (EVC_CFG_EN n) = 1 ∧ s.dev.get (EVC_CFG_TARGET n) = 7 ∧
        s.dev.engineDeaf (s.dev.get (EVC_CFG_ENG n)) (s.dev.get (EVC_CFG_LOOP n)) = true ∧ (s.dev.evOf n).at_ ≠
        s.dev.now := by decide +kernel

theorem wit_StrikeSessions_0 :
    let s : State := (ws fun d => ((d.put (SCU_SCLK_SRC 3) 3).put SYS_MODE_MODE 3))
    let i : Fin 4 := 3
    s.dev.sys.logicOn = true ∧ s.dev.get (SCU_SCTL_OWN i) = 0 ∧ s.dev.get (SCU_SCTL_RING i) = 0 ∧ s.dev.startCause i =
        0 := by decide +kernel

theorem wit_StrikeSessions_1 :
    let s : State := (ws fun d => (d.put (SCU_STGT_POINT 3) 4))
    let i : Fin 4 := 3
    s.dev.sys.logicOn = true ∧ s.dev.get (SCU_SCTL_OWN i) = 0 ∧ s.dev.get (SCU_SCTL_RING i) = 0 ∧ 2 ≤ s.dev.startCause
        i ∧ s.dev.startCause i < 16 := by decide +kernel

theorem wit_StrikeSessions_2 :
    let s : State := (ws fun d => d.put (SCU_SSTAT_STATE 3) 1)
    let i : Fin 4 := 3
    s.dev.sys.logicOn = true ∧ s.dev.get (SCU_SSTAT_STATE i) = 1 := by decide +kernel

theorem wit_StrikeSessions_3 :
    let s : State := (ws fun d => d.put (SCU_SSTAT_STATE 3) 1)
    let i : Fin 4 := 3
    s.dev.sys.logicOn = true ∧ s.dev.get (SCU_SSTAT_STATE i) = 1 := by decide +kernel

theorem wit_StrikeSessions_4 :
    let s : State := (ws fun d => { (d.put (SCU_SSTAT_STATE 3) 1).put (SCU_SCLK_SRC 3) 3 with now := 100 })
    let i : Fin 4 := 3
    s.dev.clockNow i = true ∧ s.dev.get (SCU_SSTAT_STATE i) = 1 ∧ s.dev.get (SCU_STGT_POINT i) = 0 ∧ (s.dev.sessOf
        i).strikeOn = false ∧ (s.dev.sessOf i).capOn = false ∧ s.dev.get (SCU_SCTL_RING i) = 0 := by decide +kernel

theorem wit_StrikeSessions_5 :
    let s : State := (ws fun d => (((d.put (SCU_SSTAT_STATE 3) 1).put (SCU_STGT_POINT 3) 2).put (CU_STATE_STATE 0)
        12))
    let i : Fin 4 := 3
    let a : Fin 64 := 0
    s.dev.sys.logicOn = true ∧ s.dev.get (SCU_SSTAT_STATE i) = 1 ∧ s.dev.get (SCU_STGT_POINT i) ≠ 0 ∧ s.dev.sessAxis i
        = some a.val ∧ s.dev.axSt a = .fault := by decide +kernel

theorem wit_LitosArithmetic_0_0 :
    let s : State := (ws fun d => (d.put (LSS_PAIRST_ST 4) 0).onPair 4 fun h =>
        { h with started := true, pc := 0x100, g := [(1, 0x80000000), (2, 0xFFFFFFFF)] })
    let p : Fin 5 := 4
    s.dev.sys.logicOn = true ∧ s.dev.runs p = true := by decide +kernel

theorem wit_LitosArithmetic_0_1 :
    let s : State := (ws fun d => (d.put (LSS_PAIRST_ST 0) 0).onPair 0 fun h =>
        { h with started := true, pc := 0x100, g := [(1, 0x80000000), (2, 0)] })
    let p : Fin 5 := 0
    s.dev.sys.logicOn = true ∧ s.dev.runs p = true := by decide +kernel

theorem wit_LitosArithmetic_0_2 :
    let s : State := (ws fun d => (d.put (LSS_PAIRST_ST 1) 0).onPair 1 fun h =>
        { h with started := true, pc := 0x100, g := [(1, 7), (2, 0xFFFFFFFD)] })
    let p : Fin 5 := 1
    s.dev.sys.logicOn = true ∧ s.dev.runs p = true := by decide +kernel

theorem wit_LitosArithmetic_1_0 :
    let s : State := (ws fun d => (d.put (LSS_PAIRST_ST 4) 0).onPair 4 fun h =>
        { h with started := true, pc := 0x100, g := [(1, 0x80000000), (2, 0xFFFFFFFF)] })
    let p : Fin 5 := 4
    s.dev.sys.logicOn = true ∧ s.dev.runs p = true := by decide +kernel

theorem wit_LitosArithmetic_1_1 :
    let s : State := (ws fun d => (d.put (LSS_PAIRST_ST 0) 0).onPair 0 fun h =>
        { h with started := true, pc := 0x100, g := [(1, 0x80000000), (2, 0)] })
    let p : Fin 5 := 0
    s.dev.sys.logicOn = true ∧ s.dev.runs p = true := by decide +kernel

theorem wit_LitosArithmetic_1_2 :
    let s : State := (ws fun d => (d.put (LSS_PAIRST_ST 1) 0).onPair 1 fun h =>
        { h with started := true, pc := 0x100, g := [(1, 7), (2, 0xFFFFFFFD)] })
    let p : Fin 5 := 1
    s.dev.sys.logicOn = true ∧ s.dev.runs p = true := by decide +kernel

theorem wit_LitosArithmetic_2_0 :
    let s : State := (ws fun d => (d.put (LSS_PAIRST_ST 4) 0).onPair 4 fun h =>
        { h with started := true, pc := 0x100, g := [(1, 0x80000000), (2, 0xFFFFFFFF)] })
    let p : Fin 5 := 4
    s.dev.sys.logicOn = true ∧ s.dev.runs p = true := by decide +kernel

theorem wit_LitosArithmetic_2_1 :
    let s : State := (ws fun d => (d.put (LSS_PAIRST_ST 0) 0).onPair 0 fun h =>
        { h with started := true, pc := 0x100, g := [(1, 0x80000000), (2, 0)] })
    let p : Fin 5 := 0
    s.dev.sys.logicOn = true ∧ s.dev.runs p = true := by decide +kernel

theorem wit_LitosArithmetic_2_2 :
    let s : State := (ws fun d => (d.put (LSS_PAIRST_ST 1) 0).onPair 1 fun h =>
        { h with started := true, pc := 0x100, g := [(1, 7), (2, 0xFFFFFFFD)] })
    let p : Fin 5 := 1
    s.dev.sys.logicOn = true ∧ s.dev.runs p = true := by decide +kernel

theorem wit_LitosArithmetic_3_0 :
    let s : State := (ws fun d => (d.put (LSS_PAIRST_ST 4) 0).onPair 4 fun h =>
        { h with started := true, pc := 0x100, g := [(1, 0x80000000), (2, 0xFFFFFFFF)] })
    let p : Fin 5 := 4
    s.dev.sys.logicOn = true ∧ s.dev.runs p = true := by decide +kernel

theorem wit_LitosArithmetic_3_1 :
    let s : State := (ws fun d => (d.put (LSS_PAIRST_ST 0) 0).onPair 0 fun h =>
        { h with started := true, pc := 0x100, g := [(1, 0x80000000), (2, 0)] })
    let p : Fin 5 := 0
    s.dev.sys.logicOn = true ∧ s.dev.runs p = true := by decide +kernel

theorem wit_LitosArithmetic_3_2 :
    let s : State := (ws fun d => (d.put (LSS_PAIRST_ST 1) 0).onPair 1 fun h =>
        { h with started := true, pc := 0x100, g := [(1, 7), (2, 0xFFFFFFFD)] })
    let p : Fin 5 := 1
    s.dev.sys.logicOn = true ∧ s.dev.runs p = true := by decide +kernel

theorem wit_LitosArithmetic_4_0 :
    let s : State := (ws fun d => (d.put (LSS_PAIRST_ST 4) 0).onPair 4 fun h =>
        { h with started := true, pc := 0x100, g := [(1, 0x80000000), (2, 0xFFFFFFFF)] })
    let p : Fin 5 := 4
    s.dev.sys.logicOn = true ∧ s.dev.runs p = true := by decide +kernel

theorem wit_LitosArithmetic_4_1 :
    let s : State := (ws fun d => (d.put (LSS_PAIRST_ST 0) 0).onPair 0 fun h =>
        { h with started := true, pc := 0x100, g := [(1, 0x80000000), (2, 0)] })
    let p : Fin 5 := 0
    s.dev.sys.logicOn = true ∧ s.dev.runs p = true := by decide +kernel

theorem wit_LitosArithmetic_4_2 :
    let s : State := (ws fun d => (d.put (LSS_PAIRST_ST 1) 0).onPair 1 fun h =>
        { h with started := true, pc := 0x100, g := [(1, 7), (2, 0xFFFFFFFD)] })
    let p : Fin 5 := 1
    s.dev.sys.logicOn = true ∧ s.dev.runs p = true := by decide +kernel

theorem wit_LitosArithmetic_5_0 :
    let s : State := (ws fun d => (d.put (LSS_PAIRST_ST 4) 0).onPair 4 fun h =>
        { h with started := true, pc := 0x100, g := [(1, 0x80000000), (2, 0xFFFFFFFF)] })
    let p : Fin 5 := 4
    s.dev.sys.logicOn = true ∧ s.dev.runs p = true := by decide +kernel

theorem wit_LitosArithmetic_5_1 :
    let s : State := (ws fun d => (d.put (LSS_PAIRST_ST 0) 0).onPair 0 fun h =>
        { h with started := true, pc := 0x100, g := [(1, 0x80000000), (2, 0)] })
    let p : Fin 5 := 0
    s.dev.sys.logicOn = true ∧ s.dev.runs p = true := by decide +kernel

theorem wit_LitosArithmetic_5_2 :
    let s : State := (ws fun d => (d.put (LSS_PAIRST_ST 1) 0).onPair 1 fun h =>
        { h with started := true, pc := 0x100, g := [(1, 7), (2, 0xFFFFFFFD)] })
    let p : Fin 5 := 1
    s.dev.sys.logicOn = true ∧ s.dev.runs p = true := by decide +kernel

theorem wit_LitosArithmetic_6_0 :
    let s : State := (ws fun d => (d.put (LSS_PAIRST_ST 4) 0).onPair 4 fun h =>
        { h with started := true, pc := 0x100, g := [(1, 0x80000000), (2, 0xFFFFFFFF)] })
    let p : Fin 5 := 4
    s.dev.sys.logicOn = true ∧ s.dev.runs p = true := by decide +kernel

theorem wit_LitosArithmetic_6_1 :
    let s : State := (ws fun d => (d.put (LSS_PAIRST_ST 0) 0).onPair 0 fun h =>
        { h with started := true, pc := 0x100, g := [(1, 0x80000000), (2, 0)] })
    let p : Fin 5 := 0
    s.dev.sys.logicOn = true ∧ s.dev.runs p = true := by decide +kernel

theorem wit_LitosArithmetic_6_2 :
    let s : State := (ws fun d => (d.put (LSS_PAIRST_ST 1) 0).onPair 1 fun h =>
        { h with started := true, pc := 0x100, g := [(1, 7), (2, 0xFFFFFFFD)] })
    let p : Fin 5 := 1
    s.dev.sys.logicOn = true ∧ s.dev.runs p = true := by decide +kernel

theorem wit_LitosArithmetic_7_0 :
    let s : State := (ws fun d => (d.put (LSS_PAIRST_ST 4) 0).onPair 4 fun h =>
        { h with started := true, pc := 0x100, g := [(1, 0x80000000), (2, 0xFFFFFFFF)] })
    let p : Fin 5 := 4
    s.dev.sys.logicOn = true ∧ s.dev.runs p = true := by decide +kernel

theorem wit_LitosArithmetic_7_1 :
    let s : State := (ws fun d => (d.put (LSS_PAIRST_ST 0) 0).onPair 0 fun h =>
        { h with started := true, pc := 0x100, g := [(1, 0x80000000), (2, 0)] })
    let p : Fin 5 := 0
    s.dev.sys.logicOn = true ∧ s.dev.runs p = true := by decide +kernel

theorem wit_LitosArithmetic_7_2 :
    let s : State := (ws fun d => (d.put (LSS_PAIRST_ST 1) 0).onPair 1 fun h =>
        { h with started := true, pc := 0x100, g := [(1, 7), (2, 0xFFFFFFFD)] })
    let p : Fin 5 := 1
    s.dev.sys.logicOn = true ∧ s.dev.runs p = true := by decide +kernel

theorem wit_LitosArithmetic_8_0 :
    let s : State := (ws fun d => (d.put (LSS_PAIRST_ST 4) 0).onPair 4 fun h =>
        { h with started := true, pc := 0x100, g := [(1, 0x80000000), (2, 0xFFFFFFFF)] })
    let p : Fin 5 := 4
    s.dev.sys.logicOn = true ∧ s.dev.runs p = true := by decide +kernel

theorem wit_LitosArithmetic_8_1 :
    let s : State := (ws fun d => (d.put (LSS_PAIRST_ST 0) 0).onPair 0 fun h =>
        { h with started := true, pc := 0x100, g := [(1, 0x80000000), (2, 0)] })
    let p : Fin 5 := 0
    s.dev.sys.logicOn = true ∧ s.dev.runs p = true := by decide +kernel

theorem wit_LitosArithmetic_8_2 :
    let s : State := (ws fun d => (d.put (LSS_PAIRST_ST 1) 0).onPair 1 fun h =>
        { h with started := true, pc := 0x100, g := [(1, 7), (2, 0xFFFFFFFD)] })
    let p : Fin 5 := 1
    s.dev.sys.logicOn = true ∧ s.dev.runs p = true := by decide +kernel

theorem wit_LitosArithmetic_9_0 :
    let s : State := (ws fun d => (d.put (LSS_PAIRST_ST 4) 0).onPair 4 fun h =>
        { h with started := true, pc := 0x100, g := [(1, 0x80000000), (2, 0xFFFFFFFF)] })
    let p : Fin 5 := 4
    s.dev.sys.logicOn = true ∧ s.dev.runs p = true := by decide +kernel

theorem wit_LitosArithmetic_9_1 :
    let s : State := (ws fun d => (d.put (LSS_PAIRST_ST 0) 0).onPair 0 fun h =>
        { h with started := true, pc := 0x100, g := [(1, 0x80000000), (2, 0)] })
    let p : Fin 5 := 0
    s.dev.sys.logicOn = true ∧ s.dev.runs p = true := by decide +kernel

theorem wit_LitosArithmetic_9_2 :
    let s : State := (ws fun d => (d.put (LSS_PAIRST_ST 1) 0).onPair 1 fun h =>
        { h with started := true, pc := 0x100, g := [(1, 7), (2, 0xFFFFFFFD)] })
    let p : Fin 5 := 1
    s.dev.sys.logicOn = true ∧ s.dev.runs p = true := by decide +kernel

theorem wit_LitosArithmetic_10_0 :
    let s : State := (ws fun d => (d.put (LSS_PAIRST_ST 4) 0).onPair 4 fun h =>
        { h with started := true, pc := 0x100, g := [(1, 0x80000000), (2, 0xFFFFFFFF)] })
    let p : Fin 5 := 4
    s.dev.sys.logicOn = true ∧ s.dev.runs p = true := by decide +kernel

theorem wit_LitosArithmetic_10_1 :
    let s : State := (ws fun d => (d.put (LSS_PAIRST_ST 0) 0).onPair 0 fun h =>
        { h with started := true, pc := 0x100, g := [(1, 0x80000000), (2, 0)] })
    let p : Fin 5 := 0
    s.dev.sys.logicOn = true ∧ s.dev.runs p = true := by decide +kernel

theorem wit_LitosArithmetic_10_2 :
    let s : State := (ws fun d => (d.put (LSS_PAIRST_ST 1) 0).onPair 1 fun h =>
        { h with started := true, pc := 0x100, g := [(1, 7), (2, 0xFFFFFFFD)] })
    let p : Fin 5 := 1
    s.dev.sys.logicOn = true ∧ s.dev.runs p = true := by decide +kernel

theorem wit_LitosArithmetic_11_0 :
    let s : State := (ws fun d => (d.put (LSS_PAIRST_ST 4) 0).onPair 4 fun h =>
        { h with started := true, pc := 0x100, g := [(1, 0x80000000), (2, 0xFFFFFFFF)] })
    let p : Fin 5 := 4
    s.dev.sys.logicOn = true ∧ s.dev.runs p = true := by decide +kernel

theorem wit_LitosArithmetic_11_1 :
    let s : State := (ws fun d => (d.put (LSS_PAIRST_ST 0) 0).onPair 0 fun h =>
        { h with started := true, pc := 0x100, g := [(1, 0x80000000), (2, 0)] })
    let p : Fin 5 := 0
    s.dev.sys.logicOn = true ∧ s.dev.runs p = true := by decide +kernel

theorem wit_LitosArithmetic_11_2 :
    let s : State := (ws fun d => (d.put (LSS_PAIRST_ST 1) 0).onPair 1 fun h =>
        { h with started := true, pc := 0x100, g := [(1, 7), (2, 0xFFFFFFFD)] })
    let p : Fin 5 := 1
    s.dev.sys.logicOn = true ∧ s.dev.runs p = true := by decide +kernel

theorem wit_LitosArithmetic_12_0 :
    let s : State := (ws fun d => (d.put (LSS_PAIRST_ST 4) 0).onPair 4 fun h =>
        { h with started := true, pc := 0x100, g := [(1, 0x80000000), (2, 0xFFFFFFFF)] })
    let p : Fin 5 := 4
    s.dev.sys.logicOn = true ∧ s.dev.runs p = true := by decide +kernel

theorem wit_LitosArithmetic_12_1 :
    let s : State := (ws fun d => (d.put (LSS_PAIRST_ST 0) 0).onPair 0 fun h =>
        { h with started := true, pc := 0x100, g := [(1, 0x80000000), (2, 0)] })
    let p : Fin 5 := 0
    s.dev.sys.logicOn = true ∧ s.dev.runs p = true := by decide +kernel

theorem wit_LitosArithmetic_12_2 :
    let s : State := (ws fun d => (d.put (LSS_PAIRST_ST 1) 0).onPair 1 fun h =>
        { h with started := true, pc := 0x100, g := [(1, 7), (2, 0xFFFFFFFD)] })
    let p : Fin 5 := 1
    s.dev.sys.logicOn = true ∧ s.dev.runs p = true := by decide +kernel

theorem wit_LitosArithmetic_13_0 :
    let s : State := (ws fun d => (d.put (LSS_PAIRST_ST 4) 0).onPair 4 fun h =>
        { h with started := true, pc := 0x100, g := [(1, 0x80000000), (2, 0xFFFFFFFF)] })
    let p : Fin 5 := 4
    s.dev.sys.logicOn = true ∧ s.dev.runs p = true := by decide +kernel

theorem wit_LitosArithmetic_13_1 :
    let s : State := (ws fun d => (d.put (LSS_PAIRST_ST 0) 0).onPair 0 fun h =>
        { h with started := true, pc := 0x100, g := [(1, 0x80000000), (2, 0)] })
    let p : Fin 5 := 0
    s.dev.sys.logicOn = true ∧ s.dev.runs p = true := by decide +kernel

theorem wit_LitosArithmetic_13_2 :
    let s : State := (ws fun d => (d.put (LSS_PAIRST_ST 1) 0).onPair 1 fun h =>
        { h with started := true, pc := 0x100, g := [(1, 7), (2, 0xFFFFFFFD)] })
    let p : Fin 5 := 1
    s.dev.sys.logicOn = true ∧ s.dev.runs p = true := by decide +kernel

theorem wit_LitosArithmetic_14_0 :
    let s : State := (ws fun d => (d.put (LSS_PAIRST_ST 4) 0).onPair 4 fun h =>
        { h with started := true, pc := 0x100, g := [(1, 0x80000000), (2, 0xFFFFFFFF)] })
    let p : Fin 5 := 4
    s.dev.sys.logicOn = true ∧ s.dev.runs p = true := by decide +kernel

theorem wit_LitosArithmetic_14_1 :
    let s : State := (ws fun d => (d.put (LSS_PAIRST_ST 0) 0).onPair 0 fun h =>
        { h with started := true, pc := 0x100, g := [(1, 0x80000000), (2, 0)] })
    let p : Fin 5 := 0
    s.dev.sys.logicOn = true ∧ s.dev.runs p = true := by decide +kernel

theorem wit_LitosArithmetic_14_2 :
    let s : State := (ws fun d => (d.put (LSS_PAIRST_ST 1) 0).onPair 1 fun h =>
        { h with started := true, pc := 0x100, g := [(1, 7), (2, 0xFFFFFFFD)] })
    let p : Fin 5 := 1
    s.dev.sys.logicOn = true ∧ s.dev.runs p = true := by decide +kernel

theorem wit_LitosArithmetic_15_0 :
    let s : State := (ws fun d => (d.put (LSS_PAIRST_ST 4) 0).onPair 4 fun h =>
        { h with started := true, pc := 0x100, g := [(1, 0x80000000), (2, 0xFFFFFFFF)] })
    let p : Fin 5 := 4
    s.dev.sys.logicOn = true ∧ s.dev.runs p = true := by decide +kernel

theorem wit_LitosArithmetic_15_1 :
    let s : State := (ws fun d => (d.put (LSS_PAIRST_ST 0) 0).onPair 0 fun h =>
        { h with started := true, pc := 0x100, g := [(1, 0x80000000), (2, 0)] })
    let p : Fin 5 := 0
    s.dev.sys.logicOn = true ∧ s.dev.runs p = true := by decide +kernel

theorem wit_LitosArithmetic_15_2 :
    let s : State := (ws fun d => (d.put (LSS_PAIRST_ST 1) 0).onPair 1 fun h =>
        { h with started := true, pc := 0x100, g := [(1, 7), (2, 0xFFFFFFFD)] })
    let p : Fin 5 := 1
    s.dev.sys.logicOn = true ∧ s.dev.runs p = true := by decide +kernel

theorem wit_LitosArithmetic_16_0 :
    let s : State := (ws fun d => (d.put (LSS_PAIRST_ST 4) 0).onPair 4 fun h =>
        { h with started := true, pc := 0x100, g := [(1, 0x80000000), (2, 0xFFFFFFFF)] })
    let p : Fin 5 := 4
    s.dev.sys.logicOn = true ∧ s.dev.runs p = true := by decide +kernel

theorem wit_LitosArithmetic_16_1 :
    let s : State := (ws fun d => (d.put (LSS_PAIRST_ST 0) 0).onPair 0 fun h =>
        { h with started := true, pc := 0x100, g := [(1, 0x80000000), (2, 0)] })
    let p : Fin 5 := 0
    s.dev.sys.logicOn = true ∧ s.dev.runs p = true := by decide +kernel

theorem wit_LitosArithmetic_16_2 :
    let s : State := (ws fun d => (d.put (LSS_PAIRST_ST 1) 0).onPair 1 fun h =>
        { h with started := true, pc := 0x100, g := [(1, 7), (2, 0xFFFFFFFD)] })
    let p : Fin 5 := 1
    s.dev.sys.logicOn = true ∧ s.dev.runs p = true := by decide +kernel

theorem wit_LitosArithmetic_17_0 :
    let s : State := (ws fun d => (d.put (LSS_PAIRST_ST 4) 0).onPair 4 fun h =>
        { h with started := true, pc := 0x100, g := [(1, 0x80000000), (2, 0xFFFFFFFF)] })
    let p : Fin 5 := 4
    s.dev.sys.logicOn = true ∧ s.dev.runs p = true := by decide +kernel

theorem wit_LitosArithmetic_17_1 :
    let s : State := (ws fun d => (d.put (LSS_PAIRST_ST 0) 0).onPair 0 fun h =>
        { h with started := true, pc := 0x100, g := [(1, 0x80000000), (2, 0)] })
    let p : Fin 5 := 0
    s.dev.sys.logicOn = true ∧ s.dev.runs p = true := by decide +kernel

theorem wit_LitosArithmetic_17_2 :
    let s : State := (ws fun d => (d.put (LSS_PAIRST_ST 1) 0).onPair 1 fun h =>
        { h with started := true, pc := 0x100, g := [(1, 7), (2, 0xFFFFFFFD)] })
    let p : Fin 5 := 1
    s.dev.sys.logicOn = true ∧ s.dev.runs p = true := by decide +kernel

theorem wit_LitosArithmetic_18_0 :
    let s : State := (ws fun d => (d.put (LSS_PAIRST_ST 4) 0).onPair 4 fun h =>
        { h with started := true, pc := 0x100, g := [(1, 0x80000000), (2, 0xFFFFFFFF)] })
    let p : Fin 5 := 4
    s.dev.sys.logicOn = true ∧ s.dev.runs p = true := by decide +kernel

theorem wit_LitosArithmetic_18_1 :
    let s : State := (ws fun d => (d.put (LSS_PAIRST_ST 0) 0).onPair 0 fun h =>
        { h with started := true, pc := 0x100, g := [(1, 0x80000000), (2, 0)] })
    let p : Fin 5 := 0
    s.dev.sys.logicOn = true ∧ s.dev.runs p = true := by decide +kernel

theorem wit_LitosArithmetic_18_2 :
    let s : State := (ws fun d => (d.put (LSS_PAIRST_ST 1) 0).onPair 1 fun h =>
        { h with started := true, pc := 0x100, g := [(1, 7), (2, 0xFFFFFFFD)] })
    let p : Fin 5 := 1
    s.dev.sys.logicOn = true ∧ s.dev.runs p = true := by decide +kernel

theorem wit_LitosArithmetic_19_0 :
    let s : State := (ws fun d => (d.put (LSS_PAIRST_ST 4) 0).onPair 4 fun h =>
        { h with started := true, pc := 0x100, g := [(1, 0x80000000), (2, 0xFFFFFFFF)] })
    let p : Fin 5 := 4
    s.dev.sys.logicOn = true ∧ s.dev.runs p = true := by decide +kernel

theorem wit_LitosArithmetic_19_1 :
    let s : State := (ws fun d => (d.put (LSS_PAIRST_ST 0) 0).onPair 0 fun h =>
        { h with started := true, pc := 0x100, g := [(1, 0x80000000), (2, 0)] })
    let p : Fin 5 := 0
    s.dev.sys.logicOn = true ∧ s.dev.runs p = true := by decide +kernel

theorem wit_LitosArithmetic_19_2 :
    let s : State := (ws fun d => (d.put (LSS_PAIRST_ST 1) 0).onPair 1 fun h =>
        { h with started := true, pc := 0x100, g := [(1, 7), (2, 0xFFFFFFFD)] })
    let p : Fin 5 := 1
    s.dev.sys.logicOn = true ∧ s.dev.runs p = true := by decide +kernel

theorem wit_LitosImmediates_0 :
    let s : State := (ws fun d => (d.put (LSS_PAIRST_ST 4) 0).onPair 4 fun h =>
        { h with started := true, pc := 0x100, g := [(1, 0x80000001), (2, 0)] })
    let p : Fin 5 := 4
    s.dev.sys.logicOn = true ∧ s.dev.runs p = true := by decide +kernel

theorem wit_LitosImmediates_1 :
    let s : State := (ws fun d => (d.put (LSS_PAIRST_ST 4) 0).onPair 4 fun h =>
        { h with started := true, pc := 0x100, g := [(1, 0x80000001), (2, 0)] })
    let p : Fin 5 := 4
    s.dev.sys.logicOn = true ∧ s.dev.runs p = true := by decide +kernel

theorem wit_LitosImmediates_2 :
    let s : State := (ws fun d => (d.put (LSS_PAIRST_ST 4) 0).onPair 4 fun h =>
        { h with started := true, pc := 0x100, g := [(1, 0x80000001), (2, 0)] })
    let p : Fin 5 := 4
    s.dev.sys.logicOn = true ∧ s.dev.runs p = true := by decide +kernel

theorem wit_LitosImmediates_3 :
    let s : State := (ws fun d => (d.put (LSS_PAIRST_ST 4) 0).onPair 4 fun h =>
        { h with started := true, pc := 0x100, g := [(1, 0x80000001), (2, 0)] })
    let p : Fin 5 := 4
    s.dev.sys.logicOn = true ∧ s.dev.runs p = true := by decide +kernel

theorem wit_LitosImmediates_4 :
    let s : State := (ws fun d => (d.put (LSS_PAIRST_ST 4) 0).onPair 4 fun h =>
        { h with started := true, pc := 0x100, g := [(1, 0x80000001), (2, 0)] })
    let p : Fin 5 := 4
    s.dev.sys.logicOn = true ∧ s.dev.runs p = true := by decide +kernel

theorem wit_LitosImmediates_5 :
    let s : State := (ws fun d => (d.put (LSS_PAIRST_ST 4) 0).onPair 4 fun h =>
        { h with started := true, pc := 0x100, g := [(1, 0x80000001), (2, 0)] })
    let p : Fin 5 := 4
    s.dev.sys.logicOn = true ∧ s.dev.runs p = true := by decide +kernel

theorem wit_LitosImmediates_6 :
    let s : State := (ws fun d => (d.put (LSS_PAIRST_ST 4) 0).onPair 4 fun h =>
        { h with started := true, pc := 0x100, g := [(1, 0x80000001), (2, 0)] })
    let p : Fin 5 := 4
    s.dev.sys.logicOn = true ∧ s.dev.runs p = true := by decide +kernel

theorem wit_LitosImmediates_7 :
    let s : State := (ws fun d => (d.put (LSS_PAIRST_ST 4) 0).onPair 4 fun h =>
        { h with started := true, pc := 0x100, g := [(1, 0x80000001), (2, 0)] })
    let p : Fin 5 := 4
    s.dev.sys.logicOn = true ∧ s.dev.runs p = true := by decide +kernel

theorem wit_LitosImmediates_8 :
    let s : State := (ws fun d => (d.put (LSS_PAIRST_ST 4) 0).onPair 4 fun h =>
        { h with started := true, pc := 0x100, g := [(1, 0x80000001), (2, 0)] })
    let p : Fin 5 := 4
    s.dev.sys.logicOn = true ∧ s.dev.runs p = true := by decide +kernel

theorem wit_LitosImmediates_9 :
    let s : State := (ws fun d => (d.put (LSS_PAIRST_ST 4) 0).onPair 4 fun h =>
        { h with started := true, pc := 0x100, g := [(1, 0), (2, 0)] })
    let p : Fin 5 := 4
    s.dev.sys.logicOn = true ∧ s.dev.runs p = true := by decide +kernel

theorem wit_LitosImmediates_10_0 :
    let s : State := (ws fun d => (d.put (LSS_PAIRST_ST 4) 0).onPair 4 fun h =>
        { h with started := true, pc := 0x100, g := [(1, 0), (2, 0)] })
    let p : Fin 5 := 4
    let ga : Fin 32 := 1
    let n : Fin 33 := 32
    s.dev.sys.logicOn = true ∧ s.dev.runs p = true ∧ (s.dev.gr p ga).toNat < 2 ^ (32 - n.val) ∧ (n.val < 32 → 2 ^ (31
        - n.val) ≤ (s.dev.gr p ga).toNat) := by decide +kernel

theorem wit_LitosImmediates_10_1 :
    let s : State := (ws fun d => (d.put (LSS_PAIRST_ST 4) 0).onPair 4 fun h =>
        { h with started := true, pc := 0x100, g := [(1, 0x80000000), (2, 0)] })
    let p : Fin 5 := 4
    let ga : Fin 32 := 1
    let n : Fin 33 := 0
    s.dev.sys.logicOn = true ∧ s.dev.runs p = true ∧ (s.dev.gr p ga).toNat < 2 ^ (32 - n.val) ∧ (n.val < 32 → 2 ^ (31
        - n.val) ≤ (s.dev.gr p ga).toNat) := by decide +kernel

theorem wit_LitosImmediates_10_2 :
    let s : State := (ws fun d => (d.put (LSS_PAIRST_ST 4) 0).onPair 4 fun h =>
        { h with started := true, pc := 0x100, g := [(1, 1), (2, 0)] })
    let p : Fin 5 := 4
    let ga : Fin 32 := 1
    let n : Fin 33 := 31
    s.dev.sys.logicOn = true ∧ s.dev.runs p = true ∧ (s.dev.gr p ga).toNat < 2 ^ (32 - n.val) ∧ (n.val < 32 → 2 ^ (31
        - n.val) ≤ (s.dev.gr p ga).toNat) := by decide +kernel

theorem wit_LitosBranches_0_0 :
    let s : State := (ws fun d => (d.put (LSS_PAIRST_ST 4) 0).onPair 4 fun h =>
        { h with started := true, pc := 0x100, g := [(1, 0x80000000), (2, 1)] })
    let p : Fin 5 := 4
    s.dev.sys.logicOn = true ∧ s.dev.runs p = true := by decide +kernel

theorem wit_LitosBranches_0_1 :
    let s : State := (ws fun d => (d.put (LSS_PAIRST_ST 4) 0).onPair 4 fun h =>
        { h with started := true, pc := 0x100, g := [(1, 1), (2, 1)] })
    let p : Fin 5 := 4
    s.dev.sys.logicOn = true ∧ s.dev.runs p = true := by decide +kernel

theorem wit_LitosBranches_1_0 :
    let s : State := (ws fun d => (d.put (LSS_PAIRST_ST 4) 0).onPair 4 fun h =>
        { h with started := true, pc := 0x100, g := [(1, 0x80000000), (2, 1)] })
    let p : Fin 5 := 4
    s.dev.sys.logicOn = true ∧ s.dev.runs p = true := by decide +kernel

theorem wit_LitosBranches_1_1 :
    let s : State := (ws fun d => (d.put (LSS_PAIRST_ST 4) 0).onPair 4 fun h =>
        { h with started := true, pc := 0x100, g := [(1, 1), (2, 1)] })
    let p : Fin 5 := 4
    s.dev.sys.logicOn = true ∧ s.dev.runs p = true := by decide +kernel

theorem wit_LitosBranches_2_0 :
    let s : State := (ws fun d => (d.put (LSS_PAIRST_ST 4) 0).onPair 4 fun h =>
        { h with started := true, pc := 0x100, g := [(1, 0x80000000), (2, 1)] })
    let p : Fin 5 := 4
    s.dev.sys.logicOn = true ∧ s.dev.runs p = true := by decide +kernel

theorem wit_LitosBranches_2_1 :
    let s : State := (ws fun d => (d.put (LSS_PAIRST_ST 4) 0).onPair 4 fun h =>
        { h with started := true, pc := 0x100, g := [(1, 1), (2, 1)] })
    let p : Fin 5 := 4
    s.dev.sys.logicOn = true ∧ s.dev.runs p = true := by decide +kernel

theorem wit_LitosBranches_3_0 :
    let s : State := (ws fun d => (d.put (LSS_PAIRST_ST 4) 0).onPair 4 fun h =>
        { h with started := true, pc := 0x100, g := [(1, 0x80000000), (2, 1)] })
    let p : Fin 5 := 4
    s.dev.sys.logicOn = true ∧ s.dev.runs p = true := by decide +kernel

theorem wit_LitosBranches_3_1 :
    let s : State := (ws fun d => (d.put (LSS_PAIRST_ST 4) 0).onPair 4 fun h =>
        { h with started := true, pc := 0x100, g := [(1, 1), (2, 1)] })
    let p : Fin 5 := 4
    s.dev.sys.logicOn = true ∧ s.dev.runs p = true := by decide +kernel

theorem wit_LitosBranches_4_0 :
    let s : State := (ws fun d => (d.put (LSS_PAIRST_ST 4) 0).onPair 4 fun h =>
        { h with started := true, pc := 0x100, g := [(1, 0x80000000), (2, 1)] })
    let p : Fin 5 := 4
    s.dev.sys.logicOn = true ∧ s.dev.runs p = true := by decide +kernel

theorem wit_LitosBranches_4_1 :
    let s : State := (ws fun d => (d.put (LSS_PAIRST_ST 4) 0).onPair 4 fun h =>
        { h with started := true, pc := 0x100, g := [(1, 1), (2, 1)] })
    let p : Fin 5 := 4
    s.dev.sys.logicOn = true ∧ s.dev.runs p = true := by decide +kernel

theorem wit_LitosBranches_5_0 :
    let s : State := (ws fun d => (d.put (LSS_PAIRST_ST 4) 0).onPair 4 fun h =>
        { h with started := true, pc := 0x100, g := [(1, 0x80000000), (2, 1)] })
    let p : Fin 5 := 4
    s.dev.sys.logicOn = true ∧ s.dev.runs p = true := by decide +kernel

theorem wit_LitosBranches_5_1 :
    let s : State := (ws fun d => (d.put (LSS_PAIRST_ST 4) 0).onPair 4 fun h =>
        { h with started := true, pc := 0x100, g := [(1, 1), (2, 1)] })
    let p : Fin 5 := 4
    s.dev.sys.logicOn = true ∧ s.dev.runs p = true := by decide +kernel

theorem wit_LitosBranches_6 :
    let s : State := (ws fun d => (d.put (LSS_PAIRST_ST 4) 0).onPair 4 fun h =>
        { h with started := true, pc := 0x100, g := [(1, 0), (2, 1)] })
    let p : Fin 5 := 4
    s.dev.sys.logicOn = true ∧ s.dev.runs p = true := by decide +kernel

theorem wit_LitosBranches_7 :
    let s : State := (ws fun d => (d.put (LSS_PAIRST_ST 4) 0).onPair 4 fun h =>
        { h with started := true, pc := 0x100, g := [(1, 0), (2, 1)] })
    let p : Fin 5 := 4
    s.dev.sys.logicOn = true ∧ s.dev.runs p = true := by decide +kernel

theorem wit_LitosBranches_8 :
    let s : State := (ws fun d => (d.put (LSS_PAIRST_ST 4) 0).onPair 4 fun h =>
        { h with started := true, pc := 0x100, g := [(1, 0x207), (2, 1)] })
    let p : Fin 5 := 4
    s.dev.sys.logicOn = true ∧ s.dev.runs p = true := by decide +kernel

theorem wit_LitosBranches_9 :
    let s : State := (ws fun d => (d.put (LSS_PAIRST_ST 3) 0).onPair 3 fun h =>
        { h with started := true, pc := 0x40000 })
    let p : Fin 5 := 3
    s.dev.sys.logicOn = true ∧ s.dev.runs p = true ∧ ((s.dev.pairOf p).cwGet 0).getLsbD 2 = false ∧ 0x40000 ≤
        (s.dev.pairOf p).pc.toNat ∧ ((s.dev.pairOf p).pc.toNat < 0x30000000 ∨ 0x34000000 ≤ (s.dev.pairOf
        p).pc.toNat) := by decide +kernel

theorem wit_LitosMemory_0 :
    let s : State :=
        ({ (ws fun d => (d.put (LSS_PAIRST_ST 1) 0).onPair 1 fun h => { h with started := true, pc := 0x100, g := [(1, 0x10000010), (2, 0x12345678)] }) with mem := [(0x10000008, 0x81), (0x10000009, 0xF2)] })
    let p : Fin 5 := 1
    let ga : Fin 32 := 1
    let imm : BitVec 16 := 0xFFF8#16
    let k : Nat := 0x10000008
    s.dev.sys.logicOn = true ∧ s.dev.runs p = true ∧ s.dev.ramKey (.pair p) (s.dev.effAddr p ga imm).toNat = some k ∧
        (s.dev.effAddr p ga imm).toNat < 0x40000000 ∧ (s.dev.effAddr p ga imm).toNat % 4 = 0 := by decide +kernel

theorem wit_LitosMemory_1 :
    let s : State :=
        ({ (ws fun d => (d.put (LSS_PAIRST_ST 1) 0).onPair 1 fun h => { h with started := true, pc := 0x100, g := [(1, 0x10000010), (2, 0x12345678)] }) with mem := [(0x10000008, 0x81), (0x10000009, 0xF2)] })
    let p : Fin 5 := 1
    let ga : Fin 32 := 1
    let imm : BitVec 16 := 0xFFF8#16
    let k : Nat := 0x10000008
    s.dev.sys.logicOn = true ∧ s.dev.runs p = true ∧ s.dev.ramKey (.pair p) (s.dev.effAddr p ga imm).toNat = some k ∧
        (s.dev.effAddr p ga imm).toNat < 0x40000000 ∧ (s.dev.effAddr p ga imm).toNat % 2 = 0 := by decide +kernel

theorem wit_LitosMemory_2 :
    let s : State :=
        ({ (ws fun d => (d.put (LSS_PAIRST_ST 1) 0).onPair 1 fun h => { h with started := true, pc := 0x100, g := [(1, 0x10000010), (2, 0x12345678)] }) with mem := [(0x10000008, 0x81), (0x10000009, 0xF2)] })
    let p : Fin 5 := 1
    let ga : Fin 32 := 1
    let imm : BitVec 16 := 0xFFF8#16
    let k : Nat := 0x10000008
    s.dev.sys.logicOn = true ∧ s.dev.runs p = true ∧ s.dev.ramKey (.pair p) (s.dev.effAddr p ga imm).toNat = some k ∧
        (s.dev.effAddr p ga imm).toNat < 0x40000000 ∧ (s.dev.effAddr p ga imm).toNat % 2 = 0 := by decide +kernel

theorem wit_LitosMemory_3 :
    let s : State :=
        ({ (ws fun d => (d.put (LSS_PAIRST_ST 1) 0).onPair 1 fun h => { h with started := true, pc := 0x100, g := [(1, 0x10000010), (2, 0x12345678)] }) with mem := [(0x10000008, 0x81), (0x10000009, 0xF2)] })
    let p : Fin 5 := 1
    let ga : Fin 32 := 1
    let imm : BitVec 16 := 0xFFF8#16
    let k : Nat := 0x10000008
    s.dev.sys.logicOn = true ∧ s.dev.runs p = true ∧ s.dev.ramKey (.pair p) (s.dev.effAddr p ga imm).toNat = some k ∧
        (s.dev.effAddr p ga imm).toNat < 0x40000000 := by decide +kernel

theorem wit_LitosMemory_4 :
    let s : State :=
        ({ (ws fun d => (d.put (LSS_PAIRST_ST 1) 0).onPair 1 fun h => { h with started := true, pc := 0x100, g := [(1, 0x10000010), (2, 0x12345678)] }) with mem := [(0x10000008, 0x81), (0x10000009, 0xF2)] })
    let p : Fin 5 := 1
    let ga : Fin 32 := 1
    let imm : BitVec 16 := 0xFFF8#16
    let k : Nat := 0x10000008
    s.dev.sys.logicOn = true ∧ s.dev.runs p = true ∧ s.dev.ramKey (.pair p) (s.dev.effAddr p ga imm).toNat = some k ∧
        (s.dev.effAddr p ga imm).toNat < 0x40000000 := by decide +kernel

theorem wit_LitosMemory_5 :
    let s : State :=
        ({ (ws fun d => (d.put (LSS_PAIRST_ST 1) 0).onPair 1 fun h => { h with started := true, pc := 0x100, g := [(1, 0x10000010), (2, 0x12345678)] }) with mem := [(0x10000008, 0x81), (0x10000009, 0xF2)] })
    let p : Fin 5 := 1
    let ga : Fin 32 := 1
    let imm : BitVec 16 := 0xFFF8#16
    let k : Nat := 0x10000008
    s.dev.sys.logicOn = true ∧ s.dev.runs p = true ∧ s.dev.ramKey (.pair p) (s.dev.effAddr p ga imm).toNat = some k ∧
        (s.dev.effAddr p ga imm).toNat < 0x103C0000 ∧ (s.dev.effAddr p ga imm).toNat % 4 = 0 := by decide +kernel

theorem wit_LitosMemory_6 :
    let s : State :=
        ({ (ws fun d => (d.put (LSS_PAIRST_ST 1) 0).onPair 1 fun h => { h with started := true, pc := 0x100, g := [(1, 0x10000010), (2, 0x12345678)] }) with mem := [(0x10000008, 0x81), (0x10000009, 0xF2)] })
    let p : Fin 5 := 1
    let ga : Fin 32 := 1
    let imm : BitVec 16 := 0xFFF8#16
    let k : Nat := 0x10000008
    s.dev.sys.logicOn = true ∧ s.dev.runs p = true ∧ s.dev.ramKey (.pair p) (s.dev.effAddr p ga imm).toNat = some k ∧
        (s.dev.effAddr p ga imm).toNat < 0x103C0000 ∧ (s.dev.effAddr p ga imm).toNat % 2 = 0 := by decide +kernel

theorem wit_LitosMemory_7 :
    let s : State :=
        ({ (ws fun d => (d.put (LSS_PAIRST_ST 1) 0).onPair 1 fun h => { h with started := true, pc := 0x100, g := [(1, 0x10000010), (2, 0x12345678)] }) with mem := [(0x10000008, 0x81), (0x10000009, 0xF2)] })
    let p : Fin 5 := 1
    let ga : Fin 32 := 1
    let imm : BitVec 16 := 0xFFF8#16
    let k : Nat := 0x10000008
    s.dev.sys.logicOn = true ∧ s.dev.runs p = true ∧ s.dev.ramKey (.pair p) (s.dev.effAddr p ga imm).toNat = some k ∧
        (s.dev.effAddr p ga imm).toNat < 0x103C0000 := by decide +kernel

theorem wit_LitosMemory_8 :
    let s : State :=
        ({ (ws fun d => (d.put (LSS_PAIRST_ST 1) 0).onPair 1 fun h => { h with started := true, pc := 0x100, g := [(1, 0x10000010), (2, 0x12345678)] }) with mem := [(0x10000008, 0x81), (0x10000009, 0xF2)] })
    let p : Fin 5 := 1
    let ga : Fin 32 := 1
    let k : Nat := 0x10000010
    s.dev.sys.logicOn = true ∧ s.dev.runs p = true ∧ s.dev.ramKey (.pair p) (s.dev.gr p ga).toNat = some k ∧ inEcc
        (s.dev.gr p ga).toNat = true ∧ (s.dev.gr p ga).toNat < 0x103C0000 ∧ (s.dev.gr p ga).toNat % 4 = 0 := by
        decide +kernel

theorem wit_LitosMemory_9 :
    let s : State :=
        ({ (ws fun d => (d.put (LSS_PAIRST_ST 1) 0).onPair 1 fun h => { h with started := true, pc := 0x100, g := [(1, 0x10000010), (2, 0x12345678)] }) with mem := [(0x10000008, 0x81), (0x10000009, 0xF2)] })
    let p : Fin 5 := 1
    let ga : Fin 32 := 1
    let k : Nat := 0x10000010
    s.dev.sys.logicOn = true ∧ s.dev.runs p = true ∧ s.dev.ramKey (.pair p) (s.dev.gr p ga).toNat = some k ∧ inEcc
        (s.dev.gr p ga).toNat = true ∧ (s.dev.gr p ga).toNat < 0x103C0000 ∧ (s.dev.gr p ga).toNat % 4 = 0 := by
        decide +kernel

theorem wit_LitosMemory_10 :
    let s : State :=
        ({ (ws fun d => (d.put (LSS_PAIRST_ST 1) 0).onPair 1 fun h => { h with started := true, pc := 0x100, g := [(1, 0x10000010), (2, 0x12345678)] }) with mem := [(0x10000008, 0x81), (0x10000009, 0xF2)] })
    let p : Fin 5 := 1
    let ga : Fin 32 := 1
    let k : Nat := 0x10000010
    s.dev.sys.logicOn = true ∧ s.dev.runs p = true ∧ s.dev.ramKey (.pair p) (s.dev.gr p ga).toNat = some k ∧ inEcc
        (s.dev.gr p ga).toNat = true ∧ (s.dev.gr p ga).toNat < 0x103C0000 ∧ (s.dev.gr p ga).toNat % 4 = 0 := by
        decide +kernel

theorem wit_LitosMemory_11 :
    let s : State :=
        ({ (ws fun d => (d.put (LSS_PAIRST_ST 1) 0).onPair 1 fun h => { h with started := true, pc := 0x100, g := [(1, 0x10000010), (2, 0x12345678)] }) with mem := [(0x10000008, 0x81), (0x10000009, 0xF2)] })
    let p : Fin 5 := 1
    let ga : Fin 32 := 1
    let k : Nat := 0x10000010
    s.dev.sys.logicOn = true ∧ s.dev.runs p = true ∧ s.dev.ramKey (.pair p) (s.dev.gr p ga).toNat = some k ∧ inEcc
        (s.dev.gr p ga).toNat = true ∧ (s.dev.gr p ga).toNat < 0x103C0000 ∧ (s.dev.gr p ga).toNat % 4 = 0 := by
        decide +kernel

theorem wit_LitosMemory_12 :
    let s : State :=
        ({ (ws fun d => (d.put (LSS_PAIRST_ST 1) 0).onPair 1 fun h => { h with started := true, pc := 0x100, g := [(1, 0x10000010), (2, 0x12345678)] }) with mem := [(0x10000008, 0x81), (0x10000009, 0xF2)] })
    let p : Fin 5 := 1
    let ga : Fin 32 := 1
    let k : Nat := 0x10000010
    s.dev.sys.logicOn = true ∧ s.dev.runs p = true ∧ s.dev.ramKey (.pair p) (s.dev.gr p ga).toNat = some k ∧ inEcc
        (s.dev.gr p ga).toNat = true ∧ (s.dev.gr p ga).toNat < 0x103C0000 ∧ (s.dev.gr p ga).toNat % 4 = 0 := by
        decide +kernel

theorem wit_LitosMemory_13 :
    let s : State :=
        ({ (ws fun d => (d.put (LSS_PAIRST_ST 1) 0).onPair 1 fun h => { h with started := true, pc := 0x100, g := [(1, 0x10000010), (2, 0x12345678)] }) with mem := [(0x10000008, 0x81), (0x10000009, 0xF2)] })
    let p : Fin 5 := 1
    let ga : Fin 32 := 1
    let imm : BitVec 16 := 0xFFF9#16
    s.dev.sys.logicOn = true ∧ s.dev.runs p = true ∧ ((s.dev.pairOf p).cwGet 0).getLsbD 2 = false ∧ s.dev.superv p =
        true ∧ (s.dev.effAddr p ga imm).toNat % 4 ≠ 0 := by decide +kernel

theorem wit_LitosMemory_14 :
    let s : State :=
        ({ (ws fun d => (d.put (LSS_PAIRST_ST 1) 0).onPair 1 fun h => { h with started := true, pc := 0x100, g := [(1, 0x10000010), (2, 0x12345678)] }) with mem := [(0x10000008, 0x81), (0x10000009, 0xF2)] })
    let p : Fin 5 := 1
    let ga : Fin 32 := 1
    let imm : BitVec 16 := 0xFFF9#16
    s.dev.sys.logicOn = true ∧ s.dev.runs p = true ∧ ((s.dev.pairOf p).cwGet 0).getLsbD 2 = false ∧ s.dev.superv p =
        true ∧ (s.dev.effAddr p ga imm).toNat % 4 ≠ 0 := by decide +kernel

theorem wit_LitosAccumulators_0_0 :
    let s : State := (ws fun d => (d.put (LSS_PAIRST_ST 4) 0).onPair 4 fun h =>
        { h with started := true, pc := 0x100, g := [(1, 0x80000000), (2, 0x80000001)], ac := [(0, 0x7FFFFFFFFFFFFFFF), (3, 0x8000000000000000)] })
    let p : Fin 5 := 4
    s.dev.sys.logicOn = true ∧ s.dev.runs p = true := by decide +kernel

theorem wit_LitosAccumulators_0_1 :
    let s : State := (ws fun d => (d.put (LSS_PAIRST_ST 4) 0).onPair 4 fun h =>
        { h with started := true, pc := 0x100, g := [(1, 0x80000000), (2, 0x80000001)], ac := [(0, 0x7FFFFFFFFFFFFFFF), (3, 0x8000000000000000)] })
    let p : Fin 5 := 4
    s.dev.sys.logicOn = true ∧ s.dev.runs p = true := by decide +kernel

theorem wit_LitosAccumulators_0_2 :
    let s : State := (ws fun d => (d.put (LSS_PAIRST_ST 4) 0).onPair 4 fun h =>
        { h with started := true, pc := 0x100, g := [(1, 0x80000000), (2, 0x80000001)], ac := [(0, 0x7FFFFFFFFFFFFFFF), (3, 0x8000000000000000)] })
    let p : Fin 5 := 4
    s.dev.sys.logicOn = true ∧ s.dev.runs p = true := by decide +kernel

theorem wit_LitosAccumulators_1_0 :
    let s : State := (ws fun d => (d.put (LSS_PAIRST_ST 4) 0).onPair 4 fun h =>
        { h with started := true, pc := 0x100, g := [(1, 0x80000000), (2, 0x80000001)], ac := [(0, 0x7FFFFFFFFFFFFFFF), (3, 0x8000000000000000)] })
    let p : Fin 5 := 4
    s.dev.sys.logicOn = true ∧ s.dev.runs p = true := by decide +kernel

theorem wit_LitosAccumulators_1_1 :
    let s : State := (ws fun d => (d.put (LSS_PAIRST_ST 4) 0).onPair 4 fun h =>
        { h with started := true, pc := 0x100, g := [(1, 0x80000000), (2, 0x80000001)], ac := [(0, 0x7FFFFFFFFFFFFFFF), (3, 0x8000000000000000)] })
    let p : Fin 5 := 4
    s.dev.sys.logicOn = true ∧ s.dev.runs p = true := by decide +kernel

theorem wit_LitosAccumulators_1_2 :
    let s : State := (ws fun d => (d.put (LSS_PAIRST_ST 4) 0).onPair 4 fun h =>
        { h with started := true, pc := 0x100, g := [(1, 0x80000000), (2, 0x80000001)], ac := [(0, 0x7FFFFFFFFFFFFFFF), (3, 0x8000000000000000)] })
    let p : Fin 5 := 4
    s.dev.sys.logicOn = true ∧ s.dev.runs p = true := by decide +kernel

theorem wit_LitosAccumulators_2_0 :
    let s : State := (ws fun d => (d.put (LSS_PAIRST_ST 4) 0).onPair 4 fun h =>
        { h with started := true, pc := 0x100, g := [(1, 0x80000000), (2, 0x80000001)], ac := [(0, 0x7FFFFFFFFFFFFFFF), (3, 0x8000000000000000)] })
    let p : Fin 5 := 4
    s.dev.sys.logicOn = true ∧ s.dev.runs p = true := by decide +kernel

theorem wit_LitosAccumulators_2_1 :
    let s : State := (ws fun d => (d.put (LSS_PAIRST_ST 4) 0).onPair 4 fun h =>
        { h with started := true, pc := 0x100, g := [(1, 0x80000000), (2, 0x80000001)], ac := [(0, 0x7FFFFFFFFFFFFFFF), (3, 0x8000000000000000)] })
    let p : Fin 5 := 4
    s.dev.sys.logicOn = true ∧ s.dev.runs p = true := by decide +kernel

theorem wit_LitosAccumulators_2_2 :
    let s : State := (ws fun d => (d.put (LSS_PAIRST_ST 4) 0).onPair 4 fun h =>
        { h with started := true, pc := 0x100, g := [(1, 0x80000000), (2, 0x80000001)], ac := [(0, 0x7FFFFFFFFFFFFFFF), (3, 0x8000000000000000)] })
    let p : Fin 5 := 4
    s.dev.sys.logicOn = true ∧ s.dev.runs p = true := by decide +kernel

theorem wit_LitosAccumulators_3_0 :
    let s : State := (ws fun d => (d.put (LSS_PAIRST_ST 4) 0).onPair 4 fun h =>
        { h with started := true, pc := 0x100, g := [(1, 0x80000000), (2, 0x80000001)], ac := [(0, 0x7FFFFFFFFFFFFFFF), (3, 0x8000000000000000)] })
    let p : Fin 5 := 4
    s.dev.sys.logicOn = true ∧ s.dev.runs p = true := by decide +kernel

theorem wit_LitosAccumulators_3_1 :
    let s : State := (ws fun d => (d.put (LSS_PAIRST_ST 4) 0).onPair 4 fun h =>
        { h with started := true, pc := 0x100, g := [(1, 0x80000000), (2, 0x80000001)], ac := [(0, 0x7FFFFFFFFFFFFFFF), (3, 0x8000000000000000)] })
    let p : Fin 5 := 4
    s.dev.sys.logicOn = true ∧ s.dev.runs p = true := by decide +kernel

theorem wit_LitosAccumulators_3_2 :
    let s : State := (ws fun d => (d.put (LSS_PAIRST_ST 4) 0).onPair 4 fun h =>
        { h with started := true, pc := 0x100, g := [(1, 0x80000000), (2, 0x80000001)], ac := [(0, 0x7FFFFFFFFFFFFFFF), (3, 0x8000000000000000)] })
    let p : Fin 5 := 4
    s.dev.sys.logicOn = true ∧ s.dev.runs p = true := by decide +kernel

theorem wit_LitosAccumulators_4_0 :
    let s : State := (ws fun d => (d.put (LSS_PAIRST_ST 4) 0).onPair 4 fun h =>
        { h with started := true, pc := 0x100, g := [(1, 0x80000000), (2, 0x80000001)], ac := [(0, 0x7FFFFFFFFFFFFFFF), (3, 0x8000000000000000)] })
    let p : Fin 5 := 4
    s.dev.sys.logicOn = true ∧ s.dev.runs p = true := by decide +kernel

theorem wit_LitosAccumulators_4_1 :
    let s : State := (ws fun d => (d.put (LSS_PAIRST_ST 4) 0).onPair 4 fun h =>
        { h with started := true, pc := 0x100, g := [(1, 0x80000000), (2, 0x80000001)], ac := [(0, 0x7FFFFFFFFFFFFFFF), (3, 0x8000000000000000)] })
    let p : Fin 5 := 4
    s.dev.sys.logicOn = true ∧ s.dev.runs p = true := by decide +kernel

theorem wit_LitosAccumulators_4_2 :
    let s : State := (ws fun d => (d.put (LSS_PAIRST_ST 4) 0).onPair 4 fun h =>
        { h with started := true, pc := 0x100, g := [(1, 0x80000000), (2, 0x80000001)], ac := [(0, 0x7FFFFFFFFFFFFFFF), (3, 0x8000000000000000)] })
    let p : Fin 5 := 4
    s.dev.sys.logicOn = true ∧ s.dev.runs p = true := by decide +kernel

theorem wit_LitosAccumulators_5_0 :
    let s : State := (ws fun d => (d.put (LSS_PAIRST_ST 4) 0).onPair 4 fun h =>
        { h with started := true, pc := 0x100, g := [(1, 0x80000000), (2, 0x80000001)], ac := [(0, 0x7FFFFFFFFFFFFFFF), (3, 0x8000000000000000)] })
    let p : Fin 5 := 4
    let n : Nat := 32
    s.dev.sys.logicOn = true ∧ s.dev.runs p = true ∧ 0 < n ∧ n ≤ 32 := by decide +kernel

theorem wit_LitosAccumulators_5_1 :
    let s : State := (ws fun d => (d.put (LSS_PAIRST_ST 4) 0).onPair 4 fun h =>
        { h with started := true, pc := 0x100, g := [(1, 0x80000000), (2, 0x80000001)], ac := [(0, 0x7FFFFFFFFFFFFFFF), (3, 0x8000000000000000)] })
    let p : Fin 5 := 4
    let n : Nat := 1
    s.dev.sys.logicOn = true ∧ s.dev.runs p = true ∧ 0 < n ∧ n ≤ 32 := by decide +kernel

theorem wit_LitosAccumulators_6_0 :
    let s : State := (ws fun d => (d.put (LSS_PAIRST_ST 4) 0).onPair 4 fun h =>
        { h with started := true, g := [(1, 0xFF800001), (2, 3)], ac := [(0, 0x7FFFFFFFFFFFFFFF)] })
    let p : Fin 5 := 4
    s.dev.sys.logicOn = true ∧ s.dev.runs p = true := by decide +kernel

theorem wit_LitosAccumulators_6_1 :
    let s : State := (ws fun d => (d.put (LSS_PAIRST_ST 4) 0).onPair 4 fun h =>
        { h with started := true, g := [(1, 0xFF000003), (2, 3)], ac := [(0, 0x7FFFFFFFFFFFFFFF)] })
    let p : Fin 5 := 4
    s.dev.sys.logicOn = true ∧ s.dev.runs p = true := by decide +kernel

theorem wit_LitosAccumulators_7 :
    let s : State := (ws fun d => (d.put (LSS_PAIRST_ST 4) 0).onPair 4 fun h =>
        { h with started := true, pc := 0x100, g := [(1, 0x80000000), (2, 0x80000001)], ac := [(0, 0x7FFFFFFFFFFFFFFF), (3, 0x8000000000000000)] })
    let p : Fin 5 := 4
    s.dev.sys.logicOn = true ∧ s.dev.runs p = true := by decide +kernel

theorem wit_LitosAccumulators_8_0 :
    let s : State := (ws fun d => (d.put (LSS_PAIRST_ST 4) 0).onPair 4 fun h =>
        { h with started := true, pc := 0x100, g := [(1, 0x80000000), (2, 0x80000001)], ac := [(0, 0x7FFFFFFFFFFFFFFF), (3, 0x8000000000000000)] })
    let p : Fin 5 := 4
    let acs : Fin 4 := 3
    let k : Fin 64 := 32
    s.dev.sys.logicOn = true ∧ s.dev.runs p = true ∧ -(2 : Int) ^ 31 ≤ rha (s.dev.ac p acs) (2 ^ k.val) ∧ rha
        (s.dev.ac p acs) (2 ^ k.val) < 2 ^ 31 := by decide +kernel

theorem wit_LitosAccumulators_8_1 :
    let s : State := (ws fun d => (d.put (LSS_PAIRST_ST 4) 0).onPair 4 fun h =>
        { h with started := true, pc := 0x100, g := [(1, 0x80000000), (2, 0x80000001)], ac := [(0, 0x7FFFFFFFFFFFFFFF), (3, 0x8000000000000000)] })
    let p : Fin 5 := 4
    let acs : Fin 4 := 0
    let k : Fin 64 := 63
    s.dev.sys.logicOn = true ∧ s.dev.runs p = true ∧ -(2 : Int) ^ 31 ≤ rha (s.dev.ac p acs) (2 ^ k.val) ∧ rha
        (s.dev.ac p acs) (2 ^ k.val) < 2 ^ 31 := by decide +kernel

theorem wit_LitosAccumulators_9 :
    let s : State := (ws fun d => (d.put (LSS_PAIRST_ST 4) 0).onPair 4 fun h =>
        { h with started := true, pc := 0x100, g := [(1, 0x80000000), (2, 0x80000001)], ac := [(0, 0x7FFFFFFFFFFFFFFF), (3, 0x8000000000000000)] })
    let p : Fin 5 := 4
    s.dev.sys.logicOn = true ∧ s.dev.runs p = true := by decide +kernel

theorem wit_LitosAccumulators_10 :
    let s : State := (ws fun d => (d.put (LSS_PAIRST_ST 4) 0).onPair 4 fun h =>
        { h with started := true, pc := 0x100, g := [(1, 0x80000000), (2, 0x80000001)], ac := [(0, 0x7FFFFFFFFFFFFFFF), (3, 0x8000000000000000)] })
    let p : Fin 5 := 4
    s.dev.sys.logicOn = true ∧ s.dev.runs p = true := by decide +kernel

theorem wit_LitosAccumulators_11 :
    let s : State := (ws fun d => (d.put (LSS_PAIRST_ST 4) 0).onPair 4 fun h =>
        { h with started := true, pc := 0x100, g := [(1, 0x80000000), (2, 0x80000001)], ac := [(0, 0x7FFFFFFFFFFFFFFF), (3, 0x8000000000000000)] })
    let p : Fin 5 := 4
    let acs : Fin 4 := 2
    s.dev.sys.logicOn = true ∧ s.dev.runs p = true ∧ s.dev.ac p acs = 0 := by decide +kernel

theorem wit_LitosAccumulators_12_0 :
    let s : State := (ws fun d => (d.put (LSS_PAIRST_ST 4) 0).onPair 4 fun h =>
        { h with started := true, ac := [(0, 0x500000)] })
    let p : Fin 5 := 4
    let acs : Fin 4 := 0
    let n : Nat := 0
    s.dev.sys.logicOn = true ∧ s.dev.runs p = true ∧ n ≤ 40 ∧ 2 ^ (22 + n) ≤ (s.dev.ac p acs).natAbs ∧ rha ((s.dev.ac
        p acs).natAbs : Int) (2 ^ n) < 2 ^ 23 := by decide +kernel

theorem wit_LitosAccumulators_12_1 :
    let s : State := (ws fun d => (d.put (LSS_PAIRST_ST 4) 0).onPair 4 fun h =>
        { h with started := true, ac := [(0, 0x7000000000000000)] })
    let p : Fin 5 := 4
    let acs : Fin 4 := 0
    let n : Nat := 40
    s.dev.sys.logicOn = true ∧ s.dev.runs p = true ∧ n ≤ 40 ∧ 2 ^ (22 + n) ≤ (s.dev.ac p acs).natAbs ∧ rha ((s.dev.ac
        p acs).natAbs : Int) (2 ^ n) < 2 ^ 23 := by decide +kernel

theorem wit_LitosAccumulators_13 :
    let s : State := (ws fun d => (d.put (LSS_PAIRST_ST 4) 0).onPair 4 fun h =>
        { h with started := true, g := [(3, 40)], ac := [(0, 0x7000000000000000)] })
    let p : Fin 5 := 4
    let acs : Fin 4 := 0
    let gb : Fin 32 := 3
    let n : Nat := 40
    s.dev.sys.logicOn = true ∧ s.dev.runs p = true ∧ n ≤ 63 ∧ (s.dev.gr p gb).toInt = (n : Int) ∧ (rha (s.dev.ac p
        acs) (2 ^ n)).natAbs < 2 ^ 23 := by decide +kernel

theorem wit_LitosSystem_0 :
    let s : State := (ws fun d => (d.put (LSS_PAIRST_ST 3) 0).onPair 3 fun h =>
        { h with started := true, pc := 0x100, g := [(1, 0x30), (2, 0)] })
    let p : Fin 5 := 3
    s.dev.sys.logicOn = true ∧ s.dev.runs p = true := by decide +kernel

theorem wit_LitosSystem_1 :
    let s : State := (ws fun d => (d.put (LSS_PAIRST_ST 3) 0).onPair 3 fun h =>
        { h with started := true, pc := 0x100, g := [(1, 0x30), (2, 0)] })
    let p : Fin 5 := 3
    s.dev.sys.logicOn = true ∧ s.dev.runs p = true := by decide +kernel

theorem wit_LitosSystem_2 :
    let s : State := (ws fun d => (d.put (LSS_PAIRST_ST 3) 0).onPair 3 fun h =>
        { h with started := true, pc := 0x100, g := [(1, 0x30), (2, 0)] })
    let p : Fin 5 := 3
    s.dev.sys.logicOn = true ∧ s.dev.runs p = true ∧ s.dev.superv p = true := by decide +kernel

theorem wit_LitosSystem_3 :
    let s : State := (ws fun d => (d.put (LSS_PAIRST_ST 3) 0).onPair 3 fun h =>
        { h with started := true, cw := [(0, 0)] })
    let p : Fin 5 := 3
    s.dev.sys.logicOn = true ∧ s.dev.runs p = true ∧ s.dev.superv p = false ∧ ((s.dev.pairOf p).cwGet 0).getLsbD 2 =
        false := by decide +kernel

theorem wit_LitosSystem_4 :
    let s : State := (ws fun d => (d.put (LSS_PAIRST_ST 3) 0).onPair 3 fun h =>
        { h with started := true, pc := 0x100, g := [(1, 0x30), (2, 0)] })
    let p : Fin 5 := 3
    s.dev.sys.logicOn = true ∧ s.dev.runs p = true ∧ ((s.dev.pairOf p).cwGet 0).getLsbD 2 = false := by decide +kernel

theorem wit_LitosSystem_5 :
    let s : State := (ws fun d => (d.put (LSS_PAIRST_ST 3) 0).onPair 3 fun h =>
        { h with started := true, pc := 0x100, g := [(1, 0x30), (2, 0)] })
    let p : Fin 5 := 3
    s.dev.sys.logicOn = true ∧ s.dev.runs p = true ∧ ((s.dev.pairOf p).cwGet 0).getLsbD 2 = false ∧ p.val ∉
        s.dev.ssq.armedHalt := by decide +kernel

theorem wit_LitosSystem_6 :
    let s : State := (ws fun d => (d.put (LSS_PAIRST_ST 3) 0).onPair 3 fun h =>
        { h with started := true, pc := 0x100, g := [(1, 0x30), (2, 0)] })
    let p : Fin 5 := 3
    let w : Word := 0
    s.dev.sys.logicOn = true ∧ s.dev.runs p = true ∧ ((s.dev.pairOf p).cwGet 0).getLsbD 2 = false ∧ decodeLitos p 0 w
        = none := by decide +kernel

theorem wit_LitosSystem_7 :
    let s : State := (ws fun d => (d.put (LSS_PAIRST_ST 3) 0).onPair 3 fun h =>
        { h with started := true, pc := 0x100, g := [(1, 0x30), (2, 0)] })
    let p : Fin 5 := 3
    s.dev.sys.logicOn = true ∧ s.dev.runs p = true ∧ s.dev.superv p = true := by decide +kernel

theorem wit_LitosSystem_8 :
    let s : State := (ws fun d => (d.put (LSS_PAIRST_ST 3) 0).onPair 3 fun h =>
        { h with started := true, cw := [(0, 0)] })
    let p : Fin 5 := 3
    s.dev.sys.logicOn = true ∧ s.dev.runs p = true ∧ s.dev.superv p = false ∧ ((s.dev.pairOf p).cwGet 0).getLsbD 2 =
        false := by decide +kernel

theorem wit_LitosSystem_9 :
    let s : State := (ws fun d => (d.put (LSS_PAIRST_ST 3) 0).onPair 3 fun h =>
        { h with started := true, pc := 0x100, g := [(1, 0x30), (2, 0)] })
    let p : Fin 5 := 3
    s.dev.sys.logicOn = true ∧ s.dev.runs p = true ∧ s.dev.superv p = true ∧ s.dev.waiting p = none := by
        decide +kernel

theorem wit_LitosSystem_10 :
    let s : State := (ws fun d =>
        { (d.put (LSS_PAIRST_ST 3) 0).onPair 3 fun h => { h with started := true, wait := .wev 4 (some 7) } with now := 7 })
    let p : Fin 5 := 3
    let gd : Fin 32 := 4
    let dl : Fin 32 := 7
    s.dev.sys.logicOn = true ∧ s.dev.waits p = true ∧ (s.dev.pairOf p).wait = .wev gd (some dl) ∧ s.dev.waiting p =
        none ∧ s.dev.deadline (w32 dl.val) = true := by decide +kernel

theorem wit_LitosSystem_11 :
    let s : State := (ws fun d => (d.put (LSS_PAIRST_ST 3) 0).onPair 3 fun h =>
        { h with started := true, pc := 0x100, g := [(1, 0x30), (2, 0)] })
    let p : Fin 5 := 3
    s.dev.sys.logicOn = true ∧ s.dev.runs p = true ∧ s.dev.superv p = true ∧ s.dev.peal.running = false := by
        decide +kernel

theorem wit_LitosSystem_12 :
    let s : State := (ws fun d => (d.put (LSS_PAIRST_ST 3) 0).onPair 3 fun h =>
        { h with started := true, wait := .peal 4, pealRes := 0x101 })
    let p : Fin 5 := 3
    let gd : Fin 32 := 4
    s.dev.sys.logicOn = true ∧ s.dev.waits p = true ∧ (s.dev.pairOf p).wait = .peal gd ∧ (s.dev.pairOf p).pealRes ≠
        0 := by decide +kernel

theorem wit_LitosSystem_13 :
    let s : State := (ws fun d => ((((raise 5 d).put (EVC_CFG_EN 5) 1).put (EVC_CFG_TARGET 5) 3).put (EVC_CFG_PRIO 5)
        10 |>.put (LSS_PAIRST_ST 3) 0).onPair 3 fun h => { h with started := true, cw := [(0, 3)] })
    let p : Fin 5 := 3
    let n : Nat := 5
    s.dev.sys.logicOn = true ∧ s.dev.waits p = true ∧ (s.dev.pairOf p).wait = .none_ ∧ ((s.dev.pairOf p).cwGet
        0).getLsbD 1 = true ∧ ((s.dev.pairOf p).cwGet 0).getLsbD 2 = false ∧ s.dev.presented p = some n := by
        decide +kernel

theorem wit_LoopLaunch_0 :
    let s : State := (ws fun d => (d.put (LSS_PAIRST_ST 3) 0).put LSS_PAIRST_SUP 3 |>.onPair 3 fun h =>
        { h with started := true, g := [(1, 7), (2, 0x800000)] })
    let p : Fin 5 := 3
    let ga : Fin 32 := 1
    let gb : Fin 32 := 2
    let e : Fin 8 := 7
    let k : Fin 24 := 23
    s.dev.sys.logicOn = true ∧ s.dev.runs p = true ∧ s.dev.superv p = true ∧ s.dev.gr p ga = BitVec.ofNat 32 e.val ∧
        s.dev.gr p gb = 1#32 <<< k.val ∧ s.dev.lelLoops p e (s.dev.gr p gb) = true ∧ (s.dev.loopOf e k).refWr =
        none := by decide +kernel

theorem wit_LoopLaunch_1 :
    let s : State := (ws fun d => (d.put (LSS_PAIRST_ST 3) 0).put LSS_PAIRST_SUP 3 |>.onPair 3 fun h =>
        { h with started := true, g := [(1, 0x17), (2, 0x800000)] })
    let p : Fin 5 := 3
    let ga : Fin 32 := 1
    let gb : Fin 32 := 2
    let e : Fin 8 := 7
    s.dev.sys.logicOn = true ∧ s.dev.runs p = true ∧ s.dev.superv p = true ∧ s.dev.gr p ga = BitVec.ofNat 32 (16 +
        e.val) ∧ s.dev.lelLoops p e (s.dev.gr p gb) = true := by decide +kernel

theorem wit_LoopLaunch_2 :
    let s : State := (ws fun d => ((d.put (LSS_PAIRST_ST 3) 0).put LSS_PAIRST_SUP 3 |>.onPair 3 fun h =>
        { h with started := true, g := [(1, 0x27), (2, 23)] }).onEng 7 fun g =>
        { g with proof := some { loop := 3, n := 5 } })
    let p : Fin 5 := 3
    let ga : Fin 32 := 1
    let gb : Fin 32 := 2
    let e : Fin 8 := 7
    let k : Fin 24 := 23
    s.dev.sys.logicOn = true ∧ s.dev.runs p = true ∧ s.dev.superv p = true ∧ s.dev.gr p ga = BitVec.ofNat 32 (32 +
        e.val) ∧ s.dev.gr p gb = BitVec.ofNat 32 k.val ∧ s.dev.engineRights (.pair p) e = true ∧ s.dev.loopRights
        (.pair p) e k = true ∧ (s.dev.engOf e).proof ≠ none := by decide +kernel

theorem wit_LoopLaunch_3 :
    let s : State := (ws fun d => ((((d.put (LSS_PAIRST_ST 3) 0).put LSS_PAIRST_SUP 3 |>.onPair 3 fun h =>
        { h with started := true, g := [(1, 0x27), (2, 23)] }).setReg (bankBase 7 1 + 0x200 + 0x80 * 23)
        0x00000111).setReg (bankBase 7 0) 0x20400000).setReg (bankBase 7 1 + 0x200 + 0x80 * 23 + 0x30) 0x10000000)
    let p : Fin 5 := 3
    let ga : Fin 32 := 1
    let gb : Fin 32 := 2
    let e : Fin 8 := 7
    let k : Fin 24 := 23
    s.dev.sys.logicOn = true ∧ s.dev.runs p = true ∧ s.dev.superv p = true ∧ s.dev.gr p ga = BitVec.ofNat 32 (32 +
        e.val) ∧ s.dev.gr p gb = BitVec.ofNat 32 k.val ∧ s.dev.engineRights (.pair p) e = true ∧ s.dev.loopRights
        (.pair p) e k = true ∧ s.dev.proofRefusal e k = 0 := by decide +kernel

theorem wit_LoopLaunch_4 :
    let s : State := (ws fun d => (d.put (LSS_PAIRST_ST 3) 0).put LSS_PAIRST_SUP 3 |>.onPair 3 fun h =>
        { h with started := true, g := [(1, 0x37), (2, 0)] })
    let p : Fin 5 := 3
    let ga : Fin 32 := 1
    let gb : Fin 32 := 2
    let e : Fin 8 := 7
    s.dev.sys.logicOn = true ∧ s.dev.runs p = true ∧ s.dev.superv p = true ∧ s.dev.gr p ga = BitVec.ofNat 32 (48 +
        e.val) ∧ s.dev.gr p gb = 0 ∧ s.dev.sup = p.val ∧ s.dev.schedErr e (1 - s.dev.get (LE_CTL_SCHBANK e)) = 0 := by
        decide +kernel

theorem wit_LoopLaunch_5 :
    let s : State := (ws fun d => (d.put (LSS_PAIRST_ST 3) 0).put LSS_PAIRST_SUP 3 |>.onPair 3 fun h =>
        { h with started := true, g := [(1, 0x3F), (2, 0)] })
    let p : Fin 5 := 3
    let ga : Fin 32 := 1
    s.dev.sys.logicOn = true ∧ s.dev.runs p = true ∧ s.dev.superv p = true ∧ ((s.dev.pairOf p).cwGet 0).getLsbD 2 =
        false ∧ (s.dev.gr p ga).getLsbD 3 = true := by decide +kernel

theorem wit_EventsRaisedAndAged_0 :
    let s : State := (ws id)
    let m : Master := .pair 4
    let n : Fin 1024 := 1023
    s.dev.sys.logicOn = true ∧ isPair m = true ∧ safetyEvent n = false ∧ s.dev.pend n = false := by decide +kernel

theorem wit_EventsRaisedAndAged_1 :
    let s : State := (ws fun d => { raise 1023 d with now := 9 })
    let m : Master := .debug
    let n : Fin 1024 := 1023
    s.dev.sys.logicOn = true ∧ isPair m = true ∧ safetyEvent n = false ∧ s.dev.pend n = true ∧ (s.dev.evOf n).at_ ≠
        s.dev.now := by decide +kernel

theorem wit_EventsRaisedAndAged_2 :
    let s : State := (ws id)
    let m : Master := .pair 0
    let n : Fin 1024 := 993
    s.dev.sys.logicOn = true ∧ isPair m = true ∧ safetyEvent n = true := by decide +kernel

theorem wit_EventsRaisedAndAged_3 :
    let s : State := (ws fun d => { raise 1023 d with now := 9 })
    let m : Master := .pair 0
    let p : Fin 5 := 0
    let n : Fin 1024 := 1023
    s.dev.sys.logicOn = true ∧ s.dev.asPair m = some p.val ∧ s.dev.sup = p.val ∧ s.dev.pend n = true ∧ (s.dev.evOf
        n).at_ ≠ s.dev.now := by decide +kernel

theorem wit_EventsRaisedAndAged_4 :
    let s : State := (ws fun d => raise 1023 d)
    let p : Fin 5 := 4
    let n : Fin 1024 := 1023
    s.dev.sys.logicOn = true ∧ s.dev.sup ≠ p.val ∧ s.dev.routedTo n ≠ some (p.val, false) ∧ s.dev.routedTo n ≠ some
        (p.val, true) ∧ ¬ (p.val ∈ (s.dev.evOf n).takenBy) := by decide +kernel

theorem wit_EventsRaisedAndAged_5 :
    let s : State := (ws fun d => raise 1023 d)
    let m : Master := .debug
    let p : Fin 5 := 0
    let n : Fin 1024 := 1023
    s.dev.sys.logicOn = true ∧ s.dev.asPair m = some p.val ∧ s.dev.sup = p.val ∧ s.dev.pend n = true ∧ (s.dev.evOf
        n).at_ = s.dev.now := by decide +kernel

theorem wit_EventsRaisedAndAged_6 :
    let s : State := (ws fun d => { (raise 1013 d).put (EVC_CFG_EN 1013) 1 with now := 200200, timeOn := true })
    let n : Fin 1024 := 1013
    s.dev.sys.logicOn = true ∧ s.dev.timeOn = true ∧ s.dev.now % 200 = 0 ∧ s.dev.pend n = true ∧ safetyEvent n = false
        ∧ s.dev.get (EVC_CFG_EN n) = 1 ∧ s.dev.get (EVC_CFG_AGEN n) = 1 ∧ s.dev.get (EVC_CFG_PRIO n) ≤ 13 ∧
        (s.dev.evOf n).base + max 1 (s.dev.get EVC_AGE_US) ≤ s.dev.now / 200 := by decide +kernel

theorem wit_EventsRaisedAndAged_7_0 :
    let s : State := (ws id)
    let m : Master := .pair 3
    let n : Fin 1024 := 767
    s.dev.sys.logicOn = true ∧ s.dev.cfgRights m n = true ∧ safetyEvent n = false := by decide +kernel

theorem wit_EventsRaisedAndAged_7_1 :
    let s : State := (ws id)
    let m : Master := .pair 0
    let n : Fin 1024 := 1023
    s.dev.sys.logicOn = true ∧ s.dev.cfgRights m n = true ∧ safetyEvent n = false := by decide +kernel

theorem wit_EventsRaisedAndAged_8 :
    let s : State := (ws id)
    let m : Master := .pair 0
    let n : Fin 1024 := 896
    s.dev.sys.logicOn = true ∧ s.dev.cfgRights m n = true ∧ safetyEvent n = true := by decide +kernel

theorem wit_EventsRaisedAndAged_9 :
    let s : State := (ws id)
    let p : Fin 5 := 4
    let n : Fin 1024 := 1023
    s.dev.sys.logicOn = true ∧ s.dev.cfgRights (.pair p) n = false ∧ ((s.dev.pairOf p).cwGet 0).getLsbD 2 = false :=
        by decide +kernel

theorem wit_KnellsAndLine_0 :
    let s : State := (ws fun d => { d.onSsq fun q => { q with kicks := tset none q.kicks 4 (some 3) } with now := 7 })
    let p : Fin 5 := 4
    let k : Nat := 3
    s.dev.sys.logicOn = true ∧ tget none s.dev.ssq.kicks p = some k := by decide +kernel

theorem wit_KnellsAndLine_1 :
    let s : State := (ws fun d => d.put (CU_STATE_STATE 63) 6)
    let m : Master := .pair 0
    let w : Word := 0x80000001
    s.dev.sys.logicOn = true ∧ s.dev.supRights m = true ∧ w ≠ 0 ∧ s.dev.ssq.kAt ≠ some s.dev.now ∧ s.dev.peal.running
        = false := by decide +kernel

theorem wit_KnellsAndLine_2 :
    let s : State := (ws id)
    let p : Fin 5 := 4
    s.dev.sys.logicOn = true ∧ s.dev.sup ≠ p.val ∧ ((s.dev.pairOf p).cwGet 0).getLsbD 2 = false := by decide +kernel

theorem wit_KnellsAndLine_3 :
    let s : State := (ws fun d => d.put (CU_STATE_STATE 63) 6)
    let m : Master := .pair 0
    let w : Word := 0x80000001
    s.dev.sys.logicOn = true ∧ s.dev.supRights m = true ∧ w ≠ 0 ∧ s.dev.ssq.kAt ≠ some s.dev.now ∧ s.dev.peal.running
        = false := by decide +kernel

theorem wit_KnellsAndLine_4 :
    let s : State := (ws id)
    let m : Master := .pair 0
    s.dev.sys.logicOn = true ∧ s.dev.supRights m = true ∧ s.dev.peal.running = false := by decide +kernel

theorem wit_KnellsAndLine_5 :
    let s : State := (ws fun d => d.put SSQ_LINE_ASSERT 1)
    let m : Master := .debug
    s.dev.sys.logicOn = true ∧ s.dev.supRights m = true ∧ s.dev.ssq.pulseEnd = none ∧ s.dev.ssq.xfail = false ∧
        s.dev.mode ≠ .lockout ∧ s.dev.ssq.extLine = false := by decide +kernel

theorem wit_KnellsAndLine_6 :
    let s : State := (ws fun d => (d.put FLT_STAT_LEVEL 1).onSsq fun q => { q with pulseEnd := some 0 })
    let e : Nat := 0
    s.dev.sys.logicOn = true ∧ s.dev.ssq.pulseEnd = some e ∧ e ≤ s.dev.now ∧ s.dev.get SSQ_LINE_ASSERT = 0 ∧
        s.dev.ssq.xfail = false ∧ s.dev.mode ≠ .lockout ∧ s.dev.ssq.extLine = false := by decide +kernel

theorem wit_KnellsAndLine_7 :
    let s : State := (ws id)
    s.dev.sys.logicOn = true ∧ s.dev.get FLT_STAT_LEVEL = 0 ∧ s.dev.ssq.pulseEnd = none ∧ s.dev.get SSQ_LINE_ASSERT =
        0 ∧ s.dev.ssq.xfail = false ∧ s.dev.mode ≠ .lockout ∧ s.dev.peal.running = false := by decide +kernel

theorem wit_KnellsAndLine_8 :
    let s : State := (ws fun d => (d.put FLT_STAT_LEVEL 1).onSsq fun q => { q with extLine := true })
    s.dev.sys.logicOn = true ∧ s.dev.ssq.pulseEnd = none ∧ s.dev.get SSQ_LINE_ASSERT = 0 ∧ s.dev.ssq.xfail = false ∧
        s.dev.mode ≠ .lockout := by decide +kernel

theorem wit_PairFailureAndRecovery_0 :
    let s : State := (ws fun d => d.put LSS_CFG_LINE 0)
    let p : Fin 5 := 4
    s.dev.sys.logicOn = true ∧ s.dev.pairSt p = .spare ∧ s.dev.hosted p = [] ∧ s.dev.get LSS_CFG_LINE = 0 ∧
        s.dev.ssq.mig = none := by decide +kernel

theorem wit_PairFailureAndRecovery_1 :
    let s : State := (ws fun d =>
        { d.onSsq fun q => { q with kicks := tset none q.kicks 4 (some 0) } with now := 100000000 })
    let p : Fin 5 := 4
    let k : Nat := 0
    s.dev.sys.logicOn = true ∧ s.dev.pairSt p = .spare ∧ s.dev.ssq.mig = none ∧ tget none s.dev.ssq.kicks p = some k ∧
        k + 200 * max 100 (s.dev.get LSS_WDG_US) ≤ s.dev.now := by decide +kernel

theorem wit_PairFailureAndRecovery_2 :
    let s : State := (ws fun d => (d.put (LSS_PAIRST_ST 2) 2).onSsq fun q =>
        { q with queue := [{ pair := 2, since := some 0 }] })
    let m : Master := .pair 0
    let f : Fin 8 := 2
    let g : Fin 8 := 4
    let r : Rehost := { pair := 2, since := some 0 }
    s.dev.sys.logicOn = true ∧ s.dev.supRights m = true ∧ s.dev.ssq.queue = [r] ∧ r.pair = f.val ∧ f.val ≤ 4 ∧ g.val ≤
        4 ∧ s.dev.ssq.moving = false ∧ r.released = true ∧ s.dev.pairSt g = .spare ∧ s.dev.pairSt f = .failed := by
        decide +kernel

theorem wit_PairFailureAndRecovery_3 :
    let s : State := (ws fun d => (d.put (LSS_PAIRST_ST 2) 2).onSsq fun q =>
        { q with queue := [{ pair := 2, since := some 0 }] })
    let m : Master := .pair 0
    let f : Fin 8 := 2
    let g : Fin 8 := 3
    let r : Rehost := { pair := 2, since := some 0 }
    s.dev.sys.logicOn = true ∧ s.dev.supRights m = true ∧ s.dev.ssq.queue = [r] ∧ r.pair = f.val ∧ f.val ≠ 7 ∧
        s.dev.ssq.moving = false ∧ (4 < g.val ∨ s.dev.pairSt g ≠ .spare) := by decide +kernel

theorem wit_PairFailureAndRecovery_4 :
    let s : State := (ws fun d =>
        { (d.put (LSS_PAIRST_ST 2) 2).onSsq fun q => { q with queue := [{ pair := 2, since := some 0 }] } with now := 200000 })
    let r : Rehost := { pair := 2, since := some 0 }
    let p : Nat := 4
    let k : Nat := 0
    s.dev.sys.logicOn = true ∧ s.dev.ssq.queue = [r] ∧ r.since = some k ∧ s.dev.ssq.moving = false ∧ r.released = true
        ∧ k + 200000 * s.dev.get LSS_CFG_RHTO ≤ s.dev.now ∧ s.dev.spare = some p ∧ r.pair ≤ 4 ∧ s.dev.pairSt r.pair =
        .failed := by decide +kernel

theorem wit_PairFailureAndRecovery_5 :
    let s : State := (ws fun d => ((d.put SYS_MODE_MODE 5).setBit (PWM_FLT 63) 4).onSsq fun q =>
        { q with restart := [(63, 1)] })
    let a : Fin 64 := 63
    let dir : Nat := 1
    s.dev.sys.logicOn = true ∧ s.dev.members a = [a.val] ∧ s.dev.restartOk a = true ∧ s.dev.ssq.restart = [(a.val,
        dir)] ∧ s.dev.get ⟨PWM_FLT a, 0, 3⟩ = 0 ∧ s.dev.get ⟨PWM_FLT a, 6, 2⟩ = 0 := by decide +kernel

theorem wit_PairFailureAndRecovery_6 :
    let s : State := (ws fun d => ((((d.put SYS_MODE_MODE 5).setBit (PWM_FLT 63) 4).put (CSL_PORT_ST 15 3) 1).put
        (CU_STATE_STATE 63) 2).onSsq fun q => { q with restart := [(63, 1)] })
    let a : Fin 64 := 63
    let dir : Fin 2 := 1
    s.dev.sys.logicOn = true ∧ s.dev.members a = [a.val] ∧ s.dev.restartOk a = true ∧ s.dev.ssq.restart = [(a.val,
        dir.val)] ∧ s.dev.get ⟨PWM_FLT a, 0, 3⟩ = 0 ∧ s.dev.get ⟨PWM_FLT a, 6, 2⟩ = 0 ∧ s.dev.axSt a = .hiz ∧
        (s.dev.put ⟨PWM_FLT a, 3, 3⟩ 0).startReason a = 0 := by decide +kernel

theorem wit_PairFailureAndRecovery_7 :
    let s : State := (ws fun d => d.put (LSS_PAIRST_ST 4) 2)
    let m : Master := .pair 0
    let p : Fin 5 := 4
    s.dev.sys.logicOn = true ∧ s.dev.supRights m = true ∧ s.dev.pairSt p = .failed ∧ ¬ (p.val ∈ s.dev.ssq.dead) := by
        decide +kernel

theorem wit_PairFailureAndRecovery_8 :
    let s : State := (ws id)
    let m : Master := .pair 0
    let key : Fin 256 := 0x3B
    let p : Fin 8 := 7
    s.dev.sys.logicOn = true ∧ s.dev.supRights m = true ∧ (key.val ≠ 0x3A ∨ 4 < p.val) := by decide +kernel

theorem wit_PairFailureAndRecovery_9 :
    let s : State := (ws fun d => (d.put (LSS_PAIRST_ST 4) 4).onSsq fun q => { q with resetEnd := [4] })
    let p : Fin 5 := 4
    s.dev.sys.logicOn = true ∧ p.val ∈ s.dev.ssq.resetEnd := by decide +kernel

theorem wit_PairFailureAndRecovery_10 :
    let s : State := (ws fun d => d.setReg LSS_MIGMHI 1)
    let p : Fin 5 := 0
    let g : Fin 8 := 4
    let lead : Fin 1024 := 1
    s.dev.sys.logicOn = true ∧ ((s.dev.put LSS_MIGCTL_DEST g).put LSS_MIGCTL_LEAD lead).migRefusal (.pair p) = 0 ∧
        s.dev.peal.running = false := by decide +kernel

theorem wit_PairFailureAndRecovery_11 :
    let s : State := (ws id)
    let p : Fin 5 := 1
    let g : Fin 8 := 4
    let lead : Fin 1024 := 1023
    s.dev.sys.logicOn = true ∧ 0 < ((s.dev.put LSS_MIGCTL_DEST g).put LSS_MIGCTL_LEAD lead).migRefusal (.pair p) := by
        decide +kernel

theorem wit_PairFailureAndRecovery_12 :
    let s : State := (ws id)
    let m : Master := .pair 0
    let g : Fin 8 := 4
    s.dev.sys.logicOn = true ∧ s.dev.supRights m = true ∧ g.val ≤ 4 ∧ s.dev.healthy g = true ∧ s.dev.ssq.queue = [] ∧
        s.dev.ssq.mig = none ∧ s.dev.ssq.resetEnd = [] := by decide +kernel

theorem wit_PairFailureAndRecovery_13 :
    let s : State := (ws id)
    let m : Master := .pair 0
    let g : Fin 8 := 7
    s.dev.sys.logicOn = true ∧ s.dev.supRights m = true ∧ (4 < g.val ∨ s.dev.healthy g = false) := by decide +kernel

theorem wit_PairFailureAndRecovery_14 :
    let s : State := (ws fun d => d.put SYS_MODE_MODE 8)
    let p : Fin 5 := 4
    s.dev.sys.logicOn = true ∧ s.dev.haltOk p = true := by decide +kernel

theorem wit_PairFailureAndRecovery_15 :
    let s : State := (ws id)
    let p : Fin 5 := 0
    s.dev.sys.logicOn = true ∧ s.dev.haltOk p = false := by decide +kernel

theorem wit_JournalSubmissions_0 :
    let s : State := (wsm (memWrite (memSet [] 0x10000007 5) 0x10000005 1 0xFF) fun d => d.put JNL_STAT_MODE 1)
    let a : Fin 1073741824 := 0x4000000
    s.dev.sys.logicOn = true ∧ submitCode (stagedRec s.mem (4 * a)) (stagedBad s.mem (4 * a)) false s.dev = 0 := by
        decide +kernel

theorem wit_JournalSubmissions_1_0 :
    let s : State := (ws fun d => d.put JNL_STAT_MODE 1)
    let a : Fin 1073741824 := 0x4000000
    let e : Bool := false
    s.dev.sys.logicOn = true ∧ 0 < submitCode (stagedRec s.mem (4 * a)) (stagedBad s.mem (4 * a)) e s.dev ∧ submitCode
        (stagedRec s.mem (4 * a)) (stagedBad s.mem (4 * a)) e s.dev ≠ 3 := by decide +kernel

theorem wit_JournalSubmissions_1_1 :
    let s : State := (wsm (memWrite (memSet [] 0x10000007 5) 0x10000005 1 0xFF) fun d => d.put JNL_STAT_MODE 3)
    let a : Fin 1073741824 := 0x4000000
    let e : Bool := true
    s.dev.sys.logicOn = true ∧ 0 < submitCode (stagedRec s.mem (4 * a)) (stagedBad s.mem (4 * a)) e s.dev ∧ submitCode
        (stagedRec s.mem (4 * a)) (stagedBad s.mem (4 * a)) e s.dev ≠ 3 := by decide +kernel

theorem wit_JournalSubmissions_2 :
    let s : State := (ws fun d => (d.put JNL_STAT_MODE 1).onJnl fun j =>
        { j with headOff := 16, queue := [{ body := { typ := 5 }, from_ := some 4 }] })
    let p : Fin 5 := 4
    let q : JSub := { body := { typ := 5 }, from_ := some 4 }
    s.dev.sys.logicOn = true ∧ s.dev.jnlOpen = true ∧ s.dev.jnl.queue = [q] ∧ q.ecc = false ∧ q.from_ = some p.val ∧
        q.body.typ ≠ 10 ∧ s.dev.jnl.compacting = false ∧ 0 < s.dev.jnl.headOff ∧ s.dev.jnl.headOff + q.body.size ≤
        4096 := by decide +kernel

theorem wit_JournalSubmissions_3 :
    let s : State := (ws fun d => (d.put JNL_STAT_MODE 1).onJnl fun j =>
        { j with headBlk := 3, tailBlk := 5, log := [{ typ := 12, key := 7, block := 5 }, { typ := 5, block := 5, seq := 1 }] })
    s.dev.sys.logicOn = true ∧ s.dev.jnlOpen = true ∧ s.dev.jnl.sealing = false ∧ s.dev.jnl.compacting = false ∧
        s.dev.jnl.freeBlks < s.dev.compactAt ∧ s.dev.jnl.tailBlk ≠ s.dev.jnl.headBlk := by decide +kernel

theorem wit_JournalSubmissions_4 :
    let s : State := (ws fun d => (d.put JNL_STAT_MODE 1).onJnl fun j =>
        { j with headBlk := 3, headOff := 40, tailBlk := 5, compacting := true, copies := [{ typ := 6, key := 7, block := 5, txn := 3 }] })
    let r : JRec := { typ := 6, key := 7, block := 5, txn := 3 }
    let l : List JRec := []
    s.dev.sys.logicOn = true ∧ s.dev.jnlOpen = true ∧ s.dev.jnl.sealing = false ∧ s.dev.jnl.compacting = true ∧
        s.dev.jnl.copies = r :: l ∧ s.dev.jnl.queue = [] ∧ 0 < s.dev.jnl.headOff ∧ s.dev.jnl.headOff + r.size ≤
        4096 := by decide +kernel

theorem wit_JournalSubmissions_5 :
    let s : State := (ws fun d => (d.put JNL_STAT_MODE 1).onJnl fun j => { j with allocs := 4096 })
    s.dev.sys.logicOn = true ∧ s.dev.jnlOpen = true ∧ 4096 ≤ s.dev.jnl.allocs ∧ s.dev.jnl.metaBad = [] ∧
        s.dev.jnl.metaNew ≤ 1 := by decide +kernel

theorem wit_JournalSubmissions_6 :
    let s : State := (ws fun d => d.onJnl fun j => { j with map := [(3839, 4095)], ro := [4095] })
    let m : Master := .pair 4
    let l : Fin 4096 := 3839
    s.dev.sys.logicOn = true ∧ isPair m = true ∧ l.val < 3840 := by decide +kernel

theorem wit_JournalSubmissions_7 :
    let s : State := (ws id)
    let m : Master := .debug
    let l : Fin 4096 := 3840
    s.dev.sys.logicOn = true ∧ isPair m = true ∧ 3840 ≤ l.val := by decide +kernel

theorem wit_ImagesAndFirmware_0 :
    let s : State := (wsm tinyImage fun d => (((d.put JNL_STAT_MODE 1).setReg JNL_IMGSRC 0x10000100).setReg JNL_FWCUR
        0xFFFFF).setReg JNL_FWPREV 0xFFFFF)
    let m : Master := .pair 0
    let n : Fin 8 := 5
    s.dev.sys.logicOn = true ∧ s.dev.supRights m = true ∧ imageErr n (s.dev, s.mem) = 0 := by decide +kernel

theorem wit_ImagesAndFirmware_1 :
    let s : State := (ws id)
    let m : Master := .pair 0
    let n : Fin 8 := 7
    s.dev.sys.logicOn = true ∧ s.dev.supRights m = true ∧ 0 < imageErr n (s.dev, s.mem) := by decide +kernel

theorem wit_ImagesAndFirmware_2 :
    let s : State := (ws id)
    let p : Fin 5 := 4
    s.dev.sys.logicOn = true ∧ s.dev.sup ≠ p.val ∧ ((s.dev.pairOf p).cwGet 0).getLsbD 2 = false := by decide +kernel

theorem wit_ImagesAndFirmware_3 :
    let s : State := (wsm tinyImage fun d => d.onJnl fun j =>
        { j with img := some (5, 0x10000100), imgSt := [(5, 1)] })
    let n : Nat := 5
    let src : Nat := 0x10000100
    s.dev.sys.logicOn = true ∧ s.dev.jnl.img = some (n, src) := by decide +kernel

theorem wit_ImagesAndFirmware_4 :
    let s : State := (wsm tinyImage fun d => d.onJnl fun j =>
        { j with img := some (5, 0x10000100), imgSt := [(5, 1)] })
    let n : Nat := 5
    let src : Nat := 0x10000100
    s.dev.sys.logicOn = true ∧ s.dev.jnl.img = some (n, src) ∧ imageOk (copyImage n src (s.dev, s.mem)).2 src = true ∧
        tget 0 (copyImage n src (s.dev, s.mem)).1.jnl.imgSt n = 1 := by decide +kernel

theorem wit_ImagesAndFirmware_5 :
    let s : State := (wsm (memSet [] (0x20000000 + 0x1000 * (16 + 68 * 5) + 4) 1) fun d => d.onJnl fun j =>
        { j with imgSt := [(5, 2)] })
    let m : Master := .pair 0
    let w : Word := 0x00FFFFF5
    s.dev.sys.logicOn = true ∧ s.dev.supRights m = true ∧ (∀ p : Fin 5, w.toNat / 16 ^ p.val % 16 = 15 ∨ (w.toNat / 16
        ^ p.val % 16 < 6 ∧ tget 0 s.dev.jnl.imgSt (w.toNat / 16 ^ p.val % 16) = 2 ∧ slotKind (w.toNat / 16 ^ p.val %
        16) (s.dev, s.mem) = 1)) := by decide +kernel

theorem wit_ImagesAndFirmware_6 :
    let s : State := (ws id)
    let m : Master := .pair 0
    let w : Word := 0
    s.dev.sys.logicOn = true ∧ s.dev.supRights m = true ∧ (∃ p : Fin 5, w.toNat / 16 ^ p.val % 16 ≠ 15 ∧ tget 0
        s.dev.jnl.imgSt (w.toNat / 16 ^ p.val % 16) ≠ 2) := by decide +kernel

theorem wit_ImagesAndFirmware_7 :
    let s : State := (ws fun d =>
        { ((d.put (CSL_STAT_STATE 15) 2).onSlot 15 fun x => { x with ident := some {} }).onPort 63 fun p => { p with enAt := some 1 } with now := 720000000001 })
    let a : Fin 64 := 63
    let i : Ident := {}
    let e : Nat := 1
    s.dev.sys.logicOn = true ∧ s.dev.present (a / 4) = true ∧ (s.dev.slotOf (a / 4)).ident = some i ∧ (s.dev.portOf
        a).enAt = some e := by decide +kernel

theorem wit_ImagesAndFirmware_8 :
    let s : State := (ws id)
    let a : Fin 64 := 5
    s.dev.sys.logicOn = true ∧ s.dev.present (a / 4) = false := by decide +kernel

theorem wit_SerialQueueAndWindow_0 :
    let s : State := (ws fun d => (d.setReg SP0_QBUF 0x103FFFFC).setReg (SP0_QBUF + 0xE4) 0x40000000)
    let m : Master := .pair 0
    let w : Word := 0x00040240
    s.dev.sys.logicOn = true ∧ s.dev.sp0Rights m = true ∧ s.dev.pushCode w = 0 := by decide +kernel

theorem wit_SerialQueueAndWindow_1 :
    let s : State := (ws id)
    let m : Master := .debug
    s.dev.sys.logicOn = true ∧ s.dev.sp0Rights m = true := by decide +kernel

theorem wit_SerialQueueAndWindow_2 : (ws id).dev.sp0.snap = none := by decide +kernel

theorem wit_SerialQueueAndWindow_3 :
    let s : State := (ws id)
    let p : Fin 5 := 4
    s.dev.sys.logicOn = true ∧ s.dev.sp0Owner ≠ p.val ∧ s.dev.sup ≠ p.val ∧ ((s.dev.pairOf p).cwGet 0).getLsbD 2 =
        false := by decide +kernel

theorem wit_SerialQueueAndWindow_4 :
    let s : State := (ws fun d => (d.put (SP0_FDP_DIR 7) 1).onSp0 fun x =>
        { x with run := true, queue := [{ buf := 0x10000000, addr := 4, len := 8, irq := false, wsize := 4, cont := false, cs := 0, fd := 7 }] })
    let l : List (Fin 256) := [1, 2, 3, 4]
    let q : QEntry :=
        { buf := 0x10000000, addr := 4, len := 8, irq := false, wsize := 4, cont := false, cs := 0, fd := 7 }
    let r : List QEntry := []
    s.dev.sys.logicOn = true ∧ s.dev.sp0.queue = q :: r ∧ s.dev.sp0.run = true ∧ q.cut = false ∧ s.dev.get
        (SP0_FDP_DIR q.fd) = 1 ∧ q.done + q.frameBytes l.length < q.len ∧ l.length = q.frameBytes l.length := by
        decide +kernel

theorem wit_SerialQueueAndWindow_5 :
    let s : State := (ws fun d => (d.put (SP0_FDP_DIR 7) 1).onSp0 fun x =>
        { x with run := true, queue := [{ buf := 0x10000000, addr := 4, len := 4, irq := true, wsize := 4, cont := true, cs := 0, fd := 7 }] })
    let l : List (Fin 256) := [1, 2, 3, 4]
    let q : QEntry :=
        { buf := 0x10000000, addr := 4, len := 4, irq := true, wsize := 4, cont := true, cs := 0, fd := 7 }
    s.dev.sys.logicOn = true ∧ s.dev.sp0.queue = [q] ∧ s.dev.sp0.run = true ∧ q.cut = false ∧ s.dev.get (SP0_FDP_DIR
        q.fd) = 1 ∧ q.len ≤ q.done + q.frameBytes l.length ∧ l.length = q.frameBytes l.length ∧ s.dev.sp0.parting =
        false := by decide +kernel

theorem wit_SerialQueueAndWindow_6 :
    let s : State := (ws fun d => (d.put (SP0_FDP_DIR 7) 2).onSp0 fun x =>
        { x with run := true, queue := [{ buf := 0x10000000, addr := 4, len := 4, irq := true, wsize := 4, cont := true, cs := 0, fd := 7 }] })
    let q : QEntry :=
        { buf := 0x10000000, addr := 4, len := 4, irq := true, wsize := 4, cont := true, cs := 0, fd := 7 }
    let r : List QEntry := []
    s.dev.sys.logicOn = true ∧ s.dev.sp0.queue = q :: r ∧ s.dev.sp0.run = true ∧ s.dev.get (SP0_FDP_DIR q.fd) = 2 :=
        by decide +kernel

theorem wit_SerialQueueAndWindow_7 :
    let s : State := (ws fun d => (d.put (SP0_FDP_DIR 7) 2).onSp0 fun x =>
        { x with run := true, queue := [{ buf := 0x10000000, addr := 4, len := 4, irq := true, wsize := 4, cont := true, cs := 0, fd := 7 }] })
    let q : QEntry :=
        { buf := 0x10000000, addr := 4, len := 4, irq := true, wsize := 4, cont := true, cs := 0, fd := 7 }
    let r : List QEntry := []
    s.dev.sys.logicOn = true ∧ s.dev.sp0.queue = q :: r ∧ s.dev.sp0.run = true ∧ q.cut = false ∧ s.dev.get
        (SP0_FDP_DIR q.fd) = 2 := by decide +kernel

theorem wit_SerialQueueAndWindow_8 :
    let s : State := (ws fun d => (d.put SP0_CFG_RDYEN 1).onSp0 fun x =>
        { x with run := true, queue := [{ buf := 0x10000000, addr := 4, len := 4, irq := true, wsize := 4, cont := true, cs := 0, fd := 7 }] })
    let q : QEntry :=
        { buf := 0x10000000, addr := 4, len := 4, irq := true, wsize := 4, cont := true, cs := 0, fd := 7 }
    let r : List QEntry := []
    s.dev.sys.logicOn = true ∧ s.dev.get SP0_CFG_RDYEN = 1 ∧ s.dev.sp0.queue = q :: r ∧ s.dev.sp0.run = true ∧ 0 <
        q.len := by decide +kernel

theorem wit_SerialQueueAndWindow_9 :
    let s : State := (ws fun d => ((d.put SP0_CFG_RDYEN 1).put SP0_STAT_XIPBUSY 1).onPair 4 fun h =>
        { h with wait := .line 3 4 false 0x30000008 })
    let p : Fin 5 := 4
    let g : Nat := 3
    let z : Nat := 4
    let b : Bool := false
    let a : Nat := 0x30000008
    s.dev.sys.logicOn = true ∧ s.dev.get SP0_CFG_RDYEN = 1 ∧ s.dev.get SP0_STAT_XIPBUSY = 1 ∧ (s.dev.pairOf p).wait =
        .line g z b a ∧ ((s.dev.pairOf p).cwGet 0).getLsbD 2 = false ∧ (∀ q : Fin 5, q ≠ p → (s.dev.pairOf q).wait =
        .none_) := by decide +kernel

theorem wit_SerialQueueAndWindow_10 :
    let s : State := (ws id)
    s.dev.sys.logicOn = true ∧ s.dev.get SP0_CFG_RDYEN = 0 := by decide +kernel

theorem wit_SerialQueueAndWindow_11 :
    let s : State := (ws id)
    s.dev.sys.logicOn = true := by decide +kernel

theorem wit_SerialQueueAndWindow_12 :
    let s : State := (ws fun d => (d.put SP0_STAT_HALT 1).onSp0 fun x =>
        { x with queue := [{ buf := 0x10000000, addr := 4, len := 4, irq := true, wsize := 4, cont := true, cs := 0, fd := 7 }] })
    let m : Master := .pair 0
    s.dev.sys.logicOn = true ∧ s.dev.sp0Rights m = true ∧ s.dev.get SP0_STAT_HALT = 1 ∧ s.dev.sp0.queue ≠ [] := by
        decide +kernel

theorem wit_SerialQueueAndWindow_13 :
    let s : State := (ws id)
    let p : Fin 5 := 4
    s.dev.sys.logicOn = true ∧ s.dev.sp0Owner ≠ p.val ∧ s.dev.sup ≠ p.val ∧ ((s.dev.pairOf p).cwGet 0).getLsbD 2 =
        false := by decide +kernel

theorem wit_SerialQueueAndWindow_14 :
    let s : State := (ws fun d => d.onSp0 fun x =>
        { x with queue := [{ buf := 0x10000000, addr := 4, len := 4, irq := true, wsize := 4, cont := true, cs := 0, fd := 7 }] })
    let m : Master := .pair 0
    s.dev.sys.logicOn = true ∧ s.dev.sp0Rights m = true ∧ s.dev.sp0.run = false ∧ s.dev.sp0.parting = false := by
        decide +kernel

theorem wit_SerialQueueAndWindow_15 :
    let s : State := (ws fun d => d.onSp0 fun x =>
        { x with run := true, queue := [{ buf := 0x10000000, addr := 4, len := 4, irq := true, wsize := 4, cont := true, cs := 0, fd := 7 }] })
    let m : Master := .pair 0
    let q : QEntry :=
        { buf := 0x10000000, addr := 4, len := 4, irq := true, wsize := 4, cont := true, cs := 0, fd := 7 }
    let r : List QEntry := []
    s.dev.sys.logicOn = true ∧ s.dev.sp0Rights m = true ∧ s.dev.sp0.run = true ∧ s.dev.sp0.queue = q :: r := by
        decide +kernel

theorem wit_SerialQueueAndWindow_16 :
    let s : State := (ws fun d => (((d.put SP0_XIPCFG_EN 1).put (SP0_FDP_DIR 0) 1).put (SP0_FDP_AW 0) 3))
    let o : Fin 67108864 := 67108860
    let l : List (Fin 256) := (List.range 32).map fun i => Fin.ofNat 256 i
    s.dev.sys.logicOn = true ∧ s.dev.lineWaiters (o.val / 32) = [] ∧ l.length = 32 ∧ s.dev.xipSub (o.val / 4 * 4)
        false = 0 ∧ s.dev.lineAt o.val = none ∧ s.dev.sp0.discard = false ∧ s.dev.sp0.lines.length < 8 ∧
        s.dev.sp0.parting = false ∧ s.dev.sp0.queue = [] ∧ (∀ p : Fin 5, (s.dev.pairOf p).wait = .none_) := by
        decide +kernel

theorem wit_SerialQueueAndWindow_17 :
    let s : State := (ws fun d => ((((d.put SP0_XIPCFG_EN 1).put (SP0_FDP_DIR 0) 1).put (SP0_FDP_AW 0) 3)).onSp0 fun x
        => { x with lines := [(2097151, List.replicate 32 7)] })
    let o : Fin 67108864 := 67108860
    let l : List (Fin 256) := List.replicate 32 1
    let k : List Nat := List.replicate 32 7
    s.dev.sys.logicOn = true ∧ s.dev.lineWaiters (o.val / 32) = [] ∧ l.length = 32 ∧ s.dev.xipSub (o.val / 4 * 4)
        false = 0 ∧ s.dev.lineAt (o.val / 4 * 4) = some k := by decide +kernel

theorem wit_SerialQueueAndWindow_18 :
    let s : State := (ws id)
    let p : Fin 5 := 4
    let o : Fin 67108864 := 67108863
    let l : List (Fin 256) := List.replicate 32 1
    s.dev.sys.logicOn = true ∧ s.dev.lineWaiters (o.val / 32) = [] ∧ l.length = 32 ∧ 0 < s.dev.xipSub (o.val / 4 * 4)
        false ∧ ((s.dev.pairOf p).cwGet 0).getLsbD 2 = false := by decide +kernel

theorem wit_SerialQueueAndWindow_20 :
    let s : State := (ws fun d => d.onSp0 fun x => { x with lines := [(2097151, List.replicate 32 7)] })
    let m : Master := .pair 0
    s.dev.sys.logicOn = true ∧ s.dev.sp0Rights m = true := by decide +kernel

theorem wit_SerialQueueAndWindow_21 :
    let s : State := (ws id)
    let p : Fin 5 := 4
    s.dev.sys.logicOn = true ∧ s.dev.sp0Owner ≠ p.val ∧ s.dev.sup ≠ p.val ∧ ((s.dev.pairOf p).cwGet 0).getLsbD 2 =
        false := by decide +kernel

theorem wit_SerialQueueAndWindow_22 :
    let s : State := (ws id)
    let m : Master := .pair 0
    let w : Word := 1
    s.dev.sys.logicOn = true ∧ s.dev.supRights m = true ∧ w.getLsbD 0 = true ∧ s.dev.serialIdle = true := by
        decide +kernel

theorem wit_SerialQueueAndWindow_23 :
    let s : State := (ws fun d => d.put SP1_STAT_CSACT 1)
    let m : Master := .pair 0
    let w : Word := 3
    s.dev.sys.logicOn = true ∧ s.dev.supRights m = true ∧ w.getLsbD 0 = true ∧ s.dev.serialIdle = false := by
        decide +kernel

theorem wit_SerialQueueAndWindow_24 :
    let s : State := (ws fun d => (d.put SP0_XCON_EN 1).put SP1_STAT_XCON 1)
    let m : Master := .pair 0
    let w : Word := 0
    s.dev.sys.logicOn = true ∧ s.dev.supRights m = true ∧ w.getLsbD 0 = false ∧ s.dev.get SP0_XCON_EN = 1 := by
        decide +kernel

theorem wit_SerialQueueAndWindow_25 :
    let s : State := (ws id)
    let p : Fin 5 := 4
    s.dev.sys.logicOn = true ∧ s.dev.sup ≠ p.val ∧ ((s.dev.pairOf p).cwGet 0).getLsbD 2 = false := by decide +kernel

theorem wit_SerialTransactions_0 :
    let s : State := (ws fun d => d.put SP1_CFG_LANES 2)
    s.dev.sys.logicOn = true ∧ s.dev.get SP1_STAT_CSACT = 0 ∧ s.dev.get SP1_CFG_LANES ≠ 0 := by decide +kernel

theorem wit_SerialTransactions_1 :
    let s : State := (ws fun d => (d.put SP1_CFG_TXTH 0).onSp1 fun x => { x with tx := [9] })
    let w : Nat := 9
    let l : List Nat := []
    s.dev.sys.logicOn = true ∧ s.dev.get SP1_STAT_CSACT = 0 ∧ s.dev.get SP1_CFG_LANES = 0 ∧ s.dev.sp1.rx.length < 64 ∧
        s.dev.sp1.tx = w :: l ∧ s.dev.get SP1_CFG_WSIZE = 2 := by decide +kernel

theorem wit_SerialTransactions_2 :
    let s : State := (ws fun d => d.put SP1_STAT_CSACT 1)
    s.dev.sys.logicOn = true ∧ s.dev.get SP1_STAT_CSACT = 1 := by decide +kernel

theorem wit_SerialTransactions_3 :
    let s : State := (ws fun d => (d.put SP1_STAT_CSACT 1).onSp1 fun x => { x with first := true, cfg := x.cfg + 2 })
    s.dev.sys.logicOn = true ∧ s.dev.get SP1_STAT_CSACT = 1 ∧ (s.dev.sp1.duplex = true ∨ s.dev.sp1.reads = false) ∧
        s.dev.sp1.rx.length < 64 := by decide +kernel

theorem wit_SerialTransactions_4 :
    let s : State := (ws fun d => (d.put SP1_STAT_CSACT 1).onSp1 fun x =>
        { x with rx := List.replicate 64 { word := 1, first := false } })
    s.dev.sys.logicOn = true ∧ s.dev.get SP1_STAT_CSACT = 1 ∧ (s.dev.sp1.duplex = true ∨ s.dev.sp1.reads = false) ∧ 64
        ≤ s.dev.sp1.rx.length := by decide +kernel

theorem wit_SerialTransactions_5 :
    let s : State := (ws fun d => (d.put SP1_STAT_CSACT 1).onSp1 fun x =>
        { x with reads := true, cfg := x.cfg + 2, tx := [7] })
    let k : Nat := 7
    let l : List Nat := []
    s.dev.sys.logicOn = true ∧ s.dev.get SP1_STAT_CSACT = 1 ∧ s.dev.sp1.reads = true ∧ s.dev.sp1.duplex = false ∧
        s.dev.sp1.tx = k :: l := by decide +kernel

theorem wit_SerialTransactions_6 :
    let s : State := (ws fun d => d.put SP1_STAT_CSACT 1)
    s.dev.sys.logicOn = true ∧ s.dev.get SP1_STAT_CSACT = 1 ∧ (s.dev.sp1.reads = true ∨ s.dev.sp1.duplex = true) ∧
        s.dev.sp1.tx = [] := by decide +kernel

theorem wit_SerialTransactions_7 :
    let s : State := (ws fun d => (d.put SP1_STAT_CSACT 1).onSp1 fun x => { x with cur := some 3 })
    s.dev.sys.logicOn = true ∧ s.dev.get SP1_STAT_CSACT = 1 ∧ s.dev.sp0.parting = false := by decide +kernel

theorem wit_SerialTransactions_8 :
    let s : State := (ws fun d => (d.put SP1_STAT_CSACT 1).onSp1 fun x => { x with cur := some 3 })
    let n : Fin 32 := 31
    s.dev.sys.logicOn = true ∧ s.dev.get SP1_STAT_CSACT = 1 ∧ 0 < n.val ∧ n.val < s.dev.sp1.bits ∧ (s.dev.sp1.duplex =
        true ∨ s.dev.sp1.reads = false) ∧ s.dev.sp1.rx.length < 64 := by decide +kernel

theorem wit_SerialTransactions_9 :
    let s : State := (ws fun d => d.onSp1 fun x => { x with rx := [{ word := 9, first := true }] })
    let m : Master := .pair 0
    let r : RxWord := { word := 9, first := true }
    let l : List RxWord := []
    s.dev.sys.logicOn = true ∧ s.dev.sp1Rights m = true ∧ s.dev.sp1.rx = r :: l := by decide +kernel

theorem wit_SerialTransactions_10 :
    let s : State := (ws id)
    let m : Master := .debug
    s.dev.sys.logicOn = true ∧ s.dev.sp1Rights m = true ∧ s.dev.sp1.rx = [] := by decide +kernel

theorem wit_SerialTransactions_11 :
    let s : State := (ws id)
    let p : Fin 5 := 4
    s.dev.sys.logicOn = true ∧ s.dev.agent ≠ p.val ∧ s.dev.sup ≠ p.val ∧ ((s.dev.pairOf p).cwGet 0).getLsbD 2 =
        false := by decide +kernel

theorem wit_SerialTransactions_12 :
    let s : State := (ws id)
    let m : Master := .pair 0
    s.dev.sys.logicOn = true ∧ s.dev.sp1Rights m = true ∧ s.dev.sp1.tx.length < 64 ∧ s.dev.txHeld = false := by
        decide +kernel

theorem wit_SerialTransactions_13 :
    let s : State := (ws fun d => d.onSp1 fun x => { x with tx := List.replicate 64 1 })
    let m : Master := .pair 0
    s.dev.sys.logicOn = true ∧ s.dev.sp1Rights m = true ∧ 64 ≤ s.dev.sp1.tx.length := by decide +kernel

theorem wit_SerialTransactions_14 :
    let s : State := (ws id)
    let p : Fin 5 := 4
    s.dev.sys.logicOn = true ∧ s.dev.agent ≠ p.val ∧ s.dev.sup ≠ p.val ∧ ((s.dev.pairOf p).cwGet 0).getLsbD 2 =
        false := by decide +kernel

theorem wit_SerialTransactions_15 :
    let s : State := (ws fun d => d.onSp1 fun x => { x with tx := List.replicate 64 1 })
    let m : Master := .pair 0
    let w : Word := 1
    s.dev.sys.logicOn = true ∧ s.dev.sp1Rights m = true ∧ w.getLsbD 8 = false := by decide +kernel

theorem wit_SerialTransactions_16 :
    let s : State := (ws fun d => d.onSp1 fun x => { x with rx := [{ word := 9, first := true }] })
    let m : Master := .pair 0
    let w : Word := 1
    s.dev.sys.logicOn = true ∧ s.dev.sp1Rights m = true ∧ w.getLsbD 9 = false := by decide +kernel

theorem wit_SharedWindow_0_0 :
    let s : State := (ws id)
    let m : Master := .pair 0
    let p : Fin 5 := 0
    let n : Fin 64 := 63
    let w : Word := 2
    s.dev.sys.logicOn = true ∧ s.dev.asPair m = some p.val ∧ s.dev.segAllowed p (s.dev.reg (SWC_SEG n)) (w &&&
        0x373#32) = true := by decide +kernel

theorem wit_SharedWindow_0_1 :
    let s : State := (ws id)
    let m : Master := .pair 4
    let p : Fin 5 := 4
    let n : Fin 64 := 31
    let w : Word := 0x341
    s.dev.sys.logicOn = true ∧ s.dev.asPair m = some p.val ∧ s.dev.segAllowed p (s.dev.reg (SWC_SEG n)) (w &&&
        0x373#32) = true := by decide +kernel

theorem wit_SharedWindow_1 :
    let s : State := (ws id)
    let m : Master := .pair 4
    let p : Fin 5 := 4
    let n : Fin 64 := 63
    let w : Word := 2
    s.dev.sys.logicOn = true ∧ s.dev.asPair m = some p.val ∧ s.dev.segAllowed p (s.dev.reg (SWC_SEG n)) (w &&&
        0x373#32) = false := by decide +kernel

theorem wit_SharedWindow_2 : (4 : Fin 5).val ≠ (ws id).dev.sup := by decide +kernel

theorem wit_SharedWindow_3 :
    let s : State := (wsm (memSet [] 0x103FFFFF 5) fun d => (d.setReg (SWC_SEG 63) 2).onWin fun h =>
        { h with expect := some 255 })
    let n : Fin 256 := 255
    let o : Word := 0x3FFFC
    let k : Fin 65536 := 1
    let c : Word := w32 (winCrc (winHead 1 255 1) 0x3FFFC)
    s.dev.sys.logicOn = true ∧ s.dev.win.expect = some n.val ∧ winCrc (winHead 1 n.val k.val) o.toNat = c.toNat ∧
        o.toNat < 0x40000 ∧ o.toNat % 4 = 0 ∧ o.toNat % 4096 + 4 * k.val ≤ 4096 ∧ segOwn (s.dev.reg (SWC_SEG (o.toNat
        / 4096 % 64))) = 2 := by decide +kernel

theorem wit_SharedWindow_4 :
    let s : State := (ws fun d => d.onWin fun h => { h with expect := some 255 })
    let n : Fin 256 := 255
    let o : Word := 0x3FFFC
    let k : Fin 65536 := 1
    let c : Word := w32 (winCrc (winHead 1 255 1) 0x3FFFC)
    s.dev.sys.logicOn = true ∧ s.dev.win.expect = some n.val ∧ winCrc (winHead 1 n.val k.val) o.toNat = c.toNat ∧
        o.toNat < 0x40000 ∧ o.toNat % 4 = 0 ∧ o.toNat % 4096 + 4 * k.val ≤ 4096 ∧ segOwn (s.dev.reg (SWC_SEG (o.toNat
        / 4096 % 64))) ≠ 2 ∧ (s.dev.reg (SWC_SEG (o.toNat / 4096 % 64))).getLsbD 8 = false := by decide +kernel

theorem wit_SharedWindow_5 :
    let s : State := (ws id)
    let n : Fin 256 := 255
    let o : Word := 0
    let k : Fin 65536 := 1
    let c : Word := 0
    s.dev.sys.logicOn = true ∧ winCrc (winHead 1 n.val k.val) o.toNat ≠ c.toNat := by decide +kernel

theorem wit_SharedWindow_6 :
    let s : State := (ws id)
    let n : Fin 256 := 255
    let o : Word := 0
    let k : Fin 65536 := 1
    let c : Word := w32 (winCrc (winHead 1 255 1) 0)
    s.dev.sys.logicOn = true ∧ winCrc (winHead 1 n.val k.val) o.toNat = c.toNat ∧ s.dev.win.expect ≠ some n.val ∧
        s.dev.win.expect ≠ some ((n.val + 1) % 256) := by decide +kernel

theorem wit_SharedWindow_7 :
    let s : State := (ws fun d => d.onWin fun h => { h with expect := some 0, last := some (255, 0, 1, 8, 1) })
    let n : Fin 256 := 255
    let o : Word := 8
    let k : Fin 65536 := 1
    let c : Word := w32 (winCrc (winHead 1 255 1) 8)
    s.dev.sys.logicOn = true ∧ winCrc (winHead 1 n.val k.val) o.toNat = c.toNat ∧ s.dev.win.expect = some ((n.val + 1)
        % 256) ∧ s.dev.win.last = some (n.val, 0, 1, o.toNat, k.val) := by decide +kernel

theorem wit_SharedWindow_8 :
    let s : State := (ws fun d => (d.setReg (SWC_SEG 63) 2).onWin fun h => { h with expect := some 255 })
    let n : Fin 256 := 255
    let o : Word := 0x3FFFC
    let k : Fin 65536 := 1
    let c : Word := w32 (winCrc (winHead 2 255 1) 0x3FFFC)
    let l : List Word := [0x12345678, 9]
    s.dev.sys.logicOn = true ∧ s.dev.win.expect = some n.val ∧ winCrc (winHead 2 n.val k.val) o.toNat = c.toNat ∧
        o.toNat < 0x40000 ∧ o.toNat % 4 = 0 ∧ o.toNat % 4096 + 4 * k.val ≤ 4096 ∧ segOwn (s.dev.reg (SWC_SEG (o.toNat
        / 4096 % 64))) = 2 ∧ k.val ≤ l.length := by decide +kernel

theorem wit_SharedWindow_9 :
    let s : State := (ws fun d => (d.setReg (SWC_SEG 63) 2).onWin fun h => { h with expect := some 255 })
    let n : Fin 256 := 255
    let o : Word := 0x3FFFC
    let k : Fin 65536 := 1
    let c : Word := w32 (winCrc (winHead 2 255 1) 0x3FFFC)
    let l : List Word := []
    s.dev.sys.logicOn = true ∧ s.dev.win.expect = some n.val ∧ winCrc (winHead 2 n.val k.val) o.toNat = c.toNat ∧
        o.toNat < 0x40000 ∧ o.toNat % 4 = 0 ∧ o.toNat % 4096 + 4 * k.val ≤ 4096 ∧ segOwn (s.dev.reg (SWC_SEG (o.toNat
        / 4096 % 64))) = 2 ∧ l.length < k.val := by decide +kernel

theorem wit_SharedWindow_10 :
    let s : State := (ws fun d => d.onWin fun h => { h with expect := some 255 })
    let n : Fin 256 := 255
    let o : Word := 0x3FFFC
    let k : Fin 65536 := 2
    let c : Word := w32 (winCrc (winHead 2 255 2) 0x3FFFC)
    s.dev.sys.logicOn = true ∧ s.dev.win.expect = some n.val ∧ winCrc (winHead 2 n.val k.val) o.toNat = c.toNat ∧
        (0x40000 ≤ o.toNat ∨ o.toNat % 4 ≠ 0 ∨ 4096 < o.toNat % 4096 + 4 * k.val) := by decide +kernel

theorem wit_SharedWindow_11 :
    let s : State := (ws fun d => d.onWin fun h => { h with expect := some 255 })
    let n : Fin 256 := 255
    let o : Word := 0x3FFFC
    let k : Fin 65536 := 0
    let c : Word := w32 (winCrc (winHead 3 255 0) 0x3FFFC)
    s.dev.sys.logicOn = true ∧ s.dev.win.expect = some n.val ∧ winCrc (winHead 3 n.val k.val) o.toNat = c.toNat ∧
        o.toNat < 0x40000 ∧ o.toNat % 4 = 0 ∧ segOwn (s.dev.reg (SWC_SEG (o.toNat / 4096 % 64))) = 0 := by
        decide +kernel

theorem wit_SharedWindow_12 :
    let s : State := (ws fun d => (d.setReg (SWC_SEG 63) 1).onWin fun h => { h with expect := some 255 })
    let n : Fin 256 := 255
    let o : Word := 0x3FFFC
    let k : Fin 65536 := 0
    let c : Word := w32 (winCrc (winHead 3 255 0) 0x3FFFC)
    s.dev.sys.logicOn = true ∧ s.dev.win.expect = some n.val ∧ winCrc (winHead 3 n.val k.val) o.toNat = c.toNat ∧
        o.toNat < 0x40000 ∧ o.toNat % 4 = 0 ∧ segOwn (s.dev.reg (SWC_SEG (o.toNat / 4096 % 64))) ≠ 0 := by
        decide +kernel

theorem wit_SharedWindow_13 :
    let s : State := (ws fun d => (d.setReg (SWC_SEG 63) 2).onWin fun h => { h with expect := some 255 })
    let n : Fin 256 := 255
    let o : Word := 0x3FFFC
    let k : Fin 65536 := 0
    let c : Word := w32 (winCrc (winHead 4 255 0) 0x3FFFC)
    s.dev.sys.logicOn = true ∧ s.dev.win.expect = some n.val ∧ winCrc (winHead 4 n.val k.val) o.toNat = c.toNat ∧
        o.toNat < 0x40000 ∧ o.toNat % 4 = 0 ∧ segOwn (s.dev.reg (SWC_SEG (o.toNat / 4096 % 64))) = 2 := by
        decide +kernel

theorem wit_SharedWindow_14 :
    let s : State := (ws fun d => d.onWin fun h => { h with expect := some 255 })
    let n : Fin 256 := 255
    let o : Word := 0x3FFFC
    let k : Fin 65536 := 0
    let c : Word := w32 (winCrc (winHead 4 255 0) 0x3FFFC)
    s.dev.sys.logicOn = true ∧ s.dev.win.expect = some n.val ∧ winCrc (winHead 4 n.val k.val) o.toNat = c.toNat ∧
        o.toNat < 0x40000 ∧ o.toNat % 4 = 0 ∧ segOwn (s.dev.reg (SWC_SEG (o.toNat / 4096 % 64))) ≠ 2 := by
        decide +kernel

theorem wit_SharedWindow_15 :
    let s : State := (ws fun d => d.onWin fun h => { h with expect := some 255 })
    let n : Fin 256 := 255
    let o : Word := 0
    let k : Fin 65536 := 0
    let c : Word := w32 (winCrc (winHead 5 255 0) 0)
    s.dev.sys.logicOn = true ∧ s.dev.win.expect = some n.val ∧ winCrc (winHead 5 n.val k.val) o.toNat = c.toNat := by
        decide +kernel

theorem wit_SharedWindow_16 :
    let s : State := (ws id)
    let n : Fin 256 := 255
    let o : Word := 0
    let k : Fin 65536 := 0
    let c : Word := w32 (winCrc (winHead 6 255 0) 0)
    s.dev.sys.logicOn = true ∧ winCrc (winHead 6 n.val k.val) o.toNat = c.toNat := by decide +kernel

theorem wit_SharedWindow_17 :
    let s : State := (ws id)
    let n : Fin 256 := 255
    let o : Word := 0
    let k : Fin 65536 := 0
    let c : Word := 0
    s.dev.sys.logicOn = true ∧ winCrc (winHead 6 n.val k.val) o.toNat ≠ c.toNat := by decide +kernel

theorem wit_SharedWindow_18 :
    let s : State := (ws fun d => (d.put SP1_CTL_ATTN 1).onWin fun h => { h with resp := [1, 2] })
    s.dev.sys.logicOn = true ∧ s.dev.win.resp ≠ [] := by decide +kernel

theorem wit_SharedWindow_19 :
    let s : State := (ws id)
    s.dev.sys.logicOn = true ∧ s.dev.win.resp = [] := by decide +kernel

theorem wit_CanTransmission_0 :
    let s : State := (ws fun d => { d with now := 7 })
    let m : Master := .pair 0
    let c : Fin 3 := 2
    s.dev.sys.logicOn = true ∧ s.dev.canRights m c = true ∧ (∀ i : Fin 8, (s.dev.mbOf c i).abortAt ≠ some
        s.dev.now) := by decide +kernel

theorem wit_CanTransmission_1 :
    let s : State := (ws fun d => d.onMb 2 7 fun h => { h with abortAt := some 0 })
    let m : Master := .pair 0
    let c : Fin 3 := 2
    let i : Fin 8 := 7
    s.dev.sys.logicOn = true ∧ s.dev.canRights m c = true ∧ (s.dev.mbOf c i).abortAt = some s.dev.now ∧ s.dev.mbPend c
        i = false := by decide +kernel

theorem wit_CanTransmission_2 :
    let s : State := (ws id)
    let p : Fin 5 := 4
    let c : Fin 3 := 2
    s.dev.sys.logicOn = true ∧ s.dev.canOwner c ≠ p.val ∧ s.dev.sup ≠ p.val ∧ ((s.dev.pairOf p).cwGet 0).getLsbD 2 =
        false := by decide +kernel

theorem wit_CanTransmission_3 :
    let s : State := (ws fun d => { (d.setReg (CAN_TXPEND 2) 0x81).put (CAN_TXID_ID 2 0) 5 with now := 100 })
    let c : Fin 3 := 2
    let n : Nat := 9
    let i : Fin 8 := 7
    s.dev.sys.logicOn = true ∧ s.dev.canLive c = true ∧ s.dev.get (CAN_CFG_LISTEN c) = 0 ∧ s.dev.get (CAN_CFG_LOOP c)
        = 0 ∧ s.dev.contender c (s.dev.now - n) = some i.val := by decide +kernel

theorem wit_CanTransmission_4 :
    let s : State := (ws fun d => { d.setReg (CAN_TXPEND 2) 0x80 with now := 100 })
    let c : Fin 3 := 2
    let n : Nat := 9
    let i : Fin 8 := 7
    s.dev.sys.logicOn = true ∧ s.dev.canLive c = true ∧ s.dev.get (CAN_CFG_LISTEN c) = 0 ∧ s.dev.contender c
        (s.dev.now - n) = some i.val ∧ (s.dev.mbOf c i).late = false ∧ s.dev.get (CAN_STAT_ALONE c) = 0 := by
        decide +kernel

theorem wit_CanTransmission_5 :
    let s : State := (ws fun d => { (d.setReg (CAN_TXPEND 2) 0x80).put (CAN_ERRC_TEC 2) 120 with now := 100 })
    let c : Fin 3 := 2
    let n : Nat := 9
    let i : Fin 8 := 7
    s.dev.sys.logicOn = true ∧ s.dev.canLive c = true ∧ s.dev.get (CAN_CFG_LISTEN c) = 0 ∧ s.dev.contender c
        (s.dev.now - n) = some i.val ∧ (s.dev.mbOf c i).late = false ∧ s.dev.get (CAN_STAT_ALONE c) = 0 ∧ s.dev.get
        (CAN_STAT_STATE c) = 0 ∧ s.dev.get (CAN_ERRC_REC c) ≤ 127 := by decide +kernel

theorem wit_CanTransmission_6 :
    let s : State := (ws id)
    let c : Fin 3 := 2
    let n : Nat := 9
    s.dev.sys.logicOn = true ∧ (s.dev.contender c (s.dev.now - n) = none ∨ s.dev.canLive c = false) := by
        decide +kernel

theorem wit_CanTransmission_7 :
    let s : State := (ws fun d => { d.setReg (CAN_TXPEND 2) 0x80 with now := 100 })
    let m : Master := .pair 0
    let c : Fin 3 := 2
    let i : Fin 8 := 7
    s.dev.sys.logicOn = true ∧ s.dev.canRights m c = true ∧ s.dev.mbPend c i = true := by decide +kernel

theorem wit_CanTransmission_8 :
    let s : State := (ws fun d => { d.setReg (CAN_TXPEND 2) 0x80 with now := 100 })
    let m : Master := .pair 0
    let c : Fin 3 := 2
    let i : Fin 8 := 7
    s.dev.sys.logicOn = true ∧ s.dev.canRights m c = true ∧ s.dev.mbPend c i = true ∧ (s.dev.mbOf c i).reqAt ≠
        s.dev.now := by decide +kernel

theorem wit_CanTransmission_9 :
    let s : State := (ws id)
    let p : Fin 5 := 4
    let c : Fin 3 := 2
    s.dev.sys.logicOn = true ∧ s.dev.canOwner c ≠ p.val ∧ s.dev.sup ≠ p.val ∧ ((s.dev.pairOf p).cwGet 0).getLsbD 2 =
        false := by decide +kernel

theorem wit_CanTransmission_10 :
    let s : State := (ws fun d => { d.put (CAN_FLTID_EN 0 15) 1 |>.put (CAN_FLTID_IDE 0 15) 1 with now := 100 })
    let c : Fin 3 := 0
    let k : Fin 536870912 := 536870911
    let f : Nat := 15
    s.dev.sys.logicOn = true ∧ s.dev.canLive c = true ∧ s.dev.filterOf c true k.val = some f ∧ (s.dev.canOf
        c).rx.length < 64 ∧ s.dev.get (CAN_ERRC_TEC c) ≤ 127 ∧ s.dev.get (CAN_ERRC_REC c) ≤ 127 ∧ s.dev.get
        (CAN_STAT_STATE c) = 0 := by decide +kernel

theorem wit_CanTransmission_11 :
    let s : State := (ws fun d => (d.put (CAN_FLTID_EN 0 15) 1 |>.put (CAN_FLTID_IDE 0 15) 1).onCan 0 fun h =>
        { h with rx := List.replicate 64 { id := 1 } })
    let c : Fin 3 := 0
    let k : Fin 536870912 := 536870911
    let f : Nat := 15
    s.dev.sys.logicOn = true ∧ s.dev.canLive c = true ∧ s.dev.filterOf c true k.val = some f ∧ 64 ≤ (s.dev.canOf
        c).rx.length := by decide +kernel

theorem wit_CanTransmission_12_0 :
    let s : State := (ws id)
    let c : Fin 3 := 0
    let k : Fin 536870912 := 5
    let b : Bool := false
    s.dev.sys.logicOn = true ∧ s.dev.canLive c = true ∧ (b = true ∨ s.dev.filterOf c true k.val = none) := by
        decide +kernel

theorem wit_CanTransmission_12_1 :
    let s : State := (ws id)
    let c : Fin 3 := 2
    let k : Fin 536870912 := 5
    let b : Bool := true
    s.dev.sys.logicOn = true ∧ s.dev.canLive c = true ∧ (b = true ∨ s.dev.filterOf c true k.val = none) := by
        decide +kernel

theorem wit_CanTransmission_13 :
    let s : State := (ws id)
    s.dev.sys.logicOn = true ∧ s.dev.canLive 0 = true := by decide +kernel

theorem wit_CanTransmission_14 :
    let s : State := (ws fun d => d.onCan 2 fun h => { h with rx := List.replicate 64 { id := 1 } })
    let m : Master := .pair 0
    let c : Fin 3 := 2
    s.dev.sys.logicOn = true ∧ s.dev.canRights m c = true ∧ (s.dev.canOf c).rx.length ≤ 64 := by decide +kernel

theorem wit_CanTransmission_15 :
    let s : State := (ws id)
    let p : Fin 5 := 4
    let c : Fin 3 := 2
    s.dev.sys.logicOn = true ∧ s.dev.canOwner c ≠ p.val ∧ s.dev.sup ≠ p.val ∧ ((s.dev.pairOf p).cwGet 0).getLsbD 2 =
        false := by decide +kernel

theorem wit_CanTransmission_16 :
    let s : State := (cl fun d => { d.setReg (CAN_TXPEND 0) 0x81 with claim := [(5, some 3)] })
    let c : Fin 3 := 0
    s.dev.sys.logicOn = true ∧ s.dev.canLive c = true := by decide +kernel

theorem wit_CanTransmission_17_0 :
    let s : State := (ws fun d => d.put (CAN_STAT_STATE 0) 2)
    let c : Fin 3 := 0
    s.dev.sys.logicOn = true ∧ s.dev.get (CAN_STAT_STATE c) = 2 ∧ s.dev.get (CAN_CFG_EN c) = 1 ∧ s.dev.get
        (CAN_CFG_AUTOREC c) = 1 := by decide +kernel

theorem wit_CanTransmission_17_1 :
    let s : State := (ws fun d => d.put (CAN_STAT_STATE 2) 2)
    let c : Fin 3 := 2
    s.dev.sys.logicOn = true ∧ s.dev.get (CAN_STAT_STATE c) = 2 ∧ s.dev.get (CAN_CFG_EN c) = 1 ∧ s.dev.get
        (CAN_CFG_AUTOREC c) = 1 := by decide +kernel

theorem wit_CanTransmission_18 :
    let s : State := (ws id)
    let c : Fin 3 := 1
    s.dev.sys.logicOn = true ∧ (s.dev.get (CAN_STAT_STATE c) ≠ 2 ∨ s.dev.get (CAN_CFG_AUTOREC c) = 0) := by
        decide +kernel

theorem wit_CanTransmission_19 :
    let s : State := (ws id)
    let m : Master := .pair 0
    s.dev.sys.logicOn = true ∧ s.dev.canRights m 0 = true := by decide +kernel

theorem wit_CanTransmission_20 :
    let s : State := (ws id)
    let p : Fin 5 := 4
    s.dev.sys.logicOn = true ∧ s.dev.canOwner 0 ≠ p.val ∧ s.dev.sup ≠ p.val ∧ ((s.dev.pairOf p).cwGet 0).getLsbD 2 =
        false := by decide +kernel

theorem wit_CanTransmission_21 :
    let s : State := (cl fun d => ((((d.put (CAN_STAT_STATE 0) 1).put (CAN_STAT_LEC 0) 3).put (CAN_ERRC_TEC 0)
        128).setReg (CAN_TXPEND 0) 0x80).onMb 0 7 fun h => { h with att := 16 })
    s.dev.sys.logicOn = true ∧ s.dev.get (CAN_STAT_ALONE 0) = 0 ∧ s.dev.get (CAN_STAT_STATE 0) = 1 ∧ 127 < s.dev.get
        (CAN_ERRC_TEC 0) ∧ s.dev.get (CAN_STAT_LEC 0) = 3 := by decide +kernel

theorem wit_CanTransmission_22 :
    let s : State := (ws id)
    s.dev.sys.logicOn = true ∧ s.dev.get (CAN_ERRC_TEC 0) ≤ 127 := by decide +kernel

theorem wit_CanTransmission_23 :
    let s : State := (ws fun d => d.put (CAN_STAT_ALONE 0) 1)
    s.dev.sys.logicOn = true ∧ s.dev.get (CAN_STAT_ALONE 0) = 1 := by decide +kernel

theorem wit_BusFirmware_0 :
    let s : State := (ws fun d => d.put SYS_MODE_MODE 3)
    s.dev.sys.logicOn = true ∧ s.dev.mode ≠ .selftest ∧ s.dev.bus.addr = none ∧ s.dev.bus.claimAt = none ∧
        s.dev.bus.retryAt = none := by decide +kernel

theorem wit_BusFirmware_1 :
    let s : State := (ws fun d =>
        { (d.put JNL_STAT_MODE 1).onBus fun b => { b with claimAt := some 0 } with now := 50000000 })
    let k : Nat := 0
    s.dev.sys.logicOn = true ∧ s.dev.bus.claimAt = some k ∧ k + 50000000 ≤ s.dev.now := by decide +kernel

theorem wit_BusFirmware_2 :
    let s : State := (ws fun d => { d.onBus fun b => { b with claimAt := some 0 } with now := 49999999 })
    let k : Nat := 0
    s.dev.sys.logicOn = true ∧ s.dev.bus.claimAt = some k ∧ s.dev.now < k + 50000000 := by decide +kernel

theorem wit_BusFirmware_3 :
    let s : State := cl id
    let a : Fin 256 := 168
    let n : BitVec 64 := 0
    s.dev.sys.logicOn = true ∧ s.dev.bus.addr = some a.val ∧ a.val ≠ 254 ∧ s.dev.slotOfName n.toNat = none ∧ tget none
        s.dev.bus.names a = none ∧ n.toNat < s.dev.ownName :=
  ⟨by decide +kernel, by decide +kernel, by decide +kernel, by decide +kernel, by decide +kernel, Nat.lt_of_lt_of_le
      (by decide +kernel) (own_pos _)⟩

theorem wit_BusFirmware_4 :
    let s : State := cl id
    let a : Fin 256 := 168
    let n : BitVec 64 := 0xFFFFFFFFFFFFFFFF
    s.dev.sys.logicOn = true ∧ s.dev.bus.addr = some a.val ∧ a.val ≠ 254 ∧ s.dev.slotOfName n.toNat = none ∧ tget none
        s.dev.bus.names a = none ∧ s.dev.ownName < n.toNat :=
  ⟨by decide +kernel, by decide +kernel, by decide +kernel, by decide +kernel, by decide +kernel, own_lt⟩

theorem wit_BusFirmware_5 :
    let s : State := cl id
    let a : Fin 254 := 33
    let n : BitVec 64 := 0
    let k : Fin 64 := 3
    s.dev.sys.logicOn = true ∧ n.toNat ≠ s.dev.ownName ∧ s.dev.bus.addr ≠ some a.val ∧ s.dev.bus.addr ≠ none ∧ tget
        none s.dev.bus.names a = some (s.dev.clientOf k).name ∧ (s.dev.clientOf k).name ≠ n.toNat ∧ s.dev.slotOfName
        (s.dev.clientOf k).name = some k.val ∧ (s.dev.clientOf k).link = 0 :=
  ⟨by decide +kernel, Nat.ne_of_lt (Nat.lt_of_lt_of_le (by decide +kernel) (own_pos _)), by decide +kernel, by
      decide +kernel, by decide +kernel, by decide +kernel, by decide +kernel, by decide +kernel⟩

theorem wit_BusFirmware_6 :
    let s : State := (ws fun d => d.onBus fun b => { b with retryAt := some 0 })
    let k : Nat := 0
    s.dev.sys.logicOn = true ∧ s.dev.bus.retryAt = some k ∧ k ≤ s.dev.now := by decide +kernel

theorem wit_BusFirmware_7 :
    let s : State := (cl id)
    s.dev.sys.logicOn = true ∧ s.dev.bus.addr = some 168 := by decide +kernel

theorem wit_BusFirmware_8 :
    let s : State := (ws id)
    s.dev.sys.logicOn = true ∧ s.dev.bus.addr = none ∧ s.dev.bus.claimAt = none := by decide +kernel

theorem wit_BusFirmware_9 :
    let s : State := (cl id)
    let b : Fin 256 := 168
    let n : Fin 262144 := 65000
    s.dev.sys.logicOn = true ∧ s.dev.bus.addr = some b.val ∧ b.val ≠ 255 ∧ n.val ≠ 60928 ∧ n.val ≠ 65226 ∧ n.val ≠
        65037 := by decide +kernel

theorem wit_BusFirmware_10 :
    let s : State := (cl id)
    let n : Fin 262144 := 65000
    s.dev.sys.logicOn = true ∧ n.val ≠ 60928 ∧ n.val ≠ 65226 ∧ n.val ≠ 65037 := by decide +kernel

theorem wit_BusFirmware_11 :
    let s : State := (cl id)
    let a : Fin 256 := 255
    let n : Nat := 1785
    s.dev.sys.logicOn = true ∧ s.dev.bus.addr ≠ none ∧ ¬ (a.val ∈ s.dev.bus.tp) ∧ s.dev.bus.tp.length < 4 ∧ 9 ≤ n ∧ n
        ≤ 1785 := by decide +kernel

theorem wit_BusFirmware_12 :
    let s : State := (cl fun d => d.onBus fun b => { b with tp := [1, 2, 3, 4] })
    let a : Fin 256 := 255
    let n : Nat := 1785
    let b : Bool := false
    s.dev.sys.logicOn = true ∧ s.dev.bus.addr = some 168 ∧ (s.dev.bus.tp.length = 4 ∨ a.val ∈ s.dev.bus.tp ∨ (b = true
        ∧ n < 1786)) := by decide +kernel

theorem wit_BusFirmware_13 :
    let s : State := (cl fun d => d.onBus fun b => { b with tp := [255] })
    s.dev.sys.logicOn = true := by decide +kernel

theorem wit_BusFirmware_14 :
    let s : State := (ws id)
    s.dev.sys.logicOn = true := by decide +kernel

theorem wit_BusFirmware_15 :
    let s : State := (ws fun d => d.onBus fun b => { b with speed := [(2, some (5, 0))] })
    s.dev.sys.logicOn = true := by decide +kernel

theorem wit_BusFirmware_16 :
    let s : State := (ws fun d =>
        { (d.put SYS_MODE_MODE 3).onBus fun b => { b with speed := [(1, some (-5, 0)), (2, some (7, 0))] } with now := 60000000 })
    let v : Int := -5
    let k : Nat := 0
    s.dev.sys.logicOn = true ∧ s.dev.mode ≠ .selftest ∧ s.dev.bus.spdAt = none ∧ s.dev.item 0x103 15 = 15 ∧ tget none
        s.dev.bus.speed 0 = none ∧ tget none s.dev.bus.speed 1 = some (v, k) ∧ s.dev.now ≤ k + 60000000 := by
        decide +kernel

theorem wit_BusFirmware_17 :
    let s : State := (ws fun d => d.onBus fun b => { b with spdAt := some 0 })
    let k : Nat := 0
    s.dev.sys.logicOn = true ∧ s.dev.bus.spdAt = some k ∧ s.dev.now < k + 2000000 := by decide +kernel

theorem wit_BusFirmware_18 :
    let s : State := (wsm (memSet [] 0x103BFF01 5) fun d => (d.put SYS_MODE_MODE 3).put GSP_PERIOD_PERIOD 0xFFFFFFFF)
    s.dev.sys.logicOn = true ∧ s.dev.mode ≠ .selftest ∧ s.dev.bus.spdAt = none ∧ s.dev.bus.speed = [] ∧ s.dev.get
        GSP_PERIOD_PERIOD = 0xFFFFFFFF := by decide +kernel

theorem wit_BusFirmware_19 :
    let s : State := (cl fun d => (d.put SYS_MODE_MODE 3).put PSE_CLAMP_RCLMP 5)
    let a : Nat := 168
    s.dev.sys.logicOn = true ∧ s.dev.bus.addr = some a ∧ s.dev.bus.dm1At = none ∧ s.dev.dtcs = [] ∧ s.dev.mode ≠ .safe
        ∧ s.dev.mode ≠ .degraded ∧ s.dev.mode ≠ .lockout := by decide +kernel

theorem wit_BusFirmware_20 :
    let s : State := (cl fun d =>
        { ((d.put SYS_MODE_MODE 3).put (CU_STATE_STATE 63) 12).onBus fun b => { b with dm1At := some 0 } with now := 200000000 })
    let a : Nat := 168
    let k : Nat := 0
    s.dev.sys.logicOn = true ∧ s.dev.bus.addr = some a ∧ s.dev.bus.dm1At = some k ∧ k + 200000000 ≤ s.dev.now := by
        decide +kernel

theorem wit_BusFirmware_21 :
    let s : State := (ws id)
    let k : Nat := 0
    s.dev.sys.logicOn = true ∧ (s.dev.bus.addr = none ∨ (s.dev.bus.dm1At = some k ∧ s.dev.now < k + 20000000)) := by
        decide +kernel

theorem wit_BusFirmware_22 :
    let s : State := (ws id)
    let l : Fin 2 := 1
    s.dev.sys.logicOn = true ∧ tget none s.dev.bus.hello l = none ∧ s.dev.canLive (1 + l.val) = true := by
        decide +kernel

theorem wit_BusFirmware_23 :
    let s : State := (ws fun d => d.onBus fun b => { b with hello := [(1, some (0, []))] })
    let l : Fin 2 := 1
    let k : Nat := 0
    let y : List Nat := []
    s.dev.sys.logicOn = true ∧ tget none s.dev.bus.hello l = some (k, y) ∧ s.dev.now < k + 20000000 := by
        decide +kernel

theorem wit_BusFirmware_24 :
    let s : State := (ws id)
    let l : Fin 2 := 1
    let n : Fin 32 := 31
    s.dev.sys.logicOn = true ∧ n.val ≠ s.dev.get (CAN_CFG_NODE (1 + l.val)) := by decide +kernel

theorem wit_BusFirmware_25 :
    let s : State := cl id
    let l : Fin 2 := 1
    let n : Fin 32 := 0
    let v : BitVec 64 := 0
    s.dev.sys.logicOn = true ∧ n.val = s.dev.get (CAN_CFG_NODE (1 + l.val)) ∧ v.toNat ≠ s.dev.ownName :=
  ⟨by decide +kernel, by decide +kernel, Nat.ne_of_lt (Nat.lt_of_lt_of_le (by decide +kernel) (own_pos _))⟩

theorem wit_BusFirmware_26 :
    let s : State := (ws fun d => { d.onBus fun b => { b with nodes := [(63, some (9, 0))] } with now := 60000000 })
    let l : Fin 2 := 1
    let n : Fin 32 := 31
    let v : Nat := 9
    let k : Nat := 0
    s.dev.sys.logicOn = true ∧ tget none s.dev.bus.nodes (32 * l.val + n.val) = some (v, k) ∧ k + 60000000 ≤ s.dev.now
        ∧ s.dev.slotOfName v = none := by decide +kernel

theorem wit_BusFirmware_27 :
    let s : State := (ws fun d =>
        { d.onBus fun b => { b with nodes := [(63, some (9, 0))] } with now := 60000000, clients := [(63, { used := true, name := 9, link := 2 })], devClaim := some 63 })
    let l : Fin 2 := 1
    let n : Fin 32 := 31
    let v : Nat := 9
    let k : Nat := 0
    let z : Fin 64 := 63
    s.dev.sys.logicOn = true ∧ tget none s.dev.bus.nodes (32 * l.val + n.val) = some (v, k) ∧ k + 60000000 ≤ s.dev.now
        ∧ s.dev.slotOfName v = some z.val ∧ (s.dev.clientOf z).link = 1 + l.val ∧ (s.dev.clientOf z).loss = false :=
        by decide +kernel

theorem wit_BusFirmware_28 :
    let s : State := (ws fun d => { d.onBus fun b => { b with nodes := [(63, some (9, 0))] } with now := 59999999 })
    let l : Fin 2 := 1
    let n : Fin 32 := 31
    let v : Nat := 9
    let k : Nat := 0
    s.dev.sys.logicOn = true ∧ tget none s.dev.bus.nodes (32 * l.val + n.val) = some (v, k) ∧ s.dev.now < k +
        60000000 := by decide +kernel

theorem wit_TaskControllerClient_0 :
    let s : State := (cl fun d => ((d.onJnl fun j =>
        { j with log := [{ typ := 8, key := 3 * 2 ^ 30 + 0x106, payload := [0x80000000] }, { typ := 8, key := 3 * 2 ^ 30 + 0x17F, payload := [7 * 32 + 23] }] }).put
        (CU_STATE_STATE 63) 0).onBus fun b => { b with names := [(40, some 99)] })
    let a : Fin 256 := 40
    let n : Nat := 99
    let z : Nat := 0
    s.dev.sys.logicOn = true ∧ s.dev.bus.addr ≠ none ∧ s.dev.bus.tcSrc = none ∧ tget none s.dev.bus.names a = some n ∧
        s.dev.slotOfName n = none ∧ s.dev.freeSlot = some z ∧ s.dev.wouldAccept z = true := by decide +kernel

theorem wit_TaskControllerClient_1 :
    let s : State := (cl fun d => (id) (d.onBus fun b => { b with tcSrc := some 33, tcSlot := some 3 }))
    let a : Fin 256 := 33
    s.dev.sys.logicOn = true ∧ s.dev.bus.addr ≠ none ∧ s.dev.bus.tcSrc = some a.val := by decide +kernel

theorem wit_TaskControllerClient_2 :
    let s : State := (ws id)
    let a : Fin 256 := 33
    s.dev.sys.logicOn = true ∧ (s.dev.bus.addr = none ∨ (s.dev.bus.tcSrc = none ∧ tget none s.dev.bus.names a =
        none)) := by decide +kernel

theorem wit_TaskControllerClient_3 :
    let s : State := (cl fun d => (fun d => { d with now := 1200000000 }) (d.onBus fun b =>
        { b with tcSrc := some 33, tcSlot := some 3 }))
    let a : Nat := 33
    let z : Fin 64 := 3
    s.dev.sys.logicOn = true ∧ s.dev.bus.tcSrc = some a ∧ s.dev.bus.tcSlot = some z.val ∧ s.dev.bus.tcAt + 1200000000
        ≤ s.dev.now ∧ (s.dev.clientOf z).used = true ∧ (s.dev.clientOf z).loss = false := by decide +kernel

theorem wit_TaskControllerClient_4 :
    let s : State := (cl fun d => (id) (d.onBus fun b => { b with tcSrc := some 33, tcSlot := some 3 }))
    s.dev.sys.logicOn = true ∧ s.dev.now < s.dev.bus.tcAt + 1200000000 := by decide +kernel

theorem wit_TaskControllerClient_5 :
    let s : State := (cl fun d => (id) (d.onBus fun b => { b with tcSrc := some 33, tcSlot := some 3 }))
    let a : Fin 256 := 33
    let z : Fin 64 := 3
    s.dev.sys.logicOn = true ∧ s.dev.bus.addr ≠ none ∧ s.dev.bus.tcSrc = some a.val ∧ s.dev.bus.tcSlot = some z.val :=
        by decide +kernel

theorem wit_TaskControllerClient_6 :
    let s : State := (cl fun d => (id) (d.onBus fun b => { b with tcSrc := some 33, tcSlot := some 3 }))
    let a : Fin 256 := 34
    s.dev.sys.logicOn = true ∧ s.dev.bus.tcSrc ≠ some a.val := by decide +kernel

theorem wit_TaskControllerClient_7 :
    let s : State := (cl fun d =>
        ((fun d => d.onJnl fun j => { j with log := [{ typ := 8, key := 3 * 2 ^ 30 + 0x106, payload := [0x80000000] }, { typ := 8, key := 3 * 2 ^ 30 + 0x17F, payload := [7 * 32 + 23] }] }))
        (d.onBus fun b => { b with tcSrc := some 33, tcSlot := some 3 }))
    let a : Fin 256 := 33
    let z : Fin 64 := 3
    s.dev.sys.logicOn = true ∧ s.dev.bus.addr ≠ none ∧ s.dev.bus.tcSrc = some a.val ∧ s.dev.bus.tcSlot = some z.val :=
        by decide +kernel

theorem wit_TaskControllerClient_8 :
    let s : State := (cl fun d =>
        ((fun d => d.onJnl fun j => { j with log := [{ typ := 8, key := 3 * 2 ^ 30 + 0x106, payload := [0x80000000] }, { typ := 8, key := 3 * 2 ^ 30 + 0x17F, payload := [7 * 32 + 23] }] }))
        (d.onBus fun b => { b with tcSrc := some 33, tcSlot := some 3 }))
    let a : Fin 256 := 33
    let z : Fin 64 := 3
    let x : Fin 64 := 63
    s.dev.sys.logicOn = true ∧ s.dev.bus.addr ≠ none ∧ s.dev.bus.tcSrc = some a.val ∧ s.dev.bus.tcSlot = some z.val ∧
        s.dev.tcMask.testBit x.val = true := by decide +kernel

theorem wit_TaskControllerClient_9 :
    let s : State := (cl fun d =>
        ((fun d => d.onJnl fun j => { j with log := [{ typ := 8, key := 3 * 2 ^ 30 + 0x106, payload := [0x80000000] }, { typ := 8, key := 3 * 2 ^ 30 + 0x17F, payload := [7 * 32 + 23] }] }))
        (d.onBus fun b => { b with tcSrc := some 33, tcSlot := some 3 }))
    let a : Fin 256 := 33
    let z : Fin 64 := 3
    s.dev.sys.logicOn = true ∧ s.dev.bus.addr ≠ none ∧ s.dev.bus.tcSrc = some a.val ∧ s.dev.bus.tcSlot = some z.val :=
        by decide +kernel

theorem wit_TaskControllerClient_10 :
    let s : State := (cl fun d =>
        ((fun d => d.onJnl fun j => { j with log := [{ typ := 8, key := 3 * 2 ^ 30 + 0x106, payload := [0x80000000] }, { typ := 8, key := 3 * 2 ^ 30 + 0x17F, payload := [7 * 32 + 23] }] }))
        (d.onBus fun b => { b with tcSrc := some 33, tcSlot := some 3 }))
    let a : Fin 256 := 33
    let e : Fin 65536 := 0
    let i : Fin 65536 := 0xE000
    let z : Fin 64 := 3
    s.dev.sys.logicOn = true ∧ s.dev.bus.addr ≠ none ∧ s.dev.bus.tcSrc = some a.val ∧ s.dev.bus.tcSlot = some z.val ∧
        s.dev.pdValue e i = none := by decide +kernel

theorem wit_TaskControllerClient_11 :
    let s : State := (cl fun d =>
        (fun d => { d.onJnl fun j => { j with log := [{ typ := 8, key := 3 * 2 ^ 30 + 0x106, payload := [0x80000000] }, { typ := 8, key := 3 * 2 ^ 30 + 0x17F, payload := [7 * 32 + 23] }] } with claim := [(63, some 3)] })
        (d.onBus fun b => { b with tcSrc := some 33, tcSlot := some 3 }))
    let a : Fin 256 := 33
    let z : Fin 64 := 3
    let x : Fin 64 := 63
    let e : Nat := 7
    let k : Nat := 23
    s.dev.sys.logicOn = true ∧ s.dev.bus.addr ≠ none ∧ s.dev.bus.tcSrc = some a.val ∧ s.dev.bus.tcSlot = some z.val ∧
        s.dev.tcMask.testBit x.val = true ∧ tget none s.dev.claim x = some z.val ∧ s.dev.tcLoop x = some (e, k) ∧
        s.dev.wouldAccept z = true := by decide +kernel

theorem wit_TaskControllerClient_12 :
    let s : State := (cl fun d =>
        (fun d => { d.onJnl fun j => { j with log := [{ typ := 8, key := 3 * 2 ^ 30 + 0x106, payload := [0x80000000] }, { typ := 8, key := 3 * 2 ^ 30 + 0x17F, payload := [7 * 32 + 23] }] } with claim := [(63, some 3)] })
        (d.onBus fun b => { b with tcSrc := some 33, tcSlot := some 3 }))
    let a : Fin 256 := 33
    let z : Fin 64 := 3
    let x : Fin 64 := 63
    let e : Nat := 7
    let k : Nat := 23
    s.dev.sys.logicOn = true ∧ s.dev.bus.addr ≠ none ∧ s.dev.bus.tcSrc = some a.val ∧ s.dev.bus.tcSlot = some z.val ∧
        s.dev.tcMask.testBit x.val = true ∧ tget none s.dev.claim x = some z.val ∧ s.dev.tcLoop x = some (e, k) ∧
        s.dev.wouldAccept z = true := by decide +kernel

theorem wit_TaskControllerClient_13 :
    let s : State := (cl fun d =>
        ((fun d => d.onJnl fun j => { j with log := [{ typ := 8, key := 3 * 2 ^ 30 + 0x106, payload := [0x80000000] }, { typ := 8, key := 3 * 2 ^ 30 + 0x17F, payload := [7 * 32 + 23] }] }))
        (d.onBus fun b => { b with tcSrc := some 33, tcSlot := some 3 }))
    let a : Fin 256 := 33
    let z : Fin 64 := 3
    let x : Fin 64 := 63
    s.dev.sys.logicOn = true ∧ s.dev.bus.addr ≠ none ∧ s.dev.bus.tcSrc = some a.val ∧ s.dev.bus.tcSlot = some z.val ∧
        s.dev.tcMask.testBit x.val = true ∧ tget none s.dev.claim x ≠ some z.val := by decide +kernel

theorem wit_TaskControllerClient_14 :
    let s : State := (cl fun d => (id) (d.onBus fun b => { b with tcSrc := some 33, tcSlot := some 3 }))
    let a : Fin 256 := 33
    let z : Fin 64 := 3
    let e : Fin 65536 := 0
    let i : Fin 65536 := 141
    let k : Int := 0
    s.dev.sys.logicOn = true ∧ s.dev.bus.addr ≠ none ∧ s.dev.bus.tcSrc = some a.val ∧ s.dev.bus.tcSlot = some z.val ∧
        s.dev.pdValue e i = some (some k) ∧ s.dev.bus.trig = [] := by decide +kernel

theorem wit_TaskControllerClient_15 :
    let s : State := (cl fun d => (id) (d.onBus fun b => { b with tcSrc := some 33, tcSlot := some 3 }))
    let a : Fin 256 := 33
    let z : Fin 64 := 3
    let e : Fin 65536 := 0
    let i : Fin 65536 := 141
    let k : Int := 0
    s.dev.sys.logicOn = true ∧ s.dev.bus.addr ≠ none ∧ s.dev.bus.tcSrc = some a.val ∧ s.dev.bus.tcSlot = some z.val ∧
        s.dev.pdValue e i = some (some k) ∧ s.dev.bus.trig = [] := by decide +kernel

theorem wit_TaskControllerClient_16 :
    let s : State := (cl fun d => (id) (d.onBus fun b => { b with tcSrc := some 33, tcSlot := some 3 }))
    let a : Fin 256 := 33
    let z : Fin 64 := 3
    let e : Fin 65536 := 0
    let i : Fin 65536 := 141
    let k : Int := 0
    s.dev.sys.logicOn = true ∧ s.dev.bus.addr ≠ none ∧ s.dev.bus.tcSrc = some a.val ∧ s.dev.bus.tcSlot = some z.val ∧
        s.dev.pdValue e i = some (some k) ∧ s.dev.bus.trig = [] := by decide +kernel

theorem wit_TaskControllerClient_17 :
    let s : State := (cl fun d => (id) (d.onBus fun b => { b with tcSrc := some 33, tcSlot := some 3 }))
    let a : Fin 256 := 33
    let z : Fin 64 := 3
    let e : Fin 65536 := 0
    let i : Fin 65536 := 141
    let k : Int := 0
    s.dev.sys.logicOn = true ∧ s.dev.bus.addr ≠ none ∧ s.dev.bus.tcSrc = some a.val ∧ s.dev.bus.tcSlot = some z.val ∧
        s.dev.pdValue e i = some (some k) ∧ s.dev.bus.trig = [] := by decide +kernel

theorem wit_TaskControllerClient_18 :
    let s : State := (cl fun d => (id) (d.onBus fun b => { b with tcSrc := some 33, tcSlot := some 3 }))
    let a : Fin 256 := 33
    let z : Fin 64 := 3
    let e : Fin 65536 := 0
    let i : Fin 65536 := 141
    let k : Int := 0
    s.dev.sys.logicOn = true ∧ s.dev.bus.addr ≠ none ∧ s.dev.bus.tcSrc = some a.val ∧ s.dev.bus.tcSlot = some z.val ∧
        s.dev.pdValue e i = some (some k) ∧ s.dev.bus.trig = [] := by decide +kernel

theorem wit_TaskControllerClient_19 :
    let s : State := (cl fun d =>
        (fun d => d.onBus fun b => { b with trig := List.replicate 128 { kind := .change, elem := 0, ddi := 141, par := 1 } })
        (d.onBus fun b => { b with tcSrc := some 33, tcSlot := some 3 }))
    let a : Fin 256 := 33
    let z : Fin 64 := 3
    let e : Fin 65536 := 0
    let i : Fin 65536 := 141
    s.dev.sys.logicOn = true ∧ s.dev.bus.addr ≠ none ∧ s.dev.bus.tcSrc = some a.val ∧ s.dev.bus.tcSlot = some z.val ∧
        (128 ≤ (s.dev.bus.trig.filter fun g => !(g.kind = .minimum && g.elem = e.val && g.ddi = i.val)).length ∨
        s.dev.pdValue e i = none) := by decide +kernel

theorem wit_TaskControllerClient_20 :
    let s : State := (cl fun d => (id) (d.onBus fun b => { b with tcSrc := some 33, tcSlot := some 3 }))
    let a : Fin 256 := 33
    let z : Fin 64 := 3
    s.dev.sys.logicOn = true ∧ s.dev.bus.addr ≠ none ∧ s.dev.bus.tcSrc = some a.val ∧ s.dev.bus.tcSlot = some z.val :=
        by decide +kernel

theorem wit_TaskControllerClient_21 :
    let s : State := (cl fun d => (id) (d.onBus fun b => { b with tcSrc := some 33, tcSlot := some 3 }))
    let a : Fin 256 := 33
    let z : Fin 64 := 3
    s.dev.sys.logicOn = true ∧ s.dev.bus.addr ≠ none ∧ s.dev.bus.tcSrc = some a.val ∧ s.dev.bus.tcSlot = some z.val :=
        by decide +kernel

theorem wit_TaskControllerClient_22 :
    let s : State := (cl fun d =>
        (fun d => d.onBus fun b => { b with trig := [{ kind := .minimum, elem := 0, ddi := 141, par := 0 }] })
        (d.onBus fun b => { b with tcSrc := some 33, tcSlot := some 3 }))
    let i : Fin 128 := 0
    let g : Trigger := { kind := .minimum, elem := 0, ddi := 141, par := 0 }
    let k : Int := 0
    s.dev.sys.logicOn = true ∧ s.dev.bus.trig[i.val]? = some g ∧ s.dev.pdValue g.elem g.ddi = some (some k) ∧
        s.dev.fires g k = true := by decide +kernel

theorem wit_TaskControllerClient_23 :
    let s : State := (ws id)
    let i : Fin 128 := 127
    s.dev.sys.logicOn = true ∧ s.dev.bus.trig[i.val]? = none := by decide +kernel

theorem wit_ClientSlots_0 :
    let s : State := (cl fun d => d.onBus fun b => { b with names := [(33, some 78)] })
    let h : Ctl := hS 1 255 10000
    let x : Fin 256 := 255
    let g : Fin 16777216 := 10000
    let z : Nat := 0
    let n : Nat := 78
    s.dev.sys.logicOn = true ∧ s.dev.sender h = some (some n) ∧ ctlChecked h { op := 1, axis := x.val, arg := g.val }
        = true ∧ shortOnly h = true ∧ beatOk g.val = true ∧ s.dev.slotOfName n = none ∧ s.dev.freeSlot = some z ∧
        s.dev.wouldAccept z = true := by decide +kernel

theorem wit_ClientSlots_1 :
    let s : State := (cl fun d =>
        { d.onClient 3 fun c => { c with loss := true } with claim := [(63, some 3)], holdEnd := [(63, some 9)] })
    let h : Ctl := hS 1 255 0
    let x : Fin 256 := 255
    let g : Fin 16777216 := 0
    let z : Nat := 3
    let n : Nat := 77
    s.dev.sys.logicOn = true ∧ s.dev.sender h = some (some n) ∧ ctlChecked h { op := 1, axis := x.val, arg := g.val }
        = true ∧ shortOnly h = true ∧ beatOk g.val = true ∧ s.dev.slotOfName n = some z ∧ (s.dev.clientOf z).loss =
        true ∧ s.dev.wouldAccept z = true := by decide +kernel

theorem wit_ClientSlots_2 :
    let s : State := (cl fun d => { d with clients := (List.range 64).map fun i => (i, { used := true, name := 5 }) })
    let h : Ctl := hS 1 255 0
    let x : Fin 256 := 255
    let g : Fin 16777216 := 0
    let n : Nat := 77
    s.dev.sys.logicOn = true ∧ s.dev.sender h = some (some n) ∧ ctlChecked h { op := 1, axis := x.val, arg := g.val }
        = true ∧ s.dev.slotOfName n = none ∧ s.dev.freeSlot = none := by decide +kernel

theorem wit_ClientSlots_3 :
    let s : State := (cl fun d => d.onBus fun b => { b with names := [] })
    let h : Ctl := hS 1 255 0
    let x : Fin 256 := 255
    let g : Fin 16777216 := 0
    s.dev.sys.logicOn = true ∧ s.dev.sender h = some none ∧ ctlChecked h { op := 1, axis := x.val, arg := g.val } =
        true := by decide +kernel

theorem wit_ClientSlots_4 :
    let s : State := (ws id)
    let h : Ctl := hS 1 255 0
    s.dev.sys.logicOn = true ∧ s.dev.sender h = none := by decide +kernel

theorem wit_ClientSlots_5 :
    let s : State := (cl fun d => { d.onClient 3 fun c => { c with expect := 99 } with now := 7 })
    let h : Ctl := hS 3 255 0
    let x : Fin 256 := 255
    let g : Fin 16777216 := 0
    let z : Nat := 3
    let n : Nat := 77
    s.dev.sys.logicOn = true ∧ s.dev.sender h = some (some n) ∧ s.dev.slotOfName n = some z ∧ (s.dev.clientOf z).loss
        = false ∧ ctlChecked h { op := 3, axis := x.val, arg := g.val } = true ∧ shortOnly h = true := by
        decide +kernel

theorem wit_ClientSlots_6 :
    let s : State := (cl id)
    let h : Ctl := hS 4 255 0
    let x : Fin 256 := 255
    let g : Fin 16777216 := 0
    s.dev.sys.logicOn = true ∧ s.dev.sender h ≠ none ∧ ctlChecked h { op := 3, axis := x.val, arg := g.val } =
        false := by decide +kernel

theorem wit_ClientSlots_7 :
    let s : State := (cl fun d => d.put (CU_FLT_CODE 63) 15)
    let h : Ctl := hS 8 63 0
    let x : Fin 256 := 63
    let g : Fin 16777216 := 0
    let z : Nat := 3
    s.dev.sys.logicOn = true ∧ s.dev.expects h 8 x.val g.val z ∧ shortOnly h = true ∧ x.val < 64 := by decide +kernel

theorem wit_ClientSlots_8 :
    let s : State := (cl id)
    let h : Ctl := hS 8 255 0
    let g : Fin 16777216 := 0
    let z : Nat := 3
    s.dev.sys.logicOn = true ∧ s.dev.expects h 8 255 g.val z ∧ shortOnly h = true := by decide +kernel

theorem wit_ClientSlots_9 :
    let s : State := (cl id)
    let h : Ctl := hS 7 255 0
    let x : Fin 256 := 255
    let g : Fin 16777216 := 0
    let z : Nat := 3
    let n : Nat := 77
    s.dev.sys.logicOn = true ∧ s.dev.sender h = some (some n) ∧ s.dev.slotOfName n = some z ∧ ctlChecked h
        { op := 8, axis := x.val, arg := g.val } = false ∧ z < 64 := by decide +kernel

theorem wit_ClientSlots_10 :
    let s : State := (cl fun d => d.onClient 3 fun c => { c with expect := 6, resp := some { op := 0x88, seq := 5 } })
    let h : Ctl := hS 8 255 0
    let x : Fin 256 := 255
    let g : Fin 16777216 := 0
    let z : Nat := 3
    let n : Nat := 77
    s.dev.sys.logicOn = true ∧ s.dev.sender h = some (some n) ∧ s.dev.slotOfName n = some z ∧ (s.dev.clientOf z).loss
        = false ∧ ctlChecked h { op := 8, axis := x.val, arg := g.val } = true ∧ 200000000 ≤ s.dev.tokens z ∧
        (h.seq.val + 1) % 256 = (s.dev.clientOf z).expect := by decide +kernel

theorem wit_ClientSlots_11 :
    let s : State := (cl fun d => d.onClient 3 fun c => { c with expect := 9 })
    let h : Ctl := hS 8 255 0
    let x : Fin 256 := 255
    let g : Fin 16777216 := 0
    let z : Nat := 3
    let n : Nat := 77
    s.dev.sys.logicOn = true ∧ s.dev.sender h = some (some n) ∧ s.dev.slotOfName n = some z ∧ (s.dev.clientOf z).loss
        = false ∧ ctlChecked h { op := 8, axis := x.val, arg := g.val } = true ∧ 200000000 ≤ s.dev.tokens z ∧
        (h.seq.val + 1) % 256 ≠ (s.dev.clientOf z).expect ∧ h.seq.val ≠ (s.dev.clientOf z).expect := by decide +kernel

theorem wit_ClientSlots_12 :
    let s : State := (cl fun d => d.onClient 3 fun c => { c with tok := 0 })
    let h : Ctl := hS 8 255 0
    let x : Fin 256 := 255
    let g : Fin 16777216 := 0
    let z : Nat := 3
    let n : Nat := 77
    s.dev.sys.logicOn = true ∧ s.dev.sender h = some (some n) ∧ s.dev.slotOfName n = some z ∧ (s.dev.clientOf z).loss
        = false ∧ ctlChecked h { op := 8, axis := x.val, arg := g.val } = true ∧ s.dev.tokens z < 200000000 := by
        decide +kernel

theorem wit_ClientSlots_13 :
    let s : State := (cl fun d => d.put (CU_STATE_STATE 63) 0)
    let h : Ctl := hS 16 63 0
    let x : Fin 256 := 63
    let g : Fin 16777216 := 0
    let z : Nat := 3
    s.dev.sys.logicOn = true ∧ s.dev.expects h 16 x.val g.val z ∧ shortOnly h = true ∧ x.val < 64 ∧ s.dev.axSt x ≠
        .absent ∧ tget none s.dev.claim x = none := by decide +kernel

theorem wit_ClientSlots_14 :
    let s : State := (cl fun d => (d.put (CU_STATE_STATE 63) 0).put (CU_STATE_STATE 0) 0)
    let h : Ctl := hL
    let x : Fin 256 := 255
    let g : Fin 16777216 := 0
    let k : BitVec 64 := 0x8000000000000001
    let z : Nat := 3
    s.dev.sys.logicOn = true ∧ s.dev.expects h 16 x.val g.val z ∧ isLong h = true ∧ (∀ a ∈ axesOf k.toNat, s.dev.axSt
        a ≠ .absent ∧ (tget none s.dev.claim a = none ∨ tget none s.dev.claim a = some z)) := by decide +kernel

theorem wit_ClientSlots_15 :
    let s : State := (cl id)
    let h : Ctl := hS 16 255 0
    let g : Fin 16777216 := 0
    let z : Nat := 3
    s.dev.sys.logicOn = true ∧ s.dev.expects h 16 255 g.val z ∧ shortOnly h = true ∧ s.dev.devClaim = none := by
        decide +kernel

theorem wit_ClientSlots_16 :
    let s : State := (cl fun d => { d.put (CU_STATE_STATE 63) 0 with claim := [(63, some 9)] })
    let h : Ctl := hS 16 63 0
    let x : Fin 256 := 63
    let g : Fin 16777216 := 0
    let z : Nat := 3
    let y : Nat := 9
    s.dev.sys.logicOn = true ∧ s.dev.expects h 16 x.val g.val z ∧ shortOnly h = true ∧ x.val < 64 ∧ s.dev.axSt x ≠
        .absent ∧ tget none s.dev.claim x = some y ∧ y ≠ z := by decide +kernel

theorem wit_ClientSlots_17 :
    let s : State := (cl id)
    let h : Ctl := hS 16 63 0
    let x : Fin 256 := 63
    let g : Fin 16777216 := 0
    let z : Nat := 3
    s.dev.sys.logicOn = true ∧ s.dev.expects h 16 x.val g.val z ∧ shortOnly h = true ∧ x.val < 64 ∧ s.dev.axSt x =
        .absent := by decide +kernel

theorem wit_ClientSlots_18 :
    let s : State := (cl fun d => { d with claim := [(63, some 3)], policy := [(63, (5, 1))] })
    let h : Ctl := hS 17 63 0
    let x : Fin 256 := 63
    let g : Fin 16777216 := 0
    let z : Nat := 3
    s.dev.sys.logicOn = true ∧ s.dev.expects h 17 x.val g.val z ∧ shortOnly h = true ∧ x.val < 64 ∧ tget none
        s.dev.claim x = some z ∧ (s.dev.axSt x).driving = false ∧ (s.dev.clientOf z).loss = false := by decide +kernel

theorem wit_ClientSlots_19 :
    let s : State := (cl fun d => { d.put (CU_STATE_STATE 63) 6 with claim := [(63, some 3)] })
    let h : Ctl := hS 17 63 0
    let x : Fin 256 := 63
    let g : Fin 16777216 := 0
    let z : Nat := 3
    s.dev.sys.logicOn = true ∧ s.dev.expects h 17 x.val g.val z ∧ shortOnly h = true ∧ x.val < 64 ∧ tget none
        s.dev.claim x = some z ∧ (s.dev.axSt x).driving = true ∧ g.val % 2 = 0 := by decide +kernel

theorem wit_ClientSlots_20 :
    let s : State := (cl fun d => { d.put (CU_STATE_STATE 63) 5 with claim := [(63, some 3)] })
    let h : Ctl := hS 17 63 1
    let x : Fin 256 := 63
    let g : Fin 16777216 := 1
    let z : Nat := 3
    s.dev.sys.logicOn = true ∧ s.dev.expects h 17 x.val g.val z ∧ shortOnly h = true ∧ x.val < 64 ∧ tget none
        s.dev.claim x = some z ∧ s.dev.axSt x = .ramp ∧ g.val % 2 = 1 ∧ s.dev.members x = [x.val] := by decide +kernel

theorem wit_ClientSlots_21 :
    let s : State := (cl fun d => { d with devClaim := some 3 })
    let h : Ctl := hS 17 255 0
    let g : Fin 16777216 := 0
    let z : Nat := 3
    s.dev.sys.logicOn = true ∧ s.dev.expects h 17 255 g.val z ∧ shortOnly h = true ∧ s.dev.devClaim = some z := by
        decide +kernel

theorem wit_ClientSlots_22 :
    let s : State := (cl fun d => { d with claim := [(63, some 3)], devClaim := some 3 })
    let h : Ctl := hS 2 255 0
    let x : Fin 256 := 255
    let g : Fin 16777216 := 0
    let z : Nat := 3
    s.dev.sys.logicOn = true ∧ s.dev.expects h 2 x.val g.val z ∧ shortOnly h = true ∧ (∀ a : Fin 64, tget none
        s.dev.claim a = some z → (s.dev.axSt a).driving = false) := by decide +kernel

theorem wit_ClientSlots_23 :
    let s : State := (cl fun d =>
        { (d.put (CU_STATE_STATE 0) 6) with now := 600000000, claim := [(0, some 3), (63, some 3)], devClaim := some 3 })
    let k : Fin 64 := 3
    s.dev.sys.logicOn = true ∧ (s.dev.clientOf k).used = true ∧ (s.dev.clientOf k).loss = false ∧ (s.dev.clientOf
        k).tc = false ∧ (s.dev.clientOf k).heard + 3 * (s.dev.clientOf k).beat * 200000 ≤ s.dev.now := by
        decide +kernel

theorem wit_ClientSlots_24 :
    let s : State := (cl fun d => { d with now := 599999999 })
    let k : Fin 64 := 3
    s.dev.sys.logicOn = true ∧ s.dev.now < (s.dev.clientOf k).heard + 3 * (s.dev.clientOf k).beat * 200000 := by
        decide +kernel

theorem wit_ClientSlots_25 :
    let s : State := (cl fun d =>
        { (d.put (CU_STATE_STATE 63) 6) with holdEnd := [(63, some 0)], claim := [(63, some 3)], policy := [(63, (5, 1))] })
    let a : Fin 64 := 63
    let k : Nat := 0
    s.dev.sys.logicOn = true ∧ tget none s.dev.holdEnd a = some k ∧ k ≤ s.dev.now ∧ (tget (2000, 0) s.dev.policy a).2
        = 1 ∧ s.dev.members a = [a.val] ∧ s.dev.axSt a = .sixstep := by decide +kernel

theorem wit_ClientSlots_26 :
    let s : State := (ws id)
    let a : Fin 64 := 63
    s.dev.sys.logicOn = true ∧ tget none s.dev.holdEnd a = none := by decide +kernel

theorem wit_ControlMessages_0 :
    let s : State := (cl fun d => { d.put (CU_STATE_STATE 63) 6 with claim := [(63, some 3)] })
    let h : Ctl := hS 32 63 3
    let x : Fin 256 := 63
    let g : Fin 16777216 := 3
    let z : Nat := 3
    s.dev.sys.logicOn = true ∧ s.dev.expects h 32 x.val g.val z ∧ shortOnly h = true ∧ x.val < 64 ∧ tget none
        s.dev.claim x = some z ∧ g.val % 16 = 3 ∧ s.dev.members x = [x.val] ∧ s.dev.axSt x = .sixstep ∧ tget none
        s.dev.holdEnd x = none := by decide +kernel

theorem wit_ControlMessages_1 :
    let s : State := (cl fun d => { d.put (CU_STATE_STATE 63) 12 with claim := [(63, some 3)] })
    let h : Ctl := hS 32 63 1
    let x : Fin 256 := 63
    let g : Fin 16777216 := 1
    let z : Nat := 3
    s.dev.sys.logicOn = true ∧ s.dev.expects h 32 x.val g.val z ∧ shortOnly h = true ∧ x.val < 64 ∧ tget none
        s.dev.claim x = some z ∧ g.val % 16 = 1 ∧ s.dev.members x = [x.val] ∧ s.dev.axSt x ≠ .off ∧ 0 <
        s.dev.startReason x := by decide +kernel

theorem wit_ControlMessages_2 :
    let s : State := (cl id)
    let h : Ctl := hS 32 63 1
    let x : Fin 256 := 63
    let g : Fin 16777216 := 1
    let z : Nat := 3
    s.dev.sys.logicOn = true ∧ s.dev.expects h 32 x.val g.val z ∧ shortOnly h = true ∧ x.val < 64 ∧ tget none
        s.dev.claim x = none ∧ 1 ≤ g.val % 16 ∧ g.val % 16 ≤ 5 := by decide +kernel

theorem wit_ControlMessages_3 :
    let s : State := (cl fun d => { d with claim := [(63, some 3)] })
    let h : Ctl := hS 33 127 0xFFFFFB
    let x : Fin 64 := 63
    let g : Fin 16777216 := 0xFFFFFB
    let z : Nat := 3
    s.dev.sys.logicOn = true ∧ s.dev.expects h 33 (x.val + 64) g.val z ∧ shortOnly h = true ∧ tget none s.dev.claim x
        = some z := by decide +kernel

theorem wit_ControlMessages_4 :
    let s : State := (cl fun d => { d with claim := [(63, some 3)] })
    let h : Ctl := hL
    let x : Fin 64 := 63
    let g : Fin 16777216 := 0
    let z : Nat := 3
    s.dev.sys.logicOn = true ∧ s.dev.expects h 33 x.val g.val z ∧ isLong h = true ∧ tget none s.dev.claim x = some
        z := by decide +kernel

theorem wit_ControlMessages_5 :
    let s : State := (cl fun d => { d with claim := [(63, some 3)] })
    let h : Ctl := hL
    let x : Fin 64 := 63
    let n : Fin 65536 := 60000
    let e : Fin 256 := 1
    let z : Nat := 3
    s.dev.sys.logicOn = true ∧ s.dev.expects h 34 x.val 0 z ∧ isLong h = true ∧ tget none s.dev.claim x = some z ∧
        n.val ≤ 60000 ∧ e.val ≤ 1 := by decide +kernel

theorem wit_ControlMessages_6 :
    let s : State := (cl fun d => { d with claim := [(63, some 3)] })
    let h : Ctl := hL
    let x : Fin 64 := 63
    let n : Fin 65536 := 60001
    let z : Nat := 3
    s.dev.sys.logicOn = true ∧ s.dev.expects h 34 x.val 0 z ∧ isLong h = true ∧ tget none s.dev.claim x = some z ∧
        60000 < n.val := by decide +kernel

theorem wit_ControlMessages_7 :
    let s : State := (cl fun d => { d.put (CU_STATE_STATE 63) 6 with claim := [(63, some 3)] })
    let h : Ctl := hL
    let k : BitVec 64 := 0x8000000000000000
    let c : Fin 1024 := 2
    let z : Nat := 3
    s.dev.sys.logicOn = true ∧ s.dev.expects h 40 0xFF 0 z ∧ isLong h = true ∧ c.val ≤ 5 ∧ k ≠ 0 ∧ (∀ a ∈ axesOf
        k.toNat, tget none s.dev.claim a = some z ∧ s.dev.pealRefuses c.val a = false) ∧ s.dev.peal.running = false ∧
        s.dev.pealFor = none := by decide +kernel

theorem wit_ControlMessages_8 :
    let s : State := (cl id)
    let h : Ctl := hL
    let c : Fin 1024 := 5
    let z : Nat := 3
    s.dev.sys.logicOn = true ∧ s.dev.expects h 40 0xFF 0 z ∧ isLong h = true ∧ c.val ≤ 5 ∧ s.dev.peal.running = false
        ∧ s.dev.pealFor = none := by decide +kernel

theorem wit_ControlMessages_9 :
    let s : State := (cl fun d => { d.put SYS_MODE_MODE 3 with devClaim := some 3 })
    let h : Ctl := hS 48 255 6
    let g : Fin 16777216 := 6
    let k : Mode := .transport
    let z : Nat := 3
    s.dev.sys.logicOn = true ∧ s.dev.expects h 48 255 g.val z ∧ shortOnly h = true ∧ s.dev.devClaim = some z ∧
        Mode.ofCode (g.val % 16) = some k ∧ s.dev.modeRefusal k = 0 ∧ s.dev.mustStop k = false ∧ k ≠ .dormant ∧
        s.dev.mode ≠ .safe := by decide +kernel

theorem wit_ControlMessages_10 :
    let s : State := (cl fun d => { d.put SYS_MODE_MODE 4 with devClaim := some 3 })
    let h : Ctl := hS 48 255 8
    let g : Fin 16777216 := 8
    let k : Mode := .service
    let z : Nat := 3
    s.dev.sys.logicOn = true ∧ s.dev.expects h 48 255 g.val z ∧ shortOnly h = true ∧ s.dev.devClaim = some z ∧
        Mode.ofCode (g.val % 16) = some k ∧ 0 < s.dev.modeRefusal k := by decide +kernel

theorem wit_ControlMessages_11 :
    let s : State := (cl id)
    let h : Ctl := hS 48 255 6
    let g : Fin 16777216 := 6
    let z : Nat := 3
    s.dev.sys.logicOn = true ∧ s.dev.expects h 48 255 g.val z ∧ shortOnly h = true ∧ s.dev.devClaim = none := by
        decide +kernel

theorem wit_ControlMessages_12 :
    let s : State := (cl fun d => { d.put (CSL_STAT_STATE 15) 2 with devClaim := some 3 })
    let h : Ctl := hS 49 255 15
    let q : Fin 16 := 15
    let z : Nat := 3
    s.dev.sys.logicOn = true ∧ s.dev.expects h 49 255 q.val z ∧ shortOnly h = true ∧ s.dev.devClaim = some z ∧
        s.dev.get (CSL_STAT_STATE q) = 2 ∧ (∀ k : Fin 16, k ≠ q → s.dev.get (CSL_STAT_STATE k) ≠ 4) := by
        decide +kernel

theorem wit_ControlMessages_13 :
    let s : State := (cl fun d => { d with devClaim := some 3 })
    let h : Ctl := hS 49 255 15
    let q : Fin 16 := 15
    let z : Nat := 3
    s.dev.sys.logicOn = true ∧ s.dev.expects h 49 255 q.val z ∧ shortOnly h = true ∧ s.dev.devClaim = some z ∧
        s.dev.get (CSL_STAT_STATE q) ≠ 2 := by decide +kernel

theorem wit_ControlMessages_14 :
    let s : State := (cl fun d => { d with devClaim := some 3 })
    let h : Ctl := hS 50 255 0x18001
    let g : Fin 16777216 := 0x18001
    let z : Nat := 3
    s.dev.sys.logicOn = true ∧ s.dev.expects h 50 255 g.val z ∧ shortOnly h = true ∧ s.dev.devClaim = some z := by
        decide +kernel

theorem wit_ControlMessages_15 :
    let s : State := (cl fun d => { d with devClaim := some 3 })
    let h : Ctl := hL
    let n : Fin 65536 := 65535
    let w : Word := 0xC0000107
    let l : List Word := [200]
    let z : Nat := 3
    s.dev.sys.logicOn = true ∧ s.dev.expects h 56 0xFF 0 z ∧ isLong h = true ∧ n.val ≠ 0 ∧ l.length ≤ 1000 ∧ w.toNat /
        2 ^ 30 = 3 ∧ 64 < w.toNat % 2 ^ 30 ∧ w.toNat % 2 ^ 30 < 0x140 ∧ s.dev.devClaim = some z ∧ (s.dev.itemsOf
        n).length < 256 ∧ s.dev.sys.bootFault = false := by decide +kernel

theorem wit_ControlMessages_16 :
    let s : State := (cl fun d => { d.onSys fun q => { q with bootFault := true } with devClaim := some 3 })
    let h : Ctl := hL
    let n : Fin 65536 := 65535
    let w : Word := 0xC0000107
    let l : List Word := [5]
    let z : Nat := 3
    s.dev.sys.logicOn = true ∧ s.dev.expects h 56 0xFF 0 z ∧ isLong h = true ∧ n.val ≠ 0 ∧ l.length ≤ 1000 ∧ w.toNat /
        2 ^ 30 = 3 ∧ 64 < w.toNat % 2 ^ 30 ∧ w.toNat % 2 ^ 30 < 0x140 ∧ s.dev.devClaim = some z ∧ s.dev.sys.bootFault
        = true := by decide +kernel

theorem wit_ControlMessages_17 :
    let s : State := (cl fun d =>
        { d.onJnl fun j => { j with log := [{ typ := 6, txn := 65535, key := 0xC0000107, payload := [9] }] } with devClaim := some 3 })
    let h : Ctl := hL
    let n : Fin 65536 := 65535
    let z : Nat := 3
    s.dev.sys.logicOn = true ∧ s.dev.expects h 57 0xFF 0 z ∧ isLong h = true ∧ n.val ≠ 0 ∧ s.dev.devClaim = some z ∧
        (s.dev.itemsOf n).map (·.key) = [0xC0000107] ∧ s.dev.sys.bootFault = false := by decide +kernel

theorem wit_ControlMessages_18 :
    let s : State := (cl id)
    let h : Ctl := hL
    let n : Fin 65536 := 65535
    let z : Nat := 3
    s.dev.sys.logicOn = true ∧ s.dev.expects h 57 0xFF 0 z ∧ isLong h = true ∧ n.val ≠ 0 ∧ s.dev.itemsOf n = [] := by
        decide +kernel

theorem wit_ControlMessages_19 :
    let s : State := (cl fun d =>
        { ((d.put (SCU_SCLK_SRC 3) 3).put SYS_MODE_MODE 3).put (SCU_CBW_BWMAX 3) 1000 with claim := [(63, some 3)] })
    let h : Ctl := hL
    let x : Fin 64 := 63
    let i : Fin 4 := 3
    let z : Nat := 3
    s.dev.sys.logicOn = true ∧ s.dev.expects h 64 x.val 0 z ∧ isLong h = true ∧ tget none s.dev.claim x = some z ∧
        s.dev.sessRunning i = false ∧ (((s.dev.put (SCU_STGT_ENG i) (x.val / 8)).put (SCU_STGT_LOOP i) (x.val %
        8)).put (SCU_SCTL_RING i) 0).startCause i = 0 ∧ s.dev.captureLoad z + s.dev.get (SCU_CBW_BWMAX i) ≤ max 1
        (s.dev.item 0x109 1000) := by decide +kernel

theorem wit_ControlMessages_20 :
    let s : State := (cl fun d => { d.put (SCU_SSTAT_STATE 3) 1 with claim := [(63, some 3)] })
    let h : Ctl := hL
    let x : Fin 64 := 63
    let i : Fin 4 := 3
    let z : Nat := 3
    s.dev.sys.logicOn = true ∧ s.dev.expects h 64 x.val 0 z ∧ isLong h = true ∧ tget none s.dev.claim x = some z ∧
        s.dev.sessRunning i = true := by decide +kernel

theorem wit_ControlMessages_21 :
    let s : State := (cl fun d => { d with devClaim := some 3 })
    let h : Ctl := hL
    let w : Word := 278525
    let l : List (Fin 256) := [1, 2, 3]
    let z : Nat := 3
    s.dev.sys.logicOn = true ∧ s.dev.expects h 72 0xFF 0 z ∧ isLong h = true ∧ s.dev.devClaim = some z ∧ w.toNat +
        l.length ≤ 278528 := by decide +kernel

theorem wit_ControlMessages_22 :
    let s : State := (cl fun d => { d with devClaim := some 3 })
    let h : Ctl := hL
    let w : Word := 278526
    let l : List (Fin 256) := [1, 2, 3]
    let z : Nat := 3
    s.dev.sys.logicOn = true ∧ s.dev.expects h 72 0xFF 0 z ∧ isLong h = true ∧ s.dev.devClaim = some z ∧ 278528 <
        w.toNat + l.length := by decide +kernel

theorem wit_ControlMessages_23 :
    let s : State :=
        (({ cl (fun d => { (((d.setReg JNL_FWCUR 0xFFFFF).setReg JNL_FWPREV 0xFFFFF)) with devClaim := some 3 }) with mem := tinyImage.map fun c => (c.1 + 0x2FFF00, c.2) }
        : State))
    let h : Ctl := hL
    let n : Fin 8 := 5
    let z : Nat := 3
    s.dev.sys.logicOn = true ∧ s.dev.expects h 73 0xFF 0 z ∧ isLong h = true ∧ s.dev.devClaim = some z ∧ imageErr n
        (s.dev.put JNL_IMGSRC_ADDR (stagingArea / 4), s.mem) = 0 := by decide +kernel

theorem wit_ControlMessages_24 :
    let s : State := (cl fun d => { d with devClaim := some 3 })
    let h : Ctl := hL
    let n : Fin 8 := 7
    let z : Nat := 3
    s.dev.sys.logicOn = true ∧ s.dev.expects h 73 0xFF 0 z ∧ isLong h = true ∧ s.dev.devClaim = some z ∧ 0 < imageErr
        n (s.dev.put JNL_IMGSRC_ADDR (stagingArea / 4), s.mem) := by decide +kernel

theorem wit_ControlMessages_25 :
    let s : State := { cl id with mem := setMem }
    let h : Ctl := hL
    let n : Fin 8 := 2
    s.dev.sys.logicOn = true ∧ s.dev.expects h 74 0xFF 0 3 ∧ isLong h = true ∧ sectionsOf (s.dev.imageMem s.mem n) 0 =
        [] ∧ tget 0 s.dev.jnl.imgSt n ≠ 2 :=
  ⟨by decide +kernel, by decide +kernel, by decide +kernel, set_sections rfl, by decide +kernel⟩

theorem wit_ControlMessages_26 :
    let s : State := { cl (fun d => d.onJnl fun j => { j with imgSt := [(2, 2)] }) with mem := setMem }
    let h : Ctl := hL
    let n : Fin 8 := 2
    s.dev.sys.logicOn = true ∧ s.dev.expects h 74 0xFF 0 3 ∧ isLong h = true ∧ s.dev.sys.bootFault = false ∧ tget 0
        s.dev.jnl.imgSt n = 2 ∧ memWord (s.dev.imageMem s.mem n) 4 % 256 = 2 ∧ loopsetNeed (setLoops s.dev (sectionsOf
        (s.dev.imageMem s.mem n) 0)) (decide ((((sectionsOf (s.dev.imageMem s.mem n) 0).filter (·.kind = 6)).map fun s
        => s.target / 65536) ≠ [])) 3 s.dev = 0 :=
  by
  intro s h n
  have e : memWord (s.dev.imageMem s.mem n) 4 = 2 := set_word (d := s.dev) rfl
  have f : sectionsOf (s.dev.imageMem s.mem n) 0 = [] := set_sections (d := s.dev) rfl
  rw [e, f]
  exact ⟨by decide +kernel, by decide +kernel, by decide +kernel, by decide +kernel, by decide +kernel, rfl, set_need⟩

theorem wit_RegisterWrites_0_0 :
    let s : State := (ws fun d => d.onPair 0 fun h => { h with cw := [(0, 1)] })
    let m : Master := .pair 0
    let r : Nat × Word := (LSS_CFG, 0xFFFFFF03)
    s.dev.sys.logicOn = true ∧ s.dev.supRights m = true ∧ (∀ p : Fin 5, m = .pair p → ((s.dev.pairOf p).cwGet
        0).getLsbD 0 = true) ∧ r ∈ ([(LSS_WDG, 0xFFFF), (LSS_CFG, 0xFFFFFF03), (SYS_STOPTO, 0xFFFF), (PSE_PUSER,
        0xFFFF), (TRU_GAIN, 0x1FFF), (JNL_QUOTA, 0xFFFF), (EVC_AGE, 0xFFFF), (SP1_BUSY, 0xFFFFFFFF)] : List (Nat ×
        Word)) ∧ (tget none s.dev.wrote r.1).all (fun x => decide (x.1 ≠ s.dev.now)) = true := by decide +kernel

theorem wit_RegisterWrites_0_1 :
    let s : State := (ws id)
    let m : Master := .debug
    let r : Nat × Word := (SP1_BUSY, 0xFFFFFFFF)
    s.dev.sys.logicOn = true ∧ s.dev.supRights m = true ∧ (∀ p : Fin 5, m = .pair p → ((s.dev.pairOf p).cwGet
        0).getLsbD 0 = true) ∧ r ∈ ([(LSS_WDG, 0xFFFF), (LSS_CFG, 0xFFFFFF03), (SYS_STOPTO, 0xFFFF), (PSE_PUSER,
        0xFFFF), (TRU_GAIN, 0x1FFF), (JNL_QUOTA, 0xFFFF), (EVC_AGE, 0xFFFF), (SP1_BUSY, 0xFFFFFFFF)] : List (Nat ×
        Word)) ∧ (tget none s.dev.wrote r.1).all (fun x => decide (x.1 ≠ s.dev.now)) = true := by decide +kernel

theorem wit_RegisterWrites_0_2 :
    let s : State := (ws id)
    let m : Master := .debug
    let r : Nat × Word := (TRU_GAIN, 0x1FFF)
    s.dev.sys.logicOn = true ∧ s.dev.supRights m = true ∧ (∀ p : Fin 5, m = .pair p → ((s.dev.pairOf p).cwGet
        0).getLsbD 0 = true) ∧ r ∈ ([(LSS_WDG, 0xFFFF), (LSS_CFG, 0xFFFFFF03), (SYS_STOPTO, 0xFFFF), (PSE_PUSER,
        0xFFFF), (TRU_GAIN, 0x1FFF), (JNL_QUOTA, 0xFFFF), (EVC_AGE, 0xFFFF), (SP1_BUSY, 0xFFFFFFFF)] : List (Nat ×
        Word)) ∧ (tget none s.dev.wrote r.1).all (fun x => decide (x.1 ≠ s.dev.now)) = true := by decide +kernel

theorem wit_RegisterWrites_0_3 :
    let s : State := (ws id)
    let m : Master := .debug
    let r : Nat × Word := (EVC_AGE, 0xFFFF)
    s.dev.sys.logicOn = true ∧ s.dev.supRights m = true ∧ (∀ p : Fin 5, m = .pair p → ((s.dev.pairOf p).cwGet
        0).getLsbD 0 = true) ∧ r ∈ ([(LSS_WDG, 0xFFFF), (LSS_CFG, 0xFFFFFF03), (SYS_STOPTO, 0xFFFF), (PSE_PUSER,
        0xFFFF), (TRU_GAIN, 0x1FFF), (JNL_QUOTA, 0xFFFF), (EVC_AGE, 0xFFFF), (SP1_BUSY, 0xFFFFFFFF)] : List (Nat ×
        Word)) ∧ (tget none s.dev.wrote r.1).all (fun x => decide (x.1 ≠ s.dev.now)) = true := by decide +kernel

theorem wit_RegisterWrites_0_4 :
    let s : State := (ws id)
    let m : Master := .debug
    let r : Nat × Word := (JNL_QUOTA, 0xFFFF)
    s.dev.sys.logicOn = true ∧ s.dev.supRights m = true ∧ (∀ p : Fin 5, m = .pair p → ((s.dev.pairOf p).cwGet
        0).getLsbD 0 = true) ∧ r ∈ ([(LSS_WDG, 0xFFFF), (LSS_CFG, 0xFFFFFF03), (SYS_STOPTO, 0xFFFF), (PSE_PUSER,
        0xFFFF), (TRU_GAIN, 0x1FFF), (JNL_QUOTA, 0xFFFF), (EVC_AGE, 0xFFFF), (SP1_BUSY, 0xFFFFFFFF)] : List (Nat ×
        Word)) ∧ (tget none s.dev.wrote r.1).all (fun x => decide (x.1 ≠ s.dev.now)) = true := by decide +kernel

theorem wit_RegisterWrites_0_5 :
    let s : State := (ws id)
    let m : Master := .debug
    let r : Nat × Word := (PSE_PUSER, 0xFFFF)
    s.dev.sys.logicOn = true ∧ s.dev.supRights m = true ∧ (∀ p : Fin 5, m = .pair p → ((s.dev.pairOf p).cwGet
        0).getLsbD 0 = true) ∧ r ∈ ([(LSS_WDG, 0xFFFF), (LSS_CFG, 0xFFFFFF03), (SYS_STOPTO, 0xFFFF), (PSE_PUSER,
        0xFFFF), (TRU_GAIN, 0x1FFF), (JNL_QUOTA, 0xFFFF), (EVC_AGE, 0xFFFF), (SP1_BUSY, 0xFFFFFFFF)] : List (Nat ×
        Word)) ∧ (tget none s.dev.wrote r.1).all (fun x => decide (x.1 ≠ s.dev.now)) = true := by decide +kernel

theorem wit_RegisterWrites_0_6 :
    let s : State := (ws id)
    let m : Master := .debug
    let r : Nat × Word := (SYS_STOPTO, 0xFFFF)
    s.dev.sys.logicOn = true ∧ s.dev.supRights m = true ∧ (∀ p : Fin 5, m = .pair p → ((s.dev.pairOf p).cwGet
        0).getLsbD 0 = true) ∧ r ∈ ([(LSS_WDG, 0xFFFF), (LSS_CFG, 0xFFFFFF03), (SYS_STOPTO, 0xFFFF), (PSE_PUSER,
        0xFFFF), (TRU_GAIN, 0x1FFF), (JNL_QUOTA, 0xFFFF), (EVC_AGE, 0xFFFF), (SP1_BUSY, 0xFFFFFFFF)] : List (Nat ×
        Word)) ∧ (tget none s.dev.wrote r.1).all (fun x => decide (x.1 ≠ s.dev.now)) = true := by decide +kernel

theorem wit_RegisterWrites_0_7 :
    let s : State := (ws id)
    let m : Master := .debug
    let r : Nat × Word := (LSS_WDG, 0xFFFF)
    s.dev.sys.logicOn = true ∧ s.dev.supRights m = true ∧ (∀ p : Fin 5, m = .pair p → ((s.dev.pairOf p).cwGet
        0).getLsbD 0 = true) ∧ r ∈ ([(LSS_WDG, 0xFFFF), (LSS_CFG, 0xFFFFFF03), (SYS_STOPTO, 0xFFFF), (PSE_PUSER,
        0xFFFF), (TRU_GAIN, 0x1FFF), (JNL_QUOTA, 0xFFFF), (EVC_AGE, 0xFFFF), (SP1_BUSY, 0xFFFFFFFF)] : List (Nat ×
        Word)) ∧ (tget none s.dev.wrote r.1).all (fun x => decide (x.1 ≠ s.dev.now)) = true := by decide +kernel

theorem wit_RegisterWrites_1_0 :
    let s : State := (ws fun d => d.setReg TRU_EVT 0xFFFFFFFF)
    let m : Master := .debug
    let r : Nat × Word := (TRU_EVT, 0xF)
    s.dev.sys.logicOn = true ∧ s.dev.supRights m = true ∧ (∀ p : Fin 5, m = .pair p → ((s.dev.pairOf p).cwGet
        0).getLsbD 0 = true) ∧ r ∈ ([(TRU_EVT, 0xF), (PSE_EVT, 0xFFF), (SYS_RCAUSE, 0x3F), (EVC_STAT, 7), (LSS_EVT,
        0x3FFF), (JNL_EVT, 0x1FF), (SP0_EVT, 7), (SWC_EVT, 3), (SCU_EVT, 0xFFFF)] : List (Nat × Word)) := by
        decide +kernel

theorem wit_RegisterWrites_1_1 :
    let s : State := (ws fun d => d.setReg PSE_EVT 0xFFFFFFFF)
    let m : Master := .debug
    let r : Nat × Word := (PSE_EVT, 0xFFF)
    s.dev.sys.logicOn = true ∧ s.dev.supRights m = true ∧ (∀ p : Fin 5, m = .pair p → ((s.dev.pairOf p).cwGet
        0).getLsbD 0 = true) ∧ r ∈ ([(TRU_EVT, 0xF), (PSE_EVT, 0xFFF), (SYS_RCAUSE, 0x3F), (EVC_STAT, 7), (LSS_EVT,
        0x3FFF), (JNL_EVT, 0x1FF), (SP0_EVT, 7), (SWC_EVT, 3), (SCU_EVT, 0xFFFF)] : List (Nat × Word)) := by
        decide +kernel

theorem wit_RegisterWrites_1_2 :
    let s : State := (ws fun d => d.setReg SYS_RCAUSE 0xFFFFFFFF)
    let m : Master := .debug
    let r : Nat × Word := (SYS_RCAUSE, 0x3F)
    s.dev.sys.logicOn = true ∧ s.dev.supRights m = true ∧ (∀ p : Fin 5, m = .pair p → ((s.dev.pairOf p).cwGet
        0).getLsbD 0 = true) ∧ r ∈ ([(TRU_EVT, 0xF), (PSE_EVT, 0xFFF), (SYS_RCAUSE, 0x3F), (EVC_STAT, 7), (LSS_EVT,
        0x3FFF), (JNL_EVT, 0x1FF), (SP0_EVT, 7), (SWC_EVT, 3), (SCU_EVT, 0xFFFF)] : List (Nat × Word)) := by
        decide +kernel

theorem wit_RegisterWrites_1_3 :
    let s : State := (ws fun d => d.setReg EVC_STAT 0xFFFFFFFF)
    let m : Master := .debug
    let r : Nat × Word := (EVC_STAT, 7)
    s.dev.sys.logicOn = true ∧ s.dev.supRights m = true ∧ (∀ p : Fin 5, m = .pair p → ((s.dev.pairOf p).cwGet
        0).getLsbD 0 = true) ∧ r ∈ ([(TRU_EVT, 0xF), (PSE_EVT, 0xFFF), (SYS_RCAUSE, 0x3F), (EVC_STAT, 7), (LSS_EVT,
        0x3FFF), (JNL_EVT, 0x1FF), (SP0_EVT, 7), (SWC_EVT, 3), (SCU_EVT, 0xFFFF)] : List (Nat × Word)) := by
        decide +kernel

theorem wit_RegisterWrites_1_4 :
    let s : State := (ws fun d => d.setReg LSS_EVT 0xFFFFFFFF)
    let m : Master := .debug
    let r : Nat × Word := (LSS_EVT, 0x3FFF)
    s.dev.sys.logicOn = true ∧ s.dev.supRights m = true ∧ (∀ p : Fin 5, m = .pair p → ((s.dev.pairOf p).cwGet
        0).getLsbD 0 = true) ∧ r ∈ ([(TRU_EVT, 0xF), (PSE_EVT, 0xFFF), (SYS_RCAUSE, 0x3F), (EVC_STAT, 7), (LSS_EVT,
        0x3FFF), (JNL_EVT, 0x1FF), (SP0_EVT, 7), (SWC_EVT, 3), (SCU_EVT, 0xFFFF)] : List (Nat × Word)) := by
        decide +kernel

theorem wit_RegisterWrites_1_5 :
    let s : State := (ws fun d => d.setReg JNL_EVT 0xFFFFFFFF)
    let m : Master := .debug
    let r : Nat × Word := (JNL_EVT, 0x1FF)
    s.dev.sys.logicOn = true ∧ s.dev.supRights m = true ∧ (∀ p : Fin 5, m = .pair p → ((s.dev.pairOf p).cwGet
        0).getLsbD 0 = true) ∧ r ∈ ([(TRU_EVT, 0xF), (PSE_EVT, 0xFFF), (SYS_RCAUSE, 0x3F), (EVC_STAT, 7), (LSS_EVT,
        0x3FFF), (JNL_EVT, 0x1FF), (SP0_EVT, 7), (SWC_EVT, 3), (SCU_EVT, 0xFFFF)] : List (Nat × Word)) := by
        decide +kernel

theorem wit_RegisterWrites_1_6 :
    let s : State := (ws fun d => d.setReg SP0_EVT 0xFFFFFFFF)
    let m : Master := .debug
    let r : Nat × Word := (SP0_EVT, 7)
    s.dev.sys.logicOn = true ∧ s.dev.supRights m = true ∧ (∀ p : Fin 5, m = .pair p → ((s.dev.pairOf p).cwGet
        0).getLsbD 0 = true) ∧ r ∈ ([(TRU_EVT, 0xF), (PSE_EVT, 0xFFF), (SYS_RCAUSE, 0x3F), (EVC_STAT, 7), (LSS_EVT,
        0x3FFF), (JNL_EVT, 0x1FF), (SP0_EVT, 7), (SWC_EVT, 3), (SCU_EVT, 0xFFFF)] : List (Nat × Word)) := by
        decide +kernel

theorem wit_RegisterWrites_1_7 :
    let s : State := (ws fun d => d.setReg SWC_EVT 0xFFFFFFFF)
    let m : Master := .debug
    let r : Nat × Word := (SWC_EVT, 3)
    s.dev.sys.logicOn = true ∧ s.dev.supRights m = true ∧ (∀ p : Fin 5, m = .pair p → ((s.dev.pairOf p).cwGet
        0).getLsbD 0 = true) ∧ r ∈ ([(TRU_EVT, 0xF), (PSE_EVT, 0xFFF), (SYS_RCAUSE, 0x3F), (EVC_STAT, 7), (LSS_EVT,
        0x3FFF), (JNL_EVT, 0x1FF), (SP0_EVT, 7), (SWC_EVT, 3), (SCU_EVT, 0xFFFF)] : List (Nat × Word)) := by
        decide +kernel

theorem wit_RegisterWrites_1_8 :
    let s : State := (ws fun d => d.setReg SCU_EVT 0xFFFFFFFF)
    let m : Master := .debug
    let r : Nat × Word := (SCU_EVT, 0xFFFF)
    s.dev.sys.logicOn = true ∧ s.dev.supRights m = true ∧ (∀ p : Fin 5, m = .pair p → ((s.dev.pairOf p).cwGet
        0).getLsbD 0 = true) ∧ r ∈ ([(TRU_EVT, 0xF), (PSE_EVT, 0xFFF), (SYS_RCAUSE, 0x3F), (EVC_STAT, 7), (LSS_EVT,
        0x3FFF), (JNL_EVT, 0x1FF), (SP0_EVT, 7), (SWC_EVT, 3), (SCU_EVT, 0xFFFF)] : List (Nat × Word)) := by
        decide +kernel

theorem wit_RegisterWrites_2_0 :
    let s : State := (ws id)
    let m : Master := .debug
    let a : Nat := 0x4000FFFC
    s.dev.sys.logicOn = true ∧ s.dev.supRights m = true ∧ (∀ p : Fin 5, m = .pair p → ((s.dev.pairOf p).cwGet
        0).getLsbD 0 = true) ∧ a ∈ [0x4000FFFC, 0x4002FFF0, 0x4003FFFC, 0x4004FFFC, 0x40050FFC, 0x4010FFFC,
        0x402003FC, 0x403007FC, 0x4050FFFC, 0x40600FFC] := by decide +kernel

theorem wit_RegisterWrites_2_1 :
    let s : State := (ws id)
    let m : Master := .debug
    let a : Nat := 0x4002FFF0
    s.dev.sys.logicOn = true ∧ s.dev.supRights m = true ∧ (∀ p : Fin 5, m = .pair p → ((s.dev.pairOf p).cwGet
        0).getLsbD 0 = true) ∧ a ∈ [0x4000FFFC, 0x4002FFF0, 0x4003FFFC, 0x4004FFFC, 0x40050FFC, 0x4010FFFC,
        0x402003FC, 0x403007FC, 0x4050FFFC, 0x40600FFC] := by decide +kernel

theorem wit_RegisterWrites_2_2 :
    let s : State := (ws id)
    let m : Master := .debug
    let a : Nat := 0x4003FFFC
    s.dev.sys.logicOn = true ∧ s.dev.supRights m = true ∧ (∀ p : Fin 5, m = .pair p → ((s.dev.pairOf p).cwGet
        0).getLsbD 0 = true) ∧ a ∈ [0x4000FFFC, 0x4002FFF0, 0x4003FFFC, 0x4004FFFC, 0x40050FFC, 0x4010FFFC,
        0x402003FC, 0x403007FC, 0x4050FFFC, 0x40600FFC] := by decide +kernel

theorem wit_RegisterWrites_2_3 :
    let s : State := (ws id)
    let m : Master := .debug
    let a : Nat := 0x4004FFFC
    s.dev.sys.logicOn = true ∧ s.dev.supRights m = true ∧ (∀ p : Fin 5, m = .pair p → ((s.dev.pairOf p).cwGet
        0).getLsbD 0 = true) ∧ a ∈ [0x4000FFFC, 0x4002FFF0, 0x4003FFFC, 0x4004FFFC, 0x40050FFC, 0x4010FFFC,
        0x402003FC, 0x403007FC, 0x4050FFFC, 0x40600FFC] := by decide +kernel

theorem wit_RegisterWrites_2_4 :
    let s : State := (ws id)
    let m : Master := .debug
    let a : Nat := 0x40050FFC
    s.dev.sys.logicOn = true ∧ s.dev.supRights m = true ∧ (∀ p : Fin 5, m = .pair p → ((s.dev.pairOf p).cwGet
        0).getLsbD 0 = true) ∧ a ∈ [0x4000FFFC, 0x4002FFF0, 0x4003FFFC, 0x4004FFFC, 0x40050FFC, 0x4010FFFC,
        0x402003FC, 0x403007FC, 0x4050FFFC, 0x40600FFC] := by decide +kernel

theorem wit_RegisterWrites_2_5 :
    let s : State := (ws id)
    let m : Master := .debug
    let a : Nat := 0x4010FFFC
    s.dev.sys.logicOn = true ∧ s.dev.supRights m = true ∧ (∀ p : Fin 5, m = .pair p → ((s.dev.pairOf p).cwGet
        0).getLsbD 0 = true) ∧ a ∈ [0x4000FFFC, 0x4002FFF0, 0x4003FFFC, 0x4004FFFC, 0x40050FFC, 0x4010FFFC,
        0x402003FC, 0x403007FC, 0x4050FFFC, 0x40600FFC] := by decide +kernel

theorem wit_RegisterWrites_2_6 :
    let s : State := (ws id)
    let m : Master := .debug
    let a : Nat := 0x402003FC
    s.dev.sys.logicOn = true ∧ s.dev.supRights m = true ∧ (∀ p : Fin 5, m = .pair p → ((s.dev.pairOf p).cwGet
        0).getLsbD 0 = true) ∧ a ∈ [0x4000FFFC, 0x4002FFF0, 0x4003FFFC, 0x4004FFFC, 0x40050FFC, 0x4010FFFC,
        0x402003FC, 0x403007FC, 0x4050FFFC, 0x40600FFC] := by decide +kernel

theorem wit_RegisterWrites_2_7 :
    let s : State := (ws id)
    let m : Master := .debug
    let a : Nat := 0x403007FC
    s.dev.sys.logicOn = true ∧ s.dev.supRights m = true ∧ (∀ p : Fin 5, m = .pair p → ((s.dev.pairOf p).cwGet
        0).getLsbD 0 = true) ∧ a ∈ [0x4000FFFC, 0x4002FFF0, 0x4003FFFC, 0x4004FFFC, 0x40050FFC, 0x4010FFFC,
        0x402003FC, 0x403007FC, 0x4050FFFC, 0x40600FFC] := by decide +kernel

theorem wit_RegisterWrites_2_8 :
    let s : State := (ws id)
    let m : Master := .debug
    let a : Nat := 0x4050FFFC
    s.dev.sys.logicOn = true ∧ s.dev.supRights m = true ∧ (∀ p : Fin 5, m = .pair p → ((s.dev.pairOf p).cwGet
        0).getLsbD 0 = true) ∧ a ∈ [0x4000FFFC, 0x4002FFF0, 0x4003FFFC, 0x4004FFFC, 0x40050FFC, 0x4010FFFC,
        0x402003FC, 0x403007FC, 0x4050FFFC, 0x40600FFC] := by decide +kernel

theorem wit_RegisterWrites_2_9 :
    let s : State := (ws id)
    let m : Master := .debug
    let a : Nat := 0x40600FFC
    s.dev.sys.logicOn = true ∧ s.dev.supRights m = true ∧ (∀ p : Fin 5, m = .pair p → ((s.dev.pairOf p).cwGet
        0).getLsbD 0 = true) ∧ a ∈ [0x4000FFFC, 0x4002FFF0, 0x4003FFFC, 0x4004FFFC, 0x40050FFC, 0x4010FFFC,
        0x402003FC, 0x403007FC, 0x4050FFFC, 0x40600FFC] := by decide +kernel

theorem wit_RegisterWrites_3 :
    let s : State := (ws fun d =>
        { d.onPair 0 fun h => { h with cw := [(0, 1)] } with wrote := [(LSS_CFG, some (0, 15))] })
    let m : Master := .pair 0
    let r : Nat := 15
    s.dev.sys.logicOn = true ∧ s.dev.supRights m = true ∧ (∀ p : Fin 5, m = .pair p → ((s.dev.pairOf p).cwGet
        0).getLsbD 0 = true) ∧ tget none s.dev.wrote LSS_CFG = some (s.dev.now, r) ∧ s.dev.rank m < r := by
        decide +kernel

theorem wit_RegisterWrites_4_0 :
    let s : State := (ws fun d => d.onPair 4 fun h => { h with cw := [(0, 1)] })
    let p : Fin 5 := 4
    let a : Fin 64 := 63
    s.dev.sys.logicOn = true ∧ s.dev.superv p = true ∧ ((s.dev.pairOf p).cwGet 0).getLsbD 2 = false ∧ s.dev.host a ≠ p
        ∧ s.dev.sup ≠ p := by decide +kernel

theorem wit_RegisterWrites_4_1 :
    let s : State := (ws fun d => d.onPair 4 fun h => { h with cw := [(0, 1)] })
    let p : Fin 5 := 4
    let a : Fin 64 := 0
    s.dev.sys.logicOn = true ∧ s.dev.superv p = true ∧ ((s.dev.pairOf p).cwGet 0).getLsbD 2 = false ∧ s.dev.host a ≠ p
        ∧ s.dev.sup ≠ p := by decide +kernel

theorem wit_RegisterWrites_5 :
    let s : State := (ws fun d => d.onPair 4 fun h => { h with cw := [(0, 1)] })
    let p : Fin 5 := 4
    let a : Fin 64 := 63
    s.dev.sys.logicOn = true ∧ s.dev.superv p = true ∧ ((s.dev.pairOf p).cwGet 0).getLsbD 2 = false ∧ s.dev.host a ≠ p
        ∧ s.dev.sup ≠ p := by decide +kernel

theorem wit_RegisterWrites_6_0 :
    let s : State := (ws fun d => d.onPair 4 fun h => { h with cw := [(0, 0)] })
    let p : Fin 5 := 4
    let a : Word := 0x40000000
    s.dev.sys.logicOn = true ∧ s.dev.superv p = false ∧ ((s.dev.pairOf p).cwGet 0).getLsbD 2 = false ∧ 0x40000000 ≤
        a.toNat := by decide +kernel

theorem wit_RegisterWrites_6_1 :
    let s : State := (ws fun d => d.onPair 4 fun h => { h with cw := [(0, 0)] })
    let p : Fin 5 := 4
    let a : Word := 0xFFFFFFFF
    s.dev.sys.logicOn = true ∧ s.dev.superv p = false ∧ ((s.dev.pairOf p).cwGet 0).getLsbD 2 = false ∧ 0x40000000 ≤
        a.toNat := by decide +kernel

theorem wit_RegisterWrites_7 :
    let s : State := (ws fun d => d.onPair 4 fun h => { h with cw := [(0, 1)] })
    let p : Fin 5 := 4
    let a : Word := 0x40020012
    s.dev.sys.logicOn = true ∧ s.dev.superv p = true ∧ ((s.dev.pairOf p).cwGet 0).getLsbD 2 = false ∧ a.toNat % 4 ≠
        0 := by decide +kernel

theorem wit_RegisterWrites_8_0 :
    let s : State := (ws fun d => d.onPair 4 fun h => { h with cw := [(0, 1)] })
    let p : Fin 5 := 4
    let a : Word := 0x40052000
    s.dev.sys.logicOn = true ∧ s.dev.superv p = true ∧ ((s.dev.pairOf p).cwGet 0).getLsbD 2 = false ∧ a.toNat % 4 = 0
        ∧ ((0x40052000 ≤ a.toNat ∧ a.toNat < 0x40060000) ∨ 0x40610000 ≤ a.toNat) := by decide +kernel

theorem wit_RegisterWrites_8_1 :
    let s : State := (ws fun d => d.onPair 4 fun h => { h with cw := [(0, 1)] })
    let p : Fin 5 := 4
    let a : Word := 0xFFFFFFFC
    s.dev.sys.logicOn = true ∧ s.dev.superv p = true ∧ ((s.dev.pairOf p).cwGet 0).getLsbD 2 = false ∧ a.toNat % 4 = 0
        ∧ ((0x40052000 ≤ a.toNat ∧ a.toNat < 0x40060000) ∨ 0x40610000 ≤ a.toNat) := by decide +kernel

theorem wit_RegisterWrites_9_0 :
    let s : State := (ws fun d => d.onPair 4 fun h => { h with cw := [(0, 1)] })
    let p : Fin 5 := 4
    let a : Word := 0x20FFFFFC
    s.dev.sys.logicOn = true ∧ s.dev.superv p = true ∧ ((s.dev.pairOf p).cwGet 0).getLsbD 2 = false ∧ a.toNat % 4 = 0
        ∧ ((0x20000000 ≤ a.toNat ∧ a.toNat < 0x21000000) ∨ (0x30000000 ≤ a.toNat ∧ a.toNat < 0x34000000)) := by
        decide +kernel

theorem wit_RegisterWrites_9_1 :
    let s : State := (ws fun d => d.onPair 4 fun h => { h with cw := [(0, 1)] })
    let p : Fin 5 := 4
    let a : Word := 0x30000000
    s.dev.sys.logicOn = true ∧ s.dev.superv p = true ∧ ((s.dev.pairOf p).cwGet 0).getLsbD 2 = false ∧ a.toNat % 4 = 0
        ∧ ((0x20000000 ≤ a.toNat ∧ a.toNat < 0x21000000) ∨ (0x30000000 ≤ a.toNat ∧ a.toNat < 0x34000000)) := by
        decide +kernel

theorem wit_RegisterWrites_10 :
    let s : State := (ws id)
    let e : Fin 8 := 7
    let a : Fin 64 := 55
    s.dev.sys.logicOn = true ∧ a.val / 8 ≠ e.val := by decide +kernel

theorem wit_RegisterWrites_11 :
    let s : State := (ws id)
    s.dev.sys.logicOn = true ∧ s.dev.mode ≠ .service := by decide +kernel

theorem wit_RegisterWrites_12_0 :
    let s : State := (ws fun d => d.put SYS_MODE_MODE 8)
    let a : Word := 0x103BFFFC
    s.dev.sys.logicOn = true ∧ s.dev.mode = .service ∧ a.toNat % 4 = 0 ∧ ((0x10000000 ≤ a.toNat ∧ a.toNat <
        0x103C0000) ∨ (0x18000000 ≤ a.toNat ∧ a.toNat < 0x18800000)) := by decide +kernel

theorem wit_RegisterWrites_12_1 :
    let s : State := (ws fun d => d.put SYS_MODE_MODE 8)
    let a : Word := 0x18000000
    s.dev.sys.logicOn = true ∧ s.dev.mode = .service ∧ a.toNat % 4 = 0 ∧ ((0x10000000 ≤ a.toNat ∧ a.toNat <
        0x103C0000) ∨ (0x18000000 ≤ a.toNat ∧ a.toNat < 0x18800000)) := by decide +kernel

theorem wit_RegisterWrites_13_0 :
    let s : State := (wsm [(0x10000004, 7)] fun d => d.put SYS_MODE_MODE 8)
    let a : Word := 0x10000004
    s.dev.sys.logicOn = true ∧ s.dev.mode = .service ∧ a.toNat % 4 = 0 ∧ ((0x10000000 ≤ a.toNat ∧ a.toNat <
        0x10400000) ∨ (0x18000000 ≤ a.toNat ∧ a.toNat < 0x18800000) ∨ (0x20000000 ≤ a.toNat ∧ a.toNat < 0x21000000 ∧
        s.dev.metaAt a.toNat = false)) := by decide +kernel

theorem wit_RegisterWrites_13_1 :
    let s : State := (ws fun d => d.put SYS_MODE_MODE 8)
    let a : Word := 0x20FFFFFC
    s.dev.sys.logicOn = true ∧ s.dev.mode = .service ∧ a.toNat % 4 = 0 ∧ ((0x10000000 ≤ a.toNat ∧ a.toNat <
        0x10400000) ∨ (0x18000000 ≤ a.toNat ∧ a.toNat < 0x18800000) ∨ (0x20000000 ≤ a.toNat ∧ a.toNat < 0x21000000 ∧
        s.dev.metaAt a.toNat = false)) := by decide +kernel

theorem wit_RegisterWrites_14 :
    let s : State := (ws fun d => d.put SYS_MODE_MODE 8)
    s.dev.sys.logicOn = true ∧ s.dev.mode = .service := by decide +kernel

theorem wit_IdleStepCountsTime_0 : (cl id).pending = [] ∧ ({ (cl id).dev with timeOn := true } : Dev).timeOn = true :=
    by decide +kernel

theorem wit_IdleStepCountsTime_1 : State.reset.pending = [] ∧ State.reset.dev.timeOn = false := by decide +kernel

theorem wit_LogicOffNothingActs_0 : alwaysOn (.softwareRaise .debug 5) = false ∧ (ws fun d => d.onSys fun h =>
    { h with logicOn := false }).dev.sys.logicOn = false := by decide +kernel

theorem wit_MemoryFrame_0 :
    ∃ t, storesBytes (.softwareRaise .debug 5) = false ∧ exec (.softwareRaise .debug 5) (cl id) = .next t :=
  ⟨_, by decide +kernel, rfl⟩

theorem wit_MemoryFormKept_0 :
    ∃ t, { (cl id) with mem := setMem, pending := [.softwareRaise .debug 5] }.MemWf ∧ step
        { (cl id) with mem := setMem, pending := [.softwareRaise .debug 5] } = .next t :=
  ⟨_, by decide +kernel, rfl⟩

theorem wit_LitosDecodeEncode_0 : decodeLitos 2 0 0xC0220188 = some (.fmac 2 0 1 2 6) := by decide +kernel

end Sys2Proof.Tests
end

section
namespace Sys2Proof.Proofs
open Sys2Proof Sys2Proof.Machine Sys2Proof.Laws Reg

/-! SUPPORT. Rules for a pair's instructions, its loads, stores and atomics over RAM (O30), what every command answers
(O50) and what registers read at reset (O59). -/

/-! ### A block in which one pair alone has changed -/

/-- `t` is block `d` with the state of pair `p` replaced by `h`: every other pair and the rest of the block are those of
`d`. -/
structure OnlyPair (d t : Dev) (p : Nat) (h : PairH) : Prop where
  rest : t = { d with pairs := t.pairs }
  other : ∀ q, q ≠ p → t.pairOf q = d.pairOf q
  own : t.pairOf p = h

/-- A block against itself. -/
theorem OnlyPair.refl (d : Dev) (p : Nat) : OnlyPair d d p (d.pairOf p) := ⟨rfl, fun _ _ => rfl, rfl⟩

/-- One more change of the same pair acts on its present state. -/
theorem OnlyPair.onPair {d t : Dev} {p : Nat} {h : PairH} (ht : OnlyPair d t p h) (f : PairH → PairH) :
    OnlyPair d (t.onPair p f) p (f h) where
  rest := by rw [ht.rest]; rfl
  other q hq := (pairOf_onPair_ne t f hq).trans (ht.other q hq)
  own := by rw [pairOf_onPair_same, ht.own]

/-- The latch of a pair's access is the only thing `clearTook` writes. -/
theorem OnlyPair.clearTook {d t : Dev} {p : Fin 5} {h : PairH} (ht : OnlyPair d t p h) :
    OnlyPair d (Machine.clearTook (.pair p) t) p { h with took := false } :=
  ht.onPair fun h => { h with took := false }

/-- A general register is read from the pair's present state. -/
theorem OnlyPair.gr_eq {d t : Dev} {p : Nat} {h : PairH} (ht : OnlyPair d t p h) (i : Nat) : t.gr p i = h.gr i := by
  rw [Dev.gr, ht.own]

/-- Whether a pair executes depends on its own state and on the registers. -/
theorem OnlyPair.runs_eq {d t : Dev} {p : Nat} {h : PairH} (ht : OnlyPair d t p h)
    (hs : h.started = (d.pairOf p).started) (hh : h.halted = (d.pairOf p).halted) (hw : h.wait = (d.pairOf p).wait) :
    t.runs p = d.runs p := by
  have hhealthy : t.healthy p = d.healthy p := by rw [ht.rest]; rfl
  simp only [Dev.runs, ht.own, hs, hh, hw, hhealthy]

/-! ### An instruction at its start: the latch of a pair's access is clear -/

/-- The block in which an instruction of pair `p` begins. -/
theorem onlyPair_start (p : Fin 5) (d : Dev) :
    OnlyPair d (clearTook (.pair p) d) p { d.pairOf p with took := false } := (OnlyPair.refl d p).clearTook

@[simp] theorem gr_start (p : Fin 5) (d : Dev) (i : Nat) : (clearTook (.pair p) d).gr p i = d.gr p i :=
  (onlyPair_start p d).gr_eq i

@[simp] theorem effAddr_start (p : Fin 5) (d : Dev) (ga : Nat) (imm : BitVec 16) :
    (clearTook (.pair p) d).effAddr p ga imm = d.effAddr p ga imm := by simp only [Dev.effAddr, gr_start]

@[simp] theorem superv_start (p : Fin 5) (d : Dev) : (clearTook (.pair p) d).superv p = d.superv p := by
  simp only [Dev.superv, (onlyPair_start p d).own]; rfl

@[simp] theorem ramKey_start (p : Fin 5) (d : Dev) (a : Nat) :
    (clearTook (.pair p) d).ramKey (.pair p) a = d.ramKey (.pair p) a := rfl

/-- A command that is an instruction of a pair that executes does what the instruction does from its start. -/
theorem doesMem_of_litos {c : Instr} {s : State} {p : Fin 5} {f : DM → DM} {m : List Host.Cell} {post : Dev → Prop}
    (hc : exec c s = litos p f s) (hon : s.dev.sys.logicOn = true) (hrun : s.dev.runs p = true)
    (hmem : (f (clearTook (.pair p) s.dev, s.mem)).2 = m) (hpost : post (f (clearTook (.pair p) s.dev, s.mem)).1) :
    DoesMem c s m post := by
  rw [litos, onDM_next _ _ hon] at hc
  simp only [hrun, if_true] at hc
  exact ⟨_, hc, hmem, rfl, hpost⟩

/-! ### How an instruction ends (R255, R270) -/

section SetGr
variable (h : PairH) (i : Nat) (w : Word)

@[simp] theorem setGr_pc : (h.setGr i w).pc = h.pc := by unfold PairH.setGr; split <;> rfl
@[simp] theorem setGr_retired : (h.setGr i w).retired = h.retired := by unfold PairH.setGr; split <;> rfl
@[simp] theorem setGr_wait : (h.setGr i w).wait = h.wait := by unfold PairH.setGr; split <;> rfl
@[simp] theorem setGr_ac : (h.setGr i w).ac = h.ac := by unfold PairH.setGr; split <;> rfl
@[simp] theorem setGr_cw : (h.setGr i w).cw = h.cw := by unfold PairH.setGr; split <;> rfl

/-- What a general register reads after a write of it: g0 stays 0 (R255). -/
theorem gr_setGr : (h.setGr i w).gr i = if i = 0 then 0 else w := by
  split
  · next hi => subst hi; rfl
  · next hi => exact gr_setGr_same h w hi

end SetGr

/-- A pair whose instruction has ended: `w` is written to general register `gd`, the PC is at `pc` and one more
instruction is retired. -/
def completed (h : PairH) (gd : Nat) (w pc : Word) : PairH :=
  { { h with took := false }.setGr gd w with pc := pc, retired := (h.retired + 1) % 2 ^ 64 }

/-- A block in which pair `p` alone has completed an instruction is one in which it retires. -/
theorem OnlyPair.retires {d t : Dev} {p : Fin 5} {gd : Fin 32} {w pc : Word}
    (ht : OnlyPair d t p (completed (d.pairOf p) gd w pc)) : Retires d t p pc gd w := by
  have hread (i : Fin 32) : t.gr p i = ({ d.pairOf p with took := false }.setGr gd w).gr i := ht.gr_eq i
  have hgoes : Goes d t p pc := by
    refine ⟨ht.rest, fun q hq => ht.other q (Fin.val_ne_of_ne hq), ?_⟩
    simp [ht.own, completed]
  refine ⟨hgoes, (hread gd).trans (gr_setGr _ gd w), fun i hi => ?_, by simp [ht.own, completed],
    by simp [ht.own, completed]⟩
  exact (hread i).trans (gr_setGr_ne _ w (Fin.val_ne_of_ne hi))

/-- An instruction that completes with a result in a register retires. -/
theorem result_retires {d t : Dev} {p : Fin 5} (ht : OnlyPair d t p { d.pairOf p with took := false })
    (gd : Fin 32) (w : Word) : Retires d (result p gd w t) p ((d.pairOf p).pc + 4) gd w := by
  have hresult := (ht.onPair fun h => h.setGr gd w).onPair fun h =>
    { h with pc := h.pc + 4, retired := (h.retired + 1) % 2 ^ 64 }
  rw [setGr_pc, setGr_retired] at hresult
  exact hresult.retires

/-- An instruction that completes without a result retires. -/
theorem advance_retires {d t : Dev} {p : Fin 5} (ht : OnlyPair d t p { d.pairOf p with took := false }) :
    Retires d (advance p t) p ((d.pairOf p).pc + 4) 0 0 :=
  (ht.onPair _).retires

/-- A store that took no exception retires. -/
theorem afterStore_retires {d t : Dev} {p : Fin 5} (ht : OnlyPair d t p { d.pairOf p with took := false })
    (hrun : d.runs p = true) : Retires d (afterStore p t) p ((d.pairOf p).pc + 4) 0 0 := by
  have hrun' : t.runs p = true := (ht.runs_eq rfl rfl rfl).trans hrun
  have htook : (t.pairOf p).took = false := by rw [ht.own]
  simpa only [afterStore, htook, hrun', Bool.not_false, Bool.and_self, if_true] using advance_retires ht

/-- What entering an exception writes: ESAVE, EPC, ECAUSE, EADDR, PSW and the PC. -/
theorem enter_writes (h : PairH) (cause sub : Nat) (w f : Bool) (addr epc : Word) :
    (h.enter cause sub w f addr epc).cwGet 1 = h.cwGet 0 ∧ (h.enter cause sub w f addr epc).cwGet 2 = epc ∧
    (h.enter cause sub w f addr epc).cwGet 3 =
      w32 (sub * 2 ^ 12 + (if w then 2 ^ 9 else 0) + (if f then 2 ^ 8 else 0) + cause) ∧
    (h.enter cause sub w f addr epc).cwGet 4 = addr ∧ (h.enter cause sub w f addr epc).cwGet 0 = 5 ∧
    (h.enter cause sub w f addr epc).pc = h.cwGet 5 + w32 (0x40 * cause) := by
  simp [PairH.enter, PairH.cwGet, PairH.cwSet, tget_tset_ne]

/-- Entering an exception leaves general registers, accumulators and the count of retired instructions. -/
theorem enter_keeps (h : PairH) (cause sub : Nat) (w f : Bool) (addr epc : Word) :
    (h.enter cause sub w f addr epc).g = h.g ∧ (h.enter cause sub w f addr epc).ac = h.ac ∧
    (h.enter cause sub w f addr epc).retired = h.retired := by
  simp only [PairH.enter, PairH.cwSet, and_self]

/-- An exception of an instruction outside EXL is taken as R270 says. -/
theorem trap_traps {d t : Dev} {p : Fin 5} (ht : OnlyPair d t p { d.pairOf p with took := false })
    (hexl : ((d.pairOf p).cwGet 0).getLsbD 2 = false) (cause sub : Nat) (w : Bool) (addr : Word) :
    Traps d (trap p cause sub w addr t) p cause sub w false addr := by
  have hexl' : ((t.pairOf p).cwGet 0).getLsbD 2 = false := by rw [ht.own]; exact hexl
  rw [trap, pairExc_enter _ _ _ _ _ _ _ _ hexl', ht.own]
  have hu := ht.onPair fun h => h.enter cause sub w false addr (d.pairOf p).pc
  refine ⟨hu.rest, fun q hq => hu.other q (Fin.val_ne_of_ne hq), ?_⟩
  rw [hu.own]
  obtain ⟨hesave, hepc, hecause, headdr, hpsw, hpc⟩ :=
    enter_writes { d.pairOf p with took := false } cause sub w false addr (d.pairOf p).pc
  obtain ⟨hg, hac, hretired⟩ := enter_keeps { d.pairOf p with took := false } cause sub w false addr (d.pairOf p).pc
  exact ⟨hesave, hepc, hecause, headdr, hpsw, hpc, hg, hac, hretired⟩

/-! ### Loads, stores and atomics over memory (R7, R25, R260, R264) -/

/-- A pair's access to RAM is below the store, the execute-in-place window and the register blocks (R25). -/
theorem lt_of_ramKey {d : Dev} {p : Fin 5} {a k : Nat} (hk : d.ramKey (.pair p) a = some k) : a < 0x40000000 := by
  by_contra hge
  have hlow : ¬ a < 0x40000 := by omega
  have hram : ¬ a < 0x10400000 ∧ ¬ a < 0x18800000 := by omega
  simp [Dev.ramKey, hlow, hram] at hk

/-- A read of RAM is the bytes at its key. -/
theorem busRead_ram {m : Master} {a k : Nat} {x : DM} (hk : x.1.ramKey m a = some k) (size : Nat) :
    busRead m a size x = .word (memRead x.2 k size) x.1 := by simp only [busRead, hk]

/-- A pair's write of RAM outside the shared window writes the bytes at its key. -/
theorem busWrite_ram {p : Fin 5} {a k : Nat} {x : DM} (hk : x.1.ramKey (.pair p) a = some k) (hwin : a < 0x103C0000)
    (size v : Nat) : busWrite (.pair p) a size v x = (clearTook (.pair p) x.1, memWrite x.2 k size v) := by
  have hout : ¬ 0x103C0000 ≤ a := by omega
  simp [busWrite, reaches, hk, hout]

/-- A write of `n` bytes takes the low `n` bytes of its number. -/
theorem memWrite_low (n : Nat) : ∀ (m : List Host.Cell) (k v : Nat),
    memWrite m k n (v % 2 ^ (8 * n)) = memWrite m k n v := by
  induction n with
  | zero => intro m k v; rfl
  | succ n ih =>
    intro m k v
    have hpow : 2 ^ (8 * (n + 1)) = 256 * 2 ^ (8 * n) := by rw [Nat.mul_succ, pow_add, mul_comm]; rfl
    have hbyte : BitVec.ofNat 8 (v % 2 ^ (8 * (n + 1))) = BitVec.ofNat 8 v := by
      apply BitVec.eq_of_toNat_eq
      simp [hpow]
    have hrest : v % 2 ^ (8 * (n + 1)) / 256 = v / 256 % 2 ^ (8 * n) := by rw [hpow, Nat.mod_mul_right_div_self]
    rw [memWrite, memWrite, hbyte, hrest, ih]

/-- The sign extension of `n` bits. -/
theorem sx_eq_toInt {n : Nat} (hn : 0 < n) (v : Nat) : sx n v = (BitVec.ofNat n v).toInt := by
  obtain ⟨n, rfl⟩ := Nat.exists_eq_succ_of_ne_zero hn.ne'
  simp only [sx, BitVec.toInt_eq_toNat_cond, BitVec.toNat_ofNat, Nat.succ_eq_add_one, Nat.add_sub_cancel]
  have : (2 : Int) ^ (n + 1) = ((2 ^ (n + 1) : Nat) : Int) := by push_cast; rfl
  rw [this, pow_succ]
  split <;> split <;> omega

/-- A load extends the sign of what it reads. -/
theorem extend_signed {size : Nat} (hsize : 0 < size) (v : Nat) :
    extend size true v = (BitVec.ofNat (8 * size) v).signExtend 32 := by
  have hbits : 0 < 8 * size := by omega
  simp only [extend, if_true, w32i, sx_eq_toInt hbits]
  rfl

section
variable {c : Instr} {s : State} {p : Fin 5} {ga : Fin 32} (hon : s.dev.sys.logicOn = true) (hrun : s.dev.runs p = true)
include hon hrun

/-- A load of RAM at a multiple of its size extends the bytes at the key. -/
theorem load_ram {gd : Fin 32} {imm : BitVec 16} {size k : Nat} {signed : Bool} {v : Word}
    (hc : exec c s = load p gd ga imm size signed false s)
    (hk : s.dev.ramKey (.pair p) (s.dev.effAddr p ga imm).toNat = some k)
    (hal : (s.dev.effAddr p ga imm).toNat % size = 0)
    (hv : extend size signed (memRead s.mem k size) = v) :
    Does c s fun t => Retires s.dev t p ((s.dev.pairOf p).pc + 4) gd v := by
  have hlow : ¬ 0x40000000 ≤ (s.dev.effAddr p ga imm).toNat := not_le.2 (lt_of_ramKey hk)
  have hread := busRead_ram (x := (clearTook (.pair p) s.dev, s.mem)) ((ramKey_start ..).trans hk) size
  refine doesMem_of_litos hc hon hrun ?_ ?_ <;>
    simp only [effAddr_start, hlow, hal, Fin.ofNat_eq_cast, Fin.cast_val_eq_self, hread, decide_false, Bool.and_false,
      Bool.false_and, Bool.false_eq_true, ne_eq, not_true_eq_false, if_false]
  exact hv ▸ result_retires (onlyPair_start p s.dev) gd _

/-- A store at a multiple of its size to RAM outside the shared window writes the low bytes of its register there. -/
theorem store_ram {gs : Fin 32} {imm : BitVec 16} {size k : Nat} (hc : exec c s = store p gs ga imm size s)
    (hk : s.dev.ramKey (.pair p) (s.dev.effAddr p ga imm).toNat = some k)
    (hwin : (s.dev.effAddr p ga imm).toNat < 0x103C0000) (hal : (s.dev.effAddr p ga imm).toNat % size = 0) :
    DoesMem c s (memWrite s.mem k size (s.dev.gr p gs).toNat)
      fun t => Retires s.dev t p ((s.dev.pairOf p).pc + 4) 0 0 := by
  have hlow : ¬ 0x40000000 ≤ (s.dev.effAddr p ga imm).toNat := not_le.2 (lt_of_ramKey hk)
  have hwrite := busWrite_ram (x := (clearTook (.pair p) s.dev, s.mem)) ((ramKey_start ..).trans hk) hwin size
  refine doesMem_of_litos hc hon hrun ?_ ?_ <;>
    simp only [effAddr_start, gr_start, hlow, hal, Fin.ofNat_eq_cast, Fin.cast_val_eq_self, hwrite, memWrite_low,
      dm_dev_mem, dm_dev_dev, decide_false, Bool.and_false, Bool.false_eq_true, ne_eq, not_true_eq_false, if_false]
  exact afterStore_retires (onlyPair_start p s.dev).clearTook hrun

/-- An atomic at a multiple of 4 in memory with ECC outside the shared window reads the old word and writes the
new one. -/
theorem atomic_ram {gd gb : Fin 32} {k : Nat} {f : Dev → Word → Word → Word} {new : Word}
    (hc : exec c s = atomic f p gd ga gb false s) (hk : s.dev.ramKey (.pair p) (s.dev.gr p ga).toNat = some k)
    (hecc : inEcc (s.dev.gr p ga).toNat = true) (hwin : (s.dev.gr p ga).toNat < 0x103C0000)
    (hal : (s.dev.gr p ga).toNat % 4 = 0)
    (hnew : f (clearTook (.pair p) s.dev) (BitVec.ofNat 32 (memRead s.mem k 4)) (s.dev.gr p gb) = new) :
    DoesMem c s (memWrite s.mem k 4 new.toNat)
      fun t => Retires s.dev t p ((s.dev.pairOf p).pc + 4) gd (BitVec.ofNat 32 (memRead s.mem k 4)) := by
  have hlow : ¬ 0x40000000 ≤ (s.dev.gr p ga).toNat := not_le.2 (lt_of_ramKey hk)
  have hwrite := busWrite_ram (x := (clearTook (.pair p) s.dev, s.mem)) ((ramKey_start ..).trans hk) hwin 4
  have hdone := (onlyPair_start p s.dev).clearTook
  have htook : ((clearTook (.pair p) (clearTook (.pair p) s.dev)).pairOf p).took = false := by rw [hdone.own]
  subst hnew
  refine doesMem_of_litos hc hon hrun ?_ ?_ <;>
    simp only [gr_start, ramKey_start, hlow, hal, hecc, hk, Fin.ofNat_eq_cast, Fin.cast_val_eq_self, hwrite, htook,
      dm_dev_mem, dm_dev_dev, decide_false, Bool.and_false, Bool.not_true, Bool.false_eq_true, ne_eq, not_true_eq_false,
      if_false, w32]
  exact result_retires hdone gd _

section
variable (hexl : ((s.dev.pairOf p).cwGet 0).getLsbD 2 = false) (hsup : s.dev.superv p = true)
include hexl hsup

/-- A load of a supervisor at an address that is no multiple of its size takes an alignment exception. -/
theorem load_misaligned {gd : Fin 32} {imm : BitVec 16} {size : Nat} {signed ecc : Bool}
    (hc : exec c s = load p gd ga imm size signed ecc s) (hal : (s.dev.effAddr p ga imm).toNat % size ≠ 0) :
    Does c s fun t => Traps s.dev t p 3 0 false false (s.dev.effAddr p ga imm) := by
  refine doesMem_of_litos hc hon hrun ?_ ?_ <;>
    simp only [effAddr_start, superv_start, hsup, hal, dm_dev_mem, dm_dev_dev, Bool.not_true, Bool.false_and,
      Bool.false_eq_true, if_false, ne_eq, not_false_eq_true, if_true]
  exact trap_traps (onlyPair_start p s.dev) hexl 3 0 false _

/-- A store of a supervisor at an address that is no multiple of its size takes an alignment exception. -/
theorem store_misaligned {gs : Fin 32} {imm : BitVec 16} {size : Nat} (hc : exec c s = store p gs ga imm size s)
    (hal : (s.dev.effAddr p ga imm).toNat % size ≠ 0) :
    Does c s fun t => Traps s.dev t p 3 0 true false (s.dev.effAddr p ga imm) := by
  refine doesMem_of_litos hc hon hrun ?_ ?_ <;>
    simp only [effAddr_start, superv_start, hsup, hal, dm_dev_mem, dm_dev_dev, Bool.not_true, Bool.false_and,
      Bool.false_eq_true, if_false, ne_eq, not_false_eq_true, if_true]
  exact trap_traps (onlyPair_start p s.dev) hexl 3 0 true _

end

end

/-! ### The commands (R260, R264) -/

section
variable (p : Fin 5) (gd gs ga gb : Fin 32) (imm : BitVec 16) (ecc : Bool) (s : State)

theorem exec_lw : exec (.lw p gd ga imm ecc) s = load p gd ga imm 4 false ecc s := rfl
theorem exec_lh : exec (.lh p gd ga imm ecc) s = load p gd ga imm 2 true ecc s := rfl
theorem exec_lhu : exec (.lhu p gd ga imm ecc) s = load p gd ga imm 2 false ecc s := rfl
theorem exec_lb : exec (.lb p gd ga imm ecc) s = load p gd ga imm 1 true ecc s := rfl
theorem exec_lbu : exec (.lbu p gd ga imm ecc) s = load p gd ga imm 1 false ecc s := rfl
theorem exec_sw : exec (.sw p gs ga imm) s = store p gs ga imm 4 s := rfl
theorem exec_sh : exec (.sh p gs ga imm) s = store p gs ga imm 2 s := rfl
theorem exec_sb : exec (.sb p gs ga imm) s = store p gs ga imm 1 s := rfl
theorem exec_aswap : exec (.aswap p gd ga gb ecc) s = atomic (fun _ _ b => b) p gd ga gb ecc s := rfl
theorem exec_aadd : exec (.aadd p gd ga gb ecc) s = atomic (fun _ old b => old + b) p gd ga gb ecc s := rfl
theorem exec_aand : exec (.aand p gd ga gb ecc) s = atomic (fun _ old b => old &&& b) p gd ga gb ecc s := rfl
theorem exec_aor : exec (.aor p gd ga gb ecc) s = atomic (fun _ old b => old ||| b) p gd ga gb ecc s := rfl
theorem exec_acas : exec (.acas p gd ga gb ecc) s =
    atomic (fun d old b => if old = d.gr p gd then b else old) p gd ga gb ecc s := rfl

end

/-- Settles O30: each command is a load, a store or an atomic of its size, and RAM answers as memory. -/
theorem litosMemory : Obligations.LitosMemory := by
  refine ⟨?lw, ?lh, ?lhu, ?lb, ?lbu, ?sw, ?sh, ?sb, ?aswap, ?aadd, ?aand, ?aor, ?acas, ?lwMisaligned, ?swMisaligned⟩
  case lw =>
    exact fun s p gd ga imm k hon hrun hk _ hal => load_ram hon hrun (exec_lw ..) hk hal rfl
  case lh =>
    exact fun s p gd ga imm k hon hrun hk _ hal => load_ram hon hrun (exec_lh ..) hk hal (extend_signed two_pos _)
  case lhu =>
    exact fun s p gd ga imm k hon hrun hk _ hal => load_ram hon hrun (exec_lhu ..) hk hal rfl
  case lb =>
    exact fun s p gd ga imm k hon hrun hk _ =>
      load_ram hon hrun (exec_lb ..) hk (Nat.mod_one _) (extend_signed one_pos _)
  case lbu =>
    exact fun s p gd ga imm k hon hrun hk _ => load_ram hon hrun (exec_lbu ..) hk (Nat.mod_one _) rfl
  case sw =>
    exact fun s p gs ga imm k hon hrun hk hwin hal => store_ram hon hrun (exec_sw ..) hk hwin hal
  case sh =>
    exact fun s p gs ga imm k hon hrun hk hwin hal => store_ram hon hrun (exec_sh ..) hk hwin hal
  case sb =>
    exact fun s p gs ga imm k hon hrun hk hwin => store_ram hon hrun (exec_sb ..) hk hwin (Nat.mod_one _)
  case aswap =>
    exact fun s p gd ga gb k hon hrun hk hecc hwin hal =>
      atomic_ram hon hrun (exec_aswap ..) hk hecc hwin hal rfl
  case aadd =>
    exact fun s p gd ga gb k hon hrun hk hecc hwin hal =>
      atomic_ram hon hrun (exec_aadd ..) hk hecc hwin hal rfl
  case aand =>
    exact fun s p gd ga gb k hon hrun hk hecc hwin hal =>
      atomic_ram hon hrun (exec_aand ..) hk hecc hwin hal rfl
  case aor =>
    exact fun s p gd ga gb k hon hrun hk hecc hwin hal =>
      atomic_ram hon hrun (exec_aor ..) hk hecc hwin hal rfl
  case acas =>
    exact fun s p gd ga gb k hon hrun hk hecc hwin hal =>
      atomic_ram hon hrun (exec_acas ..) hk hecc hwin hal (by rw [gr_start])
  case lwMisaligned =>
    exact fun s p gd ga imm hon hrun hexl hsup hal => load_misaligned hon hrun hexl hsup (exec_lw ..) hal
  case swMisaligned =>
    exact fun s p gs ga imm hon hrun hexl hsup hal => store_misaligned hon hrun hexl hsup (exec_sw ..) hal

/-! ### What every command answers -/

/-- An outcome that is a next state whose queue is that of `s`. -/
def Answers (s : State) (o : Out) : Prop := ∃ t, o = .next t ∧ t.pending = s.pending

theorem execLoopRun_answers (e : Fin 8) (i : Fin 64) (ecc : Option (Fin 65536)) (s : State) :
    Answers s (execLoopRun e i ecc s) := by
  simp only [execLoopRun]
  split_ifs <;> exact ⟨_, rfl, rfl⟩

theorem execSampleClock_answers (i : Fin 4) (s : State) : Answers s (execSampleClock i s) := by
  unfold execSampleClock
  split
  · exact ⟨_, rfl, rfl⟩
  · exact ⟨s, rfl, rfl⟩

/-- Every command answers. A loop run and a sample clock have a meaning of their own; the meaning of every other command
is an effect under `onAny`, `onDev`, `onAnyDM` or `onDM`, whose outcome is by definition a next state with the same
queue. -/
theorem exec_answers (c : Instr) (s : State) : Answers s (exec c s) := by
  cases c with
  | loopRun e i ecc => exact execLoopRun_answers e i ecc s
  | sampleClock i => exact execSampleClock_answers i s
  | _ => exact ⟨_, rfl, rfl⟩

/-- Settles O50: every meaning answers a next state with the queue it was given. -/
theorem everyCommandAnswers : Obligations.EveryCommandAnswers := exec_answers

/-! ### The state after a power-on reset -/

/-- A register that no table lists reads its reset word (R12). -/
theorem reg_unlisted {d : Dev} (h : d.regs = []) (a : Nat) : d.reg a = resetWord a := by rw [Dev.reg, h]; rfl

/-- Settles O59: no register is listed in the state after a power-on reset. -/
theorem resetRegisters : Obligations.ResetRegisters :=
  ⟨fun a => reg_unlisted rfl a, rfl, rfl, rfl, rfl⟩

end Sys2Proof.Proofs
end

section
namespace Sys2Proof.Proofs
open Sys2Proof Sys2Proof.Machine Sys2Proof.Laws Reg

/-! SUPPORT. What every command does to the byte memories (O52, O54), what acts without the logic domain (O51), and the
queue and the roles at reset (O48, O53, O58). -/

/-! ### Commands that store no byte -/

/-- What a command answers leaves the byte memories. -/
def LeavesMem (s : State) (o : Out) : Prop := ∃ t, o = .next t ∧ t.mem = s.mem

/-- An instruction leaves the byte memories when its effect does. -/
theorem litos_leavesMem {p : Nat} {f : DM → DM} {s : State} (hf : ∀ x : DM, (f x).2 = x.2) : LeavesMem s (litos p f s) := by
  refine ⟨_, rfl, ?_⟩
  dsimp only
  split
  · split
    · exact hf _
    · rfl
  · rfl

/-- A load leaves the byte memories. -/
theorem load_leavesMem (p gd ga : Nat) (imm : BitVec 16) (size : Nat) (signed ecc : Bool) (s : State) :
    LeavesMem s (load p gd ga imm size signed ecc s) := by
  refine litos_leavesMem fun x => ?_
  simp only
  split
  · rfl
  · split
    · rfl
    · split
      · rfl
      · split <;> rfl

/-- An instruction that acts on the block alone leaves the byte memories. -/
theorem litos_dev_leavesMem (p : Nat) (f : Dev → Dev) (s : State) : LeavesMem s (litos p (fun x => x.dev f) s) :=
  litos_leavesMem fun _ => rfl

/-- The exception of an illegal word leaves the byte memories. -/
theorem illegalInstruction_leavesMem (p : Fin 5) (w : Word) (s : State) :
    LeavesMem s (execIllegalInstruction p w s) := by
  unfold execIllegalInstruction
  refine litos_leavesMem fun x => ?_
  split
  · rfl
  · rfl

/-- A command that stores no byte leaves the byte memories: a load, an instruction that acts on the block alone, or a
meaning under `onAny` or `onDev`. -/
theorem exec_leavesMem (c : Instr) (s : State) (h : storesBytes c = false) : LeavesMem s (exec c s) := by
  cases c with
  | lw | lh | lhu | lb | lbu => exact load_leavesMem ..
  | illegalInstruction => exact illegalInstruction_leavesMem ..
  | add | sub | and | or | xor | nor | slt | sltu | sll | srl | sra | slli | srli | srai | mul | mulh | mulhu | div
  | divu | rem | remu | min | max | clz | addi | slti | sltiu | andi | ori | xori | lui | beq | bne | blt | bge | bltu
  | bgeu | j | jal | jalr | mula | mac | msu | macu | fmac | bmac | acrd | aclo | achi | acld | acmov | bexp | bmant
  | cwr | cww | sysc | eret | brk | wev | peal | lelRefgo | lelCommit | lelProof | lelSchcmt | fetchFault =>
    exact litos_dev_leavesMem ..
  | registerWrite | debugAccess | unlock | consoleModeRequest | consoleWarmReset | holdup | holdupEnd | modeRequest
  | modeChangeComplete | dormantAuto | dormantEntryDone | selftestEnd | warmReset | pairResetDone | submit
  | recordAppend | compaction | metadataWrite | imageWrite | imageWriteDone | firmwareSelect | sp0FrameDone | windowRead
  | windowWrite | windowClaim | windowRelease | windowStatus | windowSync | speedSelect | openSlot | closeSlot | beat
  | read | claim | release | axcmd | setref | policy | pealOp | mode | cartrel | aux | cfgitem | cfgcommit | capture
  | imageseg | imagewr | loopset | motorWakeTest | wake | powerOnReset | loopRun | sampleClock | sw | sh | sb | aswap
  | aadd | aand | aor | acas => cases h
  | _ => exact ⟨_, rfl, rfl⟩

/-- Settles O52: a command that stores no byte answers a state with the byte memories it was given. -/
theorem memoryFrame : Obligations.MemoryFrame := by
  intro c s t hc hexec k
  obtain ⟨u, hu, hm⟩ := exec_leavesMem c s hc
  rw [hu] at hexec
  injection hexec with hexec
  rw [← hexec, hm]

/-! ### The canonical form of the byte memories -/

/-- A block whose byte memories are in canonical form. -/
def Formed (x : DM) : Prop := memWf x.2 = true

namespace Formed
variable {x : DM}

theorem mem (h : Formed x) : memWf x.2 = true := h

theorem of {d : Dev} {m : List Host.Cell} (h : memWf m = true) : Formed (d, m) := h

/-- The form is one of the memories alone. -/
theorem withDev (h : Formed x) (d : Dev) : Formed (d, x.2) := h

/-- An effect on the block alone keeps the form. -/
theorem dev (h : Formed x) (f : Dev → Dev) : Formed (x.dev f) := h

/-- Either outcome of a condition keeps the form. -/
theorem ite {c : Prop} [Decidable c] {y z : DM} (hy : Formed y) (hz : Formed z) : Formed (if c then y else z) := by
  split
  · exact hy
  · exact hz

/-- A fold of operations that keep the form keeps it. -/
theorem foldl {α : Type} {f : DM → α → DM} (hf : ∀ y i, Formed y → Formed (f y i)) (l : List α) (h : Formed x) :
    Formed (l.foldl f x) := by
  induction l generalizing x with
  | nil => exact h
  | cons i l ih => exact ih (hf x i h)

/-- Writing bytes keeps the form. -/
theorem writeBytes (h : Formed x) (d : Dev) (k : Nat) (bs : List Nat) : Formed (d, memWriteBytes x.2 k bs) :=
  of (memWriteBytes_keeps_wf bs _ k h.mem)

/-! The journal controller (R316 to R332). -/

theorem retire (h : Formed x) (l : Nat) : Formed (retire l x) :=
  ite (of (copyBlock_keeps_wf _ _ _ h.mem)) (h.withDev _)

theorem freshen (h : Formed x) (l : Nat) : Formed (freshen l x) := ite (h.retire l) h

theorem writeMetaFresh (h : Formed x) : Formed (writeMetaFresh x) :=
  (foldl (fun _ _ hy => hy.freshen _) _ h).dev writeMeta

theorem level (h : Formed x) : Formed (level x) :=
  ite h (ite (of (memWriteBytes_keeps_wf _ _ _ (memWriteBytes_keeps_wf _ _ _ h.mem))) h)

theorem openBlock (h : Formed x) : Formed (openBlock x) := (h.level.freshen _).writeBytes _ _ _

theorem appendRec (h : Formed x) (r : JRec) : Formed (appendRec r x) := (ite h.openBlock h).writeBytes _ _ _

theorem appendNext (h : Formed x) (bad : Bool) : Formed (appendNext bad x) := by
  unfold Machine.appendNext
  split
  · exact h
  · next q rest _ =>
    have hpop := h.dev fun d => d.onJnl fun j => { j with queue := rest, lastCopy := false }
    have hretired (l : Nat) := ite (c := bad = true) (hpop.retire l) hpop
    exact ite (hpop.dev _) (((ite (hretired _).openBlock (hretired _)).appendRec _).dev _)

theorem appendAll (n : Nat) (h : Formed x) : Formed (appendAll n x) := by
  induction n generalizing x with
  | zero => exact h
  | succ n ih => exact ite h (ih (h.appendNext false))

theorem sealJournal (h : Formed x) (holdup : Bool) : Formed (sealJournal holdup x) := by
  have hsealing := h.dev fun d => d.onJnl fun j =>
    { j with sealing := true, img := none, compacting := false, copies := [] }
  have hflushed := hsealing.appendAll 64
  have hsealed (r r' : JRec) := ite (c := x.1.jnlOpen = true)
    ((ite (c := holdup = true) (hflushed.appendRec r) hflushed).appendRec r') hsealing
  exact ite ((hsealed _ _).writeMetaFresh.dev _) (hsealed _ _)

theorem mountJournal (h : Formed x) (ok : Bool) : Formed (mountJournal ok x) :=
  ite (h.withDev _) (ite ((h.withDev _).appendRec _) (h.withDev _))

theorem writeSubmit (h : Formed x) (m : Master) (addr : Nat) (ecc : Bool) : Formed (writeSubmit m addr ecc x) := by
  cases m with
  | pair | debug => exact h.dev _
  | engine | scu => exact h

theorem endCompaction (h : Formed x) : Formed (endCompaction x) := by
  unfold Machine.endCompaction
  exact (h.appendRec _).dev _

theorem copyImage (h : Formed x) (s src : Nat) : Formed (copyImage s src x) :=
  foldl (fun _ _ hy => (hy.freshen _).writeBytes _ _ _) _ h

theorem startImage (h : Formed x) (s : Nat) : Formed (startImage s x) := h.dev _

theorem selectFirmware (h : Formed x) (prev : Bool) (w : Nat) : Formed (selectFirmware prev w x) := ite (h.dev _) h

theorem asJnlWriter (h : Formed x) (m : Master) (addr : Nat) {f : DM → DM} (hf : Formed (f x)) :
    Formed (asJnlWriter m addr f x) := ite hf (h.dev _)

/-! Resets and modes (R62, R95 to R107). -/

theorem holdup (h : Formed x) : Formed (holdup x) := (h.dev _).sealJournal true

theorem startPair (h : Formed x) (p s : Nat) : Formed (startPair p s x) :=
  of (loadImage_keeps_wf _ _ _ _ (clearRam_keeps_wf _ _ h.mem))

theorem bootMount (h : Formed x) (ok : Bool) : Formed (bootMount ok x) := (h.mountJournal ok).dev _

theorem powerOn (h : Formed x) (src : Supply) (jnlOk : Bool) : Formed (powerOn src jnlOk x) :=
  ((of (keepStore_keeps_wf _ h.mem)).bootMount jnlOk).dev _

theorem enterDormant (h : Formed x) (auto : Bool) (cause : Nat) : Formed (enterDormant auto cause x) :=
  (h.dev _).sealJournal false

theorem wakeUp (h : Formed x) (srcs : Nat) (jnlOk : Bool) : Formed (wakeUp srcs jnlOk x) :=
  ((of (keepStore_keeps_wf _ h.mem)).bootMount jnlOk).dev _

theorem wake (h : Formed x) (srcs : Nat) (jnlOk : Bool) : Formed (wake srcs jnlOk x) :=
  ite h (ite (h.dev _) (h.wakeUp _ jnlOk))

theorem warmReset (h : Formed x) (cause : Nat) (full jnlOk : Bool) : Formed (warmReset cause full jnlOk x) :=
  ((of (keepWarm_keeps_wf _ (h.sealJournal false).mem)).bootMount jnlOk).dev _

theorem requestWarm (h : Formed x) (cause src : Nat) (jnlOk : Bool) : Formed (requestWarm cause src jnlOk x) :=
  ite (h.dev _) (h.warmReset cause false jnlOk)

theorem writeReset (h : Formed x) (w : Word) (jnlOk : Bool) : Formed (writeReset w jnlOk x) :=
  ite (h.requestWarm 4 0 jnlOk) h

theorem enterRequested (h : Formed x) (dest : Mode) (r : Nat) : Formed (enterRequested dest r x) :=
  ite (h.enterDormant false 0) (h.dev _)

theorem requestMode (h : Formed x) (dest : Option Mode) (src r : Nat) : Formed (requestMode dest src r x) := by
  cases dest with
  | none => exact h.dev _
  | some m => exact ite (h.dev _) (ite (h.dev _) (h.enterRequested m r))

theorem writeModeReq (h : Formed x) (w : Word) (r : Nat) : Formed (writeModeReq w r x) := ite (h.requestMode _ 0 r) h

/-! Serial ports and the window protocol (R347, R360, R361). -/

theorem frameDone (h : Formed x) (data : List Nat) (ecc : Bool) : Formed (frameDone data ecc x) := by
  have hread (c : Prop) [Decidable c] (k : Nat) (bs : List Nat) : memWf (if c then memWriteBytes x.2 k bs else x.2) = true := by
    split
    · exact memWriteBytes_keeps_wf _ _ _ h.mem
    · exact h.mem
  unfold Machine.frameDone
  dsimp only
  split
  · exact h
  · exact ite h (ite h (ite (h.withDev _) (ite (of (hread ..)) (ite (of (hread ..)) (of (hread ..))))))

theorem winPlace (h : Formed x) (seq status op ofs nw : Nat) : Formed (winPlace seq status op ofs nw x) := h.dev _

theorem winKeep (h : Formed x) (seq status op ofs nw : Nat) : Formed (winKeep seq status op ofs nw x) :=
  winPlace (h.dev fun d => d.onWin fun w => { w with last := some (seq, status, op, ofs, nw) }) ..

theorem winCommand (h : Formed x) (op seq ofs nw : Nat) (crc : Word) {act : DM → Nat × DM}
    (hact : ∀ y, Formed y → Formed (act y).2) : Formed (winCommand op seq ofs nw crc act x) := by
  have hsync := h.dev fun d => d.onWin fun w => { w with expect := some ((seq + 1) % 256) }
  unfold Machine.winCommand
  refine ite (h.winPlace ..) (ite (hsync.winKeep ..) ?_)
  split
  · exact h.winPlace ..
  · next e _ =>
    have hnext := h.dev fun d => d.onWin fun w => { w with expect := some ((e + 1) % 256) }
    refine ite (ite (hnext.winKeep ..) ((hact _ hnext).winKeep ..)) (ite ?_ (h.winPlace ..))
    split
    · exact h.winPlace ..
    · exact h.winPlace ..

/-! Writes of registers and memory (R7 to R11, R23). -/

theorem writeSys (h : Formed x) (m : Master) (addr : Nat) (w : Word) : Formed (writeSys m addr w x) :=
  ite ((h.withDev _).writeModeReq ..) (ite ((h.withDev _).writeReset ..) (h.dev _))

theorem writeJnl (h : Formed x) (m : Master) (addr : Nat) (w : Word) : Formed (writeJnl m addr w x) := by
  have hquery : Formed (match m with
      | .pair _ | .debug => x.dev (mapQuery (wordGet w 0 12))
      | _ => x.dev (busError m 6 addr true)) := by
    cases m <;> exact h.dev _
  exact ite (h.writeSubmit ..) (ite hquery (h.asJnlWriter _ _ (ite (h.selectFirmware ..) (ite (h.selectFirmware ..)
    (ite (ite (h.startImage _) (h.dev _)) (h.dev _))))))

theorem writeReg (h : Formed x) (m : Master) (addr : Nat) (w : Word) : Formed (writeReg m addr w x) :=
  ite (h.writeSys ..) (ite (h.writeJnl ..) (h.dev _))

theorem writeOrdered (h : Formed x) (m : Master) (a : Nat) (w : Word) : Formed (writeOrdered m a w x) := by
  have hy := h.writeReg m a w
  unfold Machine.writeOrdered
  refine ite hy ?_
  split
  · exact ite (hy.dev _) (hy.dev _)
  · exact hy.dev _

theorem busWrite (h : Formed x) (m : Master) (a size v : Nat) : Formed (busWrite m a size v x) := by
  have hx := h.dev (clearTook m)
  unfold Machine.busWrite
  refine ite hx ?_
  split
  · exact ite (hx.dev _) (of (memWrite_keeps_wf _ _ _ _ hx.mem))
  · exact ite (hx.dev _) (ite (hx.dev _) (ite (hx.dev _) (ite (hx.dev _) (hx.writeOrdered ..))))

theorem masterWrite (h : Formed x) (m : Master) (a : Nat) (w : Word) : Formed (masterWrite m a w x) := by
  cases m with
  | pair p => exact ite (h.dev _) (ite (h.dev _) (h.busWrite ..))
  | debug | engine | scu => exact ite h (h.busWrite ..)

theorem debugRead (h : Formed x) (a : Nat) : Formed (debugRead a x) := by
  unfold Machine.debugRead
  split
  · exact h.withDev _
  · exact h

/-! Control messages (R387 to R391). -/

/-- An action that keeps the form. -/
def Acts (act : Action) : Prop := ∀ s y, Formed y → Formed (act s y).2.2

/-- Either outcome of a condition, as the state after an action. -/
theorem iteAct {c : Prop} [Decidable c] {y z : Nat × Nat × DM} (hy : Formed y.2.2) (hz : Formed z.2.2) :
    Formed (if c then y else z).2.2 := by
  split
  · exact hy
  · exact hz

theorem carryOut (h : Formed x) (s : Nat) (c : Ctl) (m : Msg) (need : Nat → Dev → Nat) {act : Action} (hact : Acts act) :
    Formed (carryOut s c m need act x) :=
  ite (h.dev _) (ite (h.dev _) (ite ((hact s x h).dev _)
    (ite (h.dev _) ((ite ((hact s x h).dev _) (hact s x h)).dev _))))

theorem control (h : Formed x) (c : Ctl) (m : Msg) (need : Nat → Dev → Nat) {act : Action} (hact : Acts act) :
    Formed (control c m need act x) := by
  unfold Machine.control
  split
  · exact h
  · refine ite (h.dev _) (ite (h.dev _) ?_)
    split
    · exact h.dev _
    · next s _ =>
      have hheard := h.dev (heard s c)
      have hspent := hheard.dev (spend s)
      exact ite (h.dev _) (ite (hheard.dev _) (ite (hspent.carryOut _ _ _ _ hact) (ite (hspent.dev _) (hspent.dev _))))

theorem openMsg (h : Formed x) (name : Nat) (c : Ctl) (m : Msg) : Formed (openMsg name c m x) := by
  unfold Machine.openMsg
  have hgo (f : Dev → Dev) (code : Nat) (g g' : Dev → Dev) :
      Formed (if (!m.wellFormed) = true then x.dev g else if code ≠ 0 then x.dev g' else x.dev f) :=
    ite (h.dev _) (ite (h.dev _) (h.dev _))
  dsimp only
  split
  · exact ite (hgo ..) (h.control _ _ _ fun _ _ hy => hy.dev _)
  · split
    · exact hgo ..
    · exact h.dev _

theorem clientPeal (h : Formed x) (s : Nat) (c : Ctl) (mask action lead : Nat) :
    Formed (clientPeal s c mask action lead x).2.2 := iteAct (h.withDev _) (h.withDev _)

theorem applyItem (h : Formed x) (r : JRec) : Formed (applyItem r x).2 := by
  unfold Machine.applyItem
  split
  · exact h.writeReg ..
  · exact h.dev _
  · exact h

theorem applyItems (h : Formed x) (l : List JRec) (i map : Nat) : Formed (applyItems l i map x).2 := by
  induction l generalizing x i map with
  | nil => exact h
  | cons r l ih => exact ih (h.applyItem r) ..

end Formed

/-- What a command answers is a state whose byte memories are in canonical form. -/
def AnswersFormed (o : Out) : Prop := ∃ t, o = .next t ∧ t.MemWf

section
variable {s : State} (h : s.MemWf)
include h

theorem LeavesMem.formed {o : Out} (ho : LeavesMem s o) : AnswersFormed o := by
  obtain ⟨t, ht, hm⟩ := ho
  exact ⟨t, ht, (congrArg memWf hm).trans h⟩

theorem onAnyDM_formed {f : DM → DM} (hf : ∀ x, Formed x → Formed (f x)) : AnswersFormed (onAnyDM f s) :=
  ⟨_, rfl, hf (s.dev, s.mem) h⟩

theorem onDM_formed {f : DM → DM} (hf : ∀ x, Formed x → Formed (f x)) : AnswersFormed (onDM f s) :=
  onAnyDM_formed h fun x hx => .ite (hf x hx) hx

theorem litos_formed {p : Nat} {f : DM → DM} (hf : ∀ x, Formed x → Formed (f x)) : AnswersFormed (litos p f s) :=
  onDM_formed h fun _ hx => .ite (hf _ (hx.dev _)) hx

theorem store_formed (p gs ga : Nat) (imm : BitVec 16) (size : Nat) : AnswersFormed (store p gs ga imm size s) :=
  litos_formed h fun _ hx => .ite (hx.dev _) (.ite (hx.dev _) ((hx.busWrite ..).dev _))

theorem atomic_formed (f : Dev → Word → Word → Word) (p gd ga gb : Nat) (ecc : Bool) :
    AnswersFormed (atomic f p gd ga gb ecc s) := by
  refine litos_formed h fun x hx => .ite (hx.dev _) (.ite (hx.dev _) (.ite (hx.dev _) (.ite (hx.dev _) ?_)))
  split
  · exact (hx.busWrite ..).dev _
  · exact hx

/-- Words written one by one keep the form. -/
theorem execLoopRun_formed (e : Fin 8) (i : Fin 64) (ecc : Option (Fin 65536)) : AnswersFormed (execLoopRun e i ecc s) := by
  unfold execLoopRun
  dsimp only
  split
  · exact ⟨_, rfl, h⟩
  · split
    · exact ⟨_, rfl, foldl_keeps_wf _ (fun m w hm => memWrite_keeps_wf 4 m w.1 w.2 hm) _ _ h⟩
    · split
      · exact ⟨_, rfl, h⟩
      · exact ⟨_, rfl, h⟩

/-- The blocks of a capture keep the form. -/
theorem execSampleClock_formed (i : Fin 4) : AnswersFormed (execSampleClock i s) := by
  unfold execSampleClock
  split
  · exact ⟨_, rfl, foldl_keeps_wf _ (fun m b hm => memWriteBytes_keeps_wf b.2 m b.1 hm) _ _ h⟩
  · exact ⟨_, rfl, h⟩

theorem execRegisterWrite_formed (m : Master) (addr w : Word) : AnswersFormed (execRegisterWrite m addr w s) :=
  onDM_formed h fun _ hx => hx.masterWrite ..

theorem execDebugAccess_formed (write : Bool) (addr w : Word) : AnswersFormed (execDebugAccess write addr w s) :=
  onDM_formed h fun _ hx => .ite hx (.ite (hx.busWrite ..) (hx.debugRead ..))

theorem execUnlock_formed (digits : Fin 1000000) (jnlOk : Bool) : AnswersFormed (execUnlock digits jnlOk s) :=
  onDM_formed h fun _ hx => .ite (((hx.dev _).dev _).warmReset ..) hx

theorem execHoldup_formed : AnswersFormed (execHoldup s) := onDM_formed h fun _ hx => .ite hx hx.holdup

theorem execHoldupEnd_formed (src : Supply) (jnlOk : Bool) : AnswersFormed (execHoldupEnd src jnlOk s) :=
  onDM_formed h fun _ hx => .ite (.ite (hx.dev _) ((hx.dev _).powerOn ..)) hx

theorem execModeRequest_formed (m : Master) (w : Word) (r : Fin 65536) : AnswersFormed (execModeRequest m w r s) := by
  refine onDM_formed h fun x hx => ?_
  cases m with
  | pair | debug => exact hx.writeModeReq ..
  | engine | scu => exact hx

theorem execModeChangeComplete_formed (r : Fin 65536) : AnswersFormed (execModeChangeComplete r s) := by
  refine onDM_formed h fun x hx => .ite (.ite (hx.dev _) ?_) hx
  split
  · exact hx.enterRequested ..
  · exact hx

theorem execDormantAuto_formed : AnswersFormed (execDormantAuto s) := by
  refine onDM_formed h fun x hx => ?_
  split
  · exact .ite (hx.enterDormant ..) hx
  · exact hx

theorem execDormantEntryDone_formed (jnlOk : Bool) : AnswersFormed (execDormantEntryDone jnlOk s) :=
  onDM_formed h fun _ hx => .ite hx (.ite (hx.withDev _) ((hx.withDev _).wakeUp ..))

theorem execSelftestEnd_formed (t : SelfTest) : AnswersFormed (execSelftestEnd t s) := by
  refine onDM_formed h fun x hx => .ite hx ((Formed.foldl (fun y p hy => ?_) _ hx).dev _)
  split
  · exact hy.startPair ..
  · exact hy

theorem execWarmReset_formed (m : Master) (w : Word) (jnlOk : Bool) : AnswersFormed (execWarmReset m w jnlOk s) := by
  refine onDM_formed h fun x hx => ?_
  cases m with
  | pair | debug => exact hx.writeReset ..
  | engine | scu => exact hx

theorem execPairResetDone_formed (p : Fin 5) (ok : Bool) : AnswersFormed (execPairResetDone p ok s) := by
  refine onDM_formed h fun x hx => .ite hx ?_
  extract_lets y
  have hy : Formed y := hx.dev _
  clear_value y
  split
  · exact (hy.startPair ..).dev _
  · exact hy.dev _

theorem execRecordAppend_formed (bad : Bool) : AnswersFormed (execRecordAppend bad s) :=
  onDM_formed h fun _ hx => .ite (hx.appendNext _) hx

theorem execCompaction_formed : AnswersFormed (execCompaction s) := by
  refine onDM_formed h fun x hx => .ite hx (.ite ?_ (.ite (hx.dev _) hx))
  split
  · exact hx.endCompaction
  · exact .ite hx ((hx.dev _).appendRec _)

theorem execMetadataWrite_formed (bad : Option (Fin 8)) : AnswersFormed (execMetadataWrite bad s) := by
  refine onDM_formed h fun x hx => .ite hx (Formed.writeMetaFresh ?_)
  cases bad with
  | none => exact hx
  | some => exact hx.retire _

theorem execImageWriteDone_formed (good : Bool) (bad : Option (Fin 68)) :
    AnswersFormed (execImageWriteDone good bad s) := by
  refine onDM_formed h fun x hx => ?_
  split
  · exact hx
  · refine (Formed.copyImage ?_ ..).dev _
    cases bad with
    | none => exact hx
    | some => exact hx.retire _

theorem execWindowWrite_formed (seq : Fin 256) (ofs : Word) (nw : Fin 65536) (crc : Word) (data : List Word) :
    AnswersFormed (execWindowWrite seq ofs nw crc data s) := by
  refine onDM_formed h fun _ hx => hx.winCommand _ _ _ _ _ fun y hy => ?_
  split
  · exact hy
  · exact hy.writeBytes ..

theorem execSpeedSelect_formed : AnswersFormed (execSpeedSelect s) :=
  onDM_formed h fun _ hx =>
    .ite (.of (memWrite_keeps_wf _ _ _ _ (memWrite_keeps_wf _ _ _ _ (memWrite_keeps_wf _ _ _ _ hx.mem)))) hx

theorem execMotorWakeTest_formed (a : Fin 64) (loaded jnlOk : Bool) : AnswersFormed (execMotorWakeTest a loaded jnlOk s) :=
  onAnyDM_formed h fun _ hx => .ite ((hx.dev _).wake ..) hx

theorem execPowerOnReset_formed (main jnlOk : Bool) : AnswersFormed (execPowerOnReset main jnlOk s) :=
  onAnyDM_formed h fun _ hx => .ite (hx.powerOn ..) hx

theorem execOpen_formed (c : Ctl) (axis : Fin 256) (arg : Fin 16777216) : AnswersFormed (execOpen c axis arg s) := by
  refine onDM_formed h fun x hx => ?_
  dsimp only
  split
  · exact hx
  · refine .ite (hx.dev _) ?_
    split
    · exact hx.dev _
    · exact hx.openMsg ..

theorem execBeat_formed (c : Ctl) (axis : Fin 256) (arg : Fin 16777216) : AnswersFormed (execBeat c axis arg s) := by
  refine onDM_formed h fun x hx => ?_
  dsimp only
  split
  · exact hx
  · refine .ite (hx.dev _) (.ite (hx.dev _) ?_)
    split
    · exact .ite (hx.dev _) (hx.dev _)
    · exact hx.dev _

/-- A control message keeps the form when its action does. -/
theorem control_formed (c : Ctl) (m : Msg) (need : Nat → Dev → Nat) {act : Action} (hact : Formed.Acts act) :
    AnswersFormed (onDM (control c m need act) s) :=
  onDM_formed h fun _ hx => hx.control c m need hact

theorem execClose_formed (c : Ctl) (axis : Fin 256) (arg : Fin 16777216) : AnswersFormed (execClose c axis arg s) :=
  control_formed h _ _ _ fun _ _ hy => hy.dev _

theorem execRead_formed (c : Ctl) (axis : Fin 256) (arg : Fin 16777216) : AnswersFormed (execRead c axis arg s) :=
  control_formed h _ _ _ fun _ _ hy => hy

theorem execClaim_formed (c : Ctl) (axis : Fin 256) (arg : Fin 16777216) (mask : Option (BitVec 64)) :
    AnswersFormed (execClaim c axis arg mask s) := control_formed h _ _ _ fun _ _ hy => hy.dev _

theorem execRelease_formed (c : Ctl) (axis : Fin 256) (arg : Fin 16777216) (mask : Option (BitVec 64)) :
    AnswersFormed (execRelease c axis arg mask s) :=
  control_formed h _ _ _ fun _ _ hy => .iteAct (hy.dev _) (.iteAct hy (.iteAct (hy.withDev _) (hy.withDev _)))

theorem execAxcmd_formed (c : Ctl) (axis : Fin 256) (arg : Fin 16777216) : AnswersFormed (execAxcmd c axis arg s) := by
  refine control_formed h _ _ _ fun _ y hy => ?_
  dsimp only
  split
  · exact hy.withDev _
  · exact hy

theorem execSetref_formed (c : Ctl) (axis : Fin 256) (arg : Fin 16777216) (long : Option (Word × Bool)) :
    AnswersFormed (execSetref c axis arg long s) := control_formed h _ _ _ fun _ _ hy => hy.dev _

theorem execPolicy_formed (c : Ctl) (axis : Fin 256) (hold : Fin 65536) (endAct : Fin 256) :
    AnswersFormed (execPolicy c axis hold endAct s) := control_formed h _ _ _ fun _ _ hy => hy.dev _

theorem execPealOp_formed (c : Ctl) (mask : BitVec 64) (action lead : Fin 1024) :
    AnswersFormed (execPealOp c mask action lead s) := by
  refine onDM_formed h fun x hx => ?_
  extract_lets y
  have hy : Formed y := hx.control _ _ _ fun _ _ hz => hz.clientPeal ..
  exact .ite (hy.dev _) hy

theorem execMode_formed (c : Ctl) (axis : Fin 256) (arg : Fin 16777216) (r : Fin 65536) :
    AnswersFormed (execMode c axis arg r s) :=
  control_formed h _ _ _ fun _ _ hy => .iteAct (((hy.dev _).requestMode ..).dev _) ((hy.dev _).requestMode ..)

theorem execCartrel_formed (c : Ctl) (axis : Fin 256) (arg : Fin 16777216) : AnswersFormed (execCartrel c axis arg s) :=
  control_formed h _ _ _ fun _ _ hy => hy.withDev _

theorem execAux_formed (c : Ctl) (axis : Fin 256) (arg : Fin 16777216) : AnswersFormed (execAux c axis arg s) :=
  control_formed h _ _ _ fun _ _ hy => hy.dev _

theorem execCfgitem_formed (c : Ctl) (txn : Fin 65536) (key : Word) (payload : List Word) :
    AnswersFormed (execCfgitem c txn key payload s) :=
  control_formed h _ _ _ fun _ _ hy => .iteAct hy (.iteAct hy (hy.dev _))

theorem execCfgcommit_formed (c : Ctl) (txn : Fin 65536) (proved : Bool) : AnswersFormed (execCfgcommit c txn proved s) :=
  onDM_formed h fun _ hx => hx.control _ _ _ fun _ _ hy => .iteAct hy ((hy.applyItems ..).dev _)

theorem execCapture_formed (c : Ctl) (axis : Fin 256) (i : Fin 4) (ring : Bool) (regs : List (Fin 32 × Word)) :
    AnswersFormed (execCapture c axis i ring regs s) :=
  control_formed h _ _ _ fun _ _ hy => .iteAct hy (.iteAct hy (.iteAct (hy.withDev _) (hy.withDev _)))

theorem execImageseg_formed (c : Ctl) (ofs : Word) (data : List (Fin 256)) : AnswersFormed (execImageseg c ofs data s) :=
  control_formed h _ _ _ fun _ _ hy => hy.writeBytes ..

theorem execImagewr_formed (c : Ctl) (slot : Fin 8) : AnswersFormed (execImagewr c slot s) :=
  control_formed h _ _ _ fun _ _ hy => (hy.dev _).startImage _

theorem execLoopset_formed (c : Ctl) (slot : Fin 8) (passed : Bool) : AnswersFormed (execLoopset c slot passed s) :=
  onDM_formed h fun _ hx => hx.control _ _ _ fun _ _ hy => .iteAct hy (.iteAct (hy.withDev _) (hy.withDev _))

theorem exec_formed (c : Instr) : AnswersFormed (exec c s) := by
  cases c with
  | sw | sh | sb => exact store_formed h ..
  | aswap | aadd | aand | aor | acas =>
    simp only [exec_aswap, exec_aadd, exec_aand, exec_aor, exec_acas]
    exact atomic_formed h ..
  | loopRun => exact execLoopRun_formed h ..
  | sampleClock => exact execSampleClock_formed h ..
  | registerWrite => exact execRegisterWrite_formed h ..
  | debugAccess => exact execDebugAccess_formed h ..
  | unlock => exact execUnlock_formed h ..
  | consoleModeRequest => exact onDM_formed h fun _ hx => hx.requestMode ..
  | consoleWarmReset => exact onDM_formed h fun _ hx => hx.requestWarm ..
  | holdup => exact execHoldup_formed h
  | holdupEnd => exact execHoldupEnd_formed h ..
  | modeRequest => exact execModeRequest_formed h ..
  | modeChangeComplete => exact execModeChangeComplete_formed h ..
  | dormantAuto => exact execDormantAuto_formed h
  | dormantEntryDone => exact execDormantEntryDone_formed h ..
  | selftestEnd => exact execSelftestEnd_formed h ..
  | warmReset => exact execWarmReset_formed h ..
  | pairResetDone => exact execPairResetDone_formed h ..
  | submit => exact onDM_formed h fun _ hx => hx.writeSubmit ..
  | recordAppend => exact execRecordAppend_formed h ..
  | compaction => exact execCompaction_formed h
  | metadataWrite => exact execMetadataWrite_formed h ..
  | imageWrite => exact onDM_formed h fun _ hx => hx.asJnlWriter _ _ (hx.startImage _)
  | imageWriteDone => exact execImageWriteDone_formed h ..
  | firmwareSelect => exact onDM_formed h fun _ hx => hx.asJnlWriter _ _ (hx.selectFirmware ..)
  | sp0FrameDone => exact onDM_formed h fun _ hx => hx.frameDone ..
  | windowRead | windowStatus | windowSync => exact onDM_formed h fun _ hx => hx.winCommand _ _ _ _ _ fun _ hy => hy
  | windowClaim | windowRelease => exact onDM_formed h fun _ hx => hx.winCommand _ _ _ _ _ fun _ hy => hy.dev _
  | windowWrite => exact execWindowWrite_formed h ..
  | speedSelect => exact execSpeedSelect_formed h
  | motorWakeTest => exact execMotorWakeTest_formed h ..
  | wake => exact onAnyDM_formed h fun _ hx => hx.wake ..
  | powerOnReset => exact execPowerOnReset_formed h ..
  | openSlot => exact execOpen_formed h ..
  | closeSlot => exact execClose_formed h ..
  | beat => exact execBeat_formed h ..
  | read => exact execRead_formed h ..
  | claim => exact execClaim_formed h ..
  | release => exact execRelease_formed h ..
  | axcmd => exact execAxcmd_formed h ..
  | setref => exact execSetref_formed h ..
  | policy => exact execPolicy_formed h ..
  | pealOp => exact execPealOp_formed h ..
  | mode => exact execMode_formed h ..
  | cartrel => exact execCartrel_formed h ..
  | aux => exact execAux_formed h ..
  | cfgitem => exact execCfgitem_formed h ..
  | cfgcommit => exact execCfgcommit_formed h ..
  | capture => exact execCapture_formed h ..
  | imageseg => exact execImageseg_formed h ..
  | imagewr => exact execImagewr_formed h ..
  | loopset => exact execLoopset_formed h ..
  | _ => exact LeavesMem.formed h (exec_leavesMem _ s rfl)

end

/-- Settles O54: a step runs a command, which keeps the form, or lets time pass, which leaves the memories. -/
theorem memoryFormKept : Obligations.MemoryFormKept := by
  intro s t h hstep
  unfold step at hstep
  split at hstep
  · obtain rfl : (if s.dev.timeOn then { s with dev := { s.dev with now := s.dev.now + 1 } } else s) = t := by
      injection hstep
    split
    · exact h
    · exact h
  · next c rest _ =>
    obtain ⟨u, hu, hform⟩ := exec_formed (s := { s with pending := rest }) h c
    rw [hu] at hstep
    injection hstep with hstep
    exact hstep ▸ hform

/-! ### While the logic domain is off -/

/-- A state with its logic domain switched off. -/
def unpowered (s : State) : State := { s with dev := s.dev.onSys fun h => { h with logicOn := false } }

theorem unpowered_eq {s : State} (h : s.dev.sys.logicOn = false) : unpowered s = s := by
  have hsys : { s.dev.sys with logicOn := false } = s.dev.sys := by rw [← h]
  rw [unpowered, Dev.onSys, hsys]

/-- Every meaning but the always-on domain's asks for the logic domain first. -/
theorem exec_unpowered (c : Instr) (s : State) (hc : alwaysOn c = false) : exec c (unpowered s) = .next (unpowered s) := by
  cases c with
  | presenceMake | cartridgeRemoved | alwaysOnLoss | motorWakeTest | wake | powerOnReset => cases hc
  | _ => rfl

/-- Settles O51: a state whose logic domain is off is itself switched off. -/
theorem logicOffNothingActs : Obligations.LogicOffNothingActs := fun c s hc h =>
  unpowered_eq h ▸ exec_unpowered c s hc

/-! ### The queue and the state after a power-on reset -/

/-- Settles O48: the queue is the only part of the state that putting a command at its front changes. -/
theorem stepRunsFront : Obligations.StepRunsFront := fun _ _ => rfl

/-- Settles O53: no byte is listed. -/
theorem memoryFormAtReset : Obligations.MemoryFormAtReset := ⟨rfl, rfl⟩

/-- Settles O58: the roles and the hosts are the reset words of LSS_PAIRST and LSS_HOST. -/
theorem resetHosting : Obligations.ResetHosting :=
  ⟨by decide +kernel, by decide +kernel⟩

end Sys2Proof.Proofs
end

section
namespace Sys2Proof.Proofs
open Sys2Proof Sys2Proof.Machine Sys2Proof.Laws Reg

/-! SUPPORT. What the operations that act behind a command (journalling, events, a change of an axis state, the end of a
claim) leave alone: registers, pending events, slots, device time. -/

/-! ### What a command does -/

/-- What a meaning over the block does, from what its effect does. -/
theorem does_onDev {c : Instr} {s : State} (e : State → Out) {f : Dev → Dev} {post : Dev → Prop} (he : exec c s = e s)
    (hf : e = onDev f) (hl : s.dev.sys.logicOn = true) (hp : post (f s.dev)) : Does c s post :=
  ⟨_, he.trans ((congrFun hf s).trans (onDev_next f s hl)), rfl, rfl, hp⟩

/-- The same, with the effect on this block worked out. -/
theorem does_onDev_of_eq {c : Instr} {s : State} {t : Dev} (e : State → Out) {f : Dev → Dev} {post : Dev → Prop}
    (he : exec c s = e s) (hf : e = onDev f) (hl : s.dev.sys.logicOn = true) (ht : f s.dev = t) (hp : post t) :
    Does c s post := does_onDev e he hf hl (ht ▸ hp)

/-- What a meaning of the always-on domain does, from what its effect does. -/
theorem does_onAny {c : Instr} {s : State} (e : State → Out) {f : Dev → Dev} {post : Dev → Prop} (he : exec c s = e s)
    (hf : e = onAny f) (hp : post (f s.dev)) : Does c s post :=
  ⟨_, he.trans (congrFun hf s), rfl, rfl, hp⟩

/-- What a meaning over block and memories does, when it leaves the memories. -/
theorem does_onDM {c : Instr} {s : State} {t : Dev} (e : State → Out) {f : DM → DM} {post : Dev → Prop}
    (he : exec c s = e s) (hf : e = onDM f) (hl : s.dev.sys.logicOn = true) (ht : f (s.dev, s.mem) = (t, s.mem))
    (hp : post t) : Does c s post :=
  ⟨_, he.trans ((congrFun hf s).trans (onDM_next f s hl)), congrArg Prod.snd ht, rfl,
    (congrArg Prod.fst ht).symm ▸ hp⟩

/-- What a command does, weakened. -/
theorem does_imp {c : Instr} {s : State} {p q : Dev → Prop} (h : Does c s p) (hpq : ∀ t, p t → q t) : Does c s q := by
  obtain ⟨u, he, hm, hq, hp⟩ := h
  exact ⟨u, he, hm, hq, hpq _ hp⟩

/-! ### Fields -/

/-- Two fields of one register do not overlap. -/
def apart (f g : Fld) : Bool := (f.lo + f.width).ble 32 && ((g.lo + g.width).ble f.lo || (f.lo + f.width).ble g.lo)

/-- Replacing a field leaves a field of its register that lies apart from it. -/
theorem get_put_apart (d : Dev) (f g : Fld) (v : Nat) (ha : g.addr = f.addr) (h : apart f g = true) :
    (d.put f v).get g = d.get g := by
  simp only [apart, Bool.and_eq_true, Bool.or_eq_true, Nat.ble_eq] at h
  exact get_put_disjoint d f g v ha h.1 h.2

/-- A replaced field holds its value when the value fits. -/
theorem get_put_fits (d : Dev) (f : Fld) {v : Nat} (h : (f.lo + f.width).ble 32 = true) (hv : v < 2 ^ f.width) :
    (d.put f v).get f = v := (get_put_same d f v (Nat.le_of_ble_eq_true h)).trans (Nat.mod_eq_of_lt hv)

/-- A replaced field holds a constant that fits. -/
theorem get_put_const (d : Dev) (f : Fld) (v : Nat) (h : ((f.lo + f.width).ble 32 && v.blt (2 ^ f.width)) = true) :
    (d.put f v).get f = v := by
  rw [Bool.and_eq_true] at h
  exact get_put_fits d f h.1 (Nat.le_of_ble_eq_true h.2)

/-! ### Steady registers -/

/-- From `d` to `t` the registers of `K`, the slots and the time stay, and no pending event is lost. -/
structure Steady (K : Nat → Prop) (d t : Dev) : Prop where
  reg : ∀ r, K r → t.reg r = d.reg r
  pend : ∀ n, n < 1024 → d.pend n = true → t.pend n = true
  slots : t.slots = d.slots
  now : t.now = d.now

namespace Steady
variable {K K' : Nat → Prop} {d e t : Dev}

theorem refl (K : Nat → Prop) (d : Dev) : Steady K d d := ⟨fun _ _ => rfl, fun _ _ h => h, rfl, rfl⟩

theorem trans (h : Steady K d e) (h' : Steady K e t) : Steady K d t :=
  ⟨fun r hr => (h'.reg r hr).trans (h.reg r hr), fun n hn hp => h'.pend n hn (h.pend n hn hp),
    h'.slots.trans h.slots, h'.now.trans h.now⟩

theorem mono (h : Steady K d t) (hK : ∀ r, K' r → K r) : Steady K' d t :=
  ⟨fun r hr => h.reg r (hK r hr), h.pend, h.slots, h.now⟩

/-- A change of hidden state. -/
theorem of_hidden (hr : t.regs = d.regs) (hs : t.slots = d.slots) (hn : t.now = d.now) : Steady K d t := by
  have h : ∀ r, t.reg r = d.reg r := fun r => by rw [Dev.reg, Dev.reg, hr]
  refine ⟨fun r _ => h r, fun n _ hp => ?_, hs, hn⟩
  rw [← hp]
  exact congrArg (fun w => decide (wordGet w (n % 32) 1 ≠ 0)) (h _)

/-- A change of hidden state before. -/
theorem from_hidden (h : Steady K e t) (hr : e.regs = d.regs) (hs : e.slots = d.slots) (hn : e.now = d.now) :
    Steady K d t := (of_hidden hr hs hn).trans h

theorem onBus (h : Steady K d t) (f : BusH → BusH) : Steady K d (t.onBus f) :=
  h.trans (of_hidden rfl rfl rfl)

theorem onClient (h : Steady K d t) (i : Nat) (f : ClientH → ClientH) : Steady K d (t.onClient i f) :=
  h.trans (of_hidden rfl rfl rfl)

theorem onSix (h : Steady K d t) (i : Nat) (f : SixH → SixH) : Steady K d (t.onSix i f) :=
  h.trans (of_hidden rfl rfl rfl)

theorem onDtc (h : Steady K d t) (i : Nat) (f : DtcH → DtcH) : Steady K d (t.onDtc i f) :=
  h.trans (of_hidden rfl rfl rfl)

theorem onSess (h : Steady K d t) (i : Nat) (f : SessH → SessH) : Steady K d (t.onSess i f) :=
  h.trans (of_hidden rfl rfl rfl)

theorem onPort (h : Steady K d t) (i : Nat) (f : PortH → PortH) : Steady K d (t.onPort i f) :=
  h.trans (of_hidden rfl rfl rfl)

theorem onClu (h : Steady K d t) (i : Nat) (f : ClusterH → ClusterH) : Steady K d (t.onClu i f) :=
  h.trans (of_hidden rfl rfl rfl)

theorem onLink (h : Steady K d t) (i : Nat) (f : LinkH → LinkH) : Steady K d (t.onLink i f) :=
  h.trans (of_hidden rfl rfl rfl)

theorem devClaim (h : Steady K d t) (c : Option Nat) : Steady K d { t with devClaim := c } := h.trans (of_hidden rfl rfl rfl)

theorem stamp (h : Steady K d t) (m : Tab (Option Nat)) : Steady K d { t with stamp := m } := h.trans (of_hidden rfl rfl rfl)

/-- A write of a register outside `K` that holds no PEND bits. -/
theorem setReg (d : Dev) {x : Nat} (w : Word) (hK : ¬ K x) (hx : x < EVC_PEND 0 ∨ EVC_PEND 32 ≤ x) :
    Steady K d (d.setReg x w) := by
  refine ⟨fun r hr => reg_setReg_ne d w fun h => hK (h ▸ hr), fun n hn hp => ?_, rfl, rfl⟩
  have h : (d.setReg x w).reg (EVC_PEND (n / 32)) = d.reg (EVC_PEND (n / 32)) :=
    reg_setReg_ne d w (by simp only [EVC_PEND] at hx ⊢; omega)
  rw [← hp]
  exact congrArg (fun w => decide (wordGet w (n % 32) 1 ≠ 0)) h

/-- A write of a field of such a register. -/
theorem put (d : Dev) (f : Fld) (v : Nat) (hK : ¬ K f.addr) (hx : f.addr < EVC_PEND 0 ∨ EVC_PEND 32 ≤ f.addr) :
    Steady K d (d.put f v) := setReg d _ hK hx

/-- A repeated operation. -/
theorem each {α : Type} {l : List α} {f : α → Dev → Dev} (hf : ∀ x ∈ l, ∀ t, Steady K t (f x t)) :
    ∀ d : Dev, Steady K d (d.each l f) := by
  induction l with
  | nil => exact fun d => refl K d
  | cons x l ih =>
    exact fun d => (hf x List.mem_cons_self d).trans (ih (fun y hy => hf y (List.mem_cons_of_mem _ hy)) (f x d))

/-- A choice between two operations. -/
theorem ite {c : Prop} [Decidable c] {u : Dev} (ht : Steady K d t) (hu : Steady K d u) :
    Steady K d (if c then t else u) := by
  split
  · exact ht
  · exact hu

/-- A field of a register of `K`. -/
theorem get (h : Steady K d t) {f : Fld} (hf : K f.addr) : t.get f = d.get f :=
  congrArg (fun w => wordGet w f.lo f.width) (h.reg f.addr hf)

/-- The state of an axis whose register is in `K`. -/
theorem axSt (h : Steady K d t) {a : Nat} (ha : K (CU_STATE a)) : t.axSt a = d.axSt a :=
  congrArg AxState.ofCode (h.get (f := CU_STATE_STATE a) ha)

/-- The hidden state of a slot. -/
theorem slotOf (h : Steady K d t) (q : Nat) : t.slotOf q = d.slotOf q := by
  rw [Dev.slotOf, h.slots, Dev.slotOf]

end Steady

/-! ### Events -/

/-- Setting a bit leaves every set bit of its register set. -/
theorem bit_setBit_of_bit (d : Dev) (a : Nat) {n k : Nat} (hn : n < 32) (h : d.bit a k = true) :
    (d.setBit a n).bit a k = true := by
  by_cases hk : k = n
  · rw [hk]; exact bit_setBit_same d a hn
  · have hget : (d.setBit a n).get ⟨a, k, 1⟩ = d.get ⟨a, k, 1⟩ :=
      get_put_disjoint d ⟨a, n, 1⟩ ⟨a, k, 1⟩ 1 rfl (by simp only; omega) (by simp only; omega)
    rw [← h, Dev.bit, Dev.on, hget, Dev.bit, Dev.on]

/-- Setting a bit of a word that holds PEND or RERAISE bits. -/
theorem steady_setBit_event {K : Nat → Prop} (hK : ∀ r, K r → EVC_PEND 64 ≤ r) (d : Dev) {x : Nat}
    (hx : x < EVC_PEND 64) {n : Nat} (hn : n < 32) : Steady K d (d.setBit x n) := by
  refine ⟨fun r hr => reg_put_ne d ⟨x, n, 1⟩ 1 ?_, fun k _ hp => ?_, rfl, rfl⟩
  · have := hK r hr
    simp only
    omega
  · by_cases h : EVC_PEND (k / 32) = x
    · subst h; exact bit_setBit_of_bit d _ hn hp
    · rw [← hp]
      exact congrArg (fun w => decide (wordGet w (k % 32) 1 ≠ 0)) (reg_put_ne d ⟨x, n, 1⟩ 1 h)

/-- A raise. -/
theorem steady_raise {K : Nat → Prop} (hK : ∀ r, K r → EVC_PEND 64 ≤ r) {n : Nat} (hn : n < 1024) (d : Dev) :
    Steady K d (raise n d) := by
  have hset : ∀ x, x < EVC_PEND 64 → Steady K d (d.setBit x (n % 32)) := fun x hx =>
    steady_setBit_event hK d hx (Nat.mod_lt _ (by decide))
  unfold raise
  refine .ite (.refl K d) (.ite ?_ ?_)
  · exact (hset _ (by simp only [EVC_RERAISE, EVC_PEND]; omega)).trans (.of_hidden rfl rfl rfl)
  · exact (hset _ (by simp only [EVC_PEND]; omega)).trans (.of_hidden rfl rfl rfl)

/-- A raised event is pending. -/
theorem pend_raise_same {n : Nat} (hn : n < 1024) (d : Dev) : (raise n d).pend n = true := by
  by_cases h : d.pend n = true
  · exact (steady_raise (K := fun _ => False) (fun _ => False.elim) hn d).pend n hn h
  · unfold raise
    rw [if_neg (by simp [h]), if_neg h]
    exact bit_setBit_same d _ (Nat.mod_lt _ (by decide))

/-- A raise with a bit of its source's flag register. -/
theorem steady_raiseIn {K : Nat → Prop} (hK : ∀ r, K r → EVC_PEND 64 ≤ r) {evt base n : Nat} (hn : base + n < 1024)
    (he : ¬ K evt) (hx : EVC_PEND 64 ≤ evt) (d : Dev) : Steady K d (raiseIn evt base n d) :=
  (Steady.put d ⟨evt, n, 1⟩ 1 he (.inr (by simp only [EVC_PEND] at hx ⊢; omega))).trans (steady_raise hK hn _)

/-! ### The journal -/

/-- The registers above the event and journal controllers. -/
def Far (r : Nat) : Prop := 0x40031000 ≤ r

theorem Far.above_events {r : Nat} (h : Far r) : EVC_PEND 64 ≤ r := by simp only [Far, EVC_PEND] at *; omega

/-- The pair that supervises has a number of three bits. -/
theorem sup_lt (d : Dev) : d.get LSS_PAIRST_SUP < 8 := get_lt d LSS_PAIRST_SUP

/-- A submission leaves every register above the journal's. -/
theorem steady_submitRec (from_ : Option Nat) (r : JRec) (b e : Bool) (d : Dev) (hp : ∀ p, from_ = some p → p < 8) :
    Steady Far d (submitRec from_ r b e d) := by
  have hraise : ∀ n < 48, ∀ t, Steady Far t (raiseJnl n t) := fun n hn t =>
    steady_raiseIn (fun _ => Far.above_events) (by omega) (by unfold Far JNL_EVT; decide) (by decide) t
  have hdone : ∀ c t, Steady Far t (submitDone from_ c t) := by
    intro c t
    cases from_ with
    | none => exact .refl _ t
    | some p =>
      have hp := hp p rfl
      have hput : ∀ f : Fld, f.addr = JNL_RES p → ∀ v t, Steady Far t (t.put f v) := fun f hf v t =>
        .put t f v (by rw [hf]; simp only [Far, JNL_RES]; omega) (.inr (by rw [hf]; simp only [EVC_PEND, JNL_RES]; omega))
      exact (hput (JNL_RES_CODE p) rfl _ _).trans (hput (JNL_RES_NSUB p) rfl _ _)
  have hctl : ∀ r (j : JnlH → JnlH) t, Steady Far t (controllerRec r (t.onJnl j)) := fun _ _ _ => .of_hidden rfl rfl rfl
  have hrefuse : ∀ c, Steady Far d (submitDone from_ c (raiseJnl 0 d)) := fun c =>
    (hraise 0 (by decide) d).trans (hdone c _)
  unfold submitRec
  extract_lets code d1
  have hd1 : Steady Far d d1 := hrefuse code
  clear_value d1 code
  split
  · exact .of_hidden rfl rfl rfl
  · split
    · exact (hd1.trans (hctl _ _ d1)).trans (hraise 1 (by decide) _)
    · exact hd1

theorem steady_journal (typ srck : Nat) (payload : List Nat) (d : Dev) : Steady Far d (journal typ srck payload d) :=
  steady_submitRec _ _ _ _ d fun _ h => Option.some.inj h ▸ sup_lt d

theorem steady_journalClient (typ slot name : Nat) (payload : List Nat) (d : Dev) :
    Steady Far d (journalClient typ slot name payload d) :=
  steady_submitRec _ _ _ _ d fun _ h => Option.some.inj h ▸ sup_lt d

theorem steady_cartridgeRecord (q : Nat) (d : Dev) : Steady Far d (cartridgeRecord q d) := steady_journal _ _ _ d

/-- All a raise beside a flag does: registers and the hidden state of events. -/
theorem raiseIn_shape (evt base n : Nat) (d : Dev) : ∃ rg ev, raiseIn evt base n d = { d with regs := rg, evs := ev } := by
  have h := raise_shape (base + n) (d.setBit evt n)
  generalize hr : raise (base + n) (d.setBit evt n) = t at h
  exact ⟨t.regs, t.evs, hr.trans h⟩

/-- All two writes of fields do. -/
theorem put_put_eq (d : Dev) (f g : Fld) (v w : Nat) :
    (d.put f v).put g w = { d with regs := ((d.put f v).put g w).regs } := rfl

/-- All the report of a submission does. -/
theorem submitDone_shape (from_ : Option Nat) (c : Nat) (d : Dev) : ∃ rg, submitDone from_ c d = { d with regs := rg } := by
  cases from_ with
  | none => exact ⟨d.regs, rfl⟩
  | some p =>
    unfold submitDone
    exact ⟨_, put_put_eq d (JNL_RES_CODE p) (JNL_RES_NSUB p) c _⟩

/-- All a journal event does. -/
theorem raiseJnl_shape (n : Nat) (d : Dev) : ∃ rg ev, raiseJnl n d = { d with regs := rg, evs := ev } :=
  raiseIn_shape JNL_EVT 976 n d

/-- All a record of the controller does. -/
theorem controllerRec_shape (r : JRec) (f : JnlH → JnlH) (d : Dev) :
    ∃ j, controllerRec r (d.onJnl f) = { d with jnl := j } := ⟨_, rfl⟩

/-- All a refusal does. -/
theorem refused_shape (from_ : Option Nat) (c : Nat) (d : Dev) :
    ∃ rg ev, submitDone from_ c (raiseJnl 0 d) = { d with regs := rg, evs := ev } := by
  obtain ⟨rg, ev, h⟩ := raiseJnl_shape 0 d
  rw [h]
  obtain ⟨rg', h'⟩ := submitDone_shape from_ c { d with regs := rg, evs := ev }
  exact ⟨rg', ev, h'⟩

/-- All a submission does: registers, the journal, the hidden state of events. -/
theorem submitRec_shape (from_ : Option Nat) (r : JRec) (b e : Bool) (d : Dev) :
    ∃ rg j ev, submitRec from_ r b e d = { d with regs := rg, jnl := j, evs := ev } := by
  unfold submitRec
  extract_lets code d1
  obtain ⟨rg, ev, h⟩ : ∃ rg ev, d1 = { d with regs := rg, evs := ev } := refused_shape from_ code d
  clear_value d1 code
  subst h
  split
  · exact ⟨_, _, _, rfl⟩
  · split
    · obtain ⟨j, hj⟩ := controllerRec_shape { typ := 20, slot := r.slot } (fun j => { j with
        quota := tset (0, 0) j.quota r.slot (d.minute, d.quotaUsed r.slot + 65536) }) { d with regs := rg, evs := ev }
      rw [hj]
      obtain ⟨rg', ev', h⟩ := raiseJnl_shape 1 { d with regs := rg, jnl := j, evs := ev }
      exact ⟨rg', j, ev', h⟩
    · exact ⟨_, _, _, rfl⟩

/-- An accepted submission is queued, and nothing but the journal changes. -/
theorem submitRec_accepted {r : JRec} {b e : Bool} {d : Dev} (from_ : Option Nat) (h : submitCode r b e d = 0) :
    ∃ j : JnlH, submitRec from_ r b e d = { d with jnl := j } ∧ j.queue.length = d.jnl.queue.length + 1 := by
  unfold submitRec
  rw [h]
  exact ⟨_, rfl, List.length_append⟩

/-! ### Axes -/

/-- The registers followed here: the slots' status words, and of each axis its state and its command status. -/
def Watched (r : Nat) : Prop :=
  (0x40520000 ≤ r ∧ r < 0x40520200 ∧ r % 0x20 = 0) ∨
    (0x40300000 ≤ r ∧ r < 0x40320000 ∧ (r % 0x800 = 0 ∨ r % 0x800 = 8))

theorem Watched.far {r : Nat} (h : Watched r) : Far r := by simp only [Watched, Far] at *; omega

theorem Watched.above_events {r : Nat} (h : Watched r) : EVC_PEND 64 ≤ r := h.far.above_events

theorem watched_slot {q : Nat} (hq : q < 16) : Watched (CSL_STAT q) := by simp only [Watched, CSL_STAT]; omega

theorem watched_state {a : Nat} (ha : a < 64) : Watched (CU_STATE a) := by simp only [Watched, CU_STATE]; omega

theorem watched_stat {a : Nat} (ha : a < 64) : Watched (CU_STAT a) := by simp only [Watched, CU_STAT]; omega

/-- The followed registers but the state of one axis. -/
def WatchedBut (a r : Nat) : Prop := Watched r ∧ r ≠ CU_STATE a

section
variable (d : Dev)

theorem steady_freeIdle (s : Nat) : Steady Far d (freeIdle s d) := by
  unfold freeIdle
  have h : Steady Far d (d.onClient s fun _ => {}) := (Steady.refl _ d).onClient s _
  exact .ite ((h.trans (steady_journalClient _ _ _ _ _)).onBus _) (.refl _ d)

theorem steady_endClaim (a : Nat) : Steady Far d (endClaim a d) := by
  unfold endClaim
  split
  · exact .refl _ d
  · exact (steady_freeIdle _ _).from_hidden rfl rfl rfl

/-- A write outside the followed registers and the event controller. -/
theorem steady_put (f : Fld) (v : Nat) (h : ¬ Watched f.addr) (hx : EVC_PEND 32 ≤ f.addr) : Steady Watched d (d.put f v) :=
  .put d f v h (.inr hx)

theorem steady_sessAbort {s : Nat} (hs : s < 4) (cause : Nat) : Steady Watched d (sessAbort s cause d) := by
  have hstat : ∀ (f : Fld) v (t : Dev), f.addr = SCU_SSTAT s → Steady Watched t (t.put f v) := fun f v t hf =>
    steady_put t f v (by rw [hf]; simp only [Watched, SCU_SSTAT]; omega)
      (by rw [hf]; simp only [EVC_PEND, SCU_SSTAT]; omega)
  have hflag : ∀ n (t : Dev), Steady Watched t (t.setBit SCU_EVT n) := fun n t =>
    steady_put t ⟨SCU_EVT, n, 1⟩ 1 (by simp only [Watched, SCU_EVT]; omega)
      (by simp only [EVC_PEND, SCU_EVT]; omega)
  unfold sessAbort raiseScu
  refine .ite ?_ (.refl _ d)
  exact (((hstat (SCU_SSTAT_STATE s) 3 d rfl).trans (hstat (SCU_SSTAT_CAUSE s) cause _ rfl)).onSess s _).trans
    ((hflag _ _).trans (steady_raise (fun _ => Watched.above_events) (by decide) _))

theorem steady_sessionsOnState (a : Nat) (st : AxState) : Steady Watched d (sessionsOnState a st d) :=
  .each (fun _ hs t => .ite (steady_sessAbort t (List.mem_range.1 hs) _) (.refl _ t)) d

theorem steady_setPat {a : Nat} (ha : a < 64) (src u v w : Nat) : Steady Watched d (setPat a src u v w d) := by
  have hput : ∀ (f : Fld) v (t : Dev), f.addr = PWM_PAT a → Steady Watched t (t.put f v) := fun f v t hf =>
    steady_put t f v (by rw [hf]; simp only [Watched, PWM_PAT]; omega) (by rw [hf]; simp only [EVC_PEND, PWM_PAT]; omega)
  exact (((hput (PWM_PAT_SRC a) src d rfl).trans (hput (PWM_PAT_PU a) u _ rfl)).trans
    (hput (PWM_PAT_PV a) v _ rfl)).trans (hput (PWM_PAT_PW a) w _ rfl)

theorem steady_quiesce {a : Nat} (ha : a < 64) : Steady Watched d (quiesce a d) := by
  have hput : ∀ (f : Fld) (t : Dev), f.addr = CU_DECREF a ∨ f.addr = CU_DTCSTAT a → Steady Watched t (t.put f 0) :=
    fun f t hf => steady_put t f 0
      (by rcases hf with hf | hf <;> rw [hf] <;> simp only [Watched, CU_DECREF, CU_DTCSTAT] <;> omega)
      (by rcases hf with hf | hf <;> rw [hf] <;> simp only [EVC_PEND, CU_DECREF, CU_DTCSTAT] <;> omega)
  unfold quiesce
  exact (((((steady_setPat d ha 0 0 0 0).onSix a _).onDtc a _).trans
    (hput (CU_DECREF_WR a) _ (.inl rfl))).trans (hput (CU_DTCSTAT_VLIM a) _ (.inr rfl))).trans
    (hput (CU_DTCSTAT_REGEN0 a) _ (.inr rfl))

/-- The axes of a drive are axes of its quad. -/
theorem members_lt {a : Nat} (ha : a < 64) : ∀ m ∈ d.members a, m < 64 := by
  intro m hm
  unfold Dev.members at hm
  extract_lets b q at hm
  have hq : q + 3 < 64 := by simp only [q]; omega
  clear_value q b
  split at hm
  · simp only [List.mem_cons, List.not_mem_nil, or_false] at hm; omega
  · split at hm
    · simp only [List.mem_cons, List.not_mem_nil, or_false] at hm; omega
    · split at hm <;> simp only [List.mem_cons, List.not_mem_nil, or_false] at hm <;> omega

theorem steady_resetTrims {a : Nat} (ha : a < 64) : Steady Watched d (resetTrims a d) := by
  unfold resetTrims
  refine .ite (.refl _ d) (.each (fun m hm t => ?_) d)
  have hm := members_lt d ha m hm
  exact (steady_put t (PWM_BTRIM_TRIM m) 0 (by simp only [Watched, PWM_BTRIM_TRIM, PWM_BTRIM]; omega)
      (by simp only [EVC_PEND, PWM_BTRIM_TRIM, PWM_BTRIM]; omega)).trans
    (steady_put _ (PWM_ATRIM_TRIM m) 0 (by simp only [Watched, PWM_ATRIM_TRIM, PWM_ATRIM]; omega)
      (by simp only [EVC_PEND, PWM_ATRIM_TRIM, PWM_ATRIM]; omega))

theorem steady_takeBond {a : Nat} (ha : a < 64) : Steady Watched d (takeBond a d) := by
  unfold takeBond
  extract_lets q w own keep new e0 e1
  have h1 : Steady Watched d e1 := by
    refine (Steady.each (fun x hx t => ?_) e0).from_hidden rfl rfl rfl
    have hx : x < 64 := by
      have := (List.mem_filter.1 hx).1
      simp only [quadAxes, q, List.mem_cons, List.not_mem_nil, or_false] at this
      omega
    exact .setReg t 0 (by simp only [Watched, CU_BSHARE]; omega) (.inr (by simp only [EVC_PEND, CU_BSHARE]; omega))
  exact .ite (.refl _ d) (h1.trans (steady_resetTrims e1 ha))

/-- The code of a state reads back as the state. -/
theorem ofCode_code (st : AxState) : AxState.ofCode (st.code % 2 ^ 4) = st := by cases st <;> rfl

theorem steady_portOnState {a : Nat} (old st : AxState) : Steady Watched d (portOnState a old st d) :=
  (Steady.refl _ d).onPort a _

/-- No change, no event. -/
theorem setAxState_same {a : Nat} {st : AxState} (h : d.axSt a = st) : setAxState a st d = d := by
  unfold setAxState
  exact if_pos h

/-- A change of an axis state in three steps: the bond and the trims, the state with its event, what it means for the
sessions, the port, the claim and the bridge. -/
theorem setAxState_parts {a : Nat} (ha : a < 64) {st : AxState} (h : d.axSt a ≠ st) :
    ∃ e, Steady Watched d e ∧ Steady Watched
      (raiseAx a 10 ((e.put (CU_STATE_PREV a) (d.axSt a).code).put (CU_STATE_STATE a) st.code)) (setAxState a st d) := by
  unfold setAxState
  extract_lets old d1 d2 d3 d4 d5
  have h1 : Steady Watched d d1 := .ite (steady_takeBond d ha) (.refl _ d)
  have h2 : Steady Watched d1 d2 := .ite (steady_resetTrims d1 ha) (.refl _ d1)
  have h4 : Steady Watched d3 d4 := (steady_sessionsOnState d3 a st).trans (steady_portOnState _ old st)
  have h5 : Steady Watched d4 d5 := .ite ((steady_endClaim d4 a).mono fun _ => Watched.far) (.refl _ d4)
  refine ⟨d2, h1.trans h2, ?_⟩
  rw [if_neg h]
  exact (h4.trans h5).trans (.ite (.refl _ d5) (steady_quiesce d5 ha))

/-- The state register of an axis is written with its event, and no other followed register. -/
theorem steady_stateEvent {a : Nat} (ha : a < 64) (p v : Nat) :
    Steady (WatchedBut a) d (raiseAx a 10 ((d.put (CU_STATE_PREV a) p).put (CU_STATE_STATE a) v)) := by
  have hput : ∀ (f : Fld) v (t : Dev), f.addr = CU_STATE a → Steady (WatchedBut a) t (t.put f v) := fun f v t hf =>
    .put t f v (by rw [hf]; exact fun h => h.2 rfl) (.inr (by rw [hf]; simp only [EVC_PEND, CU_STATE]; omega))
  exact ((hput (CU_STATE_PREV a) p d rfl).trans (hput (CU_STATE_STATE a) v _ rfl)).trans
    (steady_raise (fun _ h => h.1.above_events) (by omega) _)

theorem steady_setAxState {a : Nat} (ha : a < 64) (st : AxState) : Steady (WatchedBut a) d (setAxState a st d) := by
  by_cases h : d.axSt a = st
  · rw [setAxState_same d h]; exact .refl _ d
  · obtain ⟨e, he, ht⟩ := setAxState_parts d ha h
    exact ((he.mono fun _ => And.left).trans (steady_stateEvent e ha _ _)).trans (ht.mono fun _ => And.left)

/-- An axis takes the state it is given. -/
theorem axSt_setAxState_same {a : Nat} (ha : a < 64) (st : AxState) : (setAxState a st d).axSt a = st := by
  by_cases h : d.axSt a = st
  · rw [setAxState_same d h, h]
  · obtain ⟨e, -, ht⟩ := setAxState_parts d ha h
    rw [ht.axSt (watched_state ha)]
    have hr := (steady_raise (K := Watched) (fun _ => Watched.above_events) (by omega : 12 * a + 10 < 1024)
      ((e.put (CU_STATE_PREV a) (d.axSt a).code).put (CU_STATE_STATE a) st.code)).axSt (watched_state ha)
    refine hr.trans ?_
    rw [Dev.axSt, get_put_same _ (CU_STATE_STATE a) _ (by show 0 + 4 ≤ 32; decide)]
    exact ofCode_code st

/-- The states of the other axes stay. -/
theorem axSt_setAxState_ne {a b : Nat} (ha : a < 64) (hb : b < 64) (h : b ≠ a) (st : AxState) :
    (setAxState a st d).axSt b = d.axSt b :=
  (steady_setAxState d ha st).axSt ⟨watched_state hb, by simp only [CU_STATE, ne_eq]; omega⟩

/-- A change of state raises STATE_CHANGE. -/
theorem pend_setAxState {a : Nat} (ha : a < 64) {st : AxState} (h : d.axSt a ≠ st) :
    (setAxState a st d).pend (12 * a + 10) = true := by
  obtain ⟨e, -, ht⟩ := setAxState_parts d ha h
  exact ht.pend _ (by omega) (pend_raise_same (by omega) _)

end

/-! SUPPORT. What the operations of a slot (R17, R49 to R53) leave alone, and the statement of the operator panel and the
cartridges (O3). -/

/-! ### The cluster of a slot -/

section
variable (d : Dev) {q : Nat} (hq : q < 16)

/-- The registers of the conversion clusters. -/
def InClusters (x : Nat) : Prop := 0x40100000 ≤ x ∧ x < 0x40110000

/-- A write of a field of a cluster. -/
theorem steady_put_cluster (f : Fld) (v : Nat) (h : InClusters f.addr) : Steady Watched d (d.put f v) :=
  steady_put d f v (by simp only [Watched, InClusters] at *; omega) (by simp only [EVC_PEND, InClusters] at *; omega)

/-- A write of a register of a cluster. -/
theorem steady_setReg_cluster {x : Nat} (w : Word) (h : InClusters x) : Steady Watched d (d.setReg x w) :=
  .setReg d w (by simp only [Watched, InClusters] at *; omega) (.inr (by simp only [EVC_PEND, InClusters] at *; omega))

include hq

theorem inClusters_control {x : Nat} (hx : x < 0x20) : InClusters (0x40100000 + 0x1000 * q + x) := by
  simp only [InClusters]; omega

theorem steady_refOff : Steady Watched d (refOff q d) :=
  ((steady_put_cluster d (AC_CTL_REFEN q) 0 (inClusters_control hq (by decide))).trans
    (steady_put_cluster _ (AC_STAT_REFRDY q) 0 (inClusters_control hq (by decide)))).onClu q _

theorem steady_setRefen (on : Bool) : Steady Watched d (setRefen q on d) := by
  have hctl : ∀ v (t : Dev), Steady Watched t (t.put (AC_CTL_REFEN q) v) := fun v t =>
    steady_put_cluster t (AC_CTL_REFEN q) v (inClusters_control hq (by decide))
  have hst : ∀ v (t : Dev), Steady Watched t (t.put (AC_STAT_REFRDY q) v) := fun v t =>
    steady_put_cluster t (AC_STAT_REFRDY q) v (inClusters_control hq (by decide))
  exact .ite (((hctl 1 d).trans (hst 0 _)).onClu q _) (.ite (((hctl 0 d).trans (hst 0 _)).onClu q _) (.refl _ d))

theorem steady_calLost : Steady Watched d (calLost q d) := by
  have hput : ∀ (f : Fld) v (t : Dev), f.addr = AC_STAT q ∨ f.addr = AC_CAL q → Steady Watched t (t.put f v) :=
    fun f v t hf => steady_put_cluster t f v (by
      rcases hf with hf | hf <;> rw [hf] <;> simp only [InClusters, AC_STAT, AC_CAL] <;> omega)
  unfold calLost
  refine .ite ?_ (.refl _ d)
  exact ((((hput (AC_STAT_CALBUSY q) 0 d (.inl rfl)).trans (hput (AC_STAT_SPLIT q) 0 _ (.inl rfl))).trans
    (hput (AC_STAT_SKEWPH q) 0 _ (.inl rfl))).trans (hput (AC_CAL_PHASE q) 0 _ (.inr rfl))).trans
    (hput (AC_CAL_ERR q) 3 _ (.inr rfl))

/-- The result registers of a cluster are its own. -/
theorem inClusters_results {r : Nat} (hr : r ∈ resultRegs q ++ urgentRegs q) : InClusters r := by
  simp only [resultRegs, urgentRegs, List.mem_append, List.mem_map, List.mem_flatMap, List.mem_range] at hr
  rcases hr with ((((⟨n, hn, rfl⟩ | ⟨n, hn, rfl⟩) | ⟨n, hn, rfl⟩) | ⟨n, hn, rfl⟩) | ⟨p, hp, n, hn, rfl⟩)
  all_goals simp only [InClusters, AC_RSLT, AC_HK, AC_UR]; omega

theorem steady_loadTrims : Steady Watched d (loadTrims q d) := by
  have hput : ∀ (f : Fld) v (t : Dev), InClusters f.addr → Steady Watched t (t.put f v) := fun f v t =>
    steady_put_cluster t f v
  unfold loadTrims
  extract_lets i d1
  have h1 : Steady Watched d d1 :=
    (((((hput (AC_OFS_OFS q 0) _ d (by simp only [InClusters, AC_OFS_OFS, AC_OFS]; omega)).trans
      (hput (AC_GAIN_GAIN q 0) _ _ (by simp only [InClusters, AC_GAIN_GAIN, AC_GAIN]; omega))).trans
      (hput (AC_OFS_OFS q 1) _ _ (by simp only [InClusters, AC_OFS_OFS, AC_OFS]; omega))).trans
      (hput (AC_GAIN_GAIN q 1) _ _ (by simp only [InClusters, AC_GAIN_GAIN, AC_GAIN]; omega))).trans
      (hput (AC_SKEW_SKEW q 1) _ _ (by simp only [InClusters, AC_SKEW_SKEW, AC_SKEW]; omega))).trans
      (hput (AC_CALT_TDIE q) _ _ (by simp only [InClusters, AC_CALT_TDIE, AC_CALT]; omega))
  refine h1.trans (.each (fun c hc t => ?_) d1)
  have hc := List.mem_range.1 (List.mem_filter.1 hc).1
  exact steady_setReg_cluster t _ (by simp only [InClusters, AC_CHCAL]; omega)

end

/-! ### The slot -/

/-- The axes of a quad. -/
theorem mem_quadAxes {q a : Nat} : a ∈ quadAxes q ↔ a / 4 = q := by
  simp only [quadAxes, List.mem_cons, List.not_mem_nil, or_false]
  omega

theorem quadAxes_lt {q a : Nat} (hq : q < 16) (h : a ∈ quadAxes q) : a < 64 := by
  have := mem_quadAxes.1 h
  omega

/-! ### Registers that stay -/

section
variable {d e t : Dev} {l : List Nat}

theorem sameRegs_refl (d : Dev) (l : List Nat) : sameRegs d d l := fun _ _ => rfl

theorem sameRegs_trans (h : sameRegs d e l) (h' : sameRegs e t l) : sameRegs d t l :=
  fun a ha => (h' a ha).trans (h a ha)

theorem sameRegs_put (h : sameRegs d t l) (f : Fld) (v : Nat) (hf : f.addr ∈ l) : sameRegs d (t.put f v) l :=
  sameRegs_trans h fun _ ha => reg_put_ne t f v fun h => ha (h ▸ hf)

theorem sameRegs_raise (h : sameRegs d t l) (n : Nat) (hn : ∀ a ∈ evRegs n, a ∈ l) : sameRegs d (raise n t) l :=
  sameRegs_trans h fun _ ha => raise_reg n t (fun h => ha (h ▸ hn _ List.mem_cons_self))
    fun h => ha (h ▸ hn _ (List.mem_cons_of_mem _ List.mem_cons_self))

end

/-- From `d` to `t` only registers and the hidden state of slots change. -/
def SlotShape (d t : Dev) : Prop := ∃ rg sl, t = { d with regs := rg, slots := sl }

namespace SlotShape
variable {d t : Dev}

theorem refl (d : Dev) : SlotShape d d := ⟨_, _, rfl⟩

theorem put (h : SlotShape d t) (f : Fld) (v : Nat) : SlotShape d (t.put f v) := by
  obtain ⟨_, sl, rfl⟩ := h
  exact ⟨_, sl, rfl⟩

theorem onSlot (h : SlotShape d t) (q : Nat) (f : SlotH → SlotH) : SlotShape d (t.onSlot q f) := by
  obtain ⟨rg, _, rfl⟩ := h
  exact ⟨rg, _, rfl⟩

theorem eq (h : SlotShape d t) : t = { d with regs := t.regs, slots := t.slots } := by
  obtain ⟨_, _, rfl⟩ := h
  rfl

/-- A raise afterwards. -/
theorem raise_eq (h : SlotShape d t) (n : Nat) : raise n t =
    { d with regs := (raise n t).regs, slots := (raise n t).slots, evs := (raise n t).evs } := by
  obtain ⟨rg, sl, rfl⟩ := h
  have hr := raise_shape n { d with regs := rg, slots := sl }
  generalize raise n { d with regs := rg, slots := sl } = u at hr
  rw [hr]

end SlotShape

/-! ### The panel -/

/-- The block after a key press: KEYS, event 1008, the time of the last key. -/
def pressed (k : Fin 8) (d : Dev) : Dev := { raise 1008 (d.put CSL_PANEL_KEYS k) with panel := { keyAt := some d.now } }

section
variable {d : Dev} (k : Fin 8)

/-- In DORMANT a key does nothing here (R48). -/
theorem onPanel_dormant (f : Dev → Dev) (h : d.mode = .dormant) : onPanel k f d = d := if_pos h

/-- In every other mode a key acts on the block after its press (R48). -/
theorem onPanel_awake (f : Dev → Dev) (h : d.mode ≠ .dormant) : onPanel k f d = f (pressed k d) := by
  have hn : (raise 1008 (d.put CSL_PANEL_KEYS k)).now = d.now := by rw [raise_shape]; rfl
  rw [onPanel, if_neg h, pressed, ← hn]

theorem pressed_shape (d : Dev) : ∃ rg ev, pressed k d =
    { d with regs := rg, panel := { keyAt := some d.now }, evs := ev } := by
  rw [pressed, raise_shape]
  exact ⟨_, _, rfl⟩

theorem pressed_sameRegs (d : Dev) : sameRegs d (pressed k d) (CSL_PANEL :: evRegs 1008) :=
  sameRegs_raise (sameRegs_put (sameRegs_refl d _) CSL_PANEL_KEYS k List.mem_cons_self) 1008
    fun _ h => List.mem_cons_of_mem _ h

theorem steady_pressed (d : Dev) : Steady Watched d (pressed k d) :=
  ((steady_put d CSL_PANEL_KEYS k (by simp only [Watched, CSL_PANEL_KEYS, CSL_PANEL]; omega)
    (by decide)).trans (steady_raise (fun _ => Watched.above_events) (by decide) _)).trans (.of_hidden rfl rfl rfl)

/-- A press writes KEYS of the panel's word and nothing else of it. -/
theorem pressed_panel (d : Dev) : (pressed k d).reg CSL_PANEL = (d.put CSL_PANEL_KEYS k).reg CSL_PANEL :=
  raise_reg 1008 _ (by decide) (by decide)

theorem get_pressed_selvalid (d : Dev) : (pressed k d).get CSL_PANEL_SELVALID = d.get CSL_PANEL_SELVALID :=
  (congrArg (fun w => wordGet w 7 1) (pressed_panel k d)).trans
    (get_put_apart d CSL_PANEL_KEYS CSL_PANEL_SELVALID k rfl rfl)

theorem get_pressed_sel (d : Dev) : (pressed k d).get CSL_PANEL_SEL = d.get CSL_PANEL_SEL :=
  (congrArg (fun w => wordGet w 0 4) (pressed_panel k d)).trans
    (get_put_apart d CSL_PANEL_KEYS CSL_PANEL_SEL k rfl rfl)

theorem get_pressed_keys (d : Dev) : (pressed k d).get CSL_PANEL_KEYS = k :=
  (congrArg (fun w => wordGet w 4 3) (pressed_panel k d)).trans
    (get_put_fits d CSL_PANEL_KEYS rfl k.isLt)

theorem get_pressed_slot (d : Dev) {q : Nat} (hq : q < 16) {f : Fld} (hf : f.addr = CSL_STAT q) :
    (pressed k d).get f = d.get f := (steady_pressed k d).get (hf ▸ watched_slot hq)

/-- A press leaves which slots are occupied, and so the next one. -/
theorem nextSlot_pressed (d : Dev) : (pressed k d).nextSlot = d.nextSlot := by
  have hocc : ∀ q < 16, (pressed k d).occupied q = d.occupied q := fun q hq => by
    rw [Dev.occupied, Dev.on, get_pressed_slot k d hq rfl]; rfl
  unfold Dev.nextSlot
  rw [Dev.on, get_pressed_selvalid, get_pressed_sel]
  refine List.find?_congr fun q hq => ?_
  obtain ⟨n, -, rfl⟩ := List.mem_map.1 hq
  exact hocc _ (Nat.mod_lt _ (by decide))

end

section
variable (s : State) (k : Fin 8)

theorem keySelect_selects {q : Nat} (hl : s.dev.sys.logicOn = true) (hm : s.dev.mode ≠ .dormant)
    (hn : s.dev.nextSlot = some q) (hq : q < 16) :
    Does (.keySelect k) s fun t => t.get CSL_PANEL_SELVALID = 1 ∧ t.get CSL_PANEL_SEL = q ∧ t.get CSL_PANEL_KEYS =
          k.val ∧ t.panel.keyAt = some s.dev.now ∧ t = { s.dev with regs := t.regs, panel := t.panel, evs := t.evs } ∧
          sameRegs s.dev t ((CSL_PANEL :: evRegs 1008)) := by
  refine does_onDev (execKeySelect k) rfl rfl hl ?_
  simp only [onPanel_awake k _ hm, nextSlot_pressed, hn]
  obtain ⟨rg, ev, hp⟩ := pressed_shape k s.dev
  refine ⟨?_, ?_, ?_, ?_, ?_, ?_⟩
  · exact (get_put_apart _ CSL_PANEL_SEL CSL_PANEL_SELVALID q rfl rfl).trans (get_put_const _ CSL_PANEL_SELVALID 1 rfl)
  · exact get_put_fits _ CSL_PANEL_SEL rfl hq
  · rw [get_put_apart _ CSL_PANEL_SEL CSL_PANEL_KEYS _ rfl rfl,
      get_put_apart _ CSL_PANEL_SELVALID CSL_PANEL_KEYS _ rfl rfl, get_pressed_keys]
  · rw [hp]; rfl
  · rw [hp]; rfl
  · exact sameRegs_put (sameRegs_put (pressed_sameRegs k s.dev) _ _ List.mem_cons_self) _ _ List.mem_cons_self

theorem keySelect_dormant (hl : s.dev.sys.logicOn = true) (hm : s.dev.mode = .dormant) :
    Does (.keySelect k) s fun t => t = s.dev :=
  does_onDev (execKeySelect k) rfl rfl hl (onPanel_dormant k _ hm)

theorem selectionLapse_lapses {k : Nat} (hl : s.dev.sys.logicOn = true) (hk : s.dev.panel.keyAt = some k)
    (ht : k + 2000000000 ≤ s.dev.now) :
    Does (.selectionLapse) s fun t => t.get CSL_PANEL_SELVALID = 0 ∧ t = { s.dev with regs := t.regs } ∧ sameRegs
          s.dev t ([CSL_PANEL]) := by
  refine does_onDev execSelectionLapse rfl rfl hl ?_
  simp only [hk, if_pos ht]
  refine ⟨?_, rfl, sameRegs_put (sameRegs_put (sameRegs_refl _ _) _ _ List.mem_cons_self) _ _ List.mem_cons_self⟩
  exact (get_put_apart _ CSL_PANEL_SEL CSL_PANEL_SELVALID 0 rfl rfl).trans (get_put_const _ CSL_PANEL_SELVALID 0 rfl)

end

/-! ### Releases -/

/-- An operation that acts on no element of a list. -/
theorem each_id {α : Type} {l : List α} {f : α → Dev → Dev} {d : Dev} (h : ∀ x ∈ l, f x d = d) : d.each l f = d := by
  induction l with
  | nil => rfl
  | cons x l ih =>
    have hx : f x d = d := h x List.mem_cons_self
    change (f x d).each l f = d
    rw [hx]
    exact ih fun y hy => h y (List.mem_cons_of_mem _ hy)

section
variable (d : Dev)

/-- An axis that does not drive is not stopped. -/
theorem stopForChange_rest {a : Nat} (h : (d.axSt a).driving = false) : stopForChange a d = d := by
  have ht : d.axSt a ≠ .test := fun ht => by rw [ht] at h; exact absurd h (by decide)
  simp [stopForChange, ht, h]

/-- Counting the hours of a bridge leaves the registers, the time and all but the identity memory of the slot. -/
theorem countHours_keeps (a q : Nat) : (countHours a d).regs = d.regs ∧ (countHours a d).now = d.now ∧
    ((countHours a d).slotOf q).relAt = (d.slotOf q).relAt := by
  refine ⟨rfl, rfl, ?_⟩
  unfold countHours
  extract_lets p tot h e
  by_cases hq : q = a / 4
  · subst hq
    rw [slotOf_onSlot_same]
    rfl
  · rw [slotOf_onSlot_ne _ _ hq]
    rfl

variable {d} {q : Nat} (src : Nat)

/-- A release request that is refused (R52, R53). -/
theorem requestRelease_refused (hq : q < 16)
    (h : (∃ x < 16, x ≠ q ∧ d.get (CSL_STAT_STATE x) = 4) ∨ d.get (CSL_STAT_STATE q) ≠ 2) :
    (requestRelease q src d).get CSL_PANEL_RELREF = 1 ∧
      (requestRelease q src d).get (CSL_STAT_STATE q) = d.get (CSL_STAT_STATE q) ∧
      ((requestRelease q src d).slotOf q).refusedAt = some d.now ∧
      ∀ a < 64, (requestRelease q src d).axSt a = d.axSt a := by
  have hc : ((List.range 16).any (fun x => x ≠ q && d.get (CSL_STAT_STATE x) = 4) ||
      d.get (CSL_STAT_STATE q) ≠ 2) = true := by
    rcases h with ⟨x, hx, hne, h4⟩ | h
    · exact Bool.or_eq_true_iff.2 (.inl (List.any_eq_true.2 ⟨x, List.mem_range.2 hx, by simp [hne, h4]⟩))
    · simp [h]
  have he : requestRelease q src d = journal 2 src [q] ((d.put CSL_PANEL_RELREF 1).onSlot q fun s =>
    { s with refusedAt := some d.now }) := if_pos hc
  rw [he]
  have hs := steady_journal 2 src [q] ((d.put CSL_PANEL_RELREF 1).onSlot q fun s => { s with refusedAt := some d.now })
  refine ⟨?_, ?_, ?_, fun a ha => ?_⟩
  · rw [hs.get (f := CSL_PANEL_RELREF) (by unfold Far; decide)]
    exact get_put_const d CSL_PANEL_RELREF 1 rfl
  · rw [hs.get (f := CSL_STAT_STATE q) (watched_slot hq).far]
    exact get_put_ne d CSL_PANEL_RELREF (CSL_STAT_STATE q) 1
      (by simp only [CSL_STAT_STATE, CSL_STAT, CSL_PANEL_RELREF, CSL_PANEL]; omega)
  · rw [hs.slotOf, slotOf_onSlot_same]
  · rw [hs.axSt (watched_state ha).far]
    exact (steady_put d CSL_PANEL_RELREF 1 (by simp only [Watched, CSL_PANEL_RELREF, CSL_PANEL]; omega)
      (by decide)).axSt (watched_state ha)

/-- A release request that starts a release, with no axis of the quad driving (R52). -/
theorem requestRelease_started (hq : q < 16) (hx : ∀ x < 16, d.get (CSL_STAT_STATE x) ≠ 4)
    (h2 : d.get (CSL_STAT_STATE q) = 2) (hrest : ∀ a ∈ quadAxes q, (d.axSt a).driving = false) :
    (requestRelease q src d).get (CSL_STAT_STATE q) = 4 ∧ ((requestRelease q src d).slotOf q).relAt = d.now ∧
      (requestRelease q src d).pend 1009 = true := by
  have hc : ¬ ((List.range 16).any (fun x => x ≠ q && d.get (CSL_STAT_STATE x) = 4) ||
      d.get (CSL_STAT_STATE q) ≠ 2) = true := by
    simp only [h2, ne_eq, not_true, decide_false, Bool.or_false, List.any_eq_true, not_exists, not_and]
    intro x hxm
    simp [hx x (List.mem_range.1 hxm)]
  unfold requestRelease
  extract_lets other e1 e2 e3
  rw [if_neg hc]
  -- the state and the event
  have hj := steady_journal 5 src [1009, q] (d.put (CSL_STAT_STATE q) 4)
  have h1 : Steady Watched (d.put (CSL_STAT_STATE q) 4) e1 :=
    (hj.mono fun _ => Watched.far).trans (steady_raise (fun _ => Watched.above_events) (by decide) _)
  have hp1 : e1.pend 1009 = true := pend_raise_same (by decide) _
  have hst1 : e1.get (CSL_STAT_STATE q) = 4 :=
    (h1.get (f := CSL_STAT_STATE q) (watched_slot hq)).trans (get_put_const d (CSL_STAT_STATE q) 4 rfl)
  have hax1 : ∀ a < 64, e1.axSt a = d.axSt a := fun a ha => (h1.axSt (watched_state ha)).trans
    (congrArg AxState.ofCode (get_put_ne d (CSL_STAT_STATE q) (CU_STATE_STATE a) 4
      (by simp only [CSL_STAT_STATE, CSL_STAT, CU_STATE_STATE, CU_STATE]; omega)))
  -- the hours
  have h3 : e3.regs = e2.regs ∧ e3.now = e2.now ∧ (e3.slotOf q).relAt = (e2.slotOf q).relAt := by
    refine each_keeps (fun t => t.regs = e2.regs ∧ t.now = e2.now ∧ (t.slotOf q).relAt = (e2.slotOf q).relAt) _ _
      (fun a t ⟨hr', hn', hs'⟩ => ?_) e2 ⟨rfl, rfl, rfl⟩
    obtain ⟨hr, hn, hs⟩ := countHours_keeps t a q
    exact ⟨hr.trans hr', hn.trans hn', hs.trans hs'⟩
  obtain ⟨hr3, hn3, hs3⟩ := h3
  have hreg : ∀ r, e3.reg r = e1.reg r := fun r => by rw [Dev.reg, hr3]; rfl
  -- no axis is stopped
  have hstop : e3.each (quadAxes q) (fun a d => if d.lowest a = a then stopForChange a d else d) = e3 := by
    refine each_id fun a ha => ?_
    have hd : (e3.axSt a).driving = false := by
      have : e3.axSt a = e1.axSt a := by rw [Dev.axSt, Dev.get, hreg]; rfl
      rw [this, hax1 a (quadAxes_lt hq ha), hrest a ha]
    rw [stopForChange_rest e3 hd, ite_self]
  rw [hstop]
  have hrec := steady_cartridgeRecord q e3
  refine ⟨?_, ?_, ?_⟩
  · rw [hrec.get (f := CSL_STAT_STATE q) (watched_slot hq).far, Dev.get, hreg]
    exact hst1
  · rw [hrec.slotOf, hs3, slotOf_onSlot_same]
    exact h1.now
  · refine hrec.pend 1009 (by decide) ?_
    rw [← hp1]
    exact congrArg (fun w => decide (wordGet w (1009 % 32) 1 ≠ 0)) (hreg _)

end

section
variable (s : State) (k : Fin 8) (q : Fin 16)

theorem releaseHold_refused (hl : s.dev.sys.logicOn = true) (hm : s.dev.mode ≠ .dormant)
    (hv : s.dev.get CSL_PANEL_SELVALID = 1) (hs : s.dev.get CSL_PANEL_SEL = q.val)
    (hne : s.dev.get (CSL_STAT_STATE q) ≠ 2) :
    Does (.releaseHold k) s fun t => t.get CSL_PANEL_RELREF = 1 ∧ t.get (CSL_STAT_STATE q) = s.dev.get
          (CSL_STAT_STATE q) ∧ (t.slotOf q).refusedAt = some s.dev.now ∧ (∀ a : Fin 64, t.axSt a = s.dev.axSt a) := by
  refine does_onDev (execReleaseHold k) rfl rfl hl ?_
  have hp := steady_pressed k s.dev
  have hst := get_pressed_slot k s.dev q.isLt (f := CSL_STAT_STATE q) rfl
  obtain ⟨h1, h2, h3, h4⟩ := requestRelease_refused (d := pressed k s.dev) 2 q.isLt (.inr (hst ▸ hne))
  simp only [onPanel_awake k _ hm, Dev.on, get_pressed_selvalid, get_pressed_sel, hv, hs]
  exact ⟨h1, h2.trans hst, h3.trans (congrArg some hp.now), fun a =>
    (h4 a a.isLt).trans (hp.axSt (watched_state a.isLt))⟩

theorem releaseHold_starts (hl : s.dev.sys.logicOn = true) (hm : s.dev.mode ≠ .dormant)
    (hv : s.dev.get CSL_PANEL_SELVALID = 1) (hs : s.dev.get CSL_PANEL_SEL = q.val)
    (h2 : s.dev.get (CSL_STAT_STATE q) = 2) (hx : ∀ x : Fin 16, s.dev.get (CSL_STAT_STATE x) ≠ 4)
    (hrest : ∀ a : Fin 64, a.val / 4 = q.val → (s.dev.axSt a).driving = false) :
    Does (.releaseHold k) s fun t => t.get (CSL_STAT_STATE q) = 4 ∧ (t.slotOf q).relAt = s.dev.now ∧ t.pend 1009 =
          true := by
  refine does_onDev (execReleaseHold k) rfl rfl hl ?_
  have hp := steady_pressed k s.dev
  have hst : ∀ x < 16, (pressed k s.dev).get (CSL_STAT_STATE x) = s.dev.get (CSL_STAT_STATE x) :=
    fun x hx => get_pressed_slot k s.dev hx rfl
  obtain ⟨h1, h3, h4⟩ := requestRelease_started (d := pressed k s.dev) 2 q.isLt (fun x h => hst x h ▸ hx ⟨x, h⟩)
    ((hst q q.isLt).trans h2) fun a ha => by
      have h64 := quadAxes_lt q.isLt ha
      rw [hp.axSt (watched_state h64)]
      exact hrest ⟨a, h64⟩ (mem_quadAxes.1 ha)
  simp only [onPanel_awake k _ hm, Dev.on, get_pressed_selvalid, get_pressed_sel, hv, hs]
  exact ⟨h1, h3.trans hp.now, h4⟩

theorem keyAck_unlocks (hl : s.dev.sys.logicOn = true) (hm : s.dev.mode ≠ .dormant)
    (hv : s.dev.get CSL_PANEL_SELVALID = 1) (hs : s.dev.get CSL_PANEL_SEL = q.val)
    (h5 : s.dev.get (CSL_STAT_STATE q) = 5) (ht : s.dev.now ≤ (s.dev.slotOf q).safeAt + 6000000000) :
    Does (.keyAck k) s fun t => t.get (CSL_STAT_STATE q) = 6 ∧ t.get (CSL_STAT_LOCK q) = 0 ∧ (t.slotOf q).openAt =
          s.dev.now ∧ t = { s.dev with regs := t.regs, panel := t.panel, slots := t.slots, evs := t.evs } ∧ sameRegs
          s.dev t ((CSL_PANEL :: CSL_STAT q :: evRegs 1008)) := by
  refine does_onDev (execKeyAck k) rfl rfl hl ?_
  have hp := steady_pressed k s.dev
  have hst := (get_pressed_slot k s.dev q.isLt (f := CSL_STAT_STATE q) rfl).trans h5
  have hc : ((pressed k s.dev).on CSL_PANEL_SELVALID && (pressed k s.dev).get (CSL_STAT_STATE q) = 5 &&
      decide ((pressed k s.dev).now ≤ ((pressed k s.dev).slotOf q).safeAt + 6000000000)) = true := by
    rw [hp.now, hp.slotOf, hst, Dev.on, get_pressed_selvalid, hv]
    simp [ht]
  simp only [onPanel_awake k _ hm, get_pressed_sel, hs]
  rw [if_pos hc]
  have hr := pressed_sameRegs k s.dev
  have hn := hp.now
  obtain ⟨rg, ev, hshape⟩ := pressed_shape k s.dev
  generalize pressed k s.dev = e at hr hn hshape
  refine ⟨?_, ?_, ?_, ?_, ?_⟩
  · exact get_put_const (e.put (CSL_STAT_LOCK q) 0) (CSL_STAT_STATE q) 6 rfl
  · exact (get_put_apart (e.put (CSL_STAT_LOCK q) 0) (CSL_STAT_STATE q) (CSL_STAT_LOCK q) 6 rfl rfl).trans
      (get_put_const e (CSL_STAT_LOCK q) 0 rfl)
  · rw [slotOf_onSlot_same, hn]
  · obtain ⟨_, _, ht⟩ := (((SlotShape.refl e).put (CSL_STAT_LOCK q) 0).put (CSL_STAT_STATE q) 6).onSlot q
      fun h => { h with openAt := e.now }
    rw [ht, hshape]
  · have hmem : CSL_STAT q ∈ CSL_PANEL :: CSL_STAT q :: evRegs 1008 := List.mem_cons_of_mem _ List.mem_cons_self
    refine sameRegs_put (sameRegs_put (fun a ha => hr a fun h => ha ?_) (CSL_STAT_LOCK q) 0 hmem) (CSL_STAT_STATE q) 6 hmem
    rcases List.mem_cons.1 h with rfl | h
    · exact List.mem_cons_self
    · exact List.mem_cons_of_mem _ (List.mem_cons_of_mem _ h)

end

/-! ### The fields of a slot's status word -/

section
variable (d : Dev) (q : Nat)

theorem slot_ne_seg (q : Nat) : CSL_STAT q ≠ PSE_SEG := by simp only [CSL_STAT, PSE_SEG]; omega

/-- Clearing a bit of the segment mask leaves the slots' status words. -/
theorem get_clrSeg (n : Nat) {f : Fld} (hf : f.addr = CSL_STAT q) : (d.clrBit PSE_SEG n).get f = d.get f :=
  get_put_ne d ⟨PSE_SEG, n, 1⟩ f 0 (hf ▸ slot_ne_seg q)

/-- Setting a bit of the segment mask leaves the slots' status words. -/
theorem get_setSeg (n : Nat) {f : Fld} (hf : f.addr = CSL_STAT q) : (d.setBit PSE_SEG n).get f = d.get f :=
  get_put_ne d ⟨PSE_SEG, n, 1⟩ f 1 (hf ▸ slot_ne_seg q)

/-- Clearing a bit leaves the other bits of its register clear. -/
theorem bit_clrBit_of_clear (a : Nat) {n k : Nat} (hn : n < 32) (h : d.bit a k = false) : (d.clrBit a n).bit a k = false := by
  by_cases hk : k = n
  · rw [hk]; exact bit_clrBit_same d a hn
  · have hget : (d.clrBit a n).get ⟨a, k, 1⟩ = d.get ⟨a, k, 1⟩ :=
      get_put_disjoint d ⟨a, n, 1⟩ ⟨a, k, 1⟩ 0 rfl (by simp only; omega) (by simp only; omega)
    rw [← h, Dev.bit, Dev.on, hget, Dev.bit, Dev.on]

end

section
variable (s : State) (q : Fin 16)

theorem cslRel_refused (m : Master) (hl : s.dev.sys.logicOn = true) (hr : s.dev.supRights m = true)
    (hx : ∃ x : Fin 16, x ≠ q ∧ s.dev.get (CSL_STAT_STATE x) = 4) :
    Does (.cslRel m (w32 (2 ^ 31 + q.val))) s fun t => t.get CSL_PANEL_RELREF = 1 ∧ t.get (CSL_STAT_STATE q) =
          s.dev.get (CSL_STAT_STATE q) ∧ (∀ a : Fin 64, t.axSt a = s.dev.axSt a) := by
  refine does_onDev (execCslRel m (w32 (2 ^ 31 + q.val))) rfl rfl hl ?_
  obtain ⟨x, hne, h4⟩ := hx
  obtain ⟨h1, h2, -, h3⟩ := requestRelease_refused (d := s.dev) (q := q) 0 q.isLt
    (.inl ⟨x, x.isLt, fun h => hne (Fin.ext h), h4⟩)
  have hw : (w32 (2 ^ 31 + q.val)).toNat = 2 ^ 31 + q.val :=
    (BitVec.toNat_ofNat _ _).trans (Nat.mod_eq_of_lt (by omega))
  have hbit : (2 ^ 31 + q.val).testBit 31 = true := by
    rw [Nat.testBit_two_pow_add_eq, Nat.testBit_lt_two_pow (by omega)]; rfl
  have hq : (2 ^ 31 + q.val) % 16 = q.val := by omega
  have he : asSlotWriter m CSL_REL (writeRel (w32 (2 ^ 31 + q.val))) s.dev = requestRelease q 0 s.dev := by
    rw [asSlotWriter, if_pos hr, writeRel, hw, if_pos hbit, hq]
  rw [he]
  exact ⟨h1, h2, fun a => h3 a a.isLt⟩

theorem segmentOpen_opens (hl : s.dev.sys.logicOn = true) (h4 : s.dev.get (CSL_STAT_STATE q) = 4)
    (hsw : s.dev.get (CSL_STAT_SEGSW q) = 1)
    (hrest : ∀ a : Fin 64, a.val / 4 = q.val → (s.dev.axSt a).driving = false ∧ s.dev.bemfAtLeast a 455 = false ∧
      max (s.dev.sixOf a).hotAt (s.dev.sixOf a).restAt + 20000000 ≤ s.dev.now) :
    Does (.segmentOpen q) s fun t => t.get (CSL_STAT_SEGSW q) = 0 ∧ t.bit PSE_SEG q = false ∧ t =
          { s.dev with regs := t.regs } ∧ sameRegs s.dev t ([CSL_STAT q, PSE_SEG]) := by
  refine does_onDev (execSegmentOpen q) rfl rfl hl ?_
  have hall : (quadAxes q).all (fun a => !(s.dev.axSt a).driving && !s.dev.bemfAtLeast a 455
      && decide (max (s.dev.sixOf a).hotAt (s.dev.sixOf a).restAt + 20000000 ≤ s.dev.now)) = true := by
    refine List.all_eq_true.2 fun a ha => ?_
    obtain ⟨h1, h2, h3⟩ := hrest ⟨a, quadAxes_lt q.isLt ha⟩ (mem_quadAxes.1 ha)
    simp only at h1 h2 h3
    simp [h1, h2, h3]
  rw [if_pos (by rw [hall, h4, Dev.on, hsw]; rfl)]
  refine ⟨?_, bit_clrBit_same _ _ (by omega), put_put_eq s.dev (CSL_STAT_SEGSW q) ⟨PSE_SEG, q, 1⟩ 0 0, ?_⟩
  · exact (get_clrSeg _ q q (f := CSL_STAT_SEGSW q) rfl).trans
      (get_put_const s.dev (CSL_STAT_SEGSW q) 0 rfl)
  · exact sameRegs_put (sameRegs_put (sameRegs_refl _ _) (CSL_STAT_SEGSW q) 0 List.mem_cons_self) ⟨PSE_SEG, q, 1⟩ 0
      (List.mem_cons_of_mem _ List.mem_cons_self)

theorem quadSafe_safe (hl : s.dev.sys.logicOn = true) (h4 : s.dev.get (CSL_STAT_STATE q) = 4)
    (hsw : s.dev.get (CSL_STAT_SEGSW q) = 0) :
    Does (.quadSafe q) s fun t => t.get (CSL_STAT_STATE q) = 5 ∧ (t.slotOf q).safeAt = s.dev.now ∧ t =
          { s.dev with regs := t.regs, slots := t.slots } ∧ sameRegs s.dev t ([CSL_STAT q]) := by
  refine does_onDev (execQuadSafe q) rfl rfl hl ?_
  rw [if_pos (by rw [h4, Dev.on, hsw]; rfl)]
  refine ⟨?_, ?_, rfl, ?_⟩
  · exact get_put_const s.dev (CSL_STAT_STATE q) 5 rfl
  · rw [slotOf_onSlot_same]
  · exact sameRegs_put (sameRegs_refl _ _) (CSL_STAT_STATE q) 5 List.mem_cons_self

/-- The state of a slot is written, the rest of its status word stays. -/
theorem get_lock_put_state (d : Dev) (q v : Nat) :
    (d.put (CSL_STAT_STATE q) v).get (CSL_STAT_LOCK q) = d.get (CSL_STAT_LOCK q) :=
  get_put_apart d (CSL_STAT_STATE q) (CSL_STAT_LOCK q) v rfl rfl

theorem get_segsw_put_state (d : Dev) (q v : Nat) :
    (d.put (CSL_STAT_STATE q) v).get (CSL_STAT_SEGSW q) = d.get (CSL_STAT_SEGSW q) :=
  get_put_apart d (CSL_STAT_STATE q) (CSL_STAT_SEGSW q) v rfl rfl

theorem get_put_state (d : Dev) (q v : Nat) (hv : v < 16) : (d.put (CSL_STAT_STATE q) v).get (CSL_STAT_STATE q) = v :=
  get_put_fits d (CSL_STAT_STATE q) rfl hv

/-- The states of the axes lie outside the slots' status words. -/
theorem axSt_put_slot (d : Dev) {f : Fld} {q : Nat} (hf : f.addr = CSL_STAT q) (v : Nat) {a : Nat} (ha : a < 64) :
    (d.put f v).axSt a = d.axSt a :=
  congrArg AxState.ofCode (get_put_ne d f (CU_STATE_STATE a) v
    (by rw [hf]; simp only [CSL_STAT, CU_STATE_STATE, CU_STATE]; omega))

/-- A release that is abandoned (R53). -/
theorem abandonRelease_spec (d : Dev) {q : Nat} (hq : q < 16) :
    (abandonRelease q d).get (CSL_STAT_STATE q) = 2 ∧
      (d.get (CSL_STAT_SEGSW q) = 0 → ((abandonRelease q d).slotOf q).reclose = true) ∧
      (abandonRelease q d).pend 1009 = true ∧ ∀ a < 64, (abandonRelease q d).axSt a = d.axSt a := by
  unfold abandonRelease
  extract_lets e1 e2
  have hst : e2.regs = e1.regs := by simp only [e2]; split <;> rfl
  have hreg : ∀ r, e2.reg r = e1.reg r := fun r => by rw [Dev.reg, hst]; rfl
  have hs : Steady Watched e2 (raise 1009 (journal 5 0 [1009, q, 1] e2)) :=
    ((steady_journal 5 0 [1009, q, 1] e2).mono fun _ => Watched.far).trans
      (steady_raise (fun _ => Watched.above_events) (by decide) _)
  refine ⟨?_, fun h0 => ?_, pend_raise_same (by decide) _, fun a ha => ?_⟩
  · rw [hs.get (f := CSL_STAT_STATE q) (watched_slot hq), Dev.get, hreg]
    exact get_put_state d q 2 (by decide)
  · have hopen : e1.on (CSL_STAT_SEGSW q) = false := by rw [Dev.on, get_segsw_put_state, h0]; rfl
    have he : e2 = e1.onSlot q fun s => { s with reclose := true } := if_neg (by rw [hopen]; decide)
    rw [hs.slotOf, he, slotOf_onSlot_same]
  · rw [hs.axSt (watched_state ha), Dev.axSt, Dev.get, hreg]
    exact axSt_put_slot d (f := CSL_STAT_STATE q) rfl 2 ha

theorem releaseTimeout_abandons (hl : s.dev.sys.logicOn = true) (h4 : s.dev.get (CSL_STAT_STATE q) = 4)
    (ht : (s.dev.slotOf q).relAt + max 1 (s.dev.get CSL_RTO_SEC) * 200000000 ≤ s.dev.now) :
    Does (.releaseTimeout q) s fun t => t.get (CSL_STAT_STATE q) = 2 ∧ (s.dev.get (CSL_STAT_SEGSW q) = 0 → (t.slotOf
          q).reclose = true) ∧ t.pend 1009 = true ∧ (∀ a : Fin 64, t.axSt a = s.dev.axSt a) := by
  refine does_onDev (execReleaseTimeout q) rfl rfl hl ?_
  obtain ⟨h1, h2, h3, h⟩ := abandonRelease_spec s.dev q.isLt
  rw [if_pos (by simp [h4, ht])]
  exact ⟨h1, h2, h3, fun a => h a a.isLt⟩

/-! ### Acceptance again -/

/-- The start of a check (R50). -/
theorem beginCheck_spec (d : Dev) {q : Nat} (hq : q < 16) :
    (beginCheck q d).get (CSL_STAT_STATE q) = 1 ∧ (beginCheck q d).get (CSL_STAT_LOCK q) = d.get (CSL_STAT_LOCK q) ∧
      ((beginCheck q d).slotOf q).stage = .checking ∧ (beginCheck q d).pend 1010 = true := by
  have hs := steady_raise (K := Watched) (fun _ => Watched.above_events) (by decide : 1010 < 1024)
    (((d.put (CSL_STAT_STATE q) 1).put (CSL_STAT_REASON q) 0).onSlot q fun s => { s with stage := .checking })
  refine ⟨?_, ?_, ?_, pend_raise_same (by decide) _⟩
  · refine (hs.get (f := CSL_STAT_STATE q) (watched_slot hq)).trans ?_
    exact (get_put_apart (d.put (CSL_STAT_STATE q) 1) (CSL_STAT_REASON q) (CSL_STAT_STATE q) 0 rfl rfl).trans
      (get_put_state d q 1 (by decide))
  · refine (hs.get (f := CSL_STAT_LOCK q) (watched_slot hq)).trans ?_
    exact (get_put_apart (d.put (CSL_STAT_STATE q) 1) (CSL_STAT_REASON q) (CSL_STAT_LOCK q) 0 rfl rfl).trans
      (get_lock_put_state d q 1)
  · exact (congrArg SlotH.stage (hs.slotOf q)).trans (congrArg SlotH.stage (slotOf_onSlot_same _ _ _))

/-- The followed registers but the states of a quad's axes. -/
def WatchedButQuad (q r : Nat) : Prop := Watched r ∧ ∀ a ∈ quadAxes q, r ≠ CU_STATE a

/-- The axes of a quad whose cartridge goes. -/
def leaveQuad (q : Nat) (d : Dev) : Dev :=
  d.each (quadAxes q) fun a d => endClaim a ((setAxState a .absent d).onPort a fun _ => {})

/-- The ports of a quad whose cartridge goes. -/
def unplugQuad (q : Nat) (d : Dev) : Dev :=
  d.each (quadAxes q) fun a d => if d.get (CSL_PORT_ST q (a % 4)) = 0 then d else raiseAx a 11 d

/-- The results of a cluster whose cartridge goes. -/
def emptyResults (q : Nat) (d : Dev) : Dev :=
  d.each (resultRegs q ++ urgentRegs q) fun r d => { (d.setReg r (resetWord r)) with stamp := tset none d.stamp r none }

/-- What vacating a slot does before the segment switch opens. -/
def vacated (q : Nat) (d : Dev) : Dev :=
  (emptyResults q (refOff q (calLost q (((unplugQuad q (leaveQuad q d)).setReg (CSL_PORT q) 0).setReg (CSL_NTC q) 0)))).onClu q
    fun c => { c with idPos := [], idNeg := [] }

/-- The last steps of vacating a slot: the segment switch opens, the bond ends. -/
def openSegment (q : Nat) (d : Dev) : Dev :=
  { ((d.put (CSL_STAT_SEGSW q) 0).clrBit PSE_SEG q).onSlot q (fun s => { s with reclose := false }) with
    bond := tset 0 ((d.put (CSL_STAT_SEGSW q) 0).clrBit PSE_SEG q).bond q 0 }

/-- Vacating a slot, in its steps. -/
theorem vacate_eq (q : Nat) (d : Dev) : vacate q d = openSegment q (vacated q d) := rfl

theorem steady_vacated (d : Dev) {q : Nat} (hq : q < 16) : Steady (WatchedButQuad q) d (vacated q d) := by
  have h1 : Steady (WatchedButQuad q) d (leaveQuad q d) := .each (fun a ha t =>
    (((steady_setAxState t (quadAxes_lt hq ha) .absent).mono fun _ h => ⟨h.1, h.2 a ha⟩).onPort a _).trans
      ((steady_endClaim _ a).mono fun _ h => h.1.far)) d
  have h2 : ∀ t, Steady Watched t (unplugQuad q t) := .each fun a ha t => by
    have h64 := quadAxes_lt hq ha
    exact .ite (.refl _ t) (steady_raise (fun _ => Watched.above_events) (by omega) t)
  have h3 : ∀ t : Dev, Steady Watched t ((t.setReg (CSL_PORT q) 0).setReg (CSL_NTC q) 0) := fun t =>
    (Steady.setReg t 0 (by simp only [Watched, CSL_PORT]; omega) (.inr (by simp only [EVC_PEND, CSL_PORT]; omega))).trans
      (.setReg _ 0 (by simp only [Watched, CSL_NTC]; omega) (.inr (by simp only [EVC_PEND, CSL_NTC]; omega)))
  have h4 : ∀ t, Steady Watched t (refOff q (calLost q t)) := fun t => (steady_calLost t hq).trans (steady_refOff _ hq)
  have h5 : ∀ t, Steady Watched t (emptyResults q t) := .each fun r hr t =>
    (steady_setReg_cluster t (resetWord r) (inClusters_results hq hr)).stamp _
  exact h1.trans (((((h2 _).trans (h3 _)).trans (h4 _)).trans (h5 _)).onClu q _ |>.mono fun _ => And.left)

/-- A change of the bonds leaves the fields. -/
theorem get_setBond (d : Dev) (b : Tab Nat) (f : Fld) : Dev.get { d with bond := b } f = d.get f := rfl

/-- Opening the segment leaves the lock. -/
theorem get_lock_openSegment (d : Dev) (q : Nat) :
    (openSegment q d).get (CSL_STAT_LOCK q) = d.get (CSL_STAT_LOCK q) := by
  rw [openSegment, get_setBond, onSlot_get]
  exact ((get_clrSeg (d.put (CSL_STAT_SEGSW q) 0) q q (f := CSL_STAT_LOCK q) rfl).trans
      (get_put_apart d (CSL_STAT_SEGSW q) (CSL_STAT_LOCK q) 0 rfl rfl))

/-- A slot that is vacated keeps its lock (R17, R53). -/
theorem get_lock_vacate (d : Dev) {q : Nat} (hq : q < 16) :
    (vacate q d).get (CSL_STAT_LOCK q) = d.get (CSL_STAT_LOCK q) := by
  rw [vacate_eq, get_lock_openSegment]
  refine (steady_vacated d hq).get (f := CSL_STAT_LOCK q) ⟨watched_slot hq, fun a ha => ?_⟩
  have h64 := quadAxes_lt hq ha
  simp only [CSL_STAT_LOCK, CSL_STAT, CU_STATE]
  omega

/-- Acceptance runs again with the lock closed (R53). -/
theorem acceptAgain_spec (d : Dev) {q : Nat} (hq : q < 16) :
    (acceptAgain q d).get (CSL_STAT_STATE q) = 1 ∧ (acceptAgain q d).get (CSL_STAT_LOCK q) = 1 ∧
      ((acceptAgain q d).slotOf q).stage = .checking ∧ (acceptAgain q d).pend 1010 = true := by
  obtain ⟨h1, h2, h3, h4⟩ := beginCheck_spec (vacate q (d.put (CSL_STAT_LOCK q) 1)) hq
  exact ⟨h1, h2.trans ((get_lock_vacate _ hq).trans (get_put_const d (CSL_STAT_LOCK q) 1 rfl)), h3, h4⟩

theorem ackTimeout_acceptsAgain (hl : s.dev.sys.logicOn = true) (h5 : s.dev.get (CSL_STAT_STATE q) = 5)
    (ht : (s.dev.slotOf q).safeAt + 6000000000 ≤ s.dev.now) :
    Does (.ackTimeout q) s fun t => t.get (CSL_STAT_STATE q) = 1 ∧ t.get (CSL_STAT_LOCK q) = 1 ∧ (t.slotOf q).stage
          = .checking ∧ t.pend 1010 = true := by
  refine does_onDev (execAckTimeout q) rfl rfl hl ?_
  rw [if_pos (by simp [h5, ht])]
  exact acceptAgain_spec s.dev q.isLt

theorem withdrawTimeout_acceptsAgain (hl : s.dev.sys.logicOn = true) (h6 : s.dev.get (CSL_STAT_STATE q) = 6)
    (ht : (s.dev.slotOf q).openAt + 12000000000 ≤ s.dev.now) :
    Does (.withdrawTimeout q) s fun t => t.get (CSL_STAT_STATE q) = 1 ∧ t.get (CSL_STAT_LOCK q) = 1 ∧ (t.slotOf
          q).stage = .checking ∧ t.pend 1010 = true := by
  refine does_onDev (execWithdrawTimeout q) rfl rfl hl ?_
  rw [if_pos (by simp [h6, ht])]
  exact acceptAgain_spec s.dev q.isLt

end

/-! ### Acceptance (R50, R51, R104) -/

section
variable (s : State) (q : Fin 16)

theorem presenceMake_seats (i : Ident) (h0 : s.dev.get (CSL_STAT_PRES q) = 0) :
    Does (.presenceMake q i) s fun t => t.get (CSL_STAT_PRES q) = 1 ∧ (t.slotOf q).ident = some i ∧ (t.slotOf
          q).presAt = s.dev.now ∧ (t.slotOf q).stage = .presence ∧ t = { s.dev with regs := t.regs, slots := t.slots }
          ∧ sameRegs s.dev t ([CSL_STAT q]) := by
  refine does_onAny (execPresenceMake q i) rfl rfl ?_
  rw [if_neg (by simp [Dev.occupied, Dev.on, h0])]
  refine ⟨?_, ?_, ?_, ?_, (((SlotShape.refl s.dev).put (CSL_STAT_PRES q) 1).onSlot q _).eq, ?_⟩
  · exact get_put_const s.dev (CSL_STAT_PRES q) 1 rfl
  · rw [slotOf_onSlot_same]
  · rw [slotOf_onSlot_same]
  · rw [slotOf_onSlot_same]
  · exact sameRegs_put (sameRegs_refl _ _) (CSL_STAT_PRES q) 1 List.mem_cons_self

theorem cartridgeCheckStart_begins (hl : s.dev.sys.logicOn = true) (hst : (s.dev.slotOf q).stage = .presence)
    (hp : s.dev.get (CSL_STAT_PRES q) = 1) (hm : s.dev.mode ≠ .selftest) (hm' : s.dev.mode ≠ .dormant)
    (ht : (s.dev.slotOf q).presAt + 2000000 ≤ s.dev.now) (hb : (s.dev.slotOf q).boot = false) :
    Does (.cartridgeCheckStart q) s fun t => t.get (CSL_STAT_STATE q) = 1 ∧ (t.slotOf q).stage = .checking ∧ t.pend
          1010 = true ∧ t = { s.dev with regs := t.regs, slots := t.slots, evs := t.evs } ∧ sameRegs s.dev t
          ((CSL_STAT q :: evRegs 1010)) := by
  refine does_onDev (execCartridgeCheckStart q) rfl rfl hl ?_
  rw [if_pos (by simp [hst, Dev.occupied, Dev.on, hp, hm, hm', ht, Dev.bootTurn, hb])]
  obtain ⟨h1, -, h3, h4⟩ := beginCheck_spec s.dev q.isLt
  refine ⟨h1, h3, h4, ?_, ?_⟩
  · exact ((((SlotShape.refl s.dev).put (CSL_STAT_STATE q) 1).put (CSL_STAT_REASON q) 0).onSlot q _).raise_eq 1010
  · have hput := sameRegs_put (sameRegs_put (sameRegs_refl s.dev (CSL_STAT q :: evRegs 1010)) (CSL_STAT_STATE q) 1
      List.mem_cons_self) (CSL_STAT_REASON q) 0 List.mem_cons_self
    exact sameRegs_raise (sameRegs_trans hput fun _ _ => onSlot_reg _ _ _ _) 1010 fun _ h => List.mem_cons_of_mem _ h

/-- A refusal (R51). -/
theorem refuseCartridge_spec (d : Dev) {q : Nat} (hq : q < 16) {r : Nat} (hr : r < 16) :
    (refuseCartridge q r d).get (CSL_STAT_STATE q) = 3 ∧ (refuseCartridge q r d).get (CSL_STAT_REASON q) = r ∧
      (refuseCartridge q r d).get (CSL_STAT_LOCK q) = 0 ∧ (refuseCartridge q r d).get (CSL_STAT_SEGSW q) = 0 ∧
      (refuseCartridge q r d).pend 1012 = true := by
  unfold refuseCartridge
  extract_lets e1 e2
  have hs : Steady Watched (e2.onSlot q fun s => { s with stage := .idle, boot := false }) (cartridgeRecord q (raise 1012
      (e2.onSlot q fun s => { s with stage := .idle, boot := false }))) :=
    (steady_raise (fun _ => Watched.above_events) (by decide) _).trans
      ((steady_cartridgeRecord q _).mono fun _ => Watched.far)
  have hget : ∀ {f : Fld}, f.addr = CSL_STAT q → (cartridgeRecord q (raise 1012
      (e2.onSlot q fun s => { s with stage := .idle, boot := false }))).get f = (e1.put (CSL_STAT_SEGSW q) 0).get f :=
    fun {f} hf => (hs.get (hf ▸ watched_slot hq)).trans ((onSlot_get e2 q _ f).trans (get_clrSeg _ q q hf))
  have hseg : ∀ {f : Fld}, f.addr = CSL_STAT q → apart (CSL_STAT_SEGSW q) f = true →
      (e1.put (CSL_STAT_SEGSW q) 0).get f = e1.get f := fun {f} hf ha => get_put_apart e1 (CSL_STAT_SEGSW q) f 0 hf ha
  have hlock : ∀ {f : Fld}, f.addr = CSL_STAT q → apart (CSL_STAT_LOCK q) f = true →
      e1.get f = ((d.put (CSL_STAT_STATE q) 3).put (CSL_STAT_REASON q) r).get f := fun {f} hf ha =>
    get_put_apart _ (CSL_STAT_LOCK q) f 0 hf ha
  refine ⟨?_, ?_, ?_, ?_, ?_⟩
  · rw [hget rfl, hseg rfl rfl, hlock rfl rfl, get_put_apart _ (CSL_STAT_REASON q) (CSL_STAT_STATE q) r rfl rfl]
    exact get_put_const d (CSL_STAT_STATE q) 3 rfl
  · rw [hget rfl, hseg rfl rfl, hlock rfl rfl]
    exact get_put_fits _ (CSL_STAT_REASON q) rfl hr
  · rw [hget rfl, hseg rfl rfl]
    exact get_put_const _ (CSL_STAT_LOCK q) 0 rfl
  · rw [hget rfl]
    exact get_put_const e1 (CSL_STAT_SEGSW q) 0 rfl
  · exact (steady_cartridgeRecord q _).pend 1012 (by decide) (pend_raise_same (by decide) _)

theorem identityRead_passes (i : Ident) (hl : s.dev.sys.logicOn = true) (hst : (s.dev.slotOf q).stage = .checking)
    (hi : (s.dev.slotOf q).ident = some i) (hc : i.crcOk = true) (hlet : i.letter = 2) (hd : 2 ≤ i.digit)
    (hd' : i.digit < 16) (hcal : i.calOk = true) (hv : 16000 ≤ s.dev.get PSE_VLINK_VLINK) :
    Does (.identityRead q) s fun t => t.get (CSL_STAT_STEPL q) = 2 ∧ t.get (CSL_STAT_STEPD q) = i.digit ∧ (t.slotOf
          q).stage = .precharge ∧ t = { s.dev with regs := t.regs, slots := t.slots } ∧ sameRegs s.dev t ([CSL_STAT
          q]) := by
  have hlink : ((s.dev.put (CSL_STAT_STEPL q) i.letter).put (CSL_STAT_STEPD q) i.digit).get PSE_VLINK_VLINK =
      s.dev.get PSE_VLINK_VLINK := by
    have hne : PSE_VLINK_VLINK.addr ≠ CSL_STAT q := by simp only [PSE_VLINK_VLINK, PSE_VLINK, CSL_STAT]; omega
    rw [get_put_ne _ (CSL_STAT_STEPD q) _ _ hne, get_put_ne _ (CSL_STAT_STEPL q) _ _ hne]
  have hpos : ¬ s.dev.get PSE_VLINK_VLINK < 16000 := by omega
  have hsup : stepSupported i = true := by simp [stepSupported, hlet, hd]
  refine does_onDev_of_eq (t := ((s.dev.put (CSL_STAT_STEPL q) i.letter).put (CSL_STAT_STEPD q) i.digit).onSlot q fun s =>
    { s with stage := .precharge }) (execIdentityRead q) rfl rfl hl ?_ ?_
  · simp only [hst, hi, hc, hsup, hcal, hlink, if_neg hpos, Bool.not_true, Bool.false_eq_true, if_false]
  have hshape := (((SlotShape.refl s.dev).put (CSL_STAT_STEPL q) i.letter).put (CSL_STAT_STEPD q) i.digit).onSlot q
    fun s => { s with stage := .precharge }
  refine ⟨?_, ?_, ?_, hshape.eq, ?_⟩
  · rw [onSlot_get, get_put_apart _ (CSL_STAT_STEPD q) (CSL_STAT_STEPL q) _ rfl rfl, hlet]
    exact get_put_const s.dev (CSL_STAT_STEPL q) 2 rfl
  · rw [onSlot_get]
    exact get_put_fits _ (CSL_STAT_STEPD q) rfl hd'
  · rw [slotOf_onSlot_same]
  · exact sameRegs_trans (sameRegs_put (sameRegs_put (sameRegs_refl _ _) (CSL_STAT_STEPL q) i.letter List.mem_cons_self)
      (CSL_STAT_STEPD q) i.digit List.mem_cons_self) fun _ _ => onSlot_reg _ _ _ _

theorem identityRead_wrongStep (i : Ident) (hl : s.dev.sys.logicOn = true) (hst : (s.dev.slotOf q).stage = .checking)
    (hi : (s.dev.slotOf q).ident = some i) (hc : i.crcOk = true) (hstep : i.letter ≠ 2 ∨ i.digit < 2) :
    Does (.identityRead q) s fun t => t.get (CSL_STAT_STATE q) = 3 ∧ t.get (CSL_STAT_REASON q) = 2 ∧ t.get
          (CSL_STAT_LOCK q) = 0 ∧ t.get (CSL_STAT_SEGSW q) = 0 ∧ t.pend 1012 = true := by
  refine does_onDev (execIdentityRead q) rfl rfl hl ?_
  have hsup : stepSupported i = false := by
    unfold stepSupported
    rcases hstep with h | h
    · simp [h]
    · simp [Nat.not_le.2 h]
  simp only [hst, hi, hc, hsup, Bool.not_true, Bool.not_false, Bool.false_eq_true, if_false, if_true]
  exact refuseCartridge_spec _ q.isLt (by decide)

theorem acceptanceResume_precharges (v : Fin 65536) (hl : s.dev.sys.logicOn = true)
    (hst : (s.dev.slotOf q).stage = .waitLink) (hv : 16000 ≤ v.val) :
    Does (.acceptanceResume q v) s fun t => (t.slotOf q).stage = .precharge ∧ t.get PSE_VLINK_VLINK = v.val ∧ t =
          { s.dev with regs := t.regs, slots := t.slots } ∧ sameRegs s.dev t ([PSE_VLINK]) := by
  refine does_onDev (execAcceptanceResume q v) rfl rfl hl ?_
  have hc : (((s.dev.put PSE_VLINK_VLINK v).slotOf q).stage = .waitLink && 16000 ≤ v.val) = true := by
    have : ((s.dev.put PSE_VLINK_VLINK v).slotOf q).stage = .waitLink := hst
    simp [this, hv]
  simp only [if_pos hc]
  refine ⟨?_, ?_, (((SlotShape.refl s.dev).put PSE_VLINK_VLINK v).onSlot q _).eq, ?_⟩
  · rw [slotOf_onSlot_same]
  · exact get_put_fits s.dev PSE_VLINK_VLINK rfl v.isLt
  · exact sameRegs_trans (sameRegs_put (sameRegs_refl _ _) PSE_VLINK_VLINK v List.mem_cons_self) fun _ _ => onSlot_reg _ _ _ _

theorem segmentPrechargeDone_closes (hl : s.dev.sys.logicOn = true) (hst : (s.dev.slotOf q).stage = .precharge) :
    Does (.segmentPrechargeDone q true true) s fun t => t.get (CSL_STAT_SEGSW q) = 1 ∧ t.bit PSE_SEG q = true ∧
          t.bit PSE_SEG (16 + q) = true ∧ (t.slotOf q).stage = .ready ∧ t =
          { s.dev with regs := t.regs, slots := t.slots } ∧ sameRegs s.dev t ([CSL_STAT q, PSE_SEG]) := by
  refine does_onDev_of_eq (t := (((s.dev.setBit PSE_SEG (16 + q)).put (CSL_STAT_SEGSW q) 1).setBit PSE_SEG q).onSlot q
    fun s => { s with stage := .ready }) (execSegmentPrechargeDone q true true) rfl rfl hl ?_ ?_
  · simp only [hst, if_true, Bool.not_true, Bool.false_eq_true, if_false]
  have hfuse : ((s.dev.setBit PSE_SEG (16 + q)).put (CSL_STAT_SEGSW q) 1).bit PSE_SEG (16 + q) = true := by
    rw [Dev.bit, Dev.on, get_put_ne _ (CSL_STAT_SEGSW q) ⟨PSE_SEG, 16 + q, 1⟩ 1 (slot_ne_seg q).symm]
    exact bit_setBit_same s.dev PSE_SEG (by omega)
  have hsw : ((s.dev.setBit PSE_SEG (16 + q)).put (CSL_STAT_SEGSW q) 1).get (CSL_STAT_SEGSW q) = 1 :=
    get_put_const (s.dev.setBit PSE_SEG (16 + q)) (CSL_STAT_SEGSW q) 1 rfl
  have hshape := ((((SlotShape.refl s.dev).put ⟨PSE_SEG, 16 + q, 1⟩ 1).put (CSL_STAT_SEGSW q) 1).put
    ⟨PSE_SEG, q, 1⟩ 1).onSlot q fun s => { s with stage := .ready }
  refine ⟨?_, ?_, ?_, ?_, hshape.eq, ?_⟩
  · rw [onSlot_get, get_setSeg _ q q (f := CSL_STAT_SEGSW q) rfl, hsw]
  · rw [Dev.bit, Dev.on, onSlot_get]
    exact bit_setBit_same ((s.dev.setBit PSE_SEG (16 + q)).put (CSL_STAT_SEGSW q) 1) PSE_SEG (by omega : q.val < 32)
  · rw [Dev.bit, Dev.on, onSlot_get]
    exact bit_setBit_of_bit ((s.dev.setBit PSE_SEG (16 + q)).put (CSL_STAT_SEGSW q) 1) PSE_SEG (by omega : q.val < 32) hfuse
  · rw [slotOf_onSlot_same]
  · exact sameRegs_trans (sameRegs_put (sameRegs_put (sameRegs_put (sameRegs_refl _ _) ⟨PSE_SEG, 16 + q, 1⟩ 1 (by simp))
      (CSL_STAT_SEGSW q) 1 List.mem_cons_self) ⟨PSE_SEG, q, 1⟩ 1 (by simp)) fun _ _ => onSlot_reg _ _ _ _

theorem segmentPrechargeDone_fails (f : Bool) (hl : s.dev.sys.logicOn = true)
    (hst : (s.dev.slotOf q).stage = .precharge) :
    Does (.segmentPrechargeDone q false f) s fun t => t.get (CSL_STAT_STATE q) = 3 ∧ t.get (CSL_STAT_REASON q) = 4 ∧
          t.get (CSL_STAT_SEGSW q) = 0 ∧ t.pend 1012 = true := by
  refine does_onDev (execSegmentPrechargeDone q false f) rfl rfl hl ?_
  simp only [hst, if_true, Bool.not_false]
  obtain ⟨h1, h2, -, h4, h5⟩ := refuseCartridge_spec (if f = true then s.dev.setBit PSE_SEG (16 + q) else
    s.dev.clrBit PSE_SEG (16 + q)) q.isLt (by decide : 4 < 16)
  exact ⟨h1, h2, h4, h5⟩

end

section
variable {l : List Nat} (hl : ∀ a ∈ l, a < 64) (st : AxState) {a : Nat} (ha : a < 64)
include hl ha

/-- The states of axes after a list of them took a state. -/
theorem axSt_each_setAxState : ∀ d : Dev,
    (d.each l fun a d => setAxState a st d).axSt a = if a ∈ l then st else d.axSt a := by
  induction l with
  | nil => exact fun d => rfl
  | cons x l ih =>
    intro d
    refine (ih (fun y hy => hl y (List.mem_cons_of_mem _ hy)) (setAxState x st d)).trans ?_
    have hx := hl x List.mem_cons_self
    by_cases hal : a ∈ l
    · rw [if_pos hal, if_pos (List.mem_cons_of_mem _ hal)]
    · by_cases hax : a = x
      · subst hax
        rw [if_neg hal, if_pos List.mem_cons_self, axSt_setAxState_same d hx]
      · rw [if_neg hal, if_neg (by simp [hax, hal]), axSt_setAxState_ne d hx ha hax]

/-- Each axis whose state changed has raised STATE_CHANGE. -/
theorem pend_each_setAxState (hal : a ∈ l) : ∀ d : Dev, d.axSt a ≠ st →
    (d.each l fun a d => setAxState a st d).pend (12 * a + 10) = true := by
  induction l with
  | nil => exact absurd hal List.not_mem_nil
  | cons x l ih =>
    intro d hne
    have hx := hl x List.mem_cons_self
    have hl' : ∀ y ∈ l, y < 64 := fun y hy => hl y (List.mem_cons_of_mem _ hy)
    by_cases hax : a = x
    · subst hax
      exact (Steady.each (K := fun _ => False) (fun y hy t => (steady_setAxState t (hl' y hy) st).mono fun _ => False.elim)
        (setAxState a st d)).pend _ (by omega) (pend_setAxState d hx hne)
    · refine ih hl' ((List.mem_cons.1 hal).resolve_left hax) (setAxState x st d) ?_
      rwa [axSt_setAxState_ne d hx ha hax]

end

section
variable (s : State) (q : Fin 16)

theorem cartridgeAccept_accepts (hl : s.dev.sys.logicOn = true) (hst : (s.dev.slotOf q).stage = .ready)
    (habs : ∀ a : Fin 64, a.val / 4 = q.val → s.dev.axSt a = .absent) :
    Does (.cartridgeAccept q true) s fun t => t.get (CSL_STAT_STATE q) = 2 ∧ t.get (CSL_STAT_LOCK q) = 1 ∧ (∀ a :
          Fin 64, t.axSt a = (if a.val / 4 = q.val then .off else s.dev.axSt a)) ∧ (∀ a : Fin 64, a.val / 4 = q.val →
          t.pend (12 * a + 10) = true) := by
  refine does_onDev (execCartridgeAccept q true) rfl rfl hl ?_
  rw [if_neg (by simp [hst]), if_neg (by decide)]
  extract_lets e0 e1 e2 e3 e4
  have hq := q.isLt
  have hquad : ∀ a ∈ quadAxes q, a < 64 := fun a => quadAxes_lt hq
  have hax1 : ∀ a < 64, e1.axSt a = s.dev.axSt a := fun a ha =>
    (axSt_put_slot (e0.put (CSL_STAT_STATE q) 2) (f := CSL_STAT_LOCK q) rfl 1 ha).trans
      (axSt_put_slot e0 (f := CSL_STAT_STATE q) rfl 2 ha)
  have hstate1 : e1.get (CSL_STAT_STATE q) = 2 :=
    (get_put_apart _ (CSL_STAT_LOCK q) (CSL_STAT_STATE q) 1 rfl rfl).trans (get_put_const e0 (CSL_STAT_STATE q) 2 rfl)
  have hlock1 : e1.get (CSL_STAT_LOCK q) = 1 := get_put_const _ (CSL_STAT_LOCK q) 1 rfl
  have h3 : Steady Watched e1 e3 := ((steady_loadTrims e1 hq).trans (steady_setRefen _ hq true)).onLink q _
  have h4 : Steady (WatchedButQuad q) e3 e4 := .each (fun a ha t =>
    (steady_setAxState t (hquad a ha) .off).mono fun _ h => ⟨h.1, h.2 a ha⟩) e3
  have h5 : Steady Watched e4 (cartridgeRecord q e4) := (steady_cartridgeRecord q e4).mono fun _ => Watched.far
  have hslot : WatchedButQuad q (CSL_STAT q) := ⟨watched_slot hq, fun a ha => by
    have := hquad a ha
    simp only [CSL_STAT, CU_STATE]; omega⟩
  refine ⟨?_, ?_, fun a => ?_, fun a ha => ?_⟩
  · exact ((h5.get (f := CSL_STAT_STATE q) hslot.1).trans (h4.get (f := CSL_STAT_STATE q) hslot)).trans
      ((h3.get (f := CSL_STAT_STATE q) hslot.1).trans hstate1)
  · exact ((h5.get (f := CSL_STAT_LOCK q) hslot.1).trans (h4.get (f := CSL_STAT_LOCK q) hslot)).trans
      ((h3.get (f := CSL_STAT_LOCK q) hslot.1).trans hlock1)
  · have hw := watched_state a.isLt
    rw [h5.axSt hw, axSt_each_setAxState hquad .off a.isLt e3, h3.axSt hw, hax1 a a.isLt]
    simp only [mem_quadAxes]
  · have h := pend_each_setAxState hquad .off a.isLt (mem_quadAxes.2 ha) e3 (by
      rw [h3.axSt (watched_state a.isLt), hax1 a a.isLt, habs a ha]
      decide)
    exact h5.pend _ (by omega) h

theorem cartridgeRemoved_empties (hl : s.dev.sys.logicOn = true) (hp : s.dev.get (CSL_STAT_PRES q) = 1)
    (h3 : s.dev.get (CSL_STAT_STATE q) = 3) :
    Does (.cartridgeRemoved q) s fun t => t.reg (CSL_STAT q) = 0 ∧ t.bit PSE_SEG q = false ∧ (t.slotOf q).ident =
          none ∧ t.pend 1011 = true := by
  refine does_onAny (execCartridgeRemoved q) rfl rfl ?_
  rw [if_neg (by simp [Dev.occupied, Dev.on, hp]), if_neg (by simp [hl])]
  extract_lets st e0 was e1 e2 e3 e4
  have he0 : e0 = s.dev := if_neg (by simp [st, h3])
  have hs : Steady Far e4 (raise 1011 e4) := steady_raise (fun _ => Far.above_events) (by decide) _
  have hclr : (e2.setReg (CSL_STAT q) 0 |>.clrBit PSE_SEG q).bit PSE_SEG q = false := bit_clrBit_same _ _ (by omega)
  refine ⟨?_, ?_, ?_, pend_raise_same (by decide) _⟩
  · refine (hs.reg _ (watched_slot q.isLt).far).trans ?_
    refine (onSlot_reg e3 q _ _).trans ?_
    refine (reg_put_ne _ ⟨PSE_SEG, 16 + q, 1⟩ 0 (slot_ne_seg q)).trans ?_
    refine (reg_put_ne _ ⟨PSE_SEG, q, 1⟩ 0 (slot_ne_seg q)).trans ?_
    exact reg_setReg_same e2 _ 0
  · rw [Dev.bit, Dev.on, hs.get (f := ⟨PSE_SEG, q, 1⟩) (show Far PSE_SEG by unfold Far; decide), onSlot_get]
    exact bit_clrBit_of_clear _ PSE_SEG (by omega) hclr
  · rw [hs.slotOf, slotOf_onSlot_same]

theorem cartcal_writes (i : Ident) (r : JRec) (hl : s.dev.sys.logicOn = true) (hm : s.dev.mode = .service)
    (hi : (s.dev.slotOf q).ident = some i) (hr : liveRec s.dev.jnl.log 12 (i.serial % 2 ^ 32) = some r) :
    Does (.cartcal q) s fun t => (t.slotOf q).ident = some
          { i with ofsA := r.payload.getD 1 0, gainA := r.payload.getD 2 0, ofsB := r.payload.getD 3 0,
                   gainB := r.payload.getD 4 0, skewB := r.payload.getD 5 0, calt := r.payload.getD 6 0 } := by
  refine does_onDev (execCartcal q) rfl rfl hl ?_
  simp only [hm, hi, hr]
  rw [(steady_journal 1 3 [q] _).slotOf, slotOf_onSlot_same]
  rfl

end

/-- Settles O3: each press, timeout and step of an acceptance by its own lemma. -/
theorem panelAndCartridges : Obligations.PanelAndCartridges :=
  ⟨fun s k _ hl hm hn hq => keySelect_selects s k hl hm hn hq,
   fun s k hl hm => keySelect_dormant s k hl hm,
   fun s _ hl hk ht => selectionLapse_lapses s hl hk ht,
   fun s k q hl hm hv hs hne => releaseHold_refused s k q hl hm hv hs hne,
   fun s k q hl hm hv hs h2 hx hrest => releaseHold_starts s k q hl hm hv hs h2 hx hrest,
   fun s k q hl hm hv hs h5 ht => keyAck_unlocks s k q hl hm hv hs h5 ht,
   fun s m q hl hr hx => cslRel_refused s q m hl hr hx,
   fun s q hl h4 hsw hrest => segmentOpen_opens s q hl h4 hsw hrest,
   fun s q hl h4 hsw => quadSafe_safe s q hl h4 hsw,
   fun s q hl h4 ht => releaseTimeout_abandons s q hl h4 ht,
   fun s q hl h5 ht => ackTimeout_acceptsAgain s q hl h5 ht,
   fun s q hl h6 ht => withdrawTimeout_acceptsAgain s q hl h6 ht,
   fun s q i h0 => presenceMake_seats s q i h0,
   fun s q hl hst hp hm hm' ht hb => cartridgeCheckStart_begins s q hl hst hp hm hm' ht hb,
   fun s q i hl hst hi hc hlet hd hd' hcal hv => identityRead_passes s q i hl hst hi hc hlet hd hd' hcal hv,
   fun s q i hl hst hi hc hstep => identityRead_wrongStep s q i hl hst hi hc hstep,
   fun s q v hl hst hv => acceptanceResume_precharges s q v hl hst hv,
   fun s q hl hst => segmentPrechargeDone_closes s q hl hst,
   fun s q f hl hst => segmentPrechargeDone_fails s q f hl hst,
   fun s q hl hst habs => cartridgeAccept_accepts s q hl hst habs,
   fun s q hl hp h3 => cartridgeRemoved_empties s q hl hp h3,
   fun s q i r hl hm hi hr => cartcal_writes s q i r hl hm hi hr⟩

/-! SUPPORT. What a control message does on its way (R384 to R392), and the statement of the client slots (O45). -/

/-! ### The slot of a message -/

section
variable (d : Dev) (z : Nat) (h : Ctl) (m : Msg)

/-- The block when a message with a valid check has refreshed its slot and taken its token. -/
def ready : Dev := spend z (heard z h d)

/-- The client of the slot by then. -/
theorem clientOf_ready : (ready d z h).clientOf z = { d.clientOf z with
    heard := d.now, link := h.link, node := h.src, tok := (heard z h d).tokens z - 200000000, tokAt := d.now } := by
  rw [ready, spend, clientOf_onClient_same, heard, clientOf_onClient_same]
  rfl

theorem ready_shape : ∃ cl, ready d z h = { d with clients := cl } := ⟨_, rfl⟩

/-- A heartbeat leaves the tokens. -/
theorem tokens_heard : (heard z h d).tokens z = d.tokens z := by
  unfold Dev.tokens
  rw [heard, clientOf_onClient_same]
  rfl

variable {d z h m}

/-- The slot a NAME is found in is in use and bears the NAME. -/
theorem slotOfName_some {n : Nat} (hz : d.slotOfName n = some z) :
    z < 64 ∧ (d.clientOf z).used = true ∧ (d.clientOf z).name = n := by
  have hm := List.mem_range.1 (List.mem_of_find?_eq_some hz)
  have hp := List.find?_some hz
  rw [Bool.and_eq_true, decide_eq_true_eq] at hp
  exact ⟨hm, hp.1, hp.2⟩

/-! ### The way of a message -/

/-- A message that fails its check (R387). -/
theorem control_badCheck {name : Option Nat} (hs : d.sender h = some name) (hchk : ctlChecked h m = false)
    (need : Nat → Dev → Nat) (act : Action) (mem : List Host.Cell) :
    Machine.control h m need act (d, mem) = (crcFailed h m (d.slotOf? name) d, mem) := by
  unfold Machine.control
  simp only [hs, hchk, Bool.not_false, if_true]
  rfl

/-- A message with a valid check from the client of a slot that is not in loss: a token, then its SEQ (R388, R392). -/
theorem control_checked {n : Nat} (hs : d.sender h = some (some n)) (hz : d.slotOfName n = some z)
    (hloss : (d.clientOf z).loss = false) (hchk : ctlChecked h m = true)
    (need : Nat → Dev → Nat) (act : Action) (mem : List Host.Cell) : Machine.control h m need act (d, mem) =
      if d.tokens z < 200000000 then (noToken z h m (heard z h d), mem)
      else if h.seq.val = (d.clientOf z).expect then carryOut z h m need act (ready d z h, mem)
      else if (h.seq.val + 1) % 256 = (d.clientOf z).expect then
        ({ ready d z h with reply := (d.clientOf z).resp }, mem)
      else (respond h m 2 0 ((ready d z h).onClient z fun c => { c with seqBad := c.seqBad + 1 }), mem) := by
  have hexp : ((heard z h d).clientOf z).expect = (d.clientOf z).expect := by rw [heard, clientOf_onClient_same]
  have hresp : ((heard z h d).clientOf z).resp = (d.clientOf z).resp := by rw [heard, clientOf_onClient_same]
  unfold Machine.control
  simp only [hs, Dev.slotOf?, hz, hchk, hloss, dm_dev_dev, tokens_heard, hexp, hresp, Bool.not_true, Bool.false_eq_true,
    if_false, Option.isNone_some]
  rfl

/-- A message that is expected is carried out (R388). -/
theorem control_expected (hx : d.expects h m.op m.axis m.arg z) (need : Nat → Dev → Nat) (act : Action)
    (mem : List Host.Cell) : Machine.control h m need act (d, mem) = carryOut z h m need act (ready d z h, mem) := by
  obtain ⟨hs, hz, hloss, hchk, htok, hseq, -⟩ := hx
  have hchk : ctlChecked h m = true := hchk
  rw [control_checked hs hz hloss hchk, if_neg (Nat.not_lt.2 htok), if_pos hseq]

end

/-! ### Carrying out -/

section
variable {d e : Dev} {z v : Nat} {h : Ctl} {m : Msg} {need : Nat → Dev → Nat} {act : Action} {mem : List Host.Cell}

/-- A need that is not met: its status, with a record for one of a claim (R391). -/
theorem carryOut_refused (hw : m.wellFormed = true) {r : Nat} (hn : need z d = r) (hr : r ≠ 0) :
    carryOut z h m need act (d, mem) =
      (settle z h m r 0 (if r = 4 || r = 5 then msgJournal 2 z h m d else d), mem) := by
  subst hn
  unfold carryOut
  simp only [hw, hr, Bool.not_true, Bool.false_eq_true, if_false, if_true, ne_eq, not_false_eq_true]
  rfl

/-- A message without a record (R390). -/
theorem carryOut_unrecorded (hw : m.wellFormed = true) (hn : need z d = 0) (hr : m.recorded = false) {st : Nat}
    (ha : act z (d, mem) = (st, v, (e, mem))) : carryOut z h m need act (d, mem) = (settle z h m st v e, mem) := by
  unfold carryOut
  simp only [hw, hn, hr, ha, Bool.not_true, Bool.false_eq_true, if_false, ne_eq, not_true_eq_false, Bool.not_false, if_true]
  rfl

/-- A message whose record the journal accepts: the action, with the record when it succeeded (R391). -/
theorem carryOut_recorded (hw : m.wellFormed = true) (hn : need z d = 0) (hr : m.recorded = true)
    (hc : submitCode (msgRec 1 z h m d) false false d = 0) {st : Nat} (ha : act z (d, mem) = (st, v, (e, mem))) :
    carryOut z h m need act (d, mem) =
      (settle z h m st v (if st = 0 then submitRec (some e.sup) (msgRec 1 z h m d) false false e else e), mem) := by
  unfold carryOut
  simp only [hw, hn, hr, hc, ha, Bool.not_true, Bool.false_eq_true, if_false, ne_eq, not_true_eq_false]
  split <;> rfl

/-- What a settled message leaves of its slot (R388). -/
theorem clientOf_settle (m : Msg) (st v : Nat) (hu : (e.clientOf z).used = true) : (settle z h m st v e).clientOf z =
    { e.clientOf z with resp := (respond h m st v e).reply, expect := (h.seq.val + 1) % 256 } := by
  have hu' : ((respond h m st v e).clientOf z).used = true := hu
  rw [settle, clientOf_onClient_same, if_pos hu']
  rfl

@[simp] theorem clientOf_respond (m : Msg) (st v : Nat) (d : Dev) : (respond h m st v d).clientOf z = d.clientOf z := rfl

@[simp] theorem clientOf_setReply (d : Dev) (r : Option Reply) : Dev.clientOf { d with reply := r } z = d.clientOf z := rfl

/-- A record of a message leaves the slots of clients. -/
@[simp] theorem clientOf_msgJournal (typ s : Nat) (m : Msg) (d : Dev) : 
    (msgJournal typ s h m d).clientOf z = d.clientOf z := by
  obtain ⟨rg, j, ev, hj⟩ := submitRec_shape (some d.sup) (msgRec typ s h m d) false false d
  rw [msgJournal, hj]
  rfl

/-- All a message without a token does (R392). -/
theorem noToken_shape (d : Dev) :
    ∃ rg cl rp j ev, noToken z h m d = { d with regs := rg, clients := cl, reply := rp, jnl := j, evs := ev } := by
  unfold noToken respond
  extract_lets sec d1
  have h1 : ∃ rg cl j ev, d1 = { d with regs := rg, clients := cl, jnl := j, evs := ev } := by
    simp only [d1]
    split
    · exact ⟨_, _, _, _, rfl⟩
    · obtain ⟨rg, j, ev, hj⟩ := submitRec_shape (some d.sup)
        (msgRec 2 z h m (d.onClient z fun c => { c with quotaSec := some sec })) false false (d.onClient z fun c => { c with quotaSec := some sec })
      exact ⟨rg, _, j, ev, hj⟩
  obtain ⟨rg, cl, j, ev, h1⟩ := h1
  rw [h1]
  exact ⟨rg, cl, _, j, ev, rfl⟩

/-- A message without a token keeps the expected SEQ. -/
theorem expect_noToken (d : Dev) : ((noToken z h m d).clientOf z).expect = (d.clientOf z).expect := by
  unfold noToken
  extract_lets sec d1
  rw [clientOf_respond]
  simp only [d1]
  split
  · rfl
  · rw [clientOf_msgJournal, clientOf_onClient_same]

theorem reply_settle (st : Nat) : (settle z h m st v e).answers h m.op m.axis st v := rfl

theorem axSt_settle (m : Msg) (st v : Nat) (e : Dev) (a : Nat) : (settle z h m st v e).axSt a = e.axSt a := rfl

theorem settle_shape (st : Nat) : ∃ cl rp, settle z h m st v e = { e with clients := cl, reply := rp } := ⟨_, _, rfl⟩

/-- The journal's verdict on a record of a slot depends on its type and slot, the journal, the registers and the time. -/
theorem submitCode_eq_zero {r : JRec} (ht : r.typ = 1) (hs : r.slot = z) (ha : d.wouldAccept z = true)
    (hj : e.jnl = d.jnl) (hr : e.regs = d.regs) (hn : e.now = d.now) : submitCode r false false e = 0 := by
  have hd : submitCode { typ := 1, slot := z } false false d = 0 := of_decide_eq_true ha
  have hreg : ∀ a, e.reg a = d.reg a := fun a => by rw [Dev.reg, hr, Dev.reg]
  rw [← hd]
  simp only [submitCode, Dev.quotaUsed, Dev.consUsed, Dev.minute, Dev.get, Dev.on, hreg, ht, hs, hj, hn]
  rfl

/-- The journal accepts the record of an expected message. -/
theorem ready_accepts {op axis arg : Nat} (hx : d.expects h op axis arg z) (m : Msg) :
    submitCode (msgRec 1 z h m (ready d z h)) false false (ready d z h) = 0 := by
  obtain ⟨-, -, -, -, -, -, hacc⟩ := hx
  exact submitCode_eq_zero rfl rfl hacc rfl rfl rfl

/-- A message that is expected and may be carried out, whose record the journal accepts and whose action succeeds. -/
theorem control_accepted (hx : d.expects h m.op m.axis m.arg z) (hw : m.wellFormed = true) (hr : m.recorded = true)
    (hn : need z (ready d z h) = 0) (ha : act z (ready d z h, mem) = (0, v, (e, mem))) (hj : e.jnl = d.jnl)
    (hreg : e.regs = d.regs) (hnow : e.now = d.now) : ∃ j : JnlH, j.queue.length = d.jnl.queue.length + 1 ∧
      Machine.control h m need act (d, mem) = (settle z h m 0 v { e with jnl := j }, mem) := by
  have hc := ready_accepts hx m
  obtain ⟨-, -, -, -, -, -, hacc⟩ := id hx
  have hce : submitCode (msgRec 1 z h m (ready d z h)) false false e = 0 := submitCode_eq_zero rfl rfl hacc hj hreg hnow
  obtain ⟨j, hsub, hlen⟩ := submitRec_accepted (some e.sup) hce
  refine ⟨j, hj ▸ hlen, ?_⟩
  rw [control_expected hx, carryOut_recorded hw hn hr hc ha, if_pos rfl, hsub]

end

/-- A table without the entries of a key reads the key as unlisted. -/
theorem tget_filter_none {α : Type} {p : Nat × Option α → Bool} {i : Nat} (l : Tab (Option α))
    (h : ∀ v, (i, v) ∈ l → p (i, v) = false) : tget none (l.filter p) i = none := by
  induction l with
  | nil => rfl
  | cons e l ih =>
    obtain ⟨k, v⟩ := e
    have ih := ih fun v hv => h v (List.mem_cons_of_mem _ hv)
    by_cases hk : k = i
    · subst hk
      rw [List.filter_cons_of_neg (by simp [h v List.mem_cons_self])]
      exact ih
    · rw [List.filter_cons]
      split
      · rw [tget, if_neg hk, ih]
      · exact ih

/-! ### OPEN (R385, R388, R389, R394) -/

/-- An OPEN as a message. -/
def openMessage (h : Ctl) (x g : Nat) : Msg := { op := 0x01, axis := x, arg := g, wellFormed := shortOnly h && beatOk g }

section
variable (s : State) (h : Ctl) (x : Fin 256) (g : Fin 16777216)

/-- An OPEN from a known NAME. -/
theorem does_open {n : Nat} {t : Dev} {post : Dev → Prop} (hl : s.dev.sys.logicOn = true)
    (hs : s.dev.sender h = some (some n)) (hchk : ctlChecked h { op := 1, axis := x.val, arg := g.val } = true)
    (ht : openMsg n h (openMessage h x g) (s.dev, s.mem) = (t, s.mem)) (hp : post t) : Does (.openSlot h x g) s post := by
  refine does_onDM (execOpen h x g) rfl rfl hl ?_ hp
  have hchk : ctlChecked h (openMessage h x g) = true := hchk
  simp only [hs]
  exact (if_neg (by rw [openMessage] at hchk; simp [hchk])).trans ht

/-- An OPEN of an unknown client into a free slot (R388). -/
theorem open_fresh {z n : Nat} (hl : s.dev.sys.logicOn = true) (hs : s.dev.sender h = some (some n))
    (hchk : ctlChecked h { op := 1, axis := x.val, arg := g.val } = true) (hsh : shortOnly h = true)
    (hb : beatOk g.val = true) (hn : s.dev.slotOfName n = none) (hf : s.dev.freeSlot = some z)
    (ha : s.dev.wouldAccept z = true) :
    Does (.openSlot h x g) s fun t => (t.clientOf z).used = true ∧ (t.clientOf z).name = n ∧ ((t.clientOf z).beat =
          (if g.val = 0 then 1000 else g.val)) ∧ (t.clientOf z).expect = (h.seq.val + 1) % 256 ∧ (t.clientOf z).loss =
          false ∧ t.answers h 1 x.val (0) (z) ∧ t.jnl.queue.length = s.dev.jnl.queue.length + 1 ∧ t =
          { s.dev with regs := t.regs, clients := t.clients, reply := t.reply, jnl := t.jnl, evs := t.evs } := by
  have hw : (openMessage h x g).wellFormed = true := by simp [openMessage, hsh, hb]
  generalize hm : openMessage h x g = m at hw
  have hc0 : submitCode (msgRec 1 z h m s.dev) false false s.dev = 0 := submitCode_eq_zero rfl rfl ha rfl rfl rfl
  let e := spend z (openClient z n h.link h.src false (beatOf m.arg) h.seq s.dev)
  have he : ∃ cl, e = { s.dev with clients := cl } := ⟨_, rfl⟩
  have hc1 : submitCode (msgRec 1 z h m e) false false e = 0 := submitCode_eq_zero rfl rfl ha rfl rfl rfl
  obtain ⟨j, hj, hq⟩ := submitRec_accepted (some e.sup) hc1
  refine does_open s h x g (t := settle z h m 0 z { e with jnl := j }) hl hs hchk ?_ ?_
  · rw [hm]
    unfold openMsg
    simp only [hn, hf, hw, hc0, Bool.not_true, Bool.false_eq_true, if_false, ne_eq, not_true_eq_false]
    exact congrArg (fun d => (settle z h m 0 z d, s.mem)) hj
  · have hcl : Dev.clientOf { e with jnl := j } z =
        { used := true, name := n, link := h.link, node := h.src, tc := false, beat := beatOf m.arg, heard := s.dev.now,
          expect := (h.seq.val + 1) % 256,
          tok := (openClient z n h.link h.src false (beatOf m.arg) h.seq s.dev).tokens z - 200000000
          tokAt := s.dev.now } := by
      change (spend z _).clientOf z = _
      rw [spend, clientOf_onClient_same, openClient, clientOf_onClient_same]
      rfl
    have hset := clientOf_settle (h := h) m 0 z (congrArg ClientH.used hcl)
    rw [hcl] at hset
    have harg : m.arg = g.val := by rw [← hm]; rfl
    have hop : m.op = 1 ∧ m.axis = x.val := by rw [← hm]; exact ⟨rfl, rfl⟩
    obtain ⟨cl, rp, ht⟩ := settle_shape (e := { e with jnl := j }) (h := h) (m := m) (z := z) (v := z) 0
    refine ⟨?_, ?_, ?_, ?_, ?_, ?_, hq, ?_⟩
    · rw [hset]
    · rw [hset]
    · rw [hset, harg]
      rfl
    · rw [hset]
    · rw [hset]
    · rw [← hop.1, ← hop.2]
      exact reply_settle 0
    · obtain ⟨cl0, he⟩ := he
      clear_value e
      rw [ht, he]

/-- An OPEN of a client whose slot is in loss resumes it (R394). -/
theorem open_resumes {z n : Nat} (hl : s.dev.sys.logicOn = true) (hs : s.dev.sender h = some (some n))
    (hchk : ctlChecked h { op := 1, axis := x.val, arg := g.val } = true) (hsh : shortOnly h = true)
    (hb : beatOk g.val = true) (hz : s.dev.slotOfName n = some z) (hloss : (s.dev.clientOf z).loss = true)
    (ha : s.dev.wouldAccept z = true) :
    Does (.openSlot h x g) s fun t => (t.clientOf z).loss = false ∧ (t.clientOf z).expect = (h.seq.val + 1) % 256 ∧
          t.answers h 1 x.val (0) (z) ∧ (∀ a : Fin 64, tget none s.dev.claim a = some z → tget none t.holdEnd a =
          none) ∧ t =
          { s.dev with regs := t.regs, clients := t.clients, reply := t.reply, holdEnd := t.holdEnd, jnl := t.jnl,
                       evs := t.evs } := by
  have hw : (openMessage h x g).wellFormed = true := by simp [openMessage, hsh, hb]
  obtain ⟨hop, hax⟩ : (openMessage h x g).op = 1 ∧ (openMessage h x g).axis = x.val := ⟨rfl, rfl⟩
  generalize hm : openMessage h x g = m at hw hop hax
  have hc0 : submitCode (msgRec 1 z h m s.dev) false false s.dev = 0 := submitCode_eq_zero rfl rfl ha rfl rfl rfl
  let kept := s.dev.holdEnd.filter fun e => tget none s.dev.claim e.1 ≠ some z
  let e := heard z h (Dev.onClient { s.dev with holdEnd := kept } z fun c => { c with loss := false, beat := beatOf m.arg })
  have he : ∃ cl, e = { s.dev with clients := cl, holdEnd := kept } := ⟨_, rfl⟩
  have hc1 : submitCode (msgRec 1 z h m e) false false e = 0 := submitCode_eq_zero rfl rfl ha rfl rfl rfl
  obtain ⟨j, hj, -⟩ := submitRec_accepted (some e.sup) hc1
  refine does_open s h x g (t := settle z h m 0 z { e with jnl := j }) hl hs hchk ?_ ?_
  · rw [hm]
    unfold openMsg
    simp only [hz, hloss, hw, hc0, Bool.not_true, Bool.false_eq_true, if_false, if_true, ne_eq, not_true_eq_false]
    exact congrArg (fun d => (settle z h m 0 z d, s.mem)) hj
  · have hcl : Dev.clientOf { e with jnl := j } z = { s.dev.clientOf z with
        loss := false, beat := beatOf m.arg, heard := s.dev.now, link := h.link, node := h.src } := by
      change (heard z h _).clientOf z = _
      rw [heard, clientOf_onClient_same, clientOf_onClient_same]
      rfl
    obtain ⟨-, hu, -⟩ := slotOfName_some hz
    have hset := clientOf_settle (h := h) m 0 z ((congrArg ClientH.used hcl).trans hu)
    rw [hcl] at hset
    obtain ⟨cl, rp, ht⟩ := settle_shape (e := { e with jnl := j }) (h := h) (m := m) (z := z) (v := z) 0
    refine ⟨?_, ?_, ?_, fun a hcla => ?_, ?_⟩
    · rw [hset]
    · rw [hset]
    · rw [← hop, ← hax]
      exact reply_settle 0
    · exact tget_filter_none s.dev.holdEnd fun v _ => by simp [hcla]
    · obtain ⟨cl0, he⟩ := he
      clear_value e
      rw [ht, he]

theorem open_full {n : Nat} (hl : s.dev.sys.logicOn = true) (hs : s.dev.sender h = some (some n))
    (hchk : ctlChecked h { op := 1, axis := x.val, arg := g.val } = true) (hn : s.dev.slotOfName n = none)
    (hf : s.dev.freeSlot = none) :
    Does (.openSlot h x g) s fun t => t.answers h 1 x.val (13) (0) ∧ t = { s.dev with reply := t.reply } := by
  refine does_open s h x g (t := respond h (openMessage h x g) 13 0 s.dev) hl hs hchk ?_ ⟨rfl, rfl⟩
  unfold openMsg
  simp only [hn, hf]
  rfl

theorem open_noName (hl : s.dev.sys.logicOn = true) (hs : s.dev.sender h = some none)
    (hchk : ctlChecked h { op := 1, axis := x.val, arg := g.val } = true) :
    Does (.openSlot h x g) s fun t => t.answers h 1 x.val (14) (0) ∧ t = { s.dev with reply := t.reply } := by
  refine does_onDM (t := respond h (openMessage h x g) 14 0 s.dev) (execOpen h x g) rfl rfl hl ?_ ⟨rfl, rfl⟩
  have hchk : ctlChecked h (openMessage h x g) = true := hchk
  rw [openMessage] at hchk
  simp only [hs, hchk, Bool.not_true, Bool.false_eq_true, if_false]
  rfl

theorem open_unreceived (hl : s.dev.sys.logicOn = true) (hs : s.dev.sender h = none) :
    Does (.openSlot h x g) s fun t => t = s.dev := by
  refine does_onDM (t := s.dev) (execOpen h x g) rfl rfl hl ?_ rfl
  simp only [hs]

/-! ### BEAT (R388) -/

theorem beat_refreshes {z n : Nat} (hl : s.dev.sys.logicOn = true) (hs : s.dev.sender h = some (some n))
    (hz : s.dev.slotOfName n = some z) (hloss : (s.dev.clientOf z).loss = false)
    (hchk : ctlChecked h { op := 3, axis := x.val, arg := g.val } = true) (hsh : shortOnly h = true) :
    Does (.beat h x g) s fun t => (t.clientOf z).heard = s.dev.now ∧ (t.clientOf z).expect = (s.dev.clientOf
          z).expect ∧ (t.clientOf z).tok = (s.dev.clientOf z).tok ∧ t.answers h 3 x.val (0) (0) ∧ t =
          { s.dev with clients := t.clients, reply := t.reply } := by
  refine does_onDM (t := respond h { op := 3, axis := x.val, arg := g.val, wellFormed := shortOnly h } 0 0 (heard z h s.dev))
    (execBeat h x g) rfl rfl hl ?_ ?_
  · have hchk : ctlChecked h { op := 3, axis := x.val, arg := g.val, wellFormed := shortOnly h } = true := hchk
    rw [hsh] at hchk ⊢
    simp only [hs, Dev.slotOf?, hz, hloss, hchk, Bool.not_true, Bool.false_eq_true, if_false, if_true, Option.isNone_some]
    rfl
  · have hcl : Dev.clientOf (respond h { op := 3, axis := x.val, arg := g.val, wellFormed := shortOnly h } 0 0
        (heard z h s.dev)) z = { s.dev.clientOf z with heard := s.dev.now, link := h.link, node := h.src } := by
      change (heard z h s.dev).clientOf z = _
      rw [heard, clientOf_onClient_same]
    refine ⟨?_, ?_, ?_, rfl, rfl⟩ <;> rw [hcl]

theorem beat_badCheck (hl : s.dev.sys.logicOn = true) (hs : s.dev.sender h ≠ none)
    (hchk : ctlChecked h { op := 3, axis := x.val, arg := g.val } = false) :
    Does (.beat h x g) s fun t => t.answers h 3 x.val (1) (0) ∧ t =
          { s.dev with clients := t.clients, reply := t.reply } := by
  obtain ⟨name, hs⟩ := Option.ne_none_iff_exists'.1 hs
  refine does_onDM (t := crcFailed h { op := 3, axis := x.val, arg := g.val, wellFormed := shortOnly h }
    (s.dev.slotOf? name) s.dev) (execBeat h x g) rfl rfl hl ?_ ?_
  · have hchk : ctlChecked h { op := 3, axis := x.val, arg := g.val, wellFormed := shortOnly h } = false := hchk
    simp only [hs, hchk, Bool.not_false, if_true]
    rfl
  · refine ⟨rfl, ?_⟩
    cases s.dev.slotOf? name <;> rfl

end

/-! ### READ (R387 to R392) -/

/-- A READ as a message. -/
def readMessage (h : Ctl) (x g : Nat) : Msg :=
  { op := 0x08, axis := x, arg := g, recorded := false, wellFormed := shortOnly h && (plainAxis x || x = 255) }

/-- What a READ answers with. -/
def readValue (x : Nat) (d : Dev) : Nat :=
  if x = 255 then d.get SYS_MODE_MODE else d.get (CU_STATE_STATE x) + 256 * d.get (CU_FLT_CODE x)

section
variable (s : State) (h : Ctl) (x : Fin 256) (g : Fin 16777216) {z n : Nat}

theorem execRead_eq : execRead h x g =
    onDM (Machine.control h (readMessage h x g) needNone fun _ y => (0, readValue x y.1, y)) := rfl

/-- The slot of an expected message by the time it is carried out. -/
theorem ready_used {d : Dev} {op axis arg : Nat} (hx : d.expects h op axis arg z) :
    ((ready d z h).clientOf z).used = true := by
  obtain ⟨-, hz, -⟩ := hx
  rw [clientOf_ready]
  exact (slotOfName_some hz).2.1

/-- A READ that is expected is answered with its value (R390). -/
theorem read_answers (hl : s.dev.sys.logicOn = true) (hx : s.dev.expects h 8 x.val g.val z) (hsh : shortOnly h = true)
    (hax : (plainAxis x || x.val = 255) = true) :
    Does (.read h x g) s fun t => t.answers h 8 x.val 0 (readValue x s.dev) ∧ (t.clientOf z).expect =
          (h.seq.val + 1) % 256 ∧ t = { s.dev with clients := t.clients, reply := t.reply } := by
  have hw : (readMessage h x g).wellFormed = true := by simp only [readMessage, hsh, hax, Bool.and_self]
  refine does_onDM (t := settle z h (readMessage h x g) 0 (readValue x s.dev) (ready s.dev z h))
    (execRead h x g) rfl (execRead_eq h x g) hl ?_ ⟨reply_settle 0, ?_, ?_⟩
  · exact (control_expected (m := readMessage h x g) hx _ _ _).trans (carryOut_unrecorded hw rfl rfl rfl)
  · rw [clientOf_settle _ _ _ (ready_used h hx)]
  · obtain ⟨cl0, he⟩ := ready_shape s.dev z h
    obtain ⟨cl, rp, ht⟩ := settle_shape (e := ready s.dev z h) (h := h) (m := readMessage h x g) (z := z)
      (v := readValue x s.dev) 0
    rw [ht, he]

theorem read_axis (hl : s.dev.sys.logicOn = true) (hx : s.dev.expects h 8 x.val g.val z) (hsh : shortOnly h = true)
    (hx64 : x.val < 64) :
    Does (.read h x g) s fun t => t.answers h 8 x.val (0) (s.dev.get (CU_STATE_STATE x) + 256 * s.dev.get
          (CU_FLT_CODE x)) ∧ (t.clientOf z).expect = (h.seq.val + 1) % 256 ∧ t =
          { s.dev with clients := t.clients, reply := t.reply } := by
  have hv : readValue x s.dev = s.dev.get (CU_STATE_STATE x) + 256 * s.dev.get (CU_FLT_CODE x) := if_neg (by omega)
  exact hv ▸ read_answers s h x g hl hx hsh (by simp [plainAxis, hx64])

theorem read_mode (hl : s.dev.sys.logicOn = true) (hx : s.dev.expects h 8 255 g.val z) (hsh : shortOnly h = true) :
    Does (.read h 255 g) s fun t => t.answers h 8 255 (0) (s.dev.get SYS_MODE_MODE) ∧ (t.clientOf z).expect =
          (h.seq.val + 1) % 256 ∧ t = { s.dev with clients := t.clients, reply := t.reply } :=
  read_answers s h 255 g hl hx hsh (by decide)

theorem read_badCheck (hl : s.dev.sys.logicOn = true) (hs : s.dev.sender h = some (some n))
    (hz : s.dev.slotOfName n = some z) (hchk : ctlChecked h { op := 8, axis := x.val, arg := g.val } = false) :
    Does (.read h x g) s fun t => t.answers h 8 x.val (1) (0) ∧ t.clientOf z =
          { s.dev.clientOf z with crcBad := (s.dev.clientOf z).crcBad + 1 } ∧ t =
          { s.dev with clients := t.clients, reply := t.reply } := by
  refine does_onDM (t := respond h (readMessage h x g) 1 0 (s.dev.onClient z fun c => { c with crcBad := c.crcBad + 1 }))
    (execRead h x g) rfl (execRead_eq h x g) hl ?_ ⟨rfl, ?_, rfl⟩
  · refine (control_badCheck (m := readMessage h x g) hs hchk _ _ _).trans ?_
    simp only [crcFailed, Dev.slotOf?, hz]
  · rw [clientOf_respond, clientOf_onClient_same]

theorem read_repeated (hl : s.dev.sys.logicOn = true) (hs : s.dev.sender h = some (some n))
    (hz : s.dev.slotOfName n = some z) (hloss : (s.dev.clientOf z).loss = false)
    (hchk : ctlChecked h { op := 8, axis := x.val, arg := g.val } = true) (htok : 200000000 ≤ s.dev.tokens z)
    (hseq : (h.seq.val + 1) % 256 = (s.dev.clientOf z).expect) :
    Does (.read h x g) s fun t => t.reply = (s.dev.clientOf z).resp ∧ (t.clientOf z).expect = (s.dev.clientOf
          z).expect ∧ t = { s.dev with clients := t.clients, reply := t.reply } := by
  have hne : h.seq.val ≠ (s.dev.clientOf z).expect := by omega
  refine does_onDM (t := { ready s.dev z h with reply := (s.dev.clientOf z).resp }) (execRead h x g) rfl (execRead_eq h x g)
    hl ?_ ⟨rfl, ?_, ?_⟩
  · rw [control_checked (m := readMessage h x g) hs hz hloss hchk, if_neg (Nat.not_lt.2 htok), if_neg hne, if_pos hseq]
  · rw [clientOf_setReply, clientOf_ready]
  · obtain ⟨cl, he⟩ := ready_shape s.dev z h
    rw [he]

theorem read_unexpected (hl : s.dev.sys.logicOn = true) (hs : s.dev.sender h = some (some n))
    (hz : s.dev.slotOfName n = some z) (hloss : (s.dev.clientOf z).loss = false)
    (hchk : ctlChecked h { op := 8, axis := x.val, arg := g.val } = true) (htok : 200000000 ≤ s.dev.tokens z)
    (hseq : (h.seq.val + 1) % 256 ≠ (s.dev.clientOf z).expect) (hseq' : h.seq.val ≠ (s.dev.clientOf z).expect) :
    Does (.read h x g) s fun t => t.answers h 8 x.val (2) (0) ∧ (t.clientOf z).expect = (s.dev.clientOf z).expect ∧
          t = { s.dev with clients := t.clients, reply := t.reply } := by
  refine does_onDM (t := respond h (readMessage h x g) 2 0
      ((ready s.dev z h).onClient z fun c => { c with seqBad := c.seqBad + 1 })) (execRead h x g) rfl (execRead_eq h x g) hl ?_ ⟨rfl, ?_, ?_⟩
  · rw [control_checked (m := readMessage h x g) hs hz hloss hchk, if_neg (Nat.not_lt.2 htok), if_neg hseq', if_neg hseq]
  · rw [clientOf_respond, clientOf_onClient_same, clientOf_ready]
  · obtain ⟨cl, he⟩ := ready_shape s.dev z h
    rw [he]
    rfl

theorem read_noToken (hl : s.dev.sys.logicOn = true) (hs : s.dev.sender h = some (some n))
    (hz : s.dev.slotOfName n = some z) (hloss : (s.dev.clientOf z).loss = false)
    (hchk : ctlChecked h { op := 8, axis := x.val, arg := g.val } = true) (htok : s.dev.tokens z < 200000000) :
    Does (.read h x g) s fun t => t.answers h 8 x.val (7) (0) ∧ (t.clientOf z).expect = (s.dev.clientOf z).expect ∧
          t = { s.dev with regs := t.regs, clients := t.clients, reply := t.reply, jnl := t.jnl, evs := t.evs } := by
  refine does_onDM (t := noToken z h (readMessage h x g) (heard z h s.dev)) (execRead h x g) rfl (execRead_eq h x g)
    hl ?_ ⟨rfl, ?_, ?_⟩
  · rw [control_checked (m := readMessage h x g) hs hz hloss hchk, if_pos htok]
  · rw [expect_noToken, heard, clientOf_onClient_same]
  · obtain ⟨rg, cl, rp, j, ev, ht⟩ := noToken_shape (z := z) (h := h) (m := readMessage h x g) (heard z h s.dev)
    rw [ht]
    rfl

end

/-! ### CLAIM (R29, R30, R390) -/

/-- The claims after a slot took a list of axes. -/
def claimAll (l : List Nat) (z : Nat) (c : Tab (Option Nat)) : Tab (Option Nat) :=
  l.foldl (fun c a => tset none c a (some z)) c

theorem each_claim_eq (l : List Nat) (z : Nat) (d : Dev) :
    d.each l (fun a d => { d with claim := tset none d.claim a (some z) }) = { d with claim := claimAll l z d.claim } := by
  induction l generalizing d with
  | nil => rfl
  | cons x l ih => exact ih { d with claim := tset none d.claim x (some z) }

theorem tget_claimAll (l : List Nat) (z a : Nat) (c : Tab (Option Nat)) :
    tget none (claimAll l z c) a = if a ∈ l then some z else tget none c a := by
  induction l generalizing c with
  | nil => rfl
  | cons x l ih =>
    refine (ih (tset none c x (some z))).trans ?_
    by_cases hal : a ∈ l
    · rw [if_pos hal, if_pos (List.mem_cons_of_mem _ hal)]
    · rw [if_neg hal, tget_tset]
      by_cases hax : a = x
      · rw [if_pos hax, if_pos (hax ▸ List.mem_cons_self)]
      · rw [if_neg hax, if_neg (by simp [hax, hal])]

theorem mem_axesOf {m a : Nat} : a ∈ axesOf m ↔ a < 64 ∧ m.testBit a = true := by
  rw [axesOf, List.mem_filter, List.mem_range]

/-- A CLAIM as a message. -/
def claimMessage (h : Ctl) (x g : Nat) (mask : Option (BitVec 64)) : Msg :=
  { op := 0x10, axis := x, arg := g, words := (mask.map fun m => [m.toNat % 2 ^ 32, m.toNat / 2 ^ 32]).getD [],
    wellFormed := claimForm h x mask }

/-- A message names the device claim. -/
def namesDevice (x : Nat) (mask : Option (BitVec 64)) : Bool := mask.isNone && x = 255

/-- What a CLAIM that may be carried out does. -/
def claimEffect (x : Nat) (mask : Option (BitVec 64)) (z : Nat) (d : Dev) : Dev :=
  if namesDevice x mask then { d with devClaim := some z }
  else d.each (namedAxes x mask) fun a d => { d with claim := tset none d.claim a (some z) }

/-- The action of a CLAIM. -/
def claimAct (x : Nat) (mask : Option (BitVec 64)) : Action := fun z y => (0, 0, y.dev (claimEffect x mask z))

section
variable (s : State) (h : Ctl) (x : Fin 256) (g : Fin 16777216) {z : Nat}

theorem execClaim_eq (mask : Option (BitVec 64)) : execClaim h x g mask =
    onDM (Machine.control h (claimMessage h x g mask) (needFree (namesDevice x mask) (namedAxes x mask))
      (claimAct x mask)) := rfl

/-- The axes a CLAIM names are free for a slot: none is ABSENT, none is another slot's. -/
def FreeFor (d : Dev) (z : Nat) (l : List Nat) : Prop :=
  ∀ a ∈ l, d.axSt a ≠ .absent ∧ (tget none d.claim a = none ∨ tget none d.claim a = some z)

theorem needFree_eq_zero {d : Dev} {l : List Nat} (hf : FreeFor d z l) : needFree false l z d = 0 := by
  have h1 : (l.any fun a => d.axSt a = .absent) = false :=
    List.any_eq_false.2 fun a ha => by simp [(hf a ha).1]
  have h2 : (l.any fun a => (tget none d.claim a).isSome && tget none d.claim a ≠ some z) = false :=
    List.any_eq_false.2 fun a ha => by rcases (hf a ha).2 with hc | hc <;> simp [hc]
  rw [needFree, if_neg Bool.false_ne_true, h1, if_neg Bool.false_ne_true, h2, if_neg Bool.false_ne_true]

/-- A CLAIM of free axes takes them whole (R30). -/
theorem claim_taken (mask : Option (BitVec 64)) (hl : s.dev.sys.logicOn = true)
    (hx : s.dev.expects h 16 x.val g.val z) (hform : claimForm h x mask = true) (hdev : namesDevice x mask = false)
    (hfree : FreeFor s.dev z (namedAxes x mask)) :
    Does (.claim h x g mask) s fun t =>
      (∀ a, tget none t.claim a = if a ∈ namedAxes x mask then some z else tget none s.dev.claim a) ∧
      t.answers h 16 x.val 0 0 ∧ (t.clientOf z).expect = (h.seq.val + 1) % 256 ∧
      t.jnl.queue.length = s.dev.jnl.queue.length + 1 ∧
      t = { s.dev with regs := t.regs, clients := t.clients, reply := t.reply, claim := t.claim, jnl := t.jnl } := by
  let e : Dev := { ready s.dev z h with claim := claimAll (namedAxes x mask) z s.dev.claim }
  have hact : claimEffect x mask z (ready s.dev z h) = e := by
    rw [claimEffect, hdev, if_neg Bool.false_ne_true]
    exact each_claim_eq _ z _
  have hneed : needFree (namesDevice x mask) (namedAxes x mask) z (ready s.dev z h) = 0 := by
    rw [hdev]
    exact needFree_eq_zero hfree
  obtain ⟨j, hlen, hctl⟩ := control_accepted (m := claimMessage h x g mask) (v := 0) (e := e) (mem := s.mem)
    (act := claimAct x mask) hx hform rfl hneed (by rw [← hact]; rfl) rfl rfl rfl
  have hcl : Dev.clientOf { e with jnl := j } z = (ready s.dev z h).clientOf z := rfl
  have hset := clientOf_settle (h := h) (claimMessage h x g mask) 0 0 ((congrArg ClientH.used hcl).trans (ready_used h hx))
  obtain ⟨cl0, he⟩ := ready_shape s.dev z h
  obtain ⟨cl, rp, ht⟩ := settle_shape (e := { e with jnl := j }) (h := h) (m := claimMessage h x g mask) (z := z) (v := 0) 0
  refine does_onDM (execClaim h x g mask) rfl (execClaim_eq h x g mask) hl hctl ⟨fun a => ?_, reply_settle 0, ?_, ?_, ?_⟩
  · rw [ht]
    exact tget_claimAll _ z a _
  · rw [hset]
  · rw [ht]
    exact hlen
  · rw [ht]
    simp only [e, he]

theorem claim_axis (hl : s.dev.sys.logicOn = true) (hx : s.dev.expects h 16 x.val g.val z) (hsh : shortOnly h = true)
    (hx64 : x.val < 64) (habs : s.dev.axSt x ≠ .absent) (hfree : tget none s.dev.claim x = none) :
    Does (.claim h x g none) s fun t => tget none t.claim x = some z ∧ (∀ a : Fin 64, a.val ≠ x.val → tget none
          t.claim a = tget none s.dev.claim a) ∧ t.answers h 16 x.val (0) (0) ∧ (t.clientOf z).expect = (h.seq.val +
          1) % 256 ∧ t.jnl.queue.length = s.dev.jnl.queue.length + 1 ∧ t =
          { s.dev with regs := t.regs, clients := t.clients, reply := t.reply, claim := t.claim, jnl := t.jnl } := by
  have hnamed : namedAxes x none = [x.val] := by
    rw [namedAxes, if_neg (by omega), axisOf, Nat.mod_eq_of_lt hx64]
  refine does_imp (claim_taken s h x g none hl hx (by simp [claimForm, hsh, plainAxis, hx64])
    (by simp only [namesDevice, Option.isNone_none, Bool.true_and, decide_eq_false_iff_not]; omega) ?_) fun t ht => ?_
  · rw [hnamed]
    intro a ha
    rw [List.mem_singleton.1 ha]
    exact ⟨habs, .inl hfree⟩
  · obtain ⟨hcl, hrest⟩ := ht
    rw [hnamed] at hcl
    exact ⟨(hcl x).trans (if_pos List.mem_cons_self), fun a ha => (hcl a).trans (if_neg (by simpa using ha)), hrest⟩

theorem claim_mask (k : BitVec 64) (hl : s.dev.sys.logicOn = true) (hx : s.dev.expects h 16 x.val g.val z)
    (hlong : isLong h = true) (hfree : FreeFor s.dev z (axesOf k.toNat)) :
    Does (.claim h x g (some k)) s fun t => (∀ a : Fin 64, tget none t.claim a = (if k.toNat.testBit a then some z
          else tget none s.dev.claim a)) ∧ t.answers h 16 x.val (0) (0) ∧ t =
          { s.dev with regs := t.regs, clients := t.clients, reply := t.reply, claim := t.claim, jnl := t.jnl } := by
  refine does_imp (claim_taken s h x g (some k) hl hx hlong rfl hfree) fun t ht => ?_
  obtain ⟨hcl, hans, -, -, hshape⟩ := ht
  refine ⟨fun a => (hcl a).trans ?_, hans, hshape⟩
  simp only [namedAxes, mem_axesOf, a.isLt, true_and]

theorem claim_device (hl : s.dev.sys.logicOn = true) (hx : s.dev.expects h 16 255 g.val z) (hsh : shortOnly h = true)
    (hfree : s.dev.devClaim = none) :
    Does (.claim h 255 g none) s fun t => t.devClaim = some z ∧ t.answers h 16 255 (0) (0) ∧ (t.clientOf z).expect =
          (h.seq.val + 1) % 256 ∧ t =
          { s.dev with regs := t.regs, clients := t.clients, reply := t.reply, devClaim := t.devClaim, jnl := t.jnl } := by
  let e : Dev := { ready s.dev z h with devClaim := some z }
  have hneed : needFree true [] z (ready s.dev z h) = 0 := by
    have hf : (ready s.dev z h).devClaim = none := hfree
    simp only [needFree, hf, if_true]
  obtain ⟨j, -, hctl⟩ := control_accepted (m := claimMessage h 255 g none) (v := 0) (e := e) (mem := s.mem)
    (act := claimAct 255 none) hx (by simp [claimMessage, claimForm, hsh]) rfl hneed rfl rfl rfl rfl
  have hcl : Dev.clientOf { e with jnl := j } z = (ready s.dev z h).clientOf z := rfl
  have hset := clientOf_settle (h := h) (claimMessage h 255 g none) 0 0 ((congrArg ClientH.used hcl).trans (ready_used h hx))
  obtain ⟨cl0, he⟩ := ready_shape s.dev z h
  obtain ⟨cl, rp, ht⟩ := settle_shape (e := { e with jnl := j }) (h := h) (m := claimMessage h 255 g none) (z := z) (v := 0) 0
  refine does_onDM (execClaim h 255 g none) rfl (execClaim_eq h 255 g none) hl hctl ⟨?_, reply_settle 0, ?_, ?_⟩
  · rw [ht]
  · rw [hset]
  · rw [ht]
    simp only [e, he]

end

section
variable (s : State) (h : Ctl) (x : Fin 256) (g : Fin 16777216) {z : Nat}

/-- One axis is what a plain AXIS byte names. -/
theorem namedAxes_axis {x : Nat} (hx64 : x < 64) : namedAxes x none = [x] := by
  rw [namedAxes, if_neg (by omega), axisOf, Nat.mod_eq_of_lt hx64]

theorem namesDevice_axis {x : Nat} (hx64 : x < 64) : namesDevice x none = false := by
  simp only [namesDevice, Option.isNone_none, Bool.true_and, decide_eq_false_iff_not]
  omega

theorem claimForm_axis {x : Nat} (hsh : shortOnly h = true) (hx64 : x < 64) : claimForm h x none = true := by
  simp [claimForm, hsh, plainAxis, hx64]

theorem claim_taken_by_other {y : Nat} (hl : s.dev.sys.logicOn = true) (hx : s.dev.expects h 16 x.val g.val z)
    (hsh : shortOnly h = true) (hx64 : x.val < 64) (habs : s.dev.axSt x ≠ .absent)
    (hy : tget none s.dev.claim x = some y) (hne : y ≠ z) :
    Does (.claim h x g none) s fun t => t.claim = s.dev.claim ∧ t.answers h 16 x.val (5) (0) ∧ (t.clientOf z).expect
          = (h.seq.val + 1) % 256 ∧ t =
          { s.dev with regs := t.regs, clients := t.clients, reply := t.reply, jnl := t.jnl, evs := t.evs } := by
  let m := claimMessage h x g none
  have hneed : needFree (namesDevice x none) (namedAxes x none) z (ready s.dev z h) = 5 := by
    have habs' : (ready s.dev z h).axSt x ≠ .absent := habs
    have hy' : tget none (ready s.dev z h).claim x = some y := hy
    rw [namesDevice_axis hx64, namedAxes_axis hx64]
    simp [needFree, habs', hy', hne]
  obtain ⟨rg, j, ev, hj⟩ := submitRec_shape (some (ready s.dev z h).sup) (msgRec 2 z h m (ready s.dev z h)) false false
    (ready s.dev z h)
  have hu : ((msgJournal 2 z h m (ready s.dev z h)).clientOf z).used = true := by
    rw [clientOf_msgJournal]; exact ready_used h hx
  have hset := clientOf_settle (h := h) m 5 0 hu
  obtain ⟨cl0, he⟩ := ready_shape s.dev z h
  obtain ⟨cl, rp, ht⟩ := settle_shape (e := msgJournal 2 z h m (ready s.dev z h)) (h := h) (m := m) (z := z) (v := 0) 5
  refine does_onDM (t := settle z h m 5 0 (msgJournal 2 z h m (ready s.dev z h))) (execClaim h x g none) rfl
    (execClaim_eq h x g none) hl ?_ ⟨?_, reply_settle 5, ?_, ?_⟩
  · exact (control_expected (m := m) hx _ _ _).trans (carryOut_refused (claimForm_axis h hsh hx64) hneed (by decide))
  · rw [ht, msgJournal, hj, he]
  · rw [hset]
  · rw [ht, msgJournal, hj, he]

theorem claim_absent (hl : s.dev.sys.logicOn = true) (hx : s.dev.expects h 16 x.val g.val z)
    (hsh : shortOnly h = true) (hx64 : x.val < 64) (habs : s.dev.axSt x = .absent) :
    Does (.claim h x g none) s fun t => t.claim = s.dev.claim ∧ t.answers h 16 x.val (8) (0) ∧ t =
          { s.dev with regs := t.regs, clients := t.clients, reply := t.reply, jnl := t.jnl, evs := t.evs } := by
  let m := claimMessage h x g none
  have hneed : needFree (namesDevice x none) (namedAxes x none) z (ready s.dev z h) = 8 := by
    have habs' : (ready s.dev z h).axSt x = .absent := habs
    rw [namesDevice_axis hx64, namedAxes_axis hx64]
    simp [needFree, habs']
  obtain ⟨cl0, he⟩ := ready_shape s.dev z h
  obtain ⟨cl, rp, ht⟩ := settle_shape (e := ready s.dev z h) (h := h) (m := m) (z := z) (v := 0) 8
  refine does_onDM (t := settle z h m 8 0 (ready s.dev z h)) (execClaim h x g none) rfl (execClaim_eq h x g none) hl ?_
    ⟨?_, reply_settle 8, ?_⟩
  · exact (control_expected (m := m) hx _ _ _).trans (carryOut_refused (claimForm_axis h hsh hx64) hneed (by decide))
  · rw [ht, he]
  · rw [ht, he]

end

/-! ### The end of a claim (R29) -/

section
variable {d : Dev} {a z : Nat}

/-- A slot that is not in loss is not freed. -/
theorem freeIdle_busy (hloss : (d.clientOf z).loss = false) : freeIdle z d = d := if_neg (by simp [hloss])

/-- A claim of a slot that is not in loss ends, and nothing else does. -/
theorem endClaim_eq (hc : tget none d.claim a = some z) (hloss : (d.clientOf z).loss = false) :
    endClaim a d = { d with
      claim := tset none d.claim a none
      policy := tset (2000, 0) d.policy a (2000, 0)
      holdEnd := tset none d.holdEnd a none } := by
  unfold endClaim
  simp only [hc]
  exact freeIdle_busy hloss

/-- An axis without a claim has none to end. -/
theorem endClaim_none (hc : tget none d.claim a = none) : endClaim a d = d := by
  unfold endClaim
  simp only [hc]

/-- All the freeing of an idle slot does. -/
theorem freeIdle_shape (s : Nat) (d : Dev) : ∃ rg j ev cl b, freeIdle s d =
    { d with regs := rg, jnl := j, evs := ev, clients := cl, bus := b } := by
  unfold freeIdle
  extract_lets c e
  obtain ⟨rg, j, ev, hj⟩ := submitRec_shape (some ((d.onClient s fun _ => {}).get LSS_PAIRST_SUP))
    { typ := 1, srck := 1, slot := s, name := c.name, payload := [4, s] } false false (d.onClient s fun _ => {})
  have he : e = { d.onClient s (fun _ => {}) with regs := rg, jnl := j, evs := ev } := hj
  clear_value e
  rw [he]
  split
  · exact ⟨rg, j, ev, _, _, rfl⟩
  · exact ⟨_, _, _, _, _, rfl⟩

/-- The end of a claim leaves an axis without a claim. -/
theorem claim_endClaim_same (a : Nat) (d : Dev) : tget none (endClaim a d).claim a = none := by
  unfold endClaim
  split
  · assumption
  · rename_i s _
    obtain ⟨rg, j, ev, cl, b, hf⟩ := freeIdle_shape s { d with
      claim := tset none d.claim a none
      policy := tset (2000, 0) d.policy a (2000, 0)
      holdEnd := tset none d.holdEnd a none }
    rw [hf]
    exact tget_tset_same none d.claim a none

end

/-! ### RELEASE (R29, R390) -/

/-- A RELEASE as a message. -/
def releaseMessage (h : Ctl) (x g : Nat) (mask : Option (BitVec 64)) : Msg :=
  { op := 0x11, axis := x, arg := g, words := (mask.map fun m => [m.toNat % 2 ^ 32, m.toNat / 2 ^ 32]).getD [],
    wellFormed := claimForm h x mask }

/-- Driving axes of a list are stopped until one refuses. -/
def stopAll (l : List Nat) (d : Dev) : Nat × Dev :=
  l.foldl (fun (r : Nat × Dev) a => if r.1 ≠ 0 || !(r.2.axSt a).driving then r else tryCmd a .stop 0 r.2) (0, d)

/-- What a RELEASE that may be carried out does. -/
def releaseAct (dev : Bool) (l : List Nat) (g : Nat) : Action := fun _ y =>
  if dev then (0, 0, y.dev fun d => { d with devClaim := none })
  else if !(g % 2 = 1) && l.any fun a => (y.1.axSt a).driving then (12, 0, y)
  else
    let r := stopAll l y.1
    if r.1 ≠ 0 then (6, r.1, (r.2, y.2)) else (0, 0, (r.2.each l endClaim, y.2))

section
variable (s : State) (h : Ctl) (x : Fin 256) (g : Fin 16777216) {z : Nat}

theorem execRelease_eq (mask : Option (BitVec 64)) : execRelease h x g mask =
    onDM (Machine.control h (releaseMessage h x g mask)
      (if namesDevice x mask then needDevice else needAxes (namedAxes x mask))
      (releaseAct (namesDevice x mask) (namedAxes x mask) g)) := rfl

/-- The holder of an axis may release it. -/
theorem release_need {d : Dev} {x : Nat} (hx64 : x < 64) (hc : tget none d.claim x = some z) :
    (if namesDevice x none then needDevice else needAxes (namedAxes x none)) z d = 0 := by
  rw [namesDevice_axis hx64, namedAxes_axis hx64, if_neg Bool.false_ne_true]
  simp [needAxes, hc]

theorem release_resting (hl : s.dev.sys.logicOn = true) (hx : s.dev.expects h 17 x.val g.val z)
    (hsh : shortOnly h = true) (hx64 : x.val < 64) (hc : tget none s.dev.claim x = some z)
    (hrest : (s.dev.axSt x).driving = false) (hloss : (s.dev.clientOf z).loss = false) :
    Does (.release h x g none) s fun t => tget none t.claim x = none ∧ tget (2000, 0) t.policy x = (2000, 0) ∧
          t.answers h 17 x.val (0) (0) ∧ (∀ a : Fin 64, t.axSt a = s.dev.axSt a) := by
  let m := releaseMessage h x g none
  let d := ready s.dev z h
  have hdl : (d.clientOf z).loss = false := by rw [clientOf_ready]; exact hloss
  let e : Dev := { d with
      claim := tset none d.claim x none
      policy := tset (2000, 0) d.policy x (2000, 0)
      holdEnd := tset none d.holdEnd x none }
  have hact : releaseAct (namesDevice x none) (namedAxes x none) g z (d, s.mem) = (0, 0, (e, s.mem)) := by
    have hrest' : (d.axSt x).driving = false := hrest
    have hend : d.each [x.val] endClaim = e := endClaim_eq hc hdl
    rw [namesDevice_axis hx64, namedAxes_axis hx64]
    simp [releaseAct, stopAll, hrest', hend]
  obtain ⟨j, -, hctl⟩ := control_accepted (m := m) (v := 0) (e := e) (mem := s.mem) hx (claimForm_axis h hsh hx64) rfl
    (release_need hx64 hc) hact rfl rfl rfl
  obtain ⟨cl, rp, ht⟩ := settle_shape (e := { e with jnl := j }) (h := h) (m := m) (z := z) (v := 0) 0
  refine does_onDM (execRelease h x g none) rfl (execRelease_eq h x g none) hl hctl ⟨?_, ?_, reply_settle 0, fun a => ?_⟩
  · rw [ht]
    exact tget_tset_same none d.claim x none
  · rw [ht]
    exact tget_tset_same (2000, 0) d.policy x (2000, 0)
  · rw [ht]
    rfl

theorem release_driving (hl : s.dev.sys.logicOn = true) (hx : s.dev.expects h 17 x.val g.val z)
    (hsh : shortOnly h = true) (hx64 : x.val < 64) (hc : tget none s.dev.claim x = some z)
    (hdrv : (s.dev.axSt x).driving = true) (hg : g.val % 2 = 0) :
    Does (.release h x g none) s fun t => t.claim = s.dev.claim ∧ t.answers h 17 x.val (12) (0) ∧ (∀ a : Fin 64,
          t.axSt a = s.dev.axSt a) ∧ t = { s.dev with clients := t.clients, reply := t.reply } := by
  let m := releaseMessage h x g none
  have hact : releaseAct (namesDevice x none) (namedAxes x none) g z (ready s.dev z h, s.mem) =
      (12, 0, (ready s.dev z h, s.mem)) := by
    have hdrv' : ((ready s.dev z h).axSt x).driving = true := hdrv
    rw [namesDevice_axis hx64, namedAxes_axis hx64]
    simp [releaseAct, hdrv', hg]
  obtain ⟨cl0, he⟩ := ready_shape s.dev z h
  obtain ⟨cl, rp, ht⟩ := settle_shape (e := ready s.dev z h) (h := h) (m := m) (z := z) (v := 0) 12
  have hshape : settle z h m 12 0 (ready s.dev z h) = { s.dev with clients := cl, reply := rp } := by rw [ht, he]
  refine does_onDM (t := settle z h m 12 0 (ready s.dev z h)) (execRelease h x g none) rfl (execRelease_eq h x g none) hl ?_
    ⟨?_, reply_settle 12, fun a => ?_, ?_⟩
  · rw [control_expected (m := m) hx, carryOut_recorded (claimForm_axis h hsh hx64)
      (release_need (d := ready s.dev z h) hx64 hc) rfl (ready_accepts hx m) hact, if_neg (by decide)]
  · rw [hshape]
  · rw [hshape]
    rfl
  · rw [hshape]

theorem release_device (hl : s.dev.sys.logicOn = true) (hx : s.dev.expects h 17 255 g.val z) (hsh : shortOnly h = true)
    (hc : s.dev.devClaim = some z) :
    Does (.release h 255 g none) s fun t => t.devClaim = none ∧ t.answers h 17 255 (0) (0) ∧ t =
          { s.dev with regs := t.regs, clients := t.clients, reply := t.reply, devClaim := t.devClaim, jnl := t.jnl } := by
  let m := releaseMessage h 255 g none
  let e : Dev := { ready s.dev z h with devClaim := none }
  have hneed : (if namesDevice 255 none then needDevice else needAxes (namedAxes 255 none)) z (ready s.dev z h) = 0 := by
    have hc' : (ready s.dev z h).devClaim = some z := hc
    simp [namesDevice, needDevice, hc']
  obtain ⟨j, -, hctl⟩ := control_accepted (m := m) (v := 0) (e := e) (mem := s.mem)
    (act := releaseAct (namesDevice 255 none) (namedAxes 255 none) g) hx (by simp [m, releaseMessage, claimForm, hsh]) rfl
    hneed rfl rfl rfl rfl
  obtain ⟨cl0, he⟩ := ready_shape s.dev z h
  obtain ⟨cl, rp, ht⟩ := settle_shape (e := { e with jnl := j }) (h := h) (m := m) (z := z) (v := 0) 0
  refine does_onDM (execRelease h 255 g none) rfl (execRelease_eq h 255 g none) hl hctl ⟨?_, reply_settle 0, ?_⟩
  · rw [ht]
  · rw [ht]
    simp only [e, he]

end

/-! ### Commands on a client's behalf (R178) -/

section
variable (d : Dev) {a : Nat} (ha : a < 64)

theorem stat_ne_state (a b : Nat) : CU_STATE b ≠ CU_STAT a := by simp only [CU_STATE, CU_STAT]; omega

/-- Writing REFUSE leaves the states of the axes. -/
theorem axSt_put_refuse (a v b : Nat) : (d.put (CU_STAT_REFUSE a) v).axSt b = d.axSt b :=
  congrArg AxState.ofCode (get_put_ne d (CU_STAT_REFUSE a) (CU_STATE_STATE b) v (stat_ne_state a b))

/-- A command at an axis that forms its own drive acts at it (R182). -/
theorem command_single {a : Nat} (hm : d.members a = [a]) (hoff : d.axSt a ≠ .off) (c : CuCmd) (dir : Nat) :
    command .debug a c dir d = doCmd a c dir d := by
  rw [command, asAxisWriter_ok _ rfl]
  simp only [if_neg hoff, Dev.lowest, hm, List.head?_cons, Option.getD_some, if_true]

/-- The drive of such an axis takes the state the axis takes. -/
theorem setDriveState_single {a : Nat} (hm : d.members a = [a]) (hoff : d.axSt a ≠ .off) (st : AxState) :
    setDriveState a st d = setAxState a st d := by
  rw [setDriveState, if_neg hoff]
  simp only [hm]
  rfl

/-- Writing a field leaves the drives. -/
theorem members_put (f : Fld) (v a : Nat) : (d.put f v).members a = d.members a := rfl

/-- STOP of a ramping axis that forms its own drive (R178). -/
theorem command_stop_ramp {a : Nat} (hm : d.members a = [a]) (hst : d.axSt a = .ramp) :
    command .debug a .stop 0 d = setAxState a .hiz d := by
  have hoff : d.axSt a ≠ .off := by rw [hst]; decide
  rw [command_single d hm hoff, ← setDriveState_single d hm hoff]
  simp [doCmd, doStop, hst]

/-- COAST of a six-stepping axis that forms its own drive (R178). -/
theorem command_coast_sixstep {a : Nat} (hm : d.members a = [a]) (hst : d.axSt a = .sixstep) :
    ∃ f, command .debug a .coast 0 d = setAxState a (d.restState a) (d.onDtc a f) := by
  have hoff : d.axSt a ≠ .off := by rw [hst]; decide
  refine ⟨fun t => { t with revOn := false, revWaiting := false }, ?_⟩
  rw [command_single d hm hoff, ← setDriveState_single (d.onDtc a _) hm hoff]
  exact if_pos (by rw [hst]; rfl)

include ha

/-- A command that changes the state of its axis is not refused. -/
theorem tryCmd_sets {e : Dev} {c : CuCmd} {dir : Nat} {st : AxState}
    (hy : command .debug a c dir (d.put (CU_STAT_REFUSE a) 0) = setAxState a st e) (h0 : e.get (CU_STAT_REFUSE a) = 0) :
    tryCmd a c dir d = (0, (setAxState a st e).put (CU_STAT_REFUSE a) (d.get (CU_STAT_REFUSE a))) := by
  have hr : (setAxState a st e).get (CU_STAT_REFUSE a) = 0 :=
    ((steady_setAxState e ha st).get (f := CU_STAT_REFUSE a) ⟨watched_stat ha, (stat_ne_state a a).symm⟩).trans h0
  unfold tryCmd
  simp only [hy, hr, if_true]

/-- STOP of a ramping axis that forms its own drive: HIZ (R178). -/
theorem tryCmd_stop_ramp (hm : d.members a = [a]) (hst : d.axSt a = .ramp) : tryCmd a .stop 0 d =
    (0, (setAxState a .hiz (d.put (CU_STAT_REFUSE a) 0)).put (CU_STAT_REFUSE a) (d.get (CU_STAT_REFUSE a))) :=
  tryCmd_sets d ha (command_stop_ramp _ ((members_put d _ _ a).trans hm) ((axSt_put_refuse d a 0 a).trans hst))
    (get_put_const d (CU_STAT_REFUSE a) 0 rfl)

/-- COAST of a six-stepping axis that forms its own drive: HIZ if turning, else OFF (R178). -/
theorem tryCmd_coast_sixstep (hm : d.members a = [a]) (hst : d.axSt a = .sixstep) : ∃ f, tryCmd a .coast 0 d =
    (0, (setAxState a ((d.put (CU_STAT_REFUSE a) 0).restState a) ((d.put (CU_STAT_REFUSE a) 0).onDtc a f)).put
      (CU_STAT_REFUSE a) (d.get (CU_STAT_REFUSE a))) := by
  obtain ⟨f, hf⟩ := command_coast_sixstep (d.put (CU_STAT_REFUSE a) 0) ((members_put d _ _ a).trans hm)
    ((axSt_put_refuse d a 0 a).trans hst)
  exact ⟨f, tryCmd_sets d ha hf ((onDtc_get _ a f _).trans (get_put_const d (CU_STAT_REFUSE a) 0 rfl))⟩

end

/-! ### Turning (R170) -/

/-- The motor's turning is read from the sample registers, not from REFUSE. -/
theorem turning_put_refuse (d : Dev) {a : Nat} (ha : a < 64) (v : Nat) :
    (d.put (CU_STAT_REFUSE a) v).turning a = d.turning a := by
  have hreg : ∀ r, r ≠ CU_STAT a → (d.put (CU_STAT_REFUSE a) v).reg r = d.reg r := fun r hr =>
    reg_put_ne d (CU_STAT_REFUSE a) v hr
  have hget : ∀ f : Fld, f.addr ≠ CU_STAT a → (d.put (CU_STAT_REFUSE a) v).get f = d.get f := fun f hf =>
    get_put_ne d (CU_STAT_REFUSE a) f v hf
  have hfresh : ∀ ch, (d.put (CU_STAT_REFUSE a) v).freshVal (a / 4) ch = d.freshVal (a / 4) ch := by
    intro ch
    have hsample : ∀ r ∈ resultRegs (a / 4), (d.put (CU_STAT_REFUSE a) v).sampleAt ch r = d.sampleAt ch r := by
      intro r hr
      have hc := inClusters_results (q := a / 4) (by omega) (List.mem_append_left (urgentRegs (a / 4)) hr)
      rw [Dev.sampleAt, hreg r (by simp only [InClusters, CU_STAT] at *; omega), Dev.sampleAt]
      rfl
    have hpres : (d.put (CU_STAT_REFUSE a) v).present (a / 4) = d.present (a / 4) := by
      rw [Dev.present, hget (CSL_STAT_STATE (a / 4)) (by simp only [CSL_STAT_STATE, CSL_STAT, CU_STAT]; omega), Dev.present]
    rw [Dev.freshVal, Dev.freshest, hpres, List.foldl_ext _ _ _ fun b r hr => congrArg (later b) (hsample r hr)]
    rfl
  rw [Dev.turning, Dev.bemfAtLeast, Dev.bemfSq9]
  simp only [hfresh]
  rw [hget (CU_CATCH_BEMFMIN a) (by simp only [CU_CATCH_BEMFMIN, CU_CATCH, CU_STAT]; omega)]
  rfl

/-! ### Holds (R393) -/

section
variable (d : Dev)

@[simp] theorem onSix_holdEnd (a : Nat) (f : SixH → SixH) : (d.onSix a f).holdEnd = d.holdEnd := rfl
@[simp] theorem onDtc_holdEnd (a : Nat) (f : DtcH → DtcH) : (d.onDtc a f).holdEnd = d.holdEnd := rfl
@[simp] theorem onSess_holdEnd (i : Nat) (f : SessH → SessH) : (d.onSess i f).holdEnd = d.holdEnd := rfl
@[simp] theorem onPort_holdEnd (a : Nat) (f : PortH → PortH) : (d.onPort a f).holdEnd = d.holdEnd := rfl
@[simp] theorem setBit_holdEnd (a n : Nat) : (d.setBit a n).holdEnd = d.holdEnd := put_holdEnd d ⟨a, n, 1⟩ 1
@[simp] theorem raise_holdEnd (n : Nat) : (raise n d).holdEnd = d.holdEnd := by rw [raise_shape]

theorem resetTrims_holdEnd (a : Nat) : (resetTrims a d).holdEnd = d.holdEnd := by
  unfold resetTrims
  split
  · rfl
  · exact each_frame Dev.holdEnd _ _ (fun _ _ => by rw [put_holdEnd, put_holdEnd]) d

theorem takeBond_holdEnd (a : Nat) : (takeBond a d).holdEnd = d.holdEnd := by
  unfold takeBond
  extract_lets q w own keep new e0 e1
  split
  · rfl
  · rw [resetTrims_holdEnd]
    exact each_frame Dev.holdEnd _ _ (fun _ _ => setReg_holdEnd _ _ _) e0

theorem sessionsOnState_holdEnd (a : Nat) (st : AxState) : (sessionsOnState a st d).holdEnd = d.holdEnd := by
  refine each_frame Dev.holdEnd _ _ (fun s t => ?_) d
  split
  · unfold sessAbort raiseScu
    split
    · rw [raise_holdEnd, setBit_holdEnd, onSess_holdEnd, put_holdEnd, put_holdEnd]
    · rfl
  · rfl

theorem quiesce_holdEnd (a : Nat) : (quiesce a d).holdEnd = d.holdEnd := by
  rw [quiesce, put_holdEnd, put_holdEnd, put_holdEnd, onDtc_holdEnd, onSix_holdEnd, setPat, put_holdEnd, put_holdEnd,
    put_holdEnd, put_holdEnd]

/-- A change of an axis state begins no hold. -/
theorem holdEnd_setAxState {a : Nat} (st : AxState) (hh : tget none d.holdEnd a = none) :
    tget none (setAxState a st d).holdEnd a = none := by
  unfold setAxState
  extract_lets old d1 d2 d3 d4 d5
  have h1 : d1.holdEnd = d.holdEnd := by simp only [d1]; split <;> simp only [takeBond_holdEnd]
  have h2 : d2.holdEnd = d1.holdEnd := by simp only [d2]; split <;> simp only [resetTrims_holdEnd]
  have h3 : d3.holdEnd = d2.holdEnd := by
    rw [show d3.holdEnd = _ from raise_holdEnd _ _, put_holdEnd, put_holdEnd]
  have h4 : d4.holdEnd = d3.holdEnd := (onPort_holdEnd _ _ _).trans (sessionsOnState_holdEnd d3 a st)
  have h4' : tget none d4.holdEnd a = none := by rw [h4, h3, h2, h1, hh]
  have h5 : d5 = d4 := if_neg (by simp [h4'])
  split
  · exact hh
  · rw [h5]
    split
    · exact h4'
    · rw [quiesce_holdEnd, h4']

/-- All the end of a claim does. -/
theorem endClaim_shape (a : Nat) : endClaim a d = d ∨ ∃ rg j ev cl b, endClaim a d = { d with
    claim := tset none d.claim a none
    policy := tset (2000, 0) d.policy a (2000, 0)
    holdEnd := tset none d.holdEnd a none
    regs := rg, jnl := j, evs := ev, clients := cl, bus := b } := by
  unfold endClaim
  split
  · exact .inl rfl
  · rename_i s _
    obtain ⟨rg, j, ev, cl, b, hf⟩ := freeIdle_shape s { d with
      claim := tset none d.claim a none
      policy := tset (2000, 0) d.policy a (2000, 0)
      holdEnd := tset none d.holdEnd a none }
    exact .inr ⟨rg, j, ev, cl, b, hf⟩

/-- The end of a claim begins no hold. -/
theorem holdEnd_endClaim {a : Nat} (hh : tget none d.holdEnd a = none) : tget none (endClaim a d).holdEnd a = none := by
  rcases endClaim_shape d a with h | ⟨rg, j, ev, cl, b, h⟩
  · rw [h, hh]
  · rw [h]
    exact tget_tset_same none d.holdEnd a none

end

section
variable (s : State) (a : Fin 64)

theorem lossHoldExpiry_coasts {k : Nat} (hl : s.dev.sys.logicOn = true) (hk : tget none s.dev.holdEnd a = some k)
    (ht : k ≤ s.dev.now) (hp : (tget (2000, 0) s.dev.policy a).2 = 1) (hm : s.dev.members a = [a.val])
    (hst : s.dev.axSt a = .sixstep) :
    Does (.lossHoldExpiry a) s fun t => (t.axSt a = (if s.dev.turning a then .hiz else .off)) ∧ tget none t.claim a
          = none ∧ tget none t.holdEnd a = none := by
  let d : Dev := { s.dev with holdEnd := tset none s.dev.holdEnd a none }
  have hrest : (d.put (CU_STAT_REFUSE a) 0).restState a = if s.dev.turning a then .hiz else .off := by
    rw [Dev.restState, turning_put_refuse d a.isLt]
    rfl
  obtain ⟨f, hf⟩ := tryCmd_coast_sixstep d a.isLt hm hst
  generalize he : (d.put (CU_STAT_REFUSE a) 0).onDtc a f = e at hf
  have hhold : tget none e.holdEnd a = none := by
    rw [← he, onDtc_holdEnd, put_holdEnd]
    exact tget_tset_same none s.dev.holdEnd a none
  rw [hrest] at hf
  generalize hstate : (if s.dev.turning a then AxState.hiz else .off) = st at hf ⊢
  generalize hy : (setAxState a st e).put (CU_STAT_REFUSE a) (d.get (CU_STAT_REFUSE a)) = y at hf
  refine does_onDev_of_eq (t := endClaim a y) (execLossHoldExpiry a) rfl rfl hl ?_ ⟨?_, claim_endClaim_same _ _, ?_⟩
  · simp only [hk, ht, hp, if_true]
    exact congrArg (fun r : Nat × Dev => endClaim a r.2) hf
  · rw [(steady_endClaim y a).axSt (watched_state a.isLt).far, ← hy, axSt_put_refuse, axSt_setAxState_same e a.isLt]
  · refine holdEnd_endClaim y ?_
    rw [← hy, put_holdEnd]
    exact holdEnd_setAxState e st hhold

theorem lossHoldExpiry_idle (hl : s.dev.sys.logicOn = true) (hk : tget none s.dev.holdEnd a = none) :
    Does (.lossHoldExpiry a) s fun t => t = s.dev := by
  refine does_onDev (execLossHoldExpiry a) rfl rfl hl ?_
  simp only [hk]

end

/-! ### RELEASE of a driving axis (R29) -/

section
variable (s : State) (h : Ctl) (x : Fin 256) (g : Fin 16777216) {z : Nat}

/-- STOP of a ramping axis that forms its own drive leaves it in HIZ (R178). -/
theorem tryCmd_stop_hiz (d : Dev) {x : Nat} (hx64 : x < 64) (hm : d.members x = [x]) (hst : d.axSt x = .ramp) :
    ∃ y, tryCmd x .stop 0 d = (0, y) ∧ y.axSt x = .hiz := by
  have hax := axSt_setAxState_same (d.put (CU_STAT_REFUSE x) 0) hx64 .hiz
  rw [← axSt_put_refuse _ x (d.get (CU_STAT_REFUSE x)) x] at hax
  exact ⟨_, tryCmd_stop_ramp d hx64 hm hst, hax⟩

/-- A RELEASE with STOP of such an axis leaves it in HIZ, without a claim. -/
theorem releaseAct_ramp (d : Dev) {x g : Nat} (mem : List Host.Cell) (hx64 : x < 64) (hm : d.members x = [x])
    (hst : d.axSt x = .ramp) (hg : g % 2 = 1) : ∃ e, releaseAct false [x] g z (d, mem) = (0, 0, (e, mem)) ∧
      tget none e.claim x = none ∧ e.axSt x = .hiz := by
  obtain ⟨y, hstop, hax⟩ := tryCmd_stop_hiz d hx64 hm hst
  have hall : stopAll [x] d = (0, y) := by simp [stopAll, hst, AxState.driving, hstop]
  refine ⟨endClaim x y, by simp [releaseAct, hall, hg, Dev.each], claim_endClaim_same x y, ?_⟩
  rw [(steady_endClaim y x).axSt (watched_state hx64).far, hax]

theorem release_stops (hl : s.dev.sys.logicOn = true) (hx : s.dev.expects h 17 x.val g.val z)
    (hsh : shortOnly h = true) (hx64 : x.val < 64) (hc : tget none s.dev.claim x = some z)
    (hst : s.dev.axSt x = .ramp) (hg : g.val % 2 = 1) (hm : s.dev.members x = [x.val]) :
    Does (.release h x g none) s fun t => tget none t.claim x = none ∧ t.axSt x = .hiz ∧ t.answers h 17 x.val (0)
          (0) := by
  let m := releaseMessage h x g none
  let d := ready s.dev z h
  obtain ⟨e, hact, hcl, hax⟩ := releaseAct_ramp (z := z) d s.mem hx64 hm hst hg
  rw [← namesDevice_axis hx64, ← namedAxes_axis hx64] at hact
  have hrec : ∀ p, some e.sup = some p → p < 8 := fun p hp => Option.some.inj hp ▸ sup_lt e
  have hs := steady_submitRec (some e.sup) (msgRec 1 z h m d) false false e hrec
  obtain ⟨rg, j, ev, hsub⟩ := submitRec_shape (some e.sup) (msgRec 1 z h m d) false false e
  refine does_onDM (t := settle z h m 0 0 (submitRec (some e.sup) (msgRec 1 z h m d) false false e))
    (execRelease h x g none) rfl (execRelease_eq h x g none) hl ?_ ⟨?_, ?_, reply_settle 0⟩
  · rw [control_expected (m := m) hx, carryOut_recorded (claimForm_axis h hsh hx64)
      (release_need (d := ready s.dev z h) hx64 hc) rfl (ready_accepts hx m) hact, if_pos rfl]
  · obtain ⟨cl, rp, ht⟩ := settle_shape (e := submitRec (some e.sup) (msgRec 1 z h m d) false false e) (h := h) (m := m)
      (z := z) (v := 0) 0
    rw [ht, hsub]
    exact hcl
  · rw [axSt_settle, hs.axSt (watched_state hx64).far, hax]

end

/-! ### Loss (R386, R393) -/

/-- A part of the block that the steps of a list leave, the whole leaves. -/
theorem each_frame_mem {α β : Type} {g : Dev → β} {l : List α} {f : α → Dev → Dev}
    (hf : ∀ x ∈ l, ∀ d, g (f x d) = g d) (d : Dev) : g (d.each l f) = g d := by
  induction l generalizing d with
  | nil => rfl
  | cons x l ih => exact (ih (fun y hy => hf y (List.mem_cons_of_mem _ hy)) (f x d)).trans (hf x List.mem_cons_self d)

/-- A part of the block that only one step of a list touches is left as that step leaves it. -/
theorem each_local {α β : Type} {g : Dev → β} {l : List α} (hn : l.Nodup) {b : α} (hb : b ∈ l) {f : α → Dev → Dev}
    (hf : ∀ x ∈ l, x ≠ b → ∀ d, g (f x d) = g d) (d : Dev) : ∃ t, g t = g d ∧ g (d.each l f) = g (f b t) := by
  induction l generalizing d with
  | nil => exact absurd hb List.not_mem_nil
  | cons x l ih =>
    obtain ⟨hx, hn⟩ := List.nodup_cons.1 hn
    rcases List.mem_cons.1 hb with rfl | hbl
    · exact ⟨d, rfl, each_frame_mem (fun y hy => hf y (List.mem_cons_of_mem _ hy) fun h => hx (h ▸ hy)) (f b d)⟩
    · obtain ⟨t, ht, he⟩ := ih hn hbl (fun y hy => hf y (List.mem_cons_of_mem _ hy)) (f x d)
      exact ⟨t, ht.trans (hf x List.mem_cons_self (fun h => hx (h ▸ hbl)) d), he⟩

/-- What the loss of a slot does to one axis (R393). -/
def loseAxis (s a : Nat) (d : Dev) : Dev :=
  if tget none d.claim a ≠ some s then d
  else if (d.axSt a).driving then
    { d with holdEnd := tset none d.holdEnd a (some (d.now + 200000 * (tget (2000, 0) d.policy a).1)) }
  else endClaim a d

/-- What the loss of a slot does before its axes. -/
def lossBegins (s : Nat) (d : Dev) : Dev :=
  let d := journalClient 1 s (d.clientOf s).name [2, s] (d.onClient s fun c => { c with loss := true })
  if d.devClaim = some s then { d with devClaim := none } else d

section
variable {d : Dev} {s : Nat}

/-- A slot in use that is not in loss enters loss. -/
theorem enterLoss_eq (hu : (d.clientOf s).used = true) (hloss : (d.clientOf s).loss = false) :
    enterLoss s d = freeIdle s ((lossBegins s d).each allAxes (loseAxis s)) := by
  unfold enterLoss
  exact if_neg (by simp [hu, hloss])

/-- All the beginning of a loss does. -/
theorem lossBegins_shape (s : Nat) (d : Dev) : ∃ rg j ev dc, dc ≠ some s ∧ lossBegins s d =
    { d.onClient s (fun c => { c with loss := true }) with regs := rg, jnl := j, evs := ev, devClaim := dc } := by
  unfold lossBegins
  extract_lets e
  obtain ⟨rg, j, ev, hj⟩ := submitRec_shape (some ((d.onClient s fun c => { c with loss := true }).get LSS_PAIRST_SUP))
    { typ := 1, srck := 1, slot := s, name := (d.clientOf s).name, payload := [2, s] } false false
    (d.onClient s fun c => { c with loss := true })
  have he : e = { d.onClient s (fun c => { c with loss := true }) with regs := rg, jnl := j, evs := ev } := hj
  clear_value e
  subst he
  split
  · exact ⟨rg, j, ev, none, by simp, rfl⟩
  · exact ⟨rg, j, ev, _, by assumption, rfl⟩

/-- A slot is in loss or free. -/
def Lost (s : Nat) (d : Dev) : Prop := (d.clientOf s).used = false ∨ (d.clientOf s).loss = true

theorem lost_freeIdle (h : Lost s d) : Lost s (freeIdle s d) := by
  unfold freeIdle
  extract_lets c e
  obtain ⟨rg, j, ev, hj⟩ := submitRec_shape (some ((d.onClient s fun _ => {}).get LSS_PAIRST_SUP))
    { typ := 1, srck := 1, slot := s, name := c.name, payload := [4, s] } false false (d.onClient s fun _ => {})
  have he : e = { d.onClient s (fun _ => {}) with regs := rg, jnl := j, evs := ev } := hj
  clear_value e
  subst he
  split
  · exact .inl (congrArg ClientH.used (clientOf_onClient_same d s fun _ => {}))
  · exact h

theorem lost_loseAxis (a : Nat) (h : Lost s d) : Lost s (loseAxis s a d) := by
  unfold loseAxis
  split
  · exact h
  · rename_i hc
    rw [not_not] at hc
    split
    · exact h
    · unfold endClaim
      simp only [hc]
      exact lost_freeIdle h

/-- The loss of an axis leaves the device claim. -/
theorem devClaim_loseAxis (a : Nat) (d : Dev) : (loseAxis s a d).devClaim = d.devClaim := by
  unfold loseAxis
  split
  · rfl
  · split
    · rfl
    · rcases endClaim_shape d a with h | ⟨rg, j, ev, cl, b, h⟩ <;> rw [h]

theorem steady_loseAxis (a : Nat) (d : Dev) : Steady Far d (loseAxis s a d) :=
  .ite (.refl _ d) (.ite (.of_hidden rfl rfl rfl) (steady_endClaim d a))

/-- The freeing of an idle slot leaves the device claim. -/
theorem devClaim_freeIdle (s : Nat) (d : Dev) : (freeIdle s d).devClaim = d.devClaim := by
  obtain ⟨rg, j, ev, cl, b, h⟩ := freeIdle_shape s d
  rw [h]

/-- What a loss reads and writes of one axis. -/
def holding (b : Nat) (d : Dev) : Option Nat × Option Nat × (Nat × Nat) × Nat × AxState :=
  (tget none d.claim b, tget none d.holdEnd b, tget (2000, 0) d.policy b, d.now, d.axSt b)

/-- The loss of one axis leaves the others. -/
theorem holding_loseAxis_ne {a b : Nat} (hb : b < 64) (hab : b ≠ a) (d : Dev) :
    holding b (loseAxis s a d) = holding b d := by
  have hs := steady_loseAxis (s := s) a d
  have htab : tget none (loseAxis s a d).claim b = tget none d.claim b ∧
      tget none (loseAxis s a d).holdEnd b = tget none d.holdEnd b ∧
      tget (2000, 0) (loseAxis s a d).policy b = tget (2000, 0) d.policy b := by
    unfold loseAxis
    split
    · exact ⟨rfl, rfl, rfl⟩
    · split
      · refine ⟨rfl, ?_, rfl⟩
        rw [tget_tset_ne _ _ _ _ hab]
      · rcases endClaim_shape d a with h | ⟨rg, j, ev, cl, bb, h⟩
        · rw [h]; exact ⟨rfl, rfl, rfl⟩
        · rw [h]; exact ⟨tget_tset_ne none none d.claim none hab, tget_tset_ne none none d.holdEnd none hab,
            tget_tset_ne (2000, 0) (2000, 0) d.policy (2000, 0) hab⟩
  obtain ⟨h1, h2, h3⟩ := htab
  rw [holding, h1, h2, h3, hs.now, hs.axSt (watched_state hb).far, holding]

/-- The freeing of an idle slot leaves every axis. -/
theorem holding_freeIdle {b : Nat} (hb : b < 64) (d : Dev) : holding b (freeIdle s d) = holding b d := by
  have hs := steady_freeIdle d s
  have hax := hs.axSt (watched_state hb).far
  obtain ⟨rg, j, ev, cl, bb, h⟩ := freeIdle_shape s d
  rw [holding, hax, h, holding]

/-- The beginning of a loss leaves every axis. -/
theorem holding_lossBegins {b : Nat} (hb : b < 64) (d : Dev) : holding b (lossBegins s d) = holding b d := by
  have hs : Steady Far d (lossBegins s d) := by
    have hj : Steady Far d (journalClient 1 s (d.clientOf s).name [2, s] (d.onClient s fun c => { c with loss := true })) :=
      ((Steady.refl Far d).onClient s _).trans (steady_journalClient _ _ _ _ _)
    unfold lossBegins
    exact .ite (hj.devClaim none) hj
  have hax := hs.axSt (watched_state hb).far
  obtain ⟨rg, j, ev, dc, -, h⟩ := lossBegins_shape s d
  rw [holding, hax, h, holding]
  rfl

/-- An axis that does not drive loses its claim. -/
theorem claim_loseAxis_rest {b : Nat} (hc : tget none d.claim b = some s) (hd : (d.axSt b).driving = false) :
    tget none (loseAxis s b d).claim b = none := by
  rw [loseAxis, if_neg (by simp [hc]), if_neg (by simp [hd])]
  exact claim_endClaim_same b d

/-- A driving axis keeps its claim and begins its hold. -/
theorem loseAxis_driving {b : Nat} (hc : tget none d.claim b = some s) (hd : (d.axSt b).driving = true) :
    loseAxis s b d =
      { d with holdEnd := tset none d.holdEnd b (some (d.now + 200000 * (tget (2000, 0) d.policy b).1)) } := by
  rw [loseAxis, if_neg (by simp [hc]), if_pos hd]

/-- What the loss of a slot leaves of one axis, from what the loss of the axis does. -/
theorem holding_loss {b : Nat} (hb : b < 64) (d : Dev) :
    ∃ t, holding b t = holding b d ∧ holding b (d.each allAxes (loseAxis s)) = holding b (loseAxis s b t) :=
  each_local List.nodup_range (List.mem_range.2 hb) (fun _ _ hab t => holding_loseAxis_ne hb (Ne.symm hab) t) d

end

section
variable (s : State) (k : Fin 64)

theorem slotLoss_loses (hl : s.dev.sys.logicOn = true) (hu : (s.dev.clientOf k).used = true)
    (hloss : (s.dev.clientOf k).loss = false) (htc : (s.dev.clientOf k).tc = false)
    (hh : (s.dev.clientOf k).heard + 3 * (s.dev.clientOf k).beat * 200000 ≤ s.dev.now) :
    Does (.slotLoss k) s fun t => ((t.clientOf k).used = false ∨ (t.clientOf k).loss = true) ∧ t.devClaim ≠ some
          k.val ∧ (∀ a : Fin 64, tget none s.dev.claim a = some k.val → (s.dev.axSt a).driving = false → tget none
          t.claim a = none) ∧ (∀ a : Fin 64, tget none s.dev.claim a = some k.val → (s.dev.axSt a).driving = true →
          tget none t.claim a = some k.val ∧ tget none t.holdEnd a = some (s.dev.now + 200000 * (tget (2000, 0)
          s.dev.policy a).1)) ∧ (∀ a : Fin 64, t.axSt a = s.dev.axSt a) := by
  refine does_onDev_of_eq (t := freeIdle k ((lossBegins k s.dev).each allAxes (loseAxis k))) (execSlotLoss k) rfl rfl hl
    ?_ ?_
  · rw [if_pos (by simp [hu, hloss, htc, hh])]
    exact enterLoss_eq hu hloss
  obtain ⟨rg, j, ev, dc, hdc, hb⟩ := lossBegins_shape k s.dev
  have hlost : Lost k (lossBegins k s.dev) := by
    rw [hb]
    exact .inr (congrArg ClientH.loss (clientOf_onClient_same s.dev k fun c => { c with loss := true }))
  have hdev : (lossBegins k s.dev).devClaim ≠ some k.val := by rw [hb]; exact hdc
  have hhold : ∀ a : Fin 64, holding a (lossBegins k s.dev) = holding a s.dev := fun a => holding_lossBegins a.isLt s.dev
  generalize lossBegins k s.dev = d at hlost hdev hhold
  have hat : ∀ a : Fin 64, ∃ t, holding a t = holding a s.dev ∧
      holding a (freeIdle k (d.each allAxes (loseAxis k))) = holding a (loseAxis k a t) := fun a => by
    obtain ⟨t, ht, he⟩ := holding_loss (s := k) a.isLt d
    exact ⟨t, ht.trans (hhold a), (holding_freeIdle a.isLt _).trans he⟩
  have hax : ∀ a : Fin 64, (freeIdle k (d.each allAxes (loseAxis k))).axSt a = s.dev.axSt a := fun a => by
    have hs : Steady Far d (d.each allAxes (loseAxis k)) := .each (fun b _ t => steady_loseAxis b t) d
    have hh := hhold a
    simp only [holding, Prod.mk.injEq] at hh
    obtain ⟨-, -, -, -, hd⟩ := hh
    exact ((hs.trans (steady_freeIdle _ k)).axSt (watched_state a.isLt).far).trans hd
  refine ⟨lost_freeIdle (each_keeps (Lost k) _ _ (fun a _ => lost_loseAxis a) d hlost), ?_, fun a hc hd => ?_,
    fun a hc hd => ?_, hax⟩
  · rw [devClaim_freeIdle, each_frame Dev.devClaim allAxes (loseAxis k) devClaim_loseAxis d]
    exact hdev
  · obtain ⟨t, ht, he⟩ := hat a
    simp only [holding, Prod.mk.injEq] at ht he
    obtain ⟨htc, -, -, -, hta⟩ := ht
    rw [he.1]
    exact claim_loseAxis_rest (htc.trans hc) (hta ▸ hd)
  · obtain ⟨t, ht, he⟩ := hat a
    simp only [holding, Prod.mk.injEq] at ht he
    obtain ⟨htc, -, htp, htn, hta⟩ := ht
    obtain ⟨hec, heh, -⟩ := he
    have hl := loseAxis_driving (htc.trans hc) (hta ▸ hd : (t.axSt a).driving = true)
    refine ⟨?_, ?_⟩
    · rw [hec, hl]
      exact htc.trans hc
    · rw [heh, hl, htn, htp, tget_tset_same]

theorem slotLoss_early (hl : s.dev.sys.logicOn = true)
    (hh : s.dev.now < (s.dev.clientOf k).heard + 3 * (s.dev.clientOf k).beat * 200000) :
    Does (.slotLoss k) s fun t => t = s.dev := by
  refine does_onDev (execSlotLoss k) rfl rfl hl ?_
  exact if_neg (by simp [Nat.not_le.2 hh])

end

/-! ### CLOSE (R386, R390) -/

section
variable {z : Nat}

/-- An axis that does not drive is not stopped. -/
theorem stopAxis_rest {d : Dev} {a : Nat} (h : (d.axSt a).driving = false) : stopAxis a d = d := if_neg (by simp [h])

/-- The end of one claim of a slot that is not in loss. -/
theorem endClaim_held {d : Dev} {a : Nat} (hloss : (d.clientOf z).loss = false)
    (hc : tget none d.claim a = none ∨ tget none d.claim a = some z) : ∃ c p hd,
      endClaim a d = { d with claim := c, policy := p, holdEnd := hd } ∧
      ∀ b, tget none c b = if b = a then none else tget none d.claim b := by
  rcases hc with hc | hc
  · refine ⟨d.claim, d.policy, d.holdEnd, endClaim_none hc, fun b => ?_⟩
    split
    · rename_i hb; rw [hb, hc]
    · rfl
  · exact ⟨_, _, _, endClaim_eq hc hloss, fun b => tget_tset none d.claim a b none⟩

/-- The claims of a slot that is not in loss end, axis by axis, when none of the axes drives. -/
theorem each_endClaim_held {l : List Nat} {d : Dev} (hloss : (d.clientOf z).loss = false)
    (hc : ∀ a ∈ l, tget none d.claim a = none ∨ tget none d.claim a = some z)
    (hrest : ∀ a ∈ l, (d.axSt a).driving = false) : ∃ c p hd,
      d.each l (fun a d => endClaim a (stopAxis a d)) = { d with claim := c, policy := p, holdEnd := hd } ∧
      ∀ b, tget none c b = if b ∈ l then none else tget none d.claim b := by
  induction l generalizing d with
  | nil => exact ⟨_, _, _, rfl, fun _ => rfl⟩
  | cons x l ih =>
    obtain ⟨c, p, hd, hend, hcx⟩ := endClaim_held hloss (hc x List.mem_cons_self)
    obtain ⟨c', p', hd', he, hcl⟩ := ih (d := { d with claim := c, policy := p, holdEnd := hd }) hloss
      (fun a ha => by
        rw [hcx]
        split
        · exact .inl rfl
        · exact hc a (List.mem_cons_of_mem _ ha))
      (fun a ha => hrest a (List.mem_cons_of_mem _ ha))
    refine ⟨c', p', hd', ?_, fun b => ?_⟩
    · change (endClaim x (stopAxis x d)).each l _ = _
      rw [stopAxis_rest (hrest x List.mem_cons_self), hend, he]
    · rw [hcl, hcx]
      by_cases hb : b = x
      · rw [if_pos hb, ite_self, if_pos (hb ▸ List.mem_cons_self)]
      · rw [if_neg hb]
        simp only [List.mem_cons, hb, false_or]

/-- The axes a slot holds. -/
theorem mem_heldBy {d : Dev} {a : Nat} : a ∈ d.heldBy z ↔ a < 64 ∧ tget none d.claim a = some z := by
  rw [Dev.heldBy, List.mem_filter, allAxes, List.mem_range, decide_eq_true_eq]

/-- A freed slot: nothing of it stays. -/
theorem freeSlot_spec (d : Dev) : (freeSlot z d).clientOf z = {} ∧ (freeSlot z d).devClaim ≠ some z ∧
    (freeSlot z d).claim = d.claim := by
  refine ⟨?_, ?_, rfl⟩
  · exact clientOf_onClient_same { d with devClaim := if d.devClaim = some z then none else d.devClaim } z fun _ => {}
  · change (if d.devClaim = some z then none else d.devClaim) ≠ some z
    split
    · exact fun h => nomatch h
    · assumption

/-- A CLOSE as a message. -/
def closeMessage (h : Ctl) (x g : Nat) : Msg := { op := 0x02, axis := x, arg := g, wellFormed := shortOnly h }

/-- What a CLOSE that may be carried out does. -/
def closeAct : Action := fun z y =>
  (0, 0, y.dev fun d => freeSlot z (d.each (d.heldBy z) fun a d => endClaim a (stopAxis a d)))

variable (s : State) (h : Ctl) (x : Fin 256) (g : Fin 16777216)

theorem execClose_eq : execClose h x g = onDM (Machine.control h (closeMessage h x g) needNone closeAct) := rfl

theorem closeSlot_frees (hl : s.dev.sys.logicOn = true) (hx : s.dev.expects h 2 x.val g.val z) (hsh : shortOnly h = true)
    (hrest : ∀ a : Fin 64, tget none s.dev.claim a = some z → (s.dev.axSt a).driving = false) :
    Does (.closeSlot h x g) s fun t => (t.clientOf z).used = false ∧ (∀ a : Fin 64, tget none t.claim a ≠ some z) ∧
          t.devClaim ≠ some z ∧ t.answers h 2 x.val (0) (0) := by
  let m := closeMessage h x g
  have hloss : ((ready s.dev z h).clientOf z).loss = false := by
    obtain ⟨-, -, hloss, -⟩ := id hx
    rw [clientOf_ready]
    exact hloss
  have hclaim : (ready s.dev z h).claim = s.dev.claim := rfl
  have hax : ∀ a, (ready s.dev z h).axSt a = s.dev.axSt a := fun _ => rfl
  have hctl : Machine.control h m needNone closeAct (s.dev, s.mem) =
      carryOut z h m needNone closeAct (ready s.dev z h, s.mem) :=
    control_expected (m := m) hx _ _ _
  have hacc := ready_accepts hx m
  generalize ready s.dev z h = d at hloss hclaim hax hctl hacc
  obtain ⟨c, p, hd, heach, hc⟩ := each_endClaim_held (l := d.heldBy z) hloss (fun a ha => .inr (mem_heldBy.1 ha).2)
    fun a ha => by
      obtain ⟨h64, hca⟩ := mem_heldBy.1 ha
      rw [hax]
      exact hrest ⟨a, h64⟩ (hclaim ▸ hca)
  have hact : closeAct z (d, s.mem) = (0, 0, (freeSlot z { d with claim := c, policy := p, holdEnd := hd }, s.mem)) := by
    rw [← heach]
    rfl
  obtain ⟨hcli, hdev, hfc⟩ := freeSlot_spec (z := z) { d with claim := c, policy := p, holdEnd := hd }
  generalize freeSlot z { d with claim := c, policy := p, holdEnd := hd } = e at hact hcli hdev hfc
  obtain ⟨rg, j, ev, hsub⟩ := submitRec_shape (some e.sup) (msgRec 1 z h m d) false false e
  refine does_onDM (t := settle z h m 0 0 (submitRec (some e.sup) (msgRec 1 z h m d) false false e))
    (execClose h x g) rfl (execClose_eq h x g) hl ?_ ⟨?_, fun a => ?_, ?_, reply_settle 0⟩
  · rw [hctl, carryOut_recorded (m := m) hsh rfl rfl hacc hact, if_pos rfl]
  · rw [hsub, settle, clientOf_onClient_same, clientOf_respond]
    have hcli' : Dev.clientOf { e with regs := rg, jnl := j, evs := ev } z = {} := hcli
    rw [hcli']
    rfl
  · obtain ⟨cl, rp, ht⟩ := settle_shape (e := submitRec (some e.sup) (msgRec 1 z h m d) false false e) (h := h) (m := m)
      (z := z) (v := 0) 0
    rw [ht, hsub]
    change tget none e.claim a ≠ some z
    rw [hfc]
    change tget none c a ≠ some z
    rw [hc]
    split
    · exact fun h => nomatch h
    · rename_i hn
      exact fun ha => hn (mem_heldBy.2 ⟨a.isLt, ha⟩)
  · obtain ⟨cl, rp, ht⟩ := settle_shape (e := submitRec (some e.sup) (msgRec 1 z h m d) false false e) (h := h) (m := m)
      (z := z) (v := 0) 0
    rw [ht, hsub]
    exact hdev

end

/-- Settles O45: each message and each end of a hold by its own lemma. -/
theorem clientSlots : Obligations.ClientSlots :=
  ⟨fun s h x g _ _ hl hs hchk hsh hb hn hf ha => open_fresh s h x g hl hs hchk hsh hb hn hf ha,
   fun s h x g _ _ hl hs hchk hsh hb hz hloss ha => open_resumes s h x g hl hs hchk hsh hb hz hloss ha,
   fun s h x g _ hl hs hchk hn hf => open_full s h x g hl hs hchk hn hf,
   fun s h x g hl hs hchk => open_noName s h x g hl hs hchk,
   fun s h x g hl hs => open_unreceived s h x g hl hs,
   fun s h x g _ _ hl hs hz hloss hchk hsh => beat_refreshes s h x g hl hs hz hloss hchk hsh,
   fun s h x g hl hs hchk => beat_badCheck s h x g hl hs hchk,
   fun s h x g _ hl hx hsh hx64 => read_axis s h x g hl hx hsh hx64,
   fun s h g _ hl hx hsh => read_mode s h g hl hx hsh,
   fun s h x g _ _ hl hs hz hchk _ => read_badCheck s h x g hl hs hz hchk,
   fun s h x g _ _ hl hs hz hloss hchk htok hseq => read_repeated s h x g hl hs hz hloss hchk htok hseq,
   fun s h x g _ _ hl hs hz hloss hchk htok hseq hseq' => read_unexpected s h x g hl hs hz hloss hchk htok hseq hseq',
   fun s h x g _ _ hl hs hz hloss hchk htok => read_noToken s h x g hl hs hz hloss hchk htok,
   fun s h x g _ hl hx hsh hx64 habs hfree => claim_axis s h x g hl hx hsh hx64 habs hfree,
   fun s h x g k _ hl hx hlong hfree => claim_mask s h x g k hl hx hlong hfree,
   fun s h g _ hl hx hsh hfree => claim_device s h g hl hx hsh hfree,
   fun s h x g _ _ hl hx hsh hx64 habs hy hne => claim_taken_by_other s h x g hl hx hsh hx64 habs hy hne,
   fun s h x g _ hl hx hsh hx64 habs => claim_absent s h x g hl hx hsh hx64 habs,
   fun s h x g _ hl hx hsh hx64 hc hrest hloss => release_resting s h x g hl hx hsh hx64 hc hrest hloss,
   fun s h x g _ hl hx hsh hx64 hc hdrv hg => release_driving s h x g hl hx hsh hx64 hc hdrv hg,
   fun s h x g _ hl hx hsh hx64 hc hst hg hm => release_stops s h x g hl hx hsh hx64 hc hst hg hm,
   fun s h g _ hl hx hsh hc => release_device s h g hl hx hsh hc,
   fun s h x g _ hl hx hsh hrest => closeSlot_frees s h x g hl hx hsh hrest,
   fun s k hl hu hloss htc hh => slotLoss_loses s k hl hu hloss htc hh,
   fun s k hl hh => slotLoss_early s k hl hh,
   fun s a _ hl hk ht hp hm hst => lossHoldExpiry_coasts s a hl hk ht hp hm hst,
   fun s a hl hk => lossHoldExpiry_idle s a hl hk⟩

end Sys2Proof.Proofs
end

section
namespace Sys2Proof.Proofs
open Sys2Proof Sys2Proof.Machine Sys2Proof.Laws Reg

/-! SUPPORT. What the operations behind a change of an axis state leave: the registers outside a list of working
registers, the peal, the safety sequencer, and the events they do not raise. -/

/-! ### Events that are not raised -/

/-- Setting another bit leaves a bit of the same register. -/
theorem bit_setBit_other (d : Dev) (a : Nat) {n k : Nat} (hn : n < 32) (h : k ≠ n) : (d.setBit a n).bit a k = d.bit a k := by
  have hget : (d.setBit a n).get ⟨a, k, 1⟩ = d.get ⟨a, k, 1⟩ :=
    get_put_disjoint d ⟨a, n, 1⟩ ⟨a, k, 1⟩ 1 rfl (by simp only; omega) (by simp only; omega)
  rw [Dev.bit, Dev.on, hget, Dev.bit, Dev.on]

/-- Whether an event is pending is read from its PEND word. -/
theorem pend_congr {d t : Dev} {n : Nat} (h : t.reg (EVC_PEND (n / 32)) = d.reg (EVC_PEND (n / 32))) :
    t.pend n = d.pend n :=
  congrArg (fun w => decide (wordGet w (n % 32) 1 ≠ 0)) h

/-- A raise leaves every other event as it is pending. -/
theorem pend_raise_other {n k : Nat} (hk : k < 1024) (h : k ≠ n) (d : Dev) : (raise n d).pend k = d.pend k := by
  have hreraise : (d.setBit (EVC_RERAISE (n / 32)) (n % 32)).pend k = d.pend k :=
    pend_congr (reg_put_ne d ⟨EVC_RERAISE (n / 32), n % 32, 1⟩ 1 (by simp only [EVC_PEND, EVC_RERAISE]; omega))
  have hpend : (d.setBit (EVC_PEND (n / 32)) (n % 32)).pend k = d.pend k := by
    by_cases hw : k / 32 = n / 32
    · rw [Dev.pend, hw]
      exact (bit_setBit_other d _ (Nat.mod_lt _ (by decide)) (by omega)).trans (by rw [Dev.pend, hw])
    · exact pend_congr (reg_put_ne d ⟨EVC_PEND (n / 32), n % 32, 1⟩ 1 (by simp only [EVC_PEND]; omega))
  unfold raise
  split
  · rfl
  · split
    · exact hreraise
    · exact hpend

/-! ### Calm steps -/

/-- From `d` to `t` the registers of `K` and the events of `E` stay; so do the slots, the time, the peal, the safety
sequencer and what the ports note for a standing restart; no pending event is lost. -/
structure Calm (K E : Nat → Prop) (d t : Dev) : Prop extends Steady K d t where
  event : ∀ n, n < 1024 → E n → t.pend n = d.pend n
  peal : t.peal = d.peal
  ssq : t.ssq = d.ssq
  stand : ∀ a, (t.portOf a).stand = (d.portOf a).stand

/-- A register that holds no PEND or RERAISE bits. -/
def NoEvents (r : Nat) : Prop := r < EVC_PEND 0 ∨ EVC_PEND 64 ≤ r

namespace Calm
variable {K K' E E' : Nat → Prop} {d e t : Dev}

theorem refl (K E : Nat → Prop) (d : Dev) : Calm K E d d :=
  { Steady.refl K d with event := fun _ _ _ => rfl, peal := rfl, ssq := rfl, stand := fun _ => rfl }

theorem trans (h : Calm K E d e) (h' : Calm K E e t) : Calm K E d t :=
  { h.toSteady.trans h'.toSteady with
    event := fun n hn he => (h'.event n hn he).trans (h.event n hn he)
    peal := h'.peal.trans h.peal
    ssq := h'.ssq.trans h.ssq
    stand := fun a => (h'.stand a).trans (h.stand a) }

theorem mono (h : Calm K E d t) (hK : ∀ r, K' r → K r) (hE : ∀ n, E' n → E n) : Calm K' E' d t :=
  { h.toSteady.mono hK with
    event := fun n hn he => h.event n hn (hE n he), peal := h.peal, ssq := h.ssq, stand := h.stand }

/-- A change of hidden state other than what is followed. -/
theorem of_hidden (hr : t.regs = d.regs) (hs : t.slots = d.slots) (hn : t.now = d.now) (hp : t.peal = d.peal)
    (hq : t.ssq = d.ssq) (hst : ∀ a, (t.portOf a).stand = (d.portOf a).stand) : Calm K E d t :=
  { Steady.of_hidden hr hs hn with
    event := fun n _ _ => pend_congr (by rw [Dev.reg, hr, Dev.reg])
    peal := hp, ssq := hq, stand := hst }

/-- A change of hidden state before. -/
theorem from_hidden (h : Calm K E e t) (hr : e.regs = d.regs) (hs : e.slots = d.slots) (hn : e.now = d.now)
    (hp : e.peal = d.peal) (hq : e.ssq = d.ssq) (hst : ∀ a, (e.portOf a).stand = (d.portOf a).stand) : Calm K E d t :=
  (of_hidden hr hs hn hp hq hst).trans h

/-- A write of a register outside `K` that holds no event bits. -/
theorem setReg (d : Dev) {x : Nat} (w : Word) (hK : ¬ K x) (hx : NoEvents x) : Calm K E d (d.setReg x w) :=
  { Steady.setReg d w hK (by simp only [NoEvents, EVC_PEND] at hx ⊢; omega) with
    event := fun n hn _ => pend_congr (reg_setReg_ne d w (by simp only [NoEvents, EVC_PEND] at hx ⊢; omega))
    peal := rfl, ssq := rfl, stand := fun _ => rfl }

/-- A write of a field of such a register. -/
theorem put (d : Dev) (f : Fld) (v : Nat) (hK : ¬ K f.addr) (hx : NoEvents f.addr) : Calm K E d (d.put f v) :=
  setReg d _ hK hx

/-- A repeated operation. -/
theorem each {α : Type} {l : List α} {f : α → Dev → Dev} (hf : ∀ x ∈ l, ∀ t, Calm K E t (f x t)) :
    ∀ d : Dev, Calm K E d (d.each l f) := by
  induction l with
  | nil => exact fun d => refl K E d
  | cons x l ih =>
    exact fun d => (hf x List.mem_cons_self d).trans (ih (fun y hy => hf y (List.mem_cons_of_mem _ hy)) (f x d))

/-- A choice between two operations. -/
theorem ite {c : Prop} [Decidable c] {u : Dev} (ht : Calm K E d t) (hu : Calm K E d u) :
    Calm K E d (if c then t else u) := by
  split
  · exact ht
  · exact hu

/-- A raise of an event outside `E`. -/
theorem raise {n : Nat} (hn : n < 1024) (hK : ∀ r, K r → NoEvents r) (hE : ¬ E n) (d : Dev) :
    Calm K E d (Machine.raise n d) where
  reg r hr := by
    have h := hK r hr
    refine raise_reg n d ?_ ?_ <;> simp only [NoEvents, EVC_PEND, EVC_RERAISE] at h ⊢ <;> omega
  pend := (steady_raise (K := fun _ => False) (fun _ => False.elim) hn d).pend
  slots := by rw [raise_shape]
  now := by rw [raise_shape]
  event k hk he := pend_raise_other hk (fun h => hE (by rwa [← h])) d
  peal := by rw [raise_shape]
  ssq := by rw [raise_shape]
  stand _ := by rw [raise_shape]; rfl

theorem onSess (h : Calm K E d t) (i : Nat) (f : SessH → SessH) : Calm K E d (t.onSess i f) :=
  h.trans (of_hidden rfl rfl rfl rfl rfl fun _ => rfl)

theorem onSix (h : Calm K E d t) (i : Nat) (f : SixH → SixH) : Calm K E d (t.onSix i f) :=
  h.trans (of_hidden rfl rfl rfl rfl rfl fun _ => rfl)

theorem onDtc (h : Calm K E d t) (i : Nat) (f : DtcH → DtcH) : Calm K E d (t.onDtc i f) :=
  h.trans (of_hidden rfl rfl rfl rfl rfl fun _ => rfl)

theorem onPwm (h : Calm K E d t) (i : Nat) (f : PwmH → PwmH) : Calm K E d (t.onPwm i f) :=
  h.trans (of_hidden rfl rfl rfl rfl rfl fun _ => rfl)

theorem onClient (h : Calm K E d t) (i : Nat) (f : ClientH → ClientH) : Calm K E d (t.onClient i f) :=
  h.trans (of_hidden rfl rfl rfl rfl rfl fun _ => rfl)

theorem onBus (h : Calm K E d t) (f : BusH → BusH) : Calm K E d (t.onBus f) :=
  h.trans (of_hidden rfl rfl rfl rfl rfl fun _ => rfl)

/-- A change of a port that leaves its note for a standing restart. -/
theorem onPort (h : Calm K E d t) (i : Nat) {f : PortH → PortH} (hf : ∀ p, (f p).stand = p.stand) :
    Calm K E d (t.onPort i f) := by
  refine h.trans (of_hidden rfl rfl rfl rfl rfl fun a => ?_)
  by_cases ha : a = i
  · subst ha; rw [portOf_onPort_same, hf]
  · rw [portOf_onPort_ne t f ha]

end Calm

/-! ### The working registers of an axis -/

/-- The registers that the operations behind a change of an axis state write, but for CU_STATE: pending events, the
journal's results, PWM but for PWM_FLT, the commutation units but for CU_STATE, CU_STAT, CU_FLT and CU_BOND, the
sessions. -/
def Working (r : Nat) : Prop :=
  (0x40010400 ≤ r ∧ r < 0x40010500) ∨ (0x40030000 ≤ r ∧ r < 0x40031000) ∨
  (0x40200000 ≤ r ∧ r < 0x40210000 ∧ r % 0x400 ≠ 4) ∨
  (0x40300000 ≤ r ∧ r < 0x40320000 ∧ r % 0x800 ≠ 0 ∧ r % 0x800 ≠ 8 ∧ r % 0x800 ≠ 0xC ∧ r % 0x800 ≠ 0x170) ∨
  (0x40600000 ≤ r ∧ r < 0x40610000)

/-- The registers outside the working ones. -/
def Resting (r : Nat) : Prop := ¬ Working r

theorem Resting.noEvents {r : Nat} (h : Resting r) : NoEvents r := by
  simp only [Resting, Working, NoEvents, EVC_PEND] at *; omega

/-- The events of the axes, below those of the sources that the operations behind a change of state raise. -/
def AxisEvent (n : Nat) : Prop := n < 768

section
variable (d : Dev)

/-- A write of a working register outside the event words. -/
theorem calm_put_working (f : Fld) (v : Nat) (h : Working f.addr) (hx : NoEvents f.addr) :
    Calm Resting AxisEvent d (d.put f v) := .put d f v (fun hr => hr h) hx

/-- A raise of an event that is not an axis's. -/
theorem calm_raise_other {n : Nat} (hn : n < 1024) (h : 768 ≤ n) : Calm Resting AxisEvent d (raise n d) :=
  .raise hn (fun _ => Resting.noEvents) (fun he => absurd h (Nat.not_le.2 he)) d

theorem calm_sessAbort {s : Nat} (hs : s < 4) (cause : Nat) : Calm Resting AxisEvent d (sessAbort s cause d) := by
  have hput : ∀ (f : Fld) v (t : Dev), f.addr = SCU_SSTAT s ∨ f.addr = SCU_EVT → Calm Resting AxisEvent t (t.put f v) :=
    fun f v t hf => calm_put_working t f v
      (by rcases hf with hf | hf <;> rw [hf] <;> simp only [Working, SCU_SSTAT, SCU_EVT] <;> omega)
      (by rcases hf with hf | hf <;> rw [hf] <;> simp only [NoEvents, EVC_PEND, SCU_SSTAT, SCU_EVT] <;> omega)
  unfold sessAbort raiseScu
  refine .ite ?_ (.refl _ _ d)
  exact (((hput (SCU_SSTAT_STATE s) 3 d (.inl rfl)).trans (hput (SCU_SSTAT_CAUSE s) cause _ (.inl rfl))).onSess s _).trans
    ((hput ⟨SCU_EVT, 4 * s + 0, 1⟩ 1 _ (.inr rfl)).trans (calm_raise_other _ (by decide) (by decide)))

theorem calm_sessionsOnState (a : Nat) (st : AxState) : Calm Resting AxisEvent d (sessionsOnState a st d) :=
  .each (fun _ hs t => .ite (calm_sessAbort t (List.mem_range.1 hs) _) (.refl _ _ t)) d

theorem calm_strikeAbort (a cause : Nat) : Calm Resting AxisEvent d (strikeAbort a cause d) :=
  .each (fun _ hs t => .ite (calm_sessAbort t (List.mem_range.1 hs) _) (.refl _ _ t)) d

/-- A write of a field of the PWM block of an axis other than PWM_FLT. -/
theorem calm_put_pwm {a : Nat} (ha : a < 64) {x : Nat} (hx : x < 0x400 ∧ x ≠ 4) (f : Fld) (v : Nat)
    (hf : f.addr = 0x40200000 + 0x400 * a + x) : Calm Resting AxisEvent d (d.put f v) :=
  calm_put_working d f v (by rw [hf]; simp only [Working]; omega) (by rw [hf]; simp only [NoEvents, EVC_PEND]; omega)

/-- A write of a field of a commutation unit's working registers. -/
theorem calm_put_cu {a : Nat} (ha : a < 64) {x : Nat} (hx : x < 0x800 ∧ x ≠ 0 ∧ x ≠ 8 ∧ x ≠ 0xC ∧ x ≠ 0x170) (f : Fld)
    (v : Nat) (hf : f.addr = 0x40300000 + 0x800 * a + x) : Calm Resting AxisEvent d (d.put f v) :=
  calm_put_working d f v (by rw [hf]; simp only [Working]; omega) (by rw [hf]; simp only [NoEvents, EVC_PEND]; omega)

theorem calm_setPat {a : Nat} (ha : a < 64) (src u v w : Nat) : Calm Resting AxisEvent d (setPat a src u v w d) := by
  have hput : ∀ (f : Fld) v (t : Dev), f.addr = PWM_PAT a → Calm Resting AxisEvent t (t.put f v) := fun f v t hf =>
    calm_put_pwm t ha (x := 8) (by decide) f v hf
  exact (((hput (PWM_PAT_SRC a) src d rfl).trans (hput (PWM_PAT_PU a) u _ rfl)).trans
    (hput (PWM_PAT_PV a) v _ rfl)).trans (hput (PWM_PAT_PW a) w _ rfl)

theorem calm_quiesce {a : Nat} (ha : a < 64) : Calm Resting AxisEvent d (quiesce a d) := by
  unfold quiesce
  exact (((((calm_setPat d ha 0 0 0 0).onSix a _).onDtc a _).trans
    (calm_put_cu _ ha (x := 0x194) (by decide) (CU_DECREF_WR a) 0 rfl)).trans
    (calm_put_cu _ ha (x := 0x190) (by decide) (CU_DTCSTAT_VLIM a) 0 rfl)).trans
    (calm_put_cu _ ha (x := 0x190) (by decide) (CU_DTCSTAT_REGEN0 a) 0 rfl)

theorem calm_resetTrims {a : Nat} (ha : a < 64) : Calm Resting AxisEvent d (resetTrims a d) := by
  unfold resetTrims
  refine .ite (.refl _ _ d) (.each (fun m hm t => ?_) d)
  have hm := members_lt d ha m hm
  exact (calm_put_pwm t hm (x := 0x28) (by decide) (PWM_BTRIM_TRIM m) 0 rfl).trans
    (calm_put_pwm _ hm (x := 0x4c) (by decide) (PWM_ATRIM_TRIM m) 0 rfl)

theorem calm_takeBond {a : Nat} (ha : a < 64) : Calm Resting AxisEvent d (takeBond a d) := by
  unfold takeBond
  extract_lets q w own keep new e0 e1
  have h0 : Calm Resting AxisEvent d e0 := .of_hidden rfl rfl rfl rfl rfl fun _ => rfl
  have h1 : Calm Resting AxisEvent e0 e1 := .each (fun x hx t => by
    have hx : x < 64 := by
      have := (List.mem_filter.1 hx).1
      simp only [quadAxes, q, List.mem_cons, List.not_mem_nil, or_false] at this
      omega
    exact .setReg t 0 (fun h => h (by simp only [Working, CU_BSHARE]; omega))
      (by simp only [NoEvents, EVC_PEND, CU_BSHARE]; omega)) e0
  exact .ite (.refl _ _ d) ((h0.trans h1).trans (calm_resetTrims e1 ha))

/-! ### The journal and the end of a claim -/

/-- The registers above the journal's, and those below without the events. -/
def Unjournalled (r : Nat) : Prop := NoEvents r ∧ (r < 0x40030000 ∨ 0x40031000 ≤ r)

theorem Resting.unjournalled {r : Nat} (h : Resting r) : Unjournalled r :=
  ⟨h.noEvents, by simp only [Resting, Working] at h; omega⟩

/-- A submission leaves all but the journal's registers and events. -/
theorem calm_submitRec {from_ : Option Nat} (r : JRec) (b e : Bool) (hp : ∀ p, from_ = some p → p < 8) :
    Calm Unjournalled AxisEvent d (submitRec from_ r b e d) := by
  have hput : ∀ (f : Fld) v (t : Dev), 0x40030000 ≤ f.addr ∧ f.addr < 0x40031000 →
      Calm Unjournalled AxisEvent t (t.put f v) := fun f v t hf =>
    .put t f v (fun h => by have := h.2; omega) (by simp only [NoEvents, EVC_PEND]; omega)
  have hraise : ∀ n < 48, ∀ t, Calm Unjournalled AxisEvent t (raiseJnl n t) := fun n hn t =>
    (hput ⟨JNL_EVT, n, 1⟩ 1 t (by simp only [JNL_EVT]; omega)).trans
      (.raise (by omega) (fun _ => And.left) (by simp only [AxisEvent]; omega) _)
  have hdone : ∀ c t, Calm Unjournalled AxisEvent t (submitDone from_ c t) := by
    intro c t
    cases from_ with
    | none => exact .refl _ _ t
    | some p =>
      have hp := hp p rfl
      exact (hput (JNL_RES_CODE p) c t (by simp only [JNL_RES_CODE, JNL_RES]; omega)).trans
        (hput (JNL_RES_NSUB p) _ _ (by simp only [JNL_RES_NSUB, JNL_RES]; omega))
  have hctl : ∀ r (j : JnlH → JnlH) t, Calm Unjournalled AxisEvent t (controllerRec r (t.onJnl j)) := fun _ _ _ =>
    .of_hidden rfl rfl rfl rfl rfl fun _ => rfl
  unfold submitRec
  extract_lets code d1
  have hd1 : Calm Unjournalled AxisEvent d d1 := (hraise 0 (by decide) d).trans (hdone code _)
  clear_value d1 code
  split
  · exact .of_hidden rfl rfl rfl rfl rfl fun _ => rfl
  · split
    · exact (hd1.trans (hctl _ _ d1)).trans (hraise 1 (by decide) _)
    · exact hd1

theorem calm_journal (typ srck : Nat) (payload : List Nat) : Calm Unjournalled AxisEvent d (journal typ srck payload d) :=
  calm_submitRec d _ _ _ fun _ h => Option.some.inj h ▸ sup_lt d

theorem calm_journalClient (typ slot name : Nat) (payload : List Nat) :
    Calm Unjournalled AxisEvent d (journalClient typ slot name payload d) :=
  calm_submitRec d _ _ _ fun _ h => Option.some.inj h ▸ sup_lt d

theorem calm_freeIdle (s : Nat) : Calm Unjournalled AxisEvent d (freeIdle s d) := by
  unfold freeIdle
  have h : Calm Unjournalled AxisEvent d (d.onClient s fun _ => {}) := (Calm.refl _ _ d).onClient s _
  exact .ite ((h.trans (calm_journalClient _ _ _ _ _)).onBus _) (.refl _ _ d)

theorem calm_endClaim (a : Nat) : Calm Unjournalled AxisEvent d (endClaim a d) := by
  unfold endClaim
  split
  · exact .refl _ _ d
  · exact (calm_freeIdle _ _).from_hidden rfl rfl rfl rfl rfl fun _ => rfl

/-! ### A change of an axis state -/

/-- The registers that a change of the state of an axis leaves. -/
def RestingBut (a r : Nat) : Prop := Resting r ∧ r ≠ CU_STATE a

/-- The events of the axes that a change of the state of an axis does not raise. -/
def EventBut (a n : Nat) : Prop := AxisEvent n ∧ n ≠ 12 * a + 10

theorem calm_setAxState {a : Nat} (ha : a < 64) (st : AxState) :
    Calm (RestingBut a) (EventBut a) d (setAxState a st d) := by
  have hside : ∀ {t u : Dev}, Calm Resting AxisEvent t u → Calm (RestingBut a) (EventBut a) t u := fun h =>
    h.mono (fun _ => And.left) fun _ => And.left
  have hstate : ∀ (f : Fld) v (t : Dev), f.addr = CU_STATE a → Calm (RestingBut a) (EventBut a) t (t.put f v) :=
    fun f v t hf => .put t f v (by rw [hf]; exact fun h => h.2 rfl)
      (by rw [hf]; simp only [NoEvents, EVC_PEND, CU_STATE]; omega)
  unfold setAxState
  extract_lets old d1 d2 d3 d4 d5
  have h1 : Calm (RestingBut a) (EventBut a) d d1 := hside (.ite (calm_takeBond d ha) (.refl _ _ d))
  have h2 : Calm (RestingBut a) (EventBut a) d1 d2 := hside (.ite (calm_resetTrims d1 ha) (.refl _ _ d1))
  have h3 : Calm (RestingBut a) (EventBut a) d2 d3 :=
    ((hstate (CU_STATE_PREV a) old.code d2 rfl).trans (hstate (CU_STATE_STATE a) st.code _ rfl)).trans
      (.raise (by omega) (fun _ h => h.1.noEvents) (fun h => h.2 rfl) _)
  have h4 : Calm (RestingBut a) (EventBut a) d3 d4 :=
    hside ((calm_sessionsOnState d3 a st).onPort a fun _ => rfl)
  have h5 : Calm (RestingBut a) (EventBut a) d4 d5 :=
    hside (.ite ((calm_endClaim d4 a).mono (fun _ => Resting.unjournalled) fun _ => id) (.refl _ _ d4))
  exact .ite (.refl _ _ d) (.ite ((((h1.trans h2).trans h3).trans h4).trans h5)
    (((((h1.trans h2).trans h3).trans h4).trans h5).trans (hside (calm_quiesce d5 ha))))

end

end Sys2Proof.Proofs
end

section
namespace Sys2Proof.Proofs
open Sys2Proof Sys2Proof.Machine Sys2Proof.Laws Reg

/-! SUPPORT. The motor ports: decoding, status, PROBE and its verdict (R33 to R39), and their statement (O1). -/

/-! ### Drives and the bond they take (R200) -/

section
variable {d t : Dev} {a : Nat}

/-- An axis is a member of its drive. -/
theorem mem_members (d : Dev) (a : Nat) : a ∈ d.members a := by
  unfold Dev.members
  extract_lets b q
  split
  · simp only [List.mem_cons, List.not_mem_nil, or_false, q]; omega
  · split
    · rename_i h
      simp only [Bool.and_eq_true, decide_eq_true_eq] at h
      simp only [List.mem_cons, List.not_mem_nil, or_false, q]; omega
    · split
      · rename_i h
        simp only [Bool.and_eq_true, decide_eq_true_eq] at h
        simp only [List.mem_cons, List.not_mem_nil, or_false, q]; omega
      · exact List.mem_cons_self

/-- The drives follow the bonds in effect. -/
theorem members_congr (h : t.bond = d.bond) (a : Nat) : t.members a = d.members a := by
  unfold Dev.members Dev.bondBits
  rw [h]

/-- The bonds in effect after an axis took the word of its quad's CU_BOND. -/
def bondTaken (a w : Nat) (b : Tab Nat) : Tab Nat :=
  let own := if a % 4 < 2 then 1 else 2
  let new := (w &&& (4 + own)) ||| (if w.testBit 2 then 0 else tget 0 b (a / 4) &&& (3 - own))
  if new = tget 0 b (a / 4) then b else tset 0 b (a / 4) new

theorem resetTrims_bond (a : Nat) (d : Dev) : (resetTrims a d).bond = d.bond := by
  unfold resetTrims
  split
  · rfl
  · exact each_frame Dev.bond _ _ (fun _ _ => by rw [put_bond, put_bond]) d

theorem takeBond_bond (a : Nat) (d : Dev) :
    (takeBond a d).bond = bondTaken a (d.get ⟨CU_BOND (4 * (a / 4)), 0, 3⟩) d.bond := by
  unfold takeBond bondTaken
  extract_lets q w own keep new e0 e1 new'
  split
  · rw [if_pos (by assumption)]
  · rw [if_neg (by assumption), resetTrims_bond]
    exact each_frame Dev.bond _ _ (fun _ _ => setReg_bond _ _ _) e0

/-- The drive an axis will form is read from its state, the bonds and CU_BOND. -/
theorem wanted_congr (hb : t.bond = d.bond) (hr : t.reg (CU_BOND (4 * (a / 4))) = d.reg (CU_BOND (4 * (a / 4))))
    (hs : t.axSt a = d.axSt a) : t.wanted a = d.wanted a := by
  have hw : t.get ⟨CU_BOND (4 * (a / 4)), 0, 3⟩ = d.get ⟨CU_BOND (4 * (a / 4)), 0, 3⟩ :=
    congrArg (fun w => wordGet w 0 3) hr
  unfold Dev.wanted
  rw [hs]
  split
  · exact members_congr (by rw [takeBond_bond, takeBond_bond, hb, hw]) a
  · exact members_congr hb a

/-- An axis that forms its own drive is its lowest member. -/
theorem lowest_single (hm : d.members a = [a]) : d.lowest a = a := by
  rw [Dev.lowest, hm]; rfl

end

/-- A change of a port leaves every register. -/
theorem sameRegs_onPort {d t : Dev} {l : List Nat} (h : sameRegs d t l) (i : Nat) (f : PortH → PortH) :
    sameRegs d (t.onPort i f) l := sameRegs_trans h fun _ _ => onPort_reg _ _ _ _

/-- From `d` to `t` only registers and the hidden state of ports change. -/
def PortShape (d t : Dev) : Prop := ∃ rg po, t = { d with regs := rg, ports := po }

namespace PortShape
variable {d t : Dev}

theorem refl (d : Dev) : PortShape d d := ⟨_, _, rfl⟩

theorem put (h : PortShape d t) (f : Fld) (v : Nat) : PortShape d (t.put f v) := by
  obtain ⟨_, po, rfl⟩ := h
  exact ⟨_, po, rfl⟩

theorem onPort (h : PortShape d t) (i : Nat) (f : PortH → PortH) : PortShape d (t.onPort i f) := by
  obtain ⟨rg, _, rfl⟩ := h
  exact ⟨rg, _, rfl⟩

theorem eq (h : PortShape d t) : t = { d with regs := t.regs, ports := t.ports } := by
  obtain ⟨_, _, rfl⟩ := h
  rfl

/-- A raise afterwards. -/
theorem raise_eq (h : PortShape d t) (n : Nat) : raise n t =
    { d with regs := (raise n t).regs, ports := (raise n t).ports, evs := (raise n t).evs } := by
  obtain ⟨rg, po, rfl⟩ := h
  have hr := raise_shape n { d with regs := rg, ports := po }
  generalize raise n { d with regs := rg, ports := po } = u at hr
  rw [hr]

end PortShape

/-! ### Decoding (R33, R34) -/

section
variable (s : State) (a : Fin 64)

theorem idPolarityReverse_idle (hl : s.dev.sys.logicOn = true) : Does .idPolarityReverse s fun t => t = s.dev :=
  does_onDev execIdPolarityReverse rfl rfl hl rfl

/-- The temperature byte of a port holds the clamped temperature plus 40 (R33). -/
theorem ntc_fits (v : Int) : (clampI 1 255 (v + 40)).toNat % 2 ^ 8 = (max 1 (min 255 (v + 40))).toNat := by
  rw [clampI]; omega

/-- What a port notes of a decoding with both halves fresh. -/
def takeUp (c : Decoded) (p : PortH) : PortH := { p with
  last := c
  agree := if p.last = c then p.agree + 1 else 1
  noMotor := if c = 0 then p.noMotor + 1 else 0 }

theorem halfFresh_put (d : Dev) (f : Fld) (v q p : Nat) (neg : Bool) :
    (d.put f v).halfFresh q p neg = d.halfFresh q p neg := rfl

theorem idDecode_decodes (o : Nat) (v : Int) (hl : s.dev.sys.logicOn = true) (hp : s.dev.present (a / 4) = true)
    (hn : s.dev.now % 200000 = 0) (hneg : s.dev.halfFresh (a / 4) (a % 4) true = true)
    (hpos : s.dev.halfFresh (a / 4) (a % 4) false = true) :
    Does (.idDecode a o (some v)) s fun t => (t.portOf a).last = decodeOhms o ∧ ((t.portOf a).agree = (if
          (s.dev.portOf a).last = decodeOhms o then (s.dev.portOf a).agree + 1 else 1)) ∧ (t.portOf a).accepted =
          (s.dev.portOf a).accepted ∧ t.get (CSL_NTC_TEMP (a / 4) (a % 4)) = (max 1 (min 255 (v + 40))).toNat ∧ t =
          { s.dev with regs := t.regs, ports := t.ports } ∧ sameRegs s.dev t ([CSL_NTC (a.val / 4)]) := by
  have hw : (CSL_NTC_TEMP (a / 4) (a % 4)).lo + (CSL_NTC_TEMP (a / 4) (a % 4)).width ≤ 32 := by
    simp only [CSL_NTC_TEMP]; omega
  have hb : (clampI 1 255 (v + 40)).toNat % 2 ^ (CSL_NTC_TEMP (a / 4) (a % 4)).width = (max 1 (min 255 (v + 40))).toNat :=
    ntc_fits v
  have hm : (CSL_NTC_TEMP (a / 4) (a % 4)).addr ∈ [CSL_NTC (a.val / 4)] := List.mem_cons_self
  have hq : ((a / 4 : Fin 64) : Nat) = a / 4 := rfl
  have hr : ((a % 4 : Fin 64) : Nat) = a % 4 := rfl
  refine does_onDev_of_eq (t := (s.dev.put (CSL_NTC_TEMP (a / 4) (a % 4)) (clampI 1 255 (v + 40)).toNat).onPort a
    (takeUp (decodeOhms o))) (execIdDecode a o (some v)) rfl rfl hl ?_ ?_
  · simp only [hq, hr, hp, hn, hneg, hpos, halfFresh_put, Bool.not_true, Bool.false_or, ne_eq, not_true_eq_false,
      decide_false, Bool.false_eq_true, if_false, if_true]
    rfl
  generalize CSL_NTC_TEMP (a / 4) (a % 4) = f at *
  generalize (clampI 1 255 (v + 40)).toNat = b at *
  refine ⟨?_, ?_, ?_, ?_, (((PortShape.refl _).put f b).onPort a _).eq, ?_⟩
  · rw [portOf_onPort_same]; rfl
  · rw [portOf_onPort_same]; rfl
  · rw [portOf_onPort_same]; rfl
  · rw [onPort_get, get_put_same _ _ _ hw, hb]
  · exact sameRegs_onPort (sameRegs_put (sameRegs_refl _ _) f _ hm) a _

/-! ### Status (R34, R36) -/

theorem portPlug_waits (hl : s.dev.sys.logicOn = true) (hagree : (s.dev.portOf a).agree < 3) :
    Does (.portPlug a) s fun t => t = s.dev := by
  refine does_onDev (execPortPlug a) rfl rfl hl ?_
  rw [decide_eq_false (Nat.not_le.2 hagree), Bool.and_false]
  rfl

/-- A port accepts its last decoding. -/
def acceptLast (a : Nat) (d : Dev) : Dev := d.onPort a fun p => { p with accepted := p.last }

/-- The status and the code of a port that is no longer identified are 0. -/
def unidentified (a : Nat) (d : Dev) : Dev :=
  (((acceptLast a d).put (CSL_PORT_ST (a / 4) (a % 4)) 0).put
    (CSL_PORT_CODE (a / 4) (a % 4)) 0).onPort a fun p => { p with probeDue := false }

/-- The registers between the events' and the cartridge slots'. -/
def BelowSlots (r : Nat) : Prop := EVC_PEND 64 ≤ r ∧ r < 0x40520000

section
variable (d : Dev) {a : Nat} (ha : a < 64)

theorem portShape_unidentified : PortShape d (unidentified a d) :=
  ((((PortShape.refl d).onPort a _).put (CSL_PORT_ST (a / 4) (a % 4)) 0).put (CSL_PORT_CODE (a / 4) (a % 4)) 0).onPort a _

theorem sameRegs_unidentified : sameRegs d (unidentified a d) [CSL_PORT (a / 4)] :=
  sameRegs_onPort (sameRegs_put (sameRegs_put (sameRegs_onPort (sameRegs_refl _ _) _ _)
    (CSL_PORT_ST (a / 4) (a % 4)) 0 List.mem_cons_self) (CSL_PORT_CODE (a / 4) (a % 4)) 0 List.mem_cons_self) _ _

theorem unidentified_code : (unidentified a d).get (CSL_PORT_CODE (a / 4) (a % 4)) = 0 := by
  have hw : (CSL_PORT_CODE (a / 4) (a % 4)).lo + (CSL_PORT_CODE (a / 4) (a % 4)).width ≤ 32 := by
    simp only [CSL_PORT_CODE]; omega
  rw [unidentified, onPort_get, get_put_same _ _ _ hw, Nat.zero_mod]

theorem unidentified_st : (unidentified a d).get (CSL_PORT_ST (a / 4) (a % 4)) = 0 := by
  have hc : (CSL_PORT_CODE (a / 4) (a % 4)).lo + (CSL_PORT_CODE (a / 4) (a % 4)).width ≤ 32 := by
    simp only [CSL_PORT_CODE]; omega
  have hw : (CSL_PORT_ST (a / 4) (a % 4)).lo + (CSL_PORT_ST (a / 4) (a % 4)).width ≤ 32 := by
    simp only [CSL_PORT_ST]; omega
  have hd : (CSL_PORT_CODE (a / 4) (a % 4)).lo + (CSL_PORT_CODE (a / 4) (a % 4)).width ≤
      (CSL_PORT_ST (a / 4) (a % 4)).lo := by simp only [CSL_PORT_CODE, CSL_PORT_ST]; omega
  rw [unidentified, onPort_get, get_put_disjoint _ (CSL_PORT_CODE (a / 4) (a % 4)) (CSL_PORT_ST (a / 4) (a % 4)) 0 rfl hc
    (.inr hd), get_put_same _ _ _ hw, Nat.zero_mod]

include ha

theorem steady_unidentified : Steady BelowSlots d (raiseAx a 11 (unidentified a d)) := by
  have hput : ∀ (f : Fld) (t : Dev), f.addr = CSL_PORT (a / 4) → Steady BelowSlots t (t.put f 0) := fun f t hf =>
    .put t f 0 (by rw [hf]; simp only [BelowSlots, CSL_PORT]; omega)
      (.inr (by rw [hf]; simp only [EVC_PEND, CSL_PORT]; omega))
  have h : Steady BelowSlots d (unidentified a d) :=
    ((((Steady.refl _ d).onPort a _).trans (hput (CSL_PORT_ST (a / 4) (a % 4)) _ rfl)).trans
      (hput (CSL_PORT_CODE (a / 4) (a % 4)) _ rfl)).onPort a _
  exact h.trans (steady_raise (fun _ => And.left) (by omega) _)

theorem acceptDecoding_noMotor (hlast : (d.portOf a).last = 0) (hw : d.wanted a = [a]) (hoff : d.axSt a = .off)
    (h1 : d.get (CSL_PORT_ST (a / 4) (a % 4)) = 1) : acceptDecoding a d = raiseAx a 11 (unidentified a d) := by
  have hacc : ((acceptLast a d).portOf a).accepted = 0 := by rw [acceptLast, portOf_onPort_same, hlast]
  have hst1 : (acceptLast a d).get (CSL_PORT_ST (a / 4) (a % 4)) = 1 := h1
  have hst : (acceptLast a d).statusOf a = 0 := by rw [Dev.statusOf, hacc]; rfl
  have hput : putStatus a 0 (codeField 0) (acceptLast a d) = raiseAx a 11 (unidentified a d) := by
    have hleft : leftIdentified a (acceptLast a d) = acceptLast a d := by
      have : (acceptLast a d).axSt a = .off := hoff
      rw [leftIdentified, this]
    rw [putStatus, hst1, hleft]
    rfl
  have hwant : (raiseAx a 11 (unidentified a d)).wanted a = [a] := by
    have hs := steady_unidentified d ha
    have hbond : (raiseAx a 11 (unidentified a d)).bond = d.bond := by
      rw [raiseAx, (portShape_unidentified d).raise_eq]
    rw [← hw]
    exact wanted_congr hbond (hs.reg _ (by simp only [BelowSlots, CU_BOND, EVC_PEND]; omega))
      (hs.axSt (by simp only [BelowSlots, CU_STATE, EVC_PEND]; omega))
  have hacc' : acceptDecoding a d = (putStatus a 0 (codeField 0) (acceptLast a d)).each
      (((putStatus a 0 (codeField 0) (acceptLast a d)).wanted a).filter (· ≠ a)) fun m d =>
        if d.get (CSL_PORT_ST (m / 4) (m % 4)) = 1 || d.get (CSL_PORT_ST (m / 4) (m % 4)) = 2 ||
          d.get (CSL_PORT_ST (m / 4) (m % 4)) = 5
        then putStatus m (d.statusOf m) (codeField (d.portOf m).accepted) d else d := by
    rw [acceptDecoding, ← acceptLast]
    simp only [hst1, hst, hacc]
    rfl
  rw [hacc', hput, hwant]
  simp [Dev.each]

end

theorem portPlug_unplugs (hl : s.dev.sys.logicOn = true) (hp : s.dev.present (a / 4) = true)
    (hagree : 3 ≤ (s.dev.portOf a).agree) (hlast : (s.dev.portOf a).last = 0) (hw : s.dev.wanted a = [a.val])
    (hoff : s.dev.axSt a = .off) (h1 : s.dev.get (CSL_PORT_ST (a / 4) (a % 4)) = 1) :
    Does (.portPlug a) s fun t => t.get (CSL_PORT_ST (a / 4) (a % 4)) = 0 ∧ t.get (CSL_PORT_CODE (a / 4) (a % 4)) =
          0 ∧ t.pend (12 * a + 11) = true ∧ t.axSt a = .off ∧ t =
          { s.dev with regs := t.regs, ports := t.ports, evs := t.evs } ∧ sameRegs s.dev t ((CSL_PORT (a.val / 4) ::
          evRegs (12 * a + 11))) := by
  refine does_onDev_of_eq (t := raiseAx a 11 (unidentified a s.dev)) (execPortPlug a) rfl rfl hl ?_ ?_
  · exact (if_pos (Bool.and_eq_true_iff.2 ⟨hp, decide_eq_true hagree⟩)).trans
      (acceptDecoding_noMotor s.dev a.isLt hlast hw hoff h1)
  have hr : Steady (EVC_PEND 64 ≤ ·) (unidentified a s.dev) (raiseAx a 11 (unidentified a s.dev)) :=
    steady_raise (fun _ => id) (by omega) _
  have hport : EVC_PEND 64 ≤ CSL_PORT (a / 4) := by simp only [EVC_PEND, CSL_PORT]; omega
  refine ⟨(hr.get (f := CSL_PORT_ST (a / 4) (a % 4)) hport).trans (unidentified_st _),
    (hr.get (f := CSL_PORT_CODE (a / 4) (a % 4)) hport).trans (unidentified_code _), pend_raise_same (by omega) _, ?_,
    (portShape_unidentified _).raise_eq _, ?_⟩
  · refine ((steady_unidentified s.dev a.isLt).axSt ?_).trans hoff
    simp only [BelowSlots, CU_STATE, EVC_PEND]; omega
  · exact sameRegs_raise (fun r h => sameRegs_unidentified s.dev r fun hc => h (by
      rw [List.mem_singleton.1 hc]; exact List.mem_cons_self)) _ fun r hm => List.mem_cons_of_mem _ hm


/-! ### PROBE (R36, R37) -/

/-- The ports of a drive start their measurement. -/
def beginProbes (l : List Nat) (d : Dev) : Dev :=
  d.each l fun m d => d.onPort m fun h => { h with probeDue := false, probe := .measuring d.now }

section
variable {d : Dev} {a : Nat}

theorem beginProbes_regs (l : List Nat) : ∀ d : Dev, (beginProbes l d).regs = d.regs :=
  each_frame Dev.regs _ _ fun _ _ => onPort_regs _ _ _

/-- The port of each named axis measures from now on. -/
theorem portOf_beginProbes {l : List Nat} (h : a ∈ l ∨ (d.portOf a).probe = .measuring d.now ∧ (d.portOf a).probeDue = false) :
    ((beginProbes l d).portOf a).probe = .measuring d.now ∧ ((beginProbes l d).portOf a).probeDue = false := by
  induction l generalizing d with
  | nil => exact h.resolve_left List.not_mem_nil
  | cons x l ih =>
    refine ih (d := d.onPort x fun h => { h with probeDue := false, probe := .measuring d.now }) ?_
    by_cases hx : a = x
    · subst hx
      exact .inr (by rw [portOf_onPort_same]; exact ⟨rfl, rfl⟩)
    · rw [portOf_onPort_ne _ _ hx]
      exact h.imp_left fun h => (List.mem_cons.1 h).resolve_left hx

/-- The drive that an axis forms enters a state: every member takes it and raises STATE_CHANGE, and time stands. -/
theorem setDriveState_spec (ha : a < 64) {st : AxState} (h : d.axSt a ≠ st) :
    (setDriveState a st d).axSt a = st ∧ (setDriveState a st d).pend (12 * a + 10) = true ∧
      (setDriveState a st d).now = d.now := by
  unfold setDriveState
  extract_lets e
  have he : Steady Watched d e := .ite (steady_takeBond d ha) (.refl _ d)
  have hm := members_lt e ha
  have hne : e.axSt a ≠ st := by rwa [he.axSt (watched_state ha)]
  have hnow : Steady (fun _ => False) e (e.each (e.members a) fun m => setAxState m st) :=
    .each (fun m hx t => (steady_setAxState t (hm m hx) st).mono fun _ => False.elim) e
  exact ⟨(axSt_each_setAxState hm st ha e).trans (if_pos (mem_members e a)),
    pend_each_setAxState hm st ha (mem_members e a) e hne, hnow.now.trans he.now⟩

end

theorem probeStart_begins (hl : s.dev.sys.logicOn = true) (hw : s.dev.wanted a = [a.val])
    (hdue : (s.dev.portOf a).probeDue = true) (hready : s.dev.probeReady a = true) (hm : s.dev.mode.power = true)
    (hrel : s.dev.releasing a = false) (hline : s.dev.get FLT_STAT_LEVEL = 0) :
    Does (.probeStart a) s fun t => t.axSt a = .probe ∧ (t.portOf a).probe = .measuring s.dev.now ∧ (t.portOf
          a).probeDue = false ∧ t.pend (12 * a + 10) = true := by
  have hoff : s.dev.axSt a = .off := by
    rw [Dev.probeReady, hw] at hready
    simp only [List.all_cons, List.all_nil, Bool.and_true, Bool.and_eq_true, decide_eq_true_eq] at hready
    exact hready.1.2
  obtain ⟨hst, hpend, hnow⟩ := setDriveState_spec (d := s.dev) a.isLt (st := .probe) (by rw [hoff]; decide)
  refine does_onDev_of_eq (t := beginProbes ((setDriveState a .probe s.dev).members a) (setDriveState a .probe s.dev))
    (execProbeStart a) rfl rfl hl ?_ ?_
  · rw [if_pos (by simp [hw, hdue, hready, hm, hrel, hline, Dev.on])]
    rfl
  have hreg : ∀ r, (beginProbes ((setDriveState a .probe s.dev).members a) (setDriveState a .probe s.dev)).reg r =
      (setDriveState a .probe s.dev).reg r := fun r => by rw [Dev.reg, beginProbes_regs, Dev.reg]
  obtain ⟨h1, h2⟩ := portOf_beginProbes (a := a.val) (.inl (mem_members (setDriveState a .probe s.dev) a))
  exact ⟨by rw [Dev.axSt, Dev.get, hreg]; exact hst, h1.trans (congrArg _ hnow), h2, (pend_congr (hreg _)).trans hpend⟩

theorem probeMeasureEnd_finds (e u v w : Fin 16384) {k : Nat} (hl : s.dev.sys.logicOn = true)
    (hk : (s.dev.portOf a).probe = .measuring k) (ht : k + 200000 ≤ s.dev.now) (hst : s.dev.axSt a = .probe) :
    Does (.probeMeasureEnd a e u v w) s fun t => (t.portOf a).probe = (if e.val < 114 then ProbeH.pulses s.dev.now []
          else if missingInduced u v w = 0 then .passed s.dev.now else .missing (missingInduced u v w) s.dev.now) ∧ t =
          { s.dev with ports := t.ports } := by
  refine does_onDev (execProbeMeasureEnd a e u v w) rfl rfl hl ?_
  simp only [hk, hst, ht, decide_true, Bool.and_true, if_true]
  exact ⟨congrArg PortH.probe (portOf_onPort_same _ _ _), rfl⟩

theorem probePulse_judges (u w : Int) {k : Nat} {l : List Bool} (hl : s.dev.sys.logicOn = true)
    (hk : (s.dev.portOf a).probe = .pulses k l) (hlen : l.length < 3) (ht : k + 40000 * l.length ≤ s.dev.now)
    (hst : s.dev.axSt a = .probe) :
    Does (.probePulse a u w) s fun t => (t.portOf a).probe = .pulses k (l ++ [pulsePasses l.length u w]) ∧ t =
          { s.dev with ports := t.ports } := by
  refine does_onDev (execProbePulse a u w) rfl rfl hl ?_
  simp only [hk, hst, hlen, ht, decide_true, Bool.and_true, if_true]
  exact ⟨congrArg PortH.probe (portOf_onPort_same _ _ _), rfl⟩

/-! ### Verdict (R37, R39) -/

end

section
variable {d : Dev} {a : Nat}

/-- No peal is told of a fault while none runs. -/
theorem pealAxisFault_idle (h : d.peal.running = false) : pealAxisFault a d = d := by
  rw [pealAxisFault, h, Bool.false_and]
  rfl

/-- A register of the fault record of an axis rests under a change of its state. -/
theorem restingBut_flt (ha : a < 64) : RestingBut a (CU_FLT a) := by
  simp only [RestingBut, Resting, Working, CU_FLT, CU_STATE, ne_eq]
  omega

theorem portOf_put (d : Dev) (f : Fld) (v b : Nat) : (d.put f v).portOf b = d.portOf b := rfl

/-- Recording a fault changes the fault word and when it was recorded. -/
theorem calm_latchFault (d : Dev) (ha : a < 64) (c ph : Nat) :
    Calm (fun r => Resting r ∧ r ≠ CU_FLT a) AxisEvent d (latchFault a c ph d) := by
  have hput : ∀ (f : Fld) v (t : Dev), f.addr = CU_FLT a →
      Calm (fun r => Resting r ∧ r ≠ CU_FLT a) AxisEvent t (t.put f v) := fun f v t hf =>
    .put t f v (by rw [hf]; exact fun h => h.2 rfl) (by rw [hf]; simp only [NoEvents, EVC_PEND, CU_FLT]; omega)
  unfold latchFault
  refine Calm.onSix (.ite ?_ ?_) a _
  · exact hput ⟨CU_FLT a, c, 1⟩ 1 d rfl
  · exact ((hput ⟨CU_FLT a, c, 1⟩ 1 d rfl).trans (hput (CU_FLT_CODE a) c _ rfl)).trans (hput (CU_FLT_PHASE a) ph _ rfl)

/-- The phase of a fault is recorded unless the axis has one of this cycle. -/
theorem phase_latchFault (d : Dev) (c : Nat) {ph : Nat} (hph : ph < 16) (h : (d.sixOf a).fltAt ≠ some d.now) :
    (latchFault a c ph d).get (CU_FLT_PHASE a) = ph := by
  unfold latchFault
  extract_lets same keep d1 d2
  have hkeep : keep = false := by
    rw [show keep = (decide same && decide (d.get (CU_FLT_CODE a) < c)) from rfl, decide_eq_false h, Bool.false_and]
  have hd : d2 = (d1.put (CU_FLT_CODE a) c).put (CU_FLT_PHASE a) ph := if_neg (by rw [hkeep]; decide)
  rw [onSix_get, hd]
  clear_value d1
  exact get_put_fits (d1.put (CU_FLT_CODE a) c) (CU_FLT_PHASE a) rfl hph

/-- The bridge of an axis is released and its direction change forgotten. -/
def undriven (a : Nat) (d : Dev) : Dev :=
  (setPat a 0 0 0 0 d).onDtc a fun t => { t with revOn := false, revWaiting := false }

theorem calm_undriven (d : Dev) (ha : a < 64) : Calm Resting AxisEvent d (undriven a d) :=
  (calm_setPat d ha 0 0 0 0).onDtc a _

theorem faultOne_eq {d : Dev} (hab : d.axSt a ≠ .absent) (c ph : Nat) :
    faultOne a c ph d = setAxState a .fault (pealAxisFault a (undriven a (latchFault a c ph d))) := if_neg hab

/-- A fault of one axis while no peal runs: FAULT with its phase, and no pending event is lost (R180). -/
theorem faultOne_spec (d : Dev) (ha : a < 64) (hab : d.axSt a ≠ .absent) (hp : d.peal.running = false) (c : Nat) {ph : Nat}
    (hph : ph < 16) : (faultOne a c ph d).axSt a = .fault ∧
      ((faultOne a c ph d).get (CU_FLT_PHASE a) = ph ∨ (d.sixOf a).fltAt = some d.now) ∧
      Steady (fun _ => False) d (faultOne a c ph d) := by
  have hl := calm_latchFault d ha c ph
  have hu := calm_undriven (latchFault a c ph d) ha
  have hph' := phase_latchFault d (a := a) c hph
  rw [faultOne_eq hab, pealAxisFault_idle (by rw [hu.peal, hl.peal, hp])]
  generalize undriven a (latchFault a c ph d) = e at hu
  have hst := steady_setAxState e ha .fault
  have hrest := calm_setAxState e ha .fault
  refine ⟨axSt_setAxState_same _ ha .fault, ?_, ?_⟩
  · by_cases h : (d.sixOf a).fltAt = some d.now
    · exact .inr h
    · left
      rw [hrest.get (f := CU_FLT_PHASE a) (restingBut_flt ha), hu.get (f := CU_FLT_PHASE a) (restingBut_flt ha).1]
      exact hph' h
  · exact ((hl.toSteady.mono fun _ => False.elim).trans (hu.toSteady.mono fun _ => False.elim)).trans
      (hst.mono fun _ => False.elim)

end

section
variable (s : State) (a : Fin 64)
theorem probeVerdict_passes {k : Nat} (hl : s.dev.sys.logicOn = true) (hm : s.dev.members a = [a.val])
    (hst : s.dev.axSt a = .probe) (hk : (s.dev.portOf a).probe = .pulses k [true, true, true])
    (ht : k + 120000 ≤ s.dev.now) (hstand : (s.dev.portOf a).stand = none) :
    Does (.probeVerdict a) s fun t => t.axSt a = .off ∧ t.pend (12 * a + 3) = s.dev.pend (12 * a + 3) := by
  have hv : (s.dev.portOf a).probe.verdict s.dev.now = .passed := by
    rw [hk]; exact if_neg (Nat.not_lt.2 ht)
  have hc := calm_setAxState s.dev a.isLt .off
  refine does_onDev_of_eq (t := setAxState a .off s.dev) (execProbeVerdict a) rfl rfl hl ?_ ?_
  · have hrest : standingRestart a (setAxState a .off s.dev) = setAxState a .off s.dev := by
      rw [standingRestart, hc.stand, hstand]
    have hd : setDriveState a .off s.dev = setAxState a .off s.dev := setDriveState_single _ hm (by rw [hst]; decide) _
    simp [hm, hv, hst, Dev.lowest, hd, hrest]
  · exact ⟨axSt_setAxState_same _ a.isLt _, hc.event _ (by omega) ⟨by simp only [AxisEvent]; omega, by omega⟩⟩

theorem probeVerdict_missing {k : Nat} (hl : s.dev.sys.logicOn = true) (hm : s.dev.members a = [a.val])
    (hst : s.dev.axSt a = .probe) (hp : s.dev.peal.running = false)
    (hk : (s.dev.portOf a).probe = .pulses k [false, true, false]) (ht : k + 120000 ≤ s.dev.now) :
    Does (.probeVerdict a) s fun t => t.axSt a = .fault ∧ (t.get (CU_FLT_PHASE a) = 1 ∨ (s.dev.sixOf a).fltAt = some
          s.dev.now) ∧ t.pend (12 * a + 3) = true := by
  have hv : (s.dev.portOf a).probe.verdict s.dev.now = .missing 1 := by
    rw [hk]; exact if_neg (Nat.not_lt.2 ht)
  have hr : Steady (EVC_PEND 64 ≤ ·) s.dev (raiseAx a 3 s.dev) := steady_raise (fun _ => id) (by omega) _
  have hsame : (raiseAx a 3 s.dev).members a = [a.val] ∧ (raiseAx a 3 s.dev).peal.running = false ∧
      (raiseAx a 3 s.dev).sixOf a = s.dev.sixOf a := by
    rw [raiseAx, raise_shape]
    exact ⟨hm, hp, rfl⟩
  obtain ⟨hm', hp', hsix⟩ := hsame
  have hab : (raiseAx a 3 s.dev).axSt a ≠ .absent := by
    rw [hr.axSt (by simp only [EVC_PEND, CU_STATE]; omega), hst]; decide
  have hone : faultDrive a 2 1 (raiseAx a 3 s.dev) = faultOne a 2 1 (raiseAx a 3 s.dev) := by
    rw [faultDrive, hm']; simp [Dev.each]
  obtain ⟨h1, h2, h3⟩ := faultOne_spec (raiseAx a 3 s.dev) a.isLt hab hp' 2 (ph := 1) (by decide)
  refine does_onDev_of_eq (t := faultOne a 2 1 (raiseAx a 3 s.dev)) (execProbeVerdict a) rfl rfl hl ?_ ?_
  · simp [hm, hv, hst, Dev.lowest, hone]
  · rw [hsix, hr.now] at h2
    exact ⟨h1, h2, h3.pend _ (by omega) (pend_raise_same (by omega) _)⟩

theorem faultClearNoMotor_clears (hl : s.dev.sys.logicOn = true) (hm : s.dev.members a = [a.val])
    (hst : s.dev.axSt a = .fault) (hn : 3 ≤ (s.dev.portOf a).noMotor) :
    Does (.faultClearNoMotor a) s fun t => t.axSt a = .off ∧ t.pend (12 * a + 10) = true := by
  refine does_onDev (execFaultClearNoMotor a) rfl rfl hl ?_
  rw [if_pos (by simp [hm, hst, hn, lowest_single])]
  obtain ⟨h1, h2, -⟩ := setDriveState_spec (d := s.dev) a.isLt (st := .off) (by rw [hst]; decide)
  exact ⟨h1, h2⟩

/-! ### Hall supply (R35) -/

theorem hallOverload_shows (hl : s.dev.sys.logicOn = true) (hd : (s.dev.axSt a).driving = false) :
    Does (.hallOverload a) s fun t => t.get (CSL_PORT_HALLOV (a / 4) (a % 4)) = 1 ∧ (t.portOf a).hallOff = some
          s.dev.now ∧ t = { s.dev with regs := t.regs, ports := t.ports } ∧ sameRegs s.dev t ([CSL_PORT (a.val / 4)]) := by
  refine does_onDev_of_eq (t := (s.dev.onPort a fun h => { h with hallOff := some s.dev.now }).put
    (CSL_PORT_HALLOV (a / 4) (a % 4)) 1) (execHallOverload a) rfl rfl hl ?_ ?_
  · refine if_neg ?_
    rw [show Dev.axSt (Dev.onPort _ _ _) a = s.dev.axSt a from rfl, hd, Bool.and_false]
    decide
  have hw : (CSL_PORT_HALLOV (a / 4) (a % 4)).lo + (CSL_PORT_HALLOV (a / 4) (a % 4)).width ≤ 32 := by
    simp only [CSL_PORT_HALLOV]; omega
  exact ⟨get_put_same _ _ _ hw, by rw [portOf_put, portOf_onPort_same],
    (((PortShape.refl _).onPort a _).put _ 1).eq, sameRegs_put (sameRegs_onPort (sameRegs_refl _ _) _ _)
      (CSL_PORT_HALLOV (a / 4) (a % 4)) 1 List.mem_cons_self⟩

theorem hallRetry_switchesOn {k : Nat} (hl : s.dev.sys.logicOn = true) (hk : (s.dev.portOf a).hallOff = some k)
    (ht : k + 20000000 ≤ s.dev.now) :
    Does (.hallRetry a) s fun t => t.get (CSL_PORT_HALLOV (a / 4) (a % 4)) = 0 ∧ (t.portOf a).hallOff = none ∧ t =
          { s.dev with regs := t.regs, ports := t.ports } ∧ sameRegs s.dev t ([CSL_PORT (a.val / 4)]) := by
  refine does_onDev_of_eq (t := (s.dev.onPort a fun h => { h with hallOff := none }).put
    (CSL_PORT_HALLOV (a / 4) (a % 4)) 0) (execHallRetry a) rfl rfl hl ?_ ?_
  · simp only [hk, ht, if_true]
  have hw : (CSL_PORT_HALLOV (a / 4) (a % 4)).lo + (CSL_PORT_HALLOV (a / 4) (a % 4)).width ≤ 32 := by
    simp only [CSL_PORT_HALLOV]; omega
  exact ⟨(get_put_same _ _ _ hw).trans (Nat.zero_mod _), by rw [portOf_put, portOf_onPort_same],
    (((PortShape.refl _).onPort a _).put _ 0).eq, sameRegs_put (sameRegs_onPort (sameRegs_refl _ _) _ _)
      (CSL_PORT_HALLOV (a / 4) (a % 4)) 0 List.mem_cons_self⟩

end

/-- Settles O1: one lemma per event of a port. -/
theorem portsAndProbe : Obligations.PortsAndProbe :=
  ⟨fun s hl => idPolarityReverse_idle s hl,
    fun s a o v hl hp hn hneg hpos => idDecode_decodes s a o v hl hp hn hneg hpos,
    fun s a hl _ hagree => portPlug_waits s a hl hagree,
    fun s a hl hp hagree hlast hw hoff h1 => portPlug_unplugs s a hl hp hagree hlast hw hoff h1,
    fun s a hl hw hdue hready hm hrel hline => probeStart_begins s a hl hw hdue hready hm hrel hline,
    fun s a e u v w k hl hk ht hst he => does_imp (probeMeasureEnd_finds s a e u v w hl hk ht hst) fun t ⟨h1, h2⟩ =>
      ⟨h1.trans (if_pos he), h2⟩,
    fun s a e u v w k hl hk ht hst he hu hv hw => does_imp (probeMeasureEnd_finds s a e u v w hl hk ht hst)
      fun t ⟨h1, h2⟩ => ⟨by
        have hn : missingInduced u v w = 3 := by
          unfold missingInduced
          simp [Nat.not_lt.2 hu, Nat.not_lt.2 hv, hw]
        rw [h1, if_neg (Nat.not_lt.2 he), hn]; rfl, h2⟩,
    fun s a u w k l hl hk hlen ht hst => probePulse_judges s a u w hl hk hlen ht hst,
    fun s a k hl hm hst hk ht hstand => probeVerdict_passes s a hl hm hst hk ht hstand,
    fun s a k hl hm hst hp hk ht => probeVerdict_missing s a hl hm hst hp hk ht,
    fun s a hl hm hst hn => faultClearNoMotor_clears s a hl hm hst hn,
    fun s a hl hd => hallOverload_shows s a hl hd,
    fun s a k hl hk ht => hallRetry_switchesOn s a hl hk ht⟩

end Sys2Proof.Proofs
end

section
namespace Sys2Proof.Proofs
open Sys2Proof Sys2Proof.Machine Sys2Proof.Laws Reg

/-! SUPPORT. A refused write of a pair (R54, R270), the auxiliary outputs (R40 to R43), the ground-speed pulse (R44) and
the test access port (R47), and their statement (O2). -/

/-! ### Refused writes -/

section
variable {d : Dev} {p : Fin 5}

/-- A refused access of a pair outside EXL is taken as R270 says. -/
theorem busError_traps (hexl : ((d.pairOf p).cwGet 0).getLsbD 2 = false) (sub addr : Nat) (w : Bool) :
    Traps d (busError (.pair p) sub addr w d) p 4 sub w false (w32 addr) := by
  rw [busError_pair, pairExc_enter _ _ _ _ _ _ _ _ hexl]
  have hu := (OnlyPair.refl d p).onPair fun h => h.enter 4 sub w false (w32 addr) (d.pairOf p).pc
  refine ⟨hu.rest, fun q hq => hu.other q (Fin.val_ne_of_ne hq), ?_⟩
  rw [hu.own]
  obtain ⟨hesave, hepc, hecause, headdr, hpsw, hpc⟩ := enter_writes (d.pairOf p) 4 sub w false (w32 addr) (d.pairOf p).pc
  obtain ⟨hg, hac, hretired⟩ := enter_keeps (d.pairOf p) 4 sub w false (w32 addr) (d.pairOf p).pc
  exact ⟨hesave, hepc, hecause, headdr, hpsw, hpc, hg, hac, hretired⟩

/-- A pair that does not supervise has no rights of the supervising pair. -/
theorem supRights_other (h : d.sup ≠ p.val) : d.supRights (.pair p) = false := decide_eq_false h

/-- Its write of the AUX block is a bus error with SUB 6 (R54). -/
theorem asSlotWriter_traps (h : d.sup ≠ p.val) (hexl : ((d.pairOf p).cwGet 0).getLsbD 2 = false) (addr : Nat)
    (f : Dev → Dev) : Traps d (asSlotWriter (.pair p) addr f d) p 4 6 true false (w32 addr) := by
  rw [asSlotWriter, supRights_other h, if_neg (by decide)]
  exact busError_traps hexl 6 addr true

/-- A write of the AUX block by a writer with rights is its effect. -/
theorem asSlotWriter_ok {m : Master} (h : d.supRights m = true) (addr : Nat) (f : Dev → Dev) :
    asSlotWriter m addr f d = f d := if_pos h

end

/-! ### The auxiliary block -/

/-- From `d` to `t` only registers and the hidden state of the auxiliary outputs change. -/
def AuxShape (d t : Dev) : Prop := ∃ rg ax, t = { d with regs := rg, aux := ax }

namespace AuxShape
variable {d e t : Dev}

theorem refl (d : Dev) : AuxShape d d := ⟨_, _, rfl⟩

theorem trans (h : AuxShape d e) (h' : AuxShape e t) : AuxShape d t := by
  obtain ⟨_, _, rfl⟩ := h
  obtain ⟨_, _, rfl⟩ := h'
  exact ⟨_, _, rfl⟩

theorem put (h : AuxShape d t) (f : Fld) (v : Nat) : AuxShape d (t.put f v) := by
  obtain ⟨_, ax, rfl⟩ := h
  exact ⟨_, ax, rfl⟩

theorem onAux (h : AuxShape d t) (f : AuxH → AuxH) : AuxShape d (t.onAux f) := by
  obtain ⟨rg, _, rfl⟩ := h
  exact ⟨rg, _, rfl⟩

theorem each {α : Type} {l : List α} {f : α → Dev → Dev} (hf : ∀ x t, AuxShape t (f x t)) : ∀ d : Dev, AuxShape d (d.each l f) :=
  fun d => each_keeps (AuxShape d) l f (fun x t h => h.trans (hf x t)) d (refl d)

theorem eq (h : AuxShape d t) : t = { d with regs := t.regs, aux := t.aux } := by
  obtain ⟨_, _, rfl⟩ := h
  rfl

/-- A raise afterwards. -/
theorem raise_eq (h : AuxShape d t) (n : Nat) : raise n t =
    { d with regs := (raise n t).regs, aux := (raise n t).aux, evs := (raise n t).evs } := by
  obtain ⟨rg, ax, rfl⟩ := h
  have hr := raise_shape n { d with regs := rg, aux := ax }
  generalize raise n { d with regs := rg, aux := ax } = u at hr
  rw [hr]

end AuxShape

/-- A change of the auxiliary outputs leaves every register. -/
theorem sameRegs_onAux {d t : Dev} {l : List Nat} (h : sameRegs d t l) (f : AuxH → AuxH) : sameRegs d (t.onAux f) l :=
  sameRegs_trans h fun _ _ => onAux_reg _ _ _

/-- A repeated operation leaves the registers that each step leaves. -/
theorem sameRegs_each {α : Type} {l : List Nat} {xs : List α} {f : α → Dev → Dev} (hf : ∀ x t, sameRegs t (f x t) l) (d : Dev) :
    sameRegs d (d.each xs f) l :=
  each_keeps (sameRegs d · l) xs f (fun x t h => sameRegs_trans h (hf x t)) d (sameRegs_refl d l)

/-- Two different flags of AUX_GSTAT are apart. -/
theorem get_put_group (d : Dev) {g h i j : Nat} (hg : g < 4) (hi : i < 8) (hj : j < 8) (hne : g ≠ h ∨ i ≠ j) (v : Nat) :
    (d.put ⟨AUX_GSTAT, 8 * g + i, 1⟩ v).get ⟨AUX_GSTAT, 8 * h + j, 1⟩ = d.get ⟨AUX_GSTAT, 8 * h + j, 1⟩ :=
  get_put_disjoint d ⟨AUX_GSTAT, 8 * g + i, 1⟩ ⟨AUX_GSTAT, 8 * h + j, 1⟩ v rfl (by simp only; omega) (by simp only; omega)

/-- A flag of AUX_GSTAT holds the value written to it. -/
theorem get_put_group_same (d : Dev) {g i : Nat} (hg : g < 4) (hi : i < 8) {v : Nat} (hv : v < 2) :
    (d.put ⟨AUX_GSTAT, 8 * g + i, 1⟩ v).get ⟨AUX_GSTAT, 8 * g + i, 1⟩ = v :=
  (get_put_same d ⟨AUX_GSTAT, 8 * g + i, 1⟩ v (by simp only; omega)).trans (Nat.mod_eq_of_lt hv)

/-- Whether a group has an output on is read from the outputs on. -/
theorem groupOn_congr {d t : Dev} (h : t.aux.on = d.aux.on) (g : Nat) : t.groupOn g = d.groupOn g := by
  rw [Dev.groupOn, h, Dev.groupOn]

theorem groupOn_put (d : Dev) (f : Fld) (v g : Nat) : (d.put f v).groupOn g = d.groupOn g := rfl

/-- The flags of a group in AUX_GSTAT, HSON, TRIP and DEFER, and the outputs on. -/
def groupFlags (g : Nat) (d : Dev) : Nat × Nat × Nat × Nat :=
  (d.get (AUX_GSTAT_HSON g), d.get (AUX_GSTAT_TRIP g), d.get (AUX_GSTAT_DEFER g), d.aux.on)

/-- A write of another group's flag leaves the flags of a group. -/
theorem groupFlags_put_ne (d : Dev) {g h i : Nat} (hg : g < 4) (hi : i < 8) (hne : g ≠ h) (v : Nat) :
    groupFlags h (d.put ⟨AUX_GSTAT, 8 * g + i, 1⟩ v) = groupFlags h d := by
  have hget : ∀ j < 8, (d.put ⟨AUX_GSTAT, 8 * g + i, 1⟩ v).get ⟨AUX_GSTAT, 8 * h + j, 1⟩ = d.get ⟨AUX_GSTAT, 8 * h + j, 1⟩ :=
    fun j hj => get_put_group d hg hi hj (.inl hne) v
  exact Prod.ext (hget 0 (by decide)) (Prod.ext (hget 1 (by decide)) (Prod.ext (hget 2 (by decide)) rfl))

/-! ### Outputs follow their requests (R40 to R42) -/

/-- What `auxFollow` does at one group; `was`: the group had an output on before. -/
def followGroup (was : Bool) (g : Nat) (d : Dev) : Dev :=
  let d := d.put (AUX_GSTAT_DEFER g) (if d.groupOn g then 1 else 0)
  if d.groupOn g then
    (if d.on (AUX_GSTAT_TRIP g) then d else d.put (AUX_GSTAT_HSON g) 1).onAux fun x => { x with
      offAt := tset none x.offAt g none, diag := tset none x.diag g none }
  else if was then d.onAux fun x => { x with offAt := tset none x.offAt g (some d.now) }
  else d

/-- The outputs as they follow their requests. -/
def switched (d : Dev) : Dev :=
  d.onAux fun x => { x with
    on := d.auxWanted, hold := x.hold &&& d.auxWanted
    since := ((List.range 16).filter fun n => d.auxWanted.testBit n && !d.aux.on.testBit n).foldl
      (fun t n => tset 0 t n d.now) x.since }

theorem auxFollow_eq (d : Dev) : auxFollow d = (switched d).each [0, 1, 2, 3] fun g => followGroup (d.groupOn g) g := rfl

section
variable {was : Bool} {g : Nat} {d : Dev}

/-- A group with an output on has its high side on, unless tripped, and no diagnostics. -/
theorem followGroup_on (h : d.groupOn g = true) : followGroup was g d =
    (if (d.put (AUX_GSTAT_DEFER g) 1).on (AUX_GSTAT_TRIP g) then d.put (AUX_GSTAT_DEFER g) 1
      else (d.put (AUX_GSTAT_DEFER g) 1).put (AUX_GSTAT_HSON g) 1).onAux fun x => { x with
        offAt := tset none x.offAt g none, diag := tset none x.diag g none } := by
  simp only [followGroup, groupOn_put, h, if_true]

/-- A group without keeps its high side for now. -/
theorem followGroup_off (h : d.groupOn g = false) : followGroup was g d =
    if was then (d.put (AUX_GSTAT_DEFER g) 0).onAux fun x => { x with offAt := tset none x.offAt g (some d.now) }
    else d.put (AUX_GSTAT_DEFER g) 0 := by
  simp only [followGroup, groupOn_put, put_now, h, Bool.false_eq_true, if_false]

/-- What every write of the group's flags and every change of hidden state but the outputs on keeps. -/
theorem followGroup_keeps (P : Dev → Prop) (hput : ∀ i < 8, ∀ v t, P t → P (t.put ⟨AUX_GSTAT, 8 * g + i, 1⟩ v))
    (haux : ∀ t, P t → ∀ f : AuxH → AuxH, (∀ x, (f x).on = x.on) → P (t.onAux f)) (h : P d) :
    P (followGroup was g d) := by
  have hd : ∀ v, P (d.put (AUX_GSTAT_DEFER g) v) := fun v => hput 2 (by decide) v d h
  cases hg : d.groupOn g with
  | true =>
    rw [followGroup_on hg]
    refine haux _ ?_ _ fun _ => rfl
    split
    · exact hd 1
    · exact hput 0 (by decide) 1 _ (hd 1)
  | false =>
    rw [followGroup_off hg]
    split
    · exact haux _ (hd 0) _ fun _ => rfl
    · exact hd 0

theorem auxShape_followGroup : AuxShape d (followGroup was g d) :=
  followGroup_keeps _ (fun i _ v _ h => h.put ⟨AUX_GSTAT, 8 * g + i, 1⟩ v) (fun _ h f _ => h.onAux f) (.refl d)

theorem sameRegs_followGroup : sameRegs d (followGroup was g d) [AUX_GSTAT] :=
  followGroup_keeps (sameRegs d · [AUX_GSTAT])
    (fun i _ v _ h => sameRegs_put h ⟨AUX_GSTAT, 8 * g + i, 1⟩ v List.mem_cons_self)
    (fun _ h f _ => sameRegs_onAux h f) (sameRegs_refl d _)

/-- The flags of the other groups stay. -/
theorem groupFlags_followGroup_ne (hg : g < 4) {h : Nat} (hne : g ≠ h) :
    groupFlags h (followGroup was g d) = groupFlags h d :=
  followGroup_keeps (groupFlags h · = groupFlags h d)
    (fun _ hi v t ht => (groupFlags_put_ne t hg hi hne v).trans ht)
    (fun t ht f hf => Eq.trans (by simp only [groupFlags, onAux_get]; rw [show (t.onAux f).aux.on = t.aux.on from hf _]) ht)
    rfl

/-- The high side of an untripped group is on with an output, and stays as it is without. -/
theorem groupFlags_followGroup (hg : g < 4) (h0 : d.get (AUX_GSTAT_HSON g) = 0) (ht : d.get (AUX_GSTAT_TRIP g) = 0) :
    (followGroup was g d).get (AUX_GSTAT_HSON g) = (if d.groupOn g then 1 else 0) ∧
      (followGroup was g d).get (AUX_GSTAT_DEFER g) = (if d.groupOn g then 1 else 0) := by
  have hdefer : ∀ v < 2, (d.put (AUX_GSTAT_DEFER g) v).get (AUX_GSTAT_DEFER g) = v := fun v hv =>
    get_put_group_same d hg (by decide) hv
  have htrip : (d.put (AUX_GSTAT_DEFER g) 1).get (AUX_GSTAT_TRIP g) = 0 :=
    (get_put_group d hg (i := 2) (j := 1) (by decide) (by decide) (.inr (by decide)) 1).trans ht
  have hhson : (d.put (AUX_GSTAT_DEFER g) 0).get (AUX_GSTAT_HSON g) = 0 :=
    (get_put_group d hg (i := 2) (j := 0) (by decide) (by decide) (.inr (by decide)) 0).trans h0
  cases hg' : d.groupOn g with
  | true =>
    rw [followGroup_on hg', if_neg (by rw [Dev.on, htrip]; decide), onAux_get, onAux_get]
    exact ⟨get_put_group_same _ hg (i := 0) (by decide) (by decide),
      (get_put_group _ hg (i := 0) (j := 2) (by decide) (by decide) (.inr (by decide)) 1).trans (hdefer 1 (by decide))⟩
  | false =>
    rw [followGroup_off hg']
    split
    · rw [onAux_get, onAux_get]
      exact ⟨hhson, hdefer 0 (by decide)⟩
    · exact ⟨hhson, hdefer 0 (by decide)⟩

end

section
variable (s : State) (m : Master) (w : Word)

/-- The requests of AUX_OUT are in force outside TRANSPORT. -/
theorem auxWanted_out {d : Dev} (hm : d.mode ≠ .transport) (hmask : d.aux.maskUntil = none) :
    (d.put AUX_OUT_ON w.toNat).auxWanted = w.toNat % 2 ^ 16 := by
  have hm' : (d.put AUX_OUT_ON w.toNat).mode ≠ .transport := by
    rwa [show (d.put AUX_OUT_ON w.toNat).mode = d.mode from
      congrArg (fun v => (Mode.ofCode v).getD .selftest) (get_put_ne d AUX_OUT_ON SYS_MODE_MODE w.toNat (by decide))]
  have hmask' : (d.put AUX_OUT_ON w.toNat).aux.maskUntil = none := hmask
  rw [Dev.auxWanted, hmask', decide_eq_false hm']
  exact get_put_same d AUX_OUT_ON w.toNat (by decide)

theorem auxOutWrite_switches (hl : s.dev.sys.logicOn = true) (hr : s.dev.supRights m = true) (hm : s.dev.mode ≠ .transport)
    (hmask : s.dev.aux.maskUntil = none) (h0 : s.dev.reg AUX_GSTAT = 0) :
    Does (.auxOutWrite m w) s fun t => t.get AUX_OUT_ON = w.toNat % 2 ^ 16 ∧ t.aux.on = w.toNat % 2 ^ 16 ∧ (∀ g :
          Fin 4, t.get (AUX_GSTAT_HSON g) = (if t.groupOn g then 1 else 0) ∧ t.get (AUX_GSTAT_DEFER g) = (if t.groupOn
          g then 1 else 0)) ∧ t = { s.dev with regs := t.regs, aux := t.aux } ∧ sameRegs s.dev t ([AUX_OUT,
          AUX_GSTAT]) := by
  have hw := auxWanted_out w hm hmask
  refine does_onDev_of_eq (execAuxOutWrite m w) rfl rfl hl ((asSlotWriter_ok hr _ _).trans (auxFollow_eq _)) ?_
  generalize hd1 : s.dev.put AUX_OUT_ON w.toNat = d1 at hw ⊢
  have hshape1 : AuxShape s.dev (switched d1) := by
    rw [← hd1]; exact ((AuxShape.refl _).put _ _).onAux _
  have hregs1 : sameRegs s.dev (switched d1) [AUX_OUT, AUX_GSTAT] := by
    rw [← hd1]; exact sameRegs_onAux (sameRegs_put (sameRegs_refl _ _) _ _ List.mem_cons_self) _
  have hout1 : (switched d1).get AUX_OUT_ON = w.toNat % 2 ^ 16 := by
    rw [← hd1]; exact get_put_same s.dev AUX_OUT_ON w.toNat (by decide)
  have hon1 : (switched d1).aux.on = w.toNat % 2 ^ 16 := hw
  have hstat1 : (switched d1).reg AUX_GSTAT = 0 := by
    rw [← hd1]; exact (reg_put_ne s.dev AUX_OUT_ON w.toNat (by decide)).trans h0
  have hstep : ∀ (was : Bool) (g : Nat) (t : Dev), (followGroup was g t).aux.on = t.aux.on := fun was g t =>
    followGroup_keeps (fun u => u.aux.on = t.aux.on) (fun _ _ _ _ h => h) (fun u h f hf => (hf u.aux).trans h) rfl
  have hon : ((switched d1).each [0, 1, 2, 3] fun g => followGroup (d1.groupOn g) g).aux.on = w.toNat % 2 ^ 16 :=
    (each_frame (fun t => t.aux.on) _ _ (fun g t => hstep _ g t) _).trans hon1
  have hregs : sameRegs (switched d1) ((switched d1).each [0, 1, 2, 3] fun g => followGroup (d1.groupOn g) g) [AUX_GSTAT] :=
    sameRegs_each (fun g t => sameRegs_followGroup) _
  refine ⟨?_, hon, fun g => ?_, (hshape1.trans (.each (fun g t => auxShape_followGroup) _)).eq, ?_⟩
  · exact (congrArg (fun r => wordGet r 0 16) (hregs AUX_OUT (by decide))).trans hout1
  · have hlocal := each_local (g := groupFlags g) (l := [0, 1, 2, 3]) (b := g.val) (by decide)
      (by have := g.isLt; simp only [List.mem_cons, List.not_mem_nil, or_false]; omega)
      (f := fun g => followGroup (d1.groupOn g) g)
      (fun x hx hne t => groupFlags_followGroup_ne (by simp only [List.mem_cons, List.not_mem_nil, or_false] at hx; omega) hne)
      (switched d1)
    obtain ⟨t, ht, he⟩ := hlocal
    simp only [groupFlags, Prod.mk.injEq] at ht he
    obtain ⟨ht0, ht1, -, hton⟩ := ht
    obtain ⟨he0, -, he2, heon⟩ := he
    have hzero : ∀ f : Fld, f.addr = AUX_GSTAT → (switched d1).get f = 0 := fun f hf => by
      rw [Dev.get, hf, hstat1]; simp [wordGet]
    obtain ⟨h1, h2⟩ := groupFlags_followGroup (was := d1.groupOn g) (d := t) g.isLt (ht0.trans (hzero _ rfl))
      (ht1.trans (hzero _ rfl))
    rw [groupOn_congr (heon.trans (hstep _ _ t)) g]
    exact ⟨he0.trans h1, he2.trans h2⟩
  · refine sameRegs_trans hregs1 fun r hr => hregs r fun h => hr ?_
    rw [List.mem_singleton.1 h]
    exact List.mem_cons_of_mem _ List.mem_cons_self

theorem auxOutWrite_traps (p : Fin 5) (hl : s.dev.sys.logicOn = true) (hsup : s.dev.sup ≠ p.val)
    (hexl : ((s.dev.pairOf p).cwGet 0).getLsbD 2 = false) :
    Does (.auxOutWrite (.pair p) w) s fun t => Traps s.dev t p 4 6 true false (w32 AUX_OUT) :=
  does_onDev (execAuxOutWrite (.pair p) w) rfl rfl hl (asSlotWriter_traps hsup hexl AUX_OUT _)

theorem auxHighsideOff_switchesOff (g : Fin 4) {k : Nat} (hl : s.dev.sys.logicOn = true)
    (hk : tget none s.dev.aux.offAt g = some k) (ht : k + 200000 ≤ s.dev.now) (hoff : s.dev.groupOn g = false) :
    Does (.auxHighsideOff g) s fun t => t.get (AUX_GSTAT_HSON g) = 0 ∧ t =
          { s.dev with regs := t.regs, aux := t.aux } ∧ sameRegs s.dev t ([AUX_GSTAT]) := by
  refine does_onDev_of_eq (t := (s.dev.put (AUX_GSTAT_HSON g) 0).onAux fun x => { x with
    offAt := tset none x.offAt g none }) (execAuxHighsideOff g) rfl rfl hl ?_ ?_
  · simp only [hk, hoff, ht, decide_true, Bool.not_false, Bool.and_true, if_true]
  · rw [onAux_get]
    exact ⟨get_put_group_same s.dev g.isLt (i := 0) (by decide) (by decide),
      (((AuxShape.refl _).put _ 0).onAux _).eq,
      sameRegs_onAux (sameRegs_put (sameRegs_refl _ _) (AUX_GSTAT_HSON g) 0 List.mem_cons_self) _⟩

theorem auxPullinEnd_holds (n : Fin 16) (hl : s.dev.sys.logicOn = true) (hon : s.dev.aux.on.testBit n = true)
    (ht : tget 0 s.dev.aux.since n + s.dev.get (AUX_GCFG_PULLIN (n / 4)) * 200000 ≤ s.dev.now) :
    Does (.auxPullinEnd n) s fun t => t.aux.hold.testBit n = true ∧ t = { s.dev with aux := t.aux } := by
  refine does_onDev_of_eq (t := s.dev.onAux fun x => { x with hold := x.hold ||| 2 ^ n.val }) (execAuxPullinEnd n) rfl rfl hl
    ?_ ?_
  · exact if_pos (by rw [hon, Bool.true_and]; exact decide_eq_true ht)
  · refine ⟨?_, rfl⟩
    show (s.dev.aux.hold ||| 2 ^ n.val).testBit n = true
    rw [Nat.testBit_or, Nat.testBit_two_pow_self, Bool.or_true]

theorem auxDiagRun_starts (g : Fin 4) (hl : s.dev.sys.logicOn = true) (hoff : s.dev.groupOn g = false)
    (hd : tget none s.dev.aux.diag g = none) (ht : tget 0 s.dev.aux.diagEnd g + 19600000 ≤ s.dev.now) :
    Does (.auxDiagRun g) s fun t => tget none t.aux.diag g = some s.dev.now ∧ t = { s.dev with aux := t.aux } := by
  refine does_onDev_of_eq (t := s.dev.onAux fun x => { x with diag := tset none x.diag g (some s.dev.now) })
    (execAuxDiagRun g) rfl rfl hl ?_ ?_
  · simp only [hoff, hd, ht, Option.isNone_none, decide_true, Bool.not_false, Bool.and_true, if_true]
  · exact ⟨tget_tset_same none s.dev.aux.diag g (some s.dev.now), rfl⟩

/-- The block after a diagnostic run: its findings, and when it ended. -/
def diagnosed (g f : Nat) (d : Dev) : Dev :=
  (d.put ⟨AUX_OLOAD, 4 * g, 4⟩ f).onAux fun x => { x with
    diag := tset none x.diag g none, diagEnd := tset 0 x.diagEnd g d.now }

theorem get_diagnosed (d : Dev) {g f : Nat} (hg : g < 4) (hf : f < 16) : (diagnosed g f d).get ⟨AUX_OLOAD, 4 * g, 4⟩ = f := by
  rw [diagnosed, onAux_get]
  exact (get_put_same d ⟨AUX_OLOAD, 4 * g, 4⟩ f (by simp only; omega)).trans (Nat.mod_eq_of_lt hf)

theorem diag_diagnosed (d : Dev) (g f : Nat) :
    tget 0 (diagnosed g f d).aux.diagEnd g = d.now ∧ tget none (diagnosed g f d).aux.diag g = none :=
  ⟨tget_tset_same 0 d.aux.diagEnd g d.now, tget_tset_same none d.aux.diag g none⟩

theorem auxShape_diagnosed (d : Dev) (g f : Nat) : AuxShape d (diagnosed g f d) :=
  ((AuxShape.refl d).put ⟨AUX_OLOAD, 4 * g, 4⟩ f).onAux _

theorem sameRegs_diagnosed (d : Dev) (g f : Nat) : sameRegs d (diagnosed g f d) (AUX_OLOAD :: evRegs 1014) :=
  sameRegs_onAux (sameRegs_put (sameRegs_refl d _) ⟨AUX_OLOAD, 4 * g, 4⟩ f List.mem_cons_self) _

/-- A raise leaves the auxiliary outputs and every register above the event words. -/
theorem raise_aux (n : Nat) (d : Dev) : (raise n d).aux = d.aux := by rw [raise_shape]

theorem auxDiagDone_reports (g : Fin 4) (f : Fin 16) {k : Nat} (hl : s.dev.sys.logicOn = true)
    (hk : tget none s.dev.aux.diag g = some k) (ht : k + 400000 ≤ s.dev.now) :
    Does (.auxDiagDone g f) s fun t => t.get ⟨AUX_OLOAD, 4 * g, 4⟩ = f.val ∧ tget 0 t.aux.diagEnd g = s.dev.now ∧
          tget none t.aux.diag g = none ∧ (0 < f.val → t.pend 1014 = true) ∧ t =
          { s.dev with regs := t.regs, aux := t.aux, evs := t.evs } ∧ sameRegs s.dev t ((AUX_OLOAD :: evRegs 1014)) := by
  refine does_onDev_of_eq (t := if f.val = 0 then diagnosed g f s.dev else raise 1014 (diagnosed g f s.dev))
    (execAuxDiagDone g f) rfl rfl hl ?_ ?_
  · simp only [hk, ht, if_true]
    rfl
  obtain ⟨h1, h2⟩ := diag_diagnosed s.dev g f
  have hget := get_diagnosed s.dev g.isLt f.isLt
  have hregs := sameRegs_diagnosed s.dev g f
  have hshape := auxShape_diagnosed s.dev g f
  generalize diagnosed g f s.dev = e at *
  split
  · refine ⟨hget, h1, h2, fun h => absurd ‹f.val = 0› (Nat.ne_of_gt h), ?_, hregs⟩
    obtain ⟨_, _, rfl⟩ := hshape
    rfl
  · have hr : Steady (EVC_PEND 64 ≤ ·) e (raise 1014 e) := steady_raise (fun _ => id) (by decide) e
    refine ⟨(hr.get (f := ⟨AUX_OLOAD, 4 * g, 4⟩) (by show EVC_PEND 64 ≤ AUX_OLOAD; decide)).trans hget, by rw [raise_aux, h1],
      by rw [raise_aux, h2], fun _ => pend_raise_same (by decide) e, hshape.raise_eq 1014,
      sameRegs_raise hregs 1014 fun r h => List.mem_cons_of_mem _ h⟩

theorem auxShortTrip_trips (g : Fin 4) (hl : s.dev.sys.logicOn = true) :
    Does (.auxShortTrip g) s fun t => t.get (AUX_GSTAT_TRIP g) = 1 ∧ t.get (AUX_GSTAT_HSON g) = 0 ∧ t.pend 1013 =
          true ∧ (∀ h : Fin 4, h ≠ g → t.get (AUX_GSTAT_TRIP h) = s.dev.get (AUX_GSTAT_TRIP h) ∧ t.get (AUX_GSTAT_HSON
          h) = s.dev.get (AUX_GSTAT_HSON h)) ∧ t = { s.dev with regs := t.regs, evs := t.evs } ∧ sameRegs s.dev t
          ((AUX_GSTAT :: evRegs 1013)) := by
  refine does_onDev (execAuxShortTrip g) rfl rfl hl ?_
  have hflags : ∀ h : Fin 4, h ≠ g → groupFlags h ((s.dev.put (AUX_GSTAT_TRIP g) 1).put (AUX_GSTAT_HSON g) 0) =
      groupFlags h s.dev := fun h hne => by
    have hne : g.val ≠ h.val := fun e => hne (Fin.ext e.symm)
    exact (groupFlags_put_ne _ g.isLt (i := 0) (by decide) hne 0).trans
      (groupFlags_put_ne s.dev g.isLt (i := 1) (by decide) hne 1)
  have htrip : ((s.dev.put (AUX_GSTAT_TRIP g) 1).put (AUX_GSTAT_HSON g) 0).get (AUX_GSTAT_TRIP g) = 1 :=
    (get_put_group _ g.isLt (i := 0) (j := 1) (by decide) (by decide) (.inr (by decide)) 0).trans
      (get_put_group_same s.dev g.isLt (i := 1) (by decide) (by decide))
  have hhson : ((s.dev.put (AUX_GSTAT_TRIP g) 1).put (AUX_GSTAT_HSON g) 0).get (AUX_GSTAT_HSON g) = 0 :=
    get_put_group_same _ g.isLt (i := 0) (by decide) (by decide)
  have hshape := put_put_eq s.dev (AUX_GSTAT_TRIP g) (AUX_GSTAT_HSON g) 1 0
  have hregs : sameRegs s.dev ((s.dev.put (AUX_GSTAT_TRIP g) 1).put (AUX_GSTAT_HSON g) 0) (AUX_GSTAT :: evRegs 1013) :=
    sameRegs_put (sameRegs_put (sameRegs_refl _ _) (AUX_GSTAT_TRIP g) 1 List.mem_cons_self) (AUX_GSTAT_HSON g) 0
      List.mem_cons_self
  generalize (s.dev.put (AUX_GSTAT_TRIP g) 1).put (AUX_GSTAT_HSON g) 0 = e at *
  have hr : Steady (EVC_PEND 64 ≤ ·) e (raise 1013 e) := steady_raise (fun _ => id) (by decide) e
  have hget : ∀ f : Fld, f.addr = AUX_GSTAT → (raise 1013 e).get f = e.get f := fun f hf =>
    hr.get (by rw [hf]; decide)
  refine ⟨(hget _ rfl).trans htrip, (hget _ rfl).trans hhson, pend_raise_same (by decide) e, fun h hne => ?_, ?_,
    sameRegs_raise hregs 1013 fun r h => List.mem_cons_of_mem _ h⟩
  · have hf := hflags h hne
    simp only [groupFlags, Prod.mk.injEq] at hf
    obtain ⟨h0, h1, -⟩ := hf
    exact ⟨(hget _ rfl).trans h1, (hget _ rfl).trans h0⟩
  · have he := raise_shape 1013 e
    generalize raise 1013 e = u at he
    rw [he, hshape]

end

/-! ### Groups enabled again (R43) -/

/-- What a write of AUX_TRIPCLR does at one group. -/
def enableGroup (w : Word) (g : Nat) (d : Dev) : Dev :=
  if w.toNat.testBit g then
    let d := d.put (AUX_GSTAT_TRIP g) 0
    if d.groupOn g then d.put (AUX_GSTAT_HSON g) 1 else d
  else d

theorem writeTripClr_eq (w : Word) (d : Dev) : writeTripClr w d = d.each [0, 1, 2, 3] (enableGroup w) := rfl

section
variable {w : Word} {g : Nat} {d : Dev}

theorem enableGroup_unnamed (h : w.toNat.testBit g = false) : enableGroup w g d = d := if_neg (by rw [h]; decide)

theorem enableGroup_named (h : w.toNat.testBit g = true) : enableGroup w g d =
    if d.groupOn g then (d.put (AUX_GSTAT_TRIP g) 0).put (AUX_GSTAT_HSON g) 1 else d.put (AUX_GSTAT_TRIP g) 0 := by
  cases hon : d.groupOn g <;> simp only [enableGroup, h, groupOn_put, hon, if_true, Bool.false_eq_true, if_false]

/-- What every write of the group's flags keeps. -/
theorem enableGroup_keeps (P : Dev → Prop) (hput : ∀ i < 8, ∀ v t, P t → P (t.put ⟨AUX_GSTAT, 8 * g + i, 1⟩ v)) (h : P d) :
    P (enableGroup w g d) := by
  have htrip : P (d.put (AUX_GSTAT_TRIP g) 0) := hput 1 (by decide) 0 d h
  cases hw : w.toNat.testBit g with
  | false => rw [enableGroup_unnamed hw]; exact h
  | true =>
    rw [enableGroup_named hw]
    split
    · exact hput 0 (by decide) 1 _ htrip
    · exact htrip

/-- The flags of the other groups stay. -/
theorem groupFlags_enableGroup_ne (hg : g < 4) {h : Nat} (hne : g ≠ h) :
    groupFlags h (enableGroup w g d) = groupFlags h d :=
  enableGroup_keeps (groupFlags h · = groupFlags h d) (fun _ hi v t ht => (groupFlags_put_ne t hg hi hne v).trans ht) rfl

/-- A named group is no longer tripped, and its high side is on when it has an output on. -/
theorem flags_enableGroup (hg : g < 4) : (enableGroup w g d).get (AUX_GSTAT_TRIP g) =
      (if w.toNat.testBit g then 0 else d.get (AUX_GSTAT_TRIP g)) ∧
    (w.toNat.testBit g = true → d.groupOn g = true → (enableGroup w g d).get (AUX_GSTAT_HSON g) = 1) := by
  have htrip : (d.put (AUX_GSTAT_TRIP g) 0).get (AUX_GSTAT_TRIP g) = 0 :=
    get_put_group_same d hg (i := 1) (by decide) (by decide)
  cases hw : w.toNat.testBit g with
  | false => rw [enableGroup_unnamed hw]; exact ⟨rfl, fun h => nomatch h⟩
  | true =>
    rw [enableGroup_named hw]
    cases hon : d.groupOn g with
    | false => exact ⟨htrip, fun _ h => nomatch h⟩
    | true =>
      exact ⟨(get_put_group _ hg (i := 0) (j := 1) (by decide) (by decide) (.inr (by decide)) 1).trans htrip,
        fun _ _ => get_put_group_same _ hg (i := 0) (by decide) (by decide)⟩

end

section
variable (s : State)

theorem auxTripclr_enables (m : Master) (w : Word) (hl : s.dev.sys.logicOn = true) (hr : s.dev.supRights m = true) :
    Does (.auxTripclr m w) s fun t => (∀ g : Fin 4, t.get (AUX_GSTAT_TRIP g) = (if w.toNat.testBit g then 0 else
          s.dev.get (AUX_GSTAT_TRIP g))) ∧ (∀ g : Fin 4, w.toNat.testBit g = true → s.dev.groupOn g = true → t.get
          (AUX_GSTAT_HSON g) = 1) ∧ t = { s.dev with regs := t.regs } ∧ sameRegs s.dev t ([AUX_GSTAT]) := by
  refine does_onDev_of_eq (execAuxTripclr m w) rfl rfl hl ((asSlotWriter_ok hr _ _).trans (writeTripClr_eq w _)) ?_
  have hgroup : ∀ g : Fin 4, ∃ t, groupFlags g t = groupFlags g s.dev ∧
      groupFlags g (s.dev.each [0, 1, 2, 3] (enableGroup w)) = groupFlags g (enableGroup w g t) := fun g =>
    each_local (by decide) (by have := g.isLt; simp only [List.mem_cons, List.not_mem_nil, or_false]; omega)
      (fun x hx hne t => groupFlags_enableGroup_ne (by simp only [List.mem_cons, List.not_mem_nil, or_false] at hx; omega) hne)
      s.dev
  simp only [groupFlags, Prod.mk.injEq] at hgroup
  refine ⟨fun g => ?_, fun g hw hon => ?_, ?_, sameRegs_each (fun g t => ?_) _⟩
  · obtain ⟨t, ⟨-, ht1, -, -⟩, -, he1, -, -⟩ := hgroup g
    rw [he1, (flags_enableGroup g.isLt).1, ht1]
  · obtain ⟨t, ⟨-, -, -, hton⟩, he0, -, -, -⟩ := hgroup g
    rw [he0]
    exact (flags_enableGroup g.isLt).2 hw ((groupOn_congr hton g).trans hon)
  · obtain ⟨rg, h⟩ : ∃ rg, s.dev.each [0, 1, 2, 3] (enableGroup w) = { s.dev with regs := rg } := by
      refine each_keeps (fun t => ∃ rg, t = { s.dev with regs := rg }) _ _ (fun g t ht => ?_) s.dev ⟨_, rfl⟩
      refine enableGroup_keeps (fun t => ∃ rg, t = { s.dev with regs := rg }) (fun i _ v t ht => ?_) ht
      obtain ⟨rg, rfl⟩ := ht
      exact ⟨_, rfl⟩
    rw [h]
  · exact enableGroup_keeps (sameRegs t · [AUX_GSTAT])
      (fun i _ v _ h => sameRegs_put h ⟨AUX_GSTAT, 8 * g + i, 1⟩ v List.mem_cons_self) (sameRegs_refl t _)

/-! ### The ground-speed pulse (R44) -/

/-- The block after an edge of the ground-speed pulse with the counts since the one before. -/
def edged (v : Nat) (d : Dev) : Dev := { d.put GSP_PERIOD_PERIOD v with gspAt := some d.now }

theorem reg_setGspAt (d : Dev) (x : Option Nat) (r : Nat) : Dev.reg { d with gspAt := x } r = d.reg r := rfl

theorem reg_edged (d : Dev) (v r : Nat) : (edged v d).reg r = (d.put GSP_PERIOD_PERIOD v).reg r := reg_setGspAt _ _ r

theorem get_edged (d : Dev) {v : Nat} (hv : v < 2 ^ GSP_PERIOD_PERIOD.width) : (edged v d).get GSP_PERIOD_PERIOD = v := by
  rw [Dev.get, reg_edged, ← Dev.get]
  exact get_put_fits d GSP_PERIOD_PERIOD rfl hv

theorem sameRegs_edged (d : Dev) (v : Nat) : sameRegs d (edged v d) [GSP_PERIOD] :=
  sameRegs_trans (sameRegs_put (sameRegs_refl d _) GSP_PERIOD_PERIOD v List.mem_cons_self) fun r _ => reg_edged d v r

theorem put_setGspAt (d : Dev) (f : Fld) (v : Nat) (x : Option Nat) : { d.put f v with gspAt := x } =
    { d with regs := (d.put f v).regs, gspAt := x } := rfl

theorem edged_shape (d : Dev) (v : Nat) : edged v d =
    { d with regs := (d.put GSP_PERIOD_PERIOD v).regs, gspAt := some d.now } := put_setGspAt d _ v _

theorem gspEdge_measures {k : Nat} (hl : s.dev.sys.logicOn = true) (hk : s.dev.gspAt = some k) :
    Does (.gspEdge) s fun t => t.gspAt = some s.dev.now ∧ t.get GSP_PERIOD_PERIOD = min (2 ^ 32 - 1) (s.dev.now - k)
          ∧ t = { s.dev with regs := t.regs, gspAt := t.gspAt } ∧ sameRegs s.dev t ([GSP_PERIOD]) := by
  refine does_onDev_of_eq (t := edged (min (2 ^ 32 - 1) (s.dev.now - k)) s.dev) execGspEdge rfl rfl hl ?_ ?_
  · simp only [hk]
    rfl
  · have hfit : min (2 ^ 32 - 1) (s.dev.now - k) < 2 ^ GSP_PERIOD_PERIOD.width :=
      Nat.lt_of_le_of_lt (Nat.min_le_left _ _) (by decide)
    generalize min (2 ^ 32 - 1) (s.dev.now - k) = v at hfit ⊢
    exact ⟨rfl, get_edged s.dev hfit, by rw [edged_shape], sameRegs_edged s.dev v⟩

theorem gspTimeout_saturates {k : Nat} (hl : s.dev.sys.logicOn = true) (hk : s.dev.gspAt = some k)
    (ht : k + 400000000 ≤ s.dev.now) :
    Does (.gspTimeout) s fun t => t.get GSP_PERIOD_PERIOD = 0xFFFFFFFF ∧ t = { s.dev with regs := t.regs } ∧
          sameRegs s.dev t ([GSP_PERIOD]) := by
  refine does_onDev_of_eq (t := s.dev.setReg GSP_PERIOD 0xFFFFFFFF) execGspTimeout rfl rfl hl ?_ ?_
  · simp only [hk, ht, if_true]
  · refine ⟨?_, rfl, fun r hr => reg_setReg_ne _ _ fun h => hr (h ▸ List.mem_cons_self)⟩
    show wordGet ((s.dev.setReg GSP_PERIOD 0xFFFFFFFF).reg GSP_PERIOD) 0 32 = 0xFFFFFFFF
    rw [reg_setReg_same]
    decide

/-! ### The test access port (R47) -/

theorem jtagBypass_selects (hl : s.dev.sys.logicOn = true) :
    Does (.jtagBypass) s fun t => t.jtag.ir = .bypass ∧ t.jtag.dr = 0 ∧ t.jtag.driving = false ∧ t =
          { s.dev with jtag := t.jtag } :=
  does_onDev execJtagBypass rfl rfl hl ⟨rfl, rfl, rfl, rfl⟩

theorem jtagIdcode_selects (hl : s.dev.sys.logicOn = true) :
    Does (.jtagIdcode) s fun t => t.jtag.ir = .idcode ∧ t.jtag.dr = 0x06448D63 ∧ t.jtag.driving = false ∧ t =
          { s.dev with jtag := t.jtag } :=
  does_onDev execJtagIdcode rfl rfl hl ⟨rfl, rfl, rfl, rfl⟩

theorem jtagSamplePreload_selects (w : Nat) (hl : s.dev.sys.logicOn = true) :
    Does (.jtagSamplePreload w) s fun t => t.jtag.ir = .sample ∧ t.jtag.preload = w ∧ t.jtag.driving = false ∧ t =
          { s.dev with jtag := t.jtag, free := t.free } :=
  does_onDev (execJtagSamplePreload w) rfl rfl hl ⟨rfl, rfl, rfl, rfl⟩

theorem jtagExtest_drives (hl : s.dev.sys.logicOn = true) (hm : s.dev.mode = .service)
    (hrest : ∀ a : Fin 64, s.dev.axSt a = .off ∨ s.dev.axSt a = .absent) :
    Does (.jtagExtest) s fun t => t.jtag.ir = .extest ∧ t.jtag.dr = s.dev.jtag.preload ∧ t.jtag.driving = true ∧ t =
          { s.dev with jtag := t.jtag } := by
  have hall : allAxes.all (fun a => s.dev.axSt a = .off || s.dev.axSt a = .absent) = true :=
    List.all_eq_true.2 fun a ha => by simpa using hrest ⟨a, List.mem_range.1 ha⟩
  refine does_onDev_of_eq execJtagExtest rfl rfl hl (if_pos ?_) ⟨rfl, rfl, rfl, rfl⟩
  rw [hall, hm]
  rfl

theorem jtagExtest_bypasses (hl : s.dev.sys.logicOn = true) (hm : s.dev.mode ≠ .service) :
    Does (.jtagExtest) s fun t => t.jtag.ir = .bypass ∧ t.jtag.dr = 0 ∧ t.jtag.driving = false ∧ t =
          { s.dev with jtag := t.jtag } := by
  refine does_onDev_of_eq execJtagExtest rfl rfl hl (if_neg ?_) ⟨rfl, rfl, rfl, rfl⟩
  rw [decide_eq_false hm, Bool.false_and]
  decide

end

/-- Settles O2: one lemma per event of the block and per instruction of the test access port. -/
theorem auxiliaryOutputsAndPulse : Obligations.AuxiliaryOutputsAndPulse :=
  ⟨fun s m w hl hr hm hmask h0 => auxOutWrite_switches s m w hl hr hm hmask h0,
    fun s p w hl hsup hexl => auxOutWrite_traps s w p hl hsup hexl,
    fun s g _ hl hk ht hoff => auxHighsideOff_switchesOff s g hl hk ht hoff,
    fun s n hl hon ht => auxPullinEnd_holds s n hl hon ht,
    fun s g hl hoff hd ht => auxDiagRun_starts s g hl hoff hd ht,
    fun s g f _ hl hk ht => auxDiagDone_reports s g f hl hk ht,
    fun s g hl => auxShortTrip_trips s g hl,
    fun s m w hl hr => auxTripclr_enables s m w hl hr,
    fun s _ hl hk => gspEdge_measures s hl hk,
    fun s _ hl hk ht => gspTimeout_saturates s hl hk ht,
    fun s hl => jtagBypass_selects s hl,
    fun s hl => jtagIdcode_selects s hl,
    fun s w hl => jtagSamplePreload_selects s w hl,
    fun s hl hm hrest => jtagExtest_drives s hl hm hrest,
    fun s hl hm => jtagExtest_bypasses s hl hm⟩

end Sys2Proof.Proofs
end

section
namespace Sys2Proof.Proofs
open Sys2Proof Sys2Proof.Machine Sys2Proof.Laws Reg

/-! SUPPORT. Kicks, knells, holds and the FAULT line (R46, R298, R299, R301, R311), and their statement (O35). -/

/-! ### Masks of axes -/

theorem testBit_foldl_mask (i : Nat) (l : List Nat) (m : Nat) :
    (l.foldl (fun m a => m ||| 2 ^ a) m).testBit i = (m.testBit i || decide (i ∈ l)) := by
  induction l generalizing m with
  | nil => simp
  | cons a l ih =>
    rw [List.foldl_cons, ih, Nat.testBit_or, Nat.testBit_two_pow, Bool.or_assoc]
    congr 1
    by_cases h : a = i
    · simp [h]
    · simp [h, Ne.symm h]

/-- The mask of the axes of a mask is the mask. -/
theorem maskOf_axesOf {m : Nat} (hm : m < 2 ^ 64) : maskOf (axesOf m) = m := by
  refine Nat.eq_of_testBit_eq fun i => ?_
  rw [maskOf, testBit_foldl_mask, Nat.zero_testBit, Bool.false_or]
  by_cases hi : i < 64
  · by_cases hb : m.testBit i = true
    · rw [hb]; exact decide_eq_true (mem_axesOf.2 ⟨hi, hb⟩)
    · rw [Bool.eq_false_iff.2 hb]; exact decide_eq_false fun h => hb (mem_axesOf.1 h).2
  · have hlt : m < 2 ^ i := Nat.lt_of_lt_of_le hm (Nat.pow_le_pow_right (by decide) (Nat.le_of_not_lt hi))
    rw [Nat.testBit_lt_two_pow hlt]
    exact decide_eq_false fun h => hi (mem_axesOf.1 h).1

/-- The mask that a half mask stands for. -/
def wholeMask (h : Bool) (w : Word) : Nat := w.toNat * (if h then 2 ^ 32 else 1)

theorem wholeMask_lt (h : Bool) (w : Word) : wholeMask h w < 2 ^ 64 := by
  have hw : w.toNat < 2 ^ 32 := w.isLt
  cases h with
  | false => simp only [wholeMask, Bool.false_eq_true, if_false]; omega
  | true => simp only [wholeMask, if_true]; omega

theorem wholeMask_ne_zero (h : Bool) {w : Word} (hw : w ≠ 0) : wholeMask h w ≠ 0 := by
  have hw' : w.toNat ≠ 0 := fun h0 => hw (BitVec.eq_of_toNat_eq h0)
  cases h with
  | false => simp only [wholeMask, Bool.false_eq_true, if_false]; omega
  | true => simp only [wholeMask, if_true]; omega

theorem halfMask_lt (h : Bool) (w : Word) : ∀ a ∈ halfMask h w, a < 64 := fun _ ha => (mem_axesOf.1 ha).1

theorem maskOf_halfMask (h : Bool) (w : Word) : maskOf (halfMask h w) = wholeMask h w := maskOf_axesOf (wholeMask_lt h w)

theorem halfMask_ne_nil (h : Bool) {w : Word} (hw : w ≠ 0) : halfMask h w ≠ [] := fun h0 =>
  wholeMask_ne_zero h hw (by rw [← maskOf_halfMask, h0]; rfl)

/-- A mask written to two registers reads back. -/
theorem mask64_setMask64 (d : Dev) {lo hi m : Nat} (hm : m < 2 ^ 64) (hne : lo ≠ hi) : (d.setMask64 lo hi m).mask64 lo hi = m := by
  rw [Dev.mask64, Dev.setMask64, reg_setReg_same, reg_setReg_ne _ _ hne, reg_setReg_same, w32, w32, BitVec.toNat_ofNat,
    BitVec.toNat_ofNat]
  omega

/-- A bit is read from its register. -/
theorem bit_congr {d t : Dev} {r : Nat} (h : t.reg r = d.reg r) (n : Nat) : t.bit r n = d.bit r n :=
  congrArg (fun w => decide (wordGet w n 1 ≠ 0)) h

/-! ### The release of axes (R130, R300) -/

/-- The registers that the release of a list of axes leaves. -/
def Unreleased (l : List Nat) (r : Nat) : Prop := Resting r ∧ ∀ a ∈ l, r ≠ CU_STATE a ∧ r ≠ PWM_FLT a

/-- A bridge released with a bit latched, its strikes aborted, and its axis at rest. -/
def releaseAxis (n a : Nat) (d : Dev) : Dev := releasedState a (pealAxisFault a (strikeAbort a 12 (release a n d)))

section
variable {d t : Dev} {a : Nat} (ha : a < 64)
include ha

theorem calm_cancelLoad (d : Dev) : Calm Resting AxisEvent d (cancelLoad a d) := by
  unfold cancelLoad
  exact Calm.onPwm (.ite (calm_put_pwm d ha (x := 0) (by decide) (PWM_STAT_LDLOST a) 1 rfl) (.refl _ _ d)) a _

theorem resting_flt : Resting (PWM_FLT a) := by simp only [Resting, Working, PWM_FLT]; omega

/-- A release latches its bit and leaves what rests. -/
theorem release_spec (d : Dev) {n : Nat} (hn : n < 32) : (release a n d).bit (PWM_FLT a) n = true ∧
    Calm (fun r => Resting r ∧ r ≠ PWM_FLT a) AxisEvent d (release a n d) := by
  have hset : Calm (fun r => Resting r ∧ r ≠ PWM_FLT a) AxisEvent d (d.setBit (PWM_FLT a) n) :=
    .put d ⟨PWM_FLT a, n, 1⟩ 1 (fun h => h.2 rfl) (by simp only [NoEvents, EVC_PEND, PWM_FLT]; omega)
  have hrest : Calm Resting AxisEvent (d.setBit (PWM_FLT a) n) (release a n d) :=
    (calm_cancelLoad ha _).trans (calm_setPat _ ha 0 0 0 0)
  exact ⟨(bit_congr (hrest.reg _ (resting_flt ha)) n).trans (bit_setBit_same d _ hn),
    hset.trans (hrest.mono (fun _ => And.left) fun _ => id)⟩

theorem calm_releasedState (d : Dev) : Calm (RestingBut a) (EventBut a) d (releasedState a d) := by
  have h : Calm (RestingBut a) (EventBut a) d (d.onDtc a fun t => { t with revOn := false, revWaiting := false }) :=
    (Calm.refl _ _ d).onDtc a _
  unfold releasedState
  exact .ite (h.trans (calm_setAxState _ ha _)) (.ite (h.trans (calm_setAxState _ ha _)) h)

/-- The release of one axis while no peal runs. -/
theorem releaseAxis_spec (d : Dev) {n : Nat} (hn : n < 32) (hp : d.peal.running = false) :
    (releaseAxis n a d).bit (PWM_FLT a) n = true ∧ Calm (Unreleased [a]) (EventBut a) d (releaseAxis n a d) := by
  obtain ⟨hbit, hrel⟩ := release_spec ha d hn
  have hab := calm_strikeAbort (release a n d) a 12
  have hidle : pealAxisFault a (strikeAbort a 12 (release a n d)) = strikeAbort a 12 (release a n d) :=
    pealAxisFault_idle (by rw [hab.peal, hrel.peal, hp])
  rw [releaseAxis, hidle]
  have hst := calm_releasedState ha (strikeAbort a 12 (release a n d))
  have hflt : RestingBut a (PWM_FLT a) := ⟨resting_flt ha, by simp only [PWM_FLT, CU_STATE]; omega⟩
  refine ⟨?_, ?_⟩
  · exact (bit_congr ((hst.reg _ hflt).trans (hab.reg _ hflt.1)) n).trans hbit
  · have hE : ∀ k, EventBut a k → AxisEvent k := fun _ => And.left
    refine ((hrel.mono (fun r h => ⟨h.1, (h.2 a List.mem_cons_self).2⟩) hE).trans
      (hab.mono (fun r h => h.1) hE)).trans (hst.mono (fun r h => ⟨h.1, (h.2 a List.mem_cons_self).1⟩) fun _ => id)

end
/-- From `d` to `t` a bit is latched on every axis of a list, the registers their release leaves stay, and so does the
peal. -/
structure Released (n : Nat) (l : List Nat) (d t : Dev) : Prop extends Steady (Unreleased l) d t where
  peal : t.peal = d.peal
  bits : ∀ a ∈ l, t.bit (PWM_FLT a) n = true

/-- Releases one after the other, while no peal runs. -/
theorem released_each {n : Nat} {f : Nat → Dev → Dev} {l : List Nat} (hl : ∀ a ∈ l, a < 64)
    (hf : ∀ a ∈ l, ∀ d, d.peal.running = false → Released n [a] d (f a d)) :
    ∀ d : Dev, d.peal.running = false → Released n l d (d.each l f) := by
  induction l with
  | nil => exact fun d _ => { Steady.refl _ d with peal := rfl, bits := fun a ha => absurd ha List.not_mem_nil }
  | cons x l ih =>
    intro d hp
    have hx := hf x List.mem_cons_self d hp
    have hrest := ih (fun a ha => hl a (List.mem_cons_of_mem _ ha)) (fun a ha => hf a (List.mem_cons_of_mem _ ha)) (f x d)
      (by rw [hx.peal, hp])
    refine { (hx.toSteady.mono fun r h => ?_).trans (hrest.toSteady.mono fun r h => ?_) with
      peal := hrest.peal.trans hx.peal, bits := fun a ha => ?_ }
    · exact ⟨h.1, fun a ha => by rw [List.mem_singleton.1 ha]; exact h.2 x List.mem_cons_self⟩
    · exact ⟨h.1, fun a ha => h.2 a (List.mem_cons_of_mem _ ha)⟩
    · by_cases hal : a ∈ l
      · exact hrest.bits a hal
      · obtain rfl : a = x := (List.mem_cons.1 ha).resolve_right hal
        have hax := hl a List.mem_cons_self
        refine (bit_congr (hrest.reg _ ⟨resting_flt hax, fun b hb => ⟨?_, fun h => hal ?_⟩⟩) n).trans
          (hx.bits a List.mem_cons_self)
        · have := hl b (List.mem_cons_of_mem _ hb)
          simp only [PWM_FLT, CU_STATE, ne_eq]; omega
        · have : a = b := by simp only [PWM_FLT] at h; omega
          exact this ▸ hb

theorem released_releaseAxis {n : Nat} (hn : n < 32) {a : Nat} (ha : a < 64) (d : Dev) (hp : d.peal.running = false) :
    Released n [a] d (releaseAxis n a d) := by
  obtain ⟨hbit, hc⟩ := releaseAxis_spec ha d hn hp
  exact { hc.toSteady with peal := hc.peal, bits := fun b hb => by rw [List.mem_singleton.1 hb]; exact hbit }

/-- The restart set is hidden state of the safety sequencer. -/
theorem recordRestart_shape (a : Nat) (d : Dev) : ∃ q, recordRestart a d = { d with ssq := q } := by
  unfold recordRestart
  split
  · exact ⟨_, rfl⟩
  · exact ⟨d.ssq, rfl⟩

theorem released_knellAxis {a : Nat} (ha : a < 64) (d : Dev) (hp : d.peal.running = false) :
    Released 4 [a] d (knellAxis a d) := by
  obtain ⟨q, hq⟩ := recordRestart_shape a d
  have h := released_releaseAxis (n := 4) (by decide) ha { d with ssq := q } hp
  rw [show knellAxis a d = releaseAxis 4 a (recordRestart a d) from rfl, hq]
  exact { h.toSteady.from_hidden rfl rfl rfl with peal := h.peal, bits := h.bits }

/-! ### Knells (R299) -/

/-- The mask and the time of a knell are noted. -/
def knellNoted (m : Nat) (d : Dev) : Dev := (d.setMask64 SSQ_KMASK_LO SSQ_KMASK_HI m).put SSQ_KTS_T d.now

/-- The record of a knell: its mask, its time, and KNELL. -/
def knelled (m : Nat) (d : Dev) : Dev :=
  raiseLss 4 ((knellNoted m d).onSsq fun q => { q with kAt := some d.now })

theorem knellNoted_now (m : Nat) (d : Dev) : (knellNoted m d).now = d.now := by
  rw [knellNoted, put_now, Dev.setMask64, setReg_now, setReg_now]

theorem knell_eq {l : List Nat} (hl : l ≠ []) {d : Dev} (hk : d.ssq.kAt ≠ some d.now)
    (hn : (d.each l knellAxis).now = d.now) : knell l d = knelled (maskOf l) (d.each l knellAxis) := by
  have hnoted : (((d.each l knellAxis).setMask64 SSQ_KMASK_LO SSQ_KMASK_HI (maskOf l)).put SSQ_KTS_T d.now) =
      knellNoted (maskOf l) (d.each l knellAxis) := by rw [knellNoted, hn]
  unfold knell
  rw [if_neg hl]
  simp only [if_neg hk, Nat.or_zero, hnoted, knellNoted_now, hn, knelled]

/-- A raise of the safety sequencer's leaves what is neither a flag of its own nor an event. -/
theorem steady_raiseLss {n : Nat} (hn : n < 32) (d : Dev) :
    Calm (fun r => NoEvents r ∧ r ≠ LSS_EVT) (fun _ => False) d (raiseLss n d) :=
  (Calm.put d ⟨LSS_EVT, n, 1⟩ 1 (fun h => h.2 rfl) (.inr (show EVC_PEND 64 ≤ LSS_EVT by decide))).trans
    (.raise (by omega) (fun _ => And.left) id _)

section
variable (m : Nat) (d : Dev)

/-- The registers that noting the mask and the time of a knell leaves. -/
def Unnoted (r : Nat) : Prop := NoEvents r ∧ r ≠ SSQ_KMASK_LO ∧ r ≠ SSQ_KMASK_HI ∧ r ≠ SSQ_KTS

theorem steady_knellNoted : Steady Unnoted d (knellNoted m d) := by
  have hset : ∀ x (w : Word) (t : Dev), x = SSQ_KMASK_LO ∨ x = SSQ_KMASK_HI → Steady Unnoted t (t.setReg x w) :=
    fun x w t hx => .setReg t w (fun h => by obtain ⟨-, h1, h2, -⟩ := h; omega) (.inr (by rcases hx with rfl | rfl <;> decide))
  exact ((hset _ _ d (.inl rfl)).trans (hset _ _ _ (.inr rfl))).trans
    (.put _ SSQ_KTS_T _ (fun h => h.2.2.2 rfl) (.inr (by decide)))

/-- The event of a knell, from the block that noted it. -/
theorem steady_knellEvent (e : Dev) (f : SsqH → SsqH) :
    Steady (fun r => Unnoted r ∧ r ≠ LSS_EVT) e (raiseLss 4 (e.onSsq f)) := by
  have h : Steady (fun r => Unnoted r ∧ r ≠ LSS_EVT) (e.onSsq f) (raiseLss 4 (e.onSsq f)) :=
    (steady_raiseLss (n := 4) (by decide) (e.onSsq f)).toSteady.mono fun r hr => ⟨hr.1.1, hr.2⟩
  exact h.from_hidden rfl rfl rfl

theorem steady_knelled : Steady (fun r => Unnoted r ∧ r ≠ LSS_EVT) d (knelled m d) :=
  ((steady_knellNoted m d).mono fun _ => And.left).trans (steady_knellEvent _ _)

theorem knelled_records (hm : m < 2 ^ 64) : (knelled m d).mask64 SSQ_KMASK_LO SSQ_KMASK_HI = m ∧
    (knelled m d).get SSQ_KTS_T = d.now % 2 ^ 32 ∧ (knelled m d).pend 900 = true := by
  have hreg : ∀ r, r = SSQ_KMASK_LO ∨ r = SSQ_KMASK_HI ∨ r = SSQ_KTS → (knelled m d).reg r = (knellNoted m d).reg r :=
    fun r hr => by
      have hrest : NoEvents r ∧ r ≠ LSS_EVT := by rcases hr with rfl | rfl | rfl <;> exact ⟨.inr (by decide), by decide⟩
      rw [knelled, (steady_raiseLss (n := 4) (by decide) _).reg r hrest, onSsq_reg]
  refine ⟨?_, ?_, pend_raise_same (by decide) _⟩
  · have hput : ∀ r, r ≠ SSQ_KTS → (knellNoted m d).reg r = (d.setMask64 SSQ_KMASK_LO SSQ_KMASK_HI m).reg r := fun r hr =>
      reg_put_ne _ SSQ_KTS_T _ hr
    rw [Dev.mask64, hreg _ (.inl rfl), hreg _ (.inr (.inl rfl)), hput _ (by decide), hput _ (by decide), ← Dev.mask64]
    exact mask64_setMask64 d (lo := SSQ_KMASK_LO) (hi := SSQ_KMASK_HI) hm (by decide)
  · have hget : (knelled m d).get SSQ_KTS_T = (knellNoted m d).get SSQ_KTS_T :=
      congrArg (fun w => wordGet w 0 32) (hreg SSQ_KTS (.inr (.inr rfl)))
    rw [hget, knellNoted]
    exact get_put_same _ SSQ_KTS_T d.now (by decide)

end

/-- A knell of a list of axes, the first of its cycle, while no peal runs. -/
theorem knell_spec {l : List Nat} {d : Dev} (hl : ∀ a ∈ l, a < 64) (hne : l ≠ []) (hk : d.ssq.kAt ≠ some d.now)
    (hp : d.peal.running = false) : (∀ a ∈ l, (knell l d).bit (PWM_FLT a) 4 = true) ∧
      Steady (fun r => Unreleased l r ∧ Unnoted r ∧ r ≠ LSS_EVT) d (knell l d) ∧
      ∃ e, e.now = d.now ∧ knell l d = knelled (maskOf l) e := by
  have hr := released_each (n := 4) hl (fun a ha d hp => released_knellAxis (hl a ha) d hp) d hp
  have hs := steady_knelled (maskOf l) (d.each l knellAxis)
  rw [knell_eq hne hk hr.now]
  refine ⟨fun a ha => ?_, (hr.toSteady.mono fun _ h => h.1).trans (hs.mono fun _ h => h.2), _, hr.now, rfl⟩
  have ha64 := hl a ha
  refine (bit_congr (hs.reg _ ?_) 4).trans (hr.bits a ha)
  refine ⟨⟨.inr ?_, ?_, ?_, ?_⟩, ?_⟩ <;>
    simp only [PWM_FLT, EVC_PEND, SSQ_KMASK_LO, SSQ_KMASK_HI, SSQ_KTS, LSS_EVT] <;> omega

/-- The axes outside the list: their states and their latches. -/
theorem knell_others {l : List Nat} {d t : Dev} (hl : ∀ a ∈ l, a < 64)
    (h : Steady (fun r => Unreleased l r ∧ Unnoted r ∧ r ≠ LSS_EVT) d t) {a : Nat} (ha : a < 64) (hal : a ∉ l) :
    t.bit (PWM_FLT a) 4 = d.bit (PWM_FLT a) 4 ∧ t.axSt a = d.axSt a := by
  have hflt : Unreleased l (PWM_FLT a) := ⟨resting_flt ha, fun b hb => by
    have hb64 := hl b hb
    refine ⟨by simp only [PWM_FLT, CU_STATE]; omega, fun h => hal ?_⟩
    have : a = b := by simp only [PWM_FLT] at h; omega
    exact this ▸ hb⟩
  have hstate : Unreleased l (CU_STATE a) :=
    ⟨by simp only [Resting, Working, CU_STATE]; omega, fun b hb => by
      have hb64 := hl b hb
      refine ⟨fun h => hal ?_, by simp only [PWM_FLT, CU_STATE]; omega⟩
      have : a = b := by simp only [CU_STATE] at h; omega
      exact this ▸ hb⟩
  have hfar : ∀ r, 0x40200000 ≤ r → Unnoted r ∧ r ≠ LSS_EVT := fun r hr => by
    simp only [Unnoted, NoEvents, EVC_PEND, SSQ_KMASK_LO, SSQ_KMASK_HI, SSQ_KTS, LSS_EVT]; omega
  exact ⟨bit_congr (h.reg _ ⟨hflt, hfar _ (by simp only [PWM_FLT]; omega)⟩) 4,
    h.axSt ⟨hstate, hfar _ (by simp only [CU_STATE]; omega)⟩⟩

/-- The registers of the system block below the events and those of the roles of the pairs are left by a knell. -/
theorem unknelled_low {l : List Nat} {r : Nat}
    (hr : r < EVC_PEND 0 ∨ EVC_PEND 64 ≤ r ∧ r < LSS_EVT) : Unreleased l r ∧ Unnoted r ∧ r ≠ LSS_EVT := by
  have hlt : r < LSS_EVT := hr.elim (fun h => Nat.lt_trans h (by decide)) And.right
  refine ⟨⟨?_, fun a ha => ?_⟩, ⟨hr.imp_right And.left, ?_⟩, Nat.ne_of_lt hlt⟩
  · simp only [EVC_PEND, LSS_EVT, Resting, Working] at *; omega
  · simp only [LSS_EVT, CU_STATE, PWM_FLT] at *; omega
  · simp only [LSS_EVT, SSQ_KMASK_LO, SSQ_KMASK_HI, SSQ_KTS] at *; omega

section
variable (s : State)

theorem watchdogKick_restarts (p : Fin 5) {k : Nat} (hl : s.dev.sys.logicOn = true)
    (hk : tget none s.dev.ssq.kicks p = some k) :
    Does (.watchdogKick (.pair p)) s fun t => tget none t.ssq.kicks p = some s.dev.now ∧ (∀ q : Fin 5, q ≠ p → tget
          none t.ssq.kicks q = tget none s.dev.ssq.kicks q) ∧ t = { s.dev with ssq := t.ssq } := by
  refine does_onDev_of_eq (t := s.dev.onSsq fun q => { q with kicks := tset none q.kicks p (some s.dev.now) })
    (execWatchdogKick (.pair p)) rfl rfl hl ?_ ?_
  · have h : (tget none s.dev.ssq.kicks p).isSome = true := by rw [hk]; rfl
    simp only [kick, Dev.onSsq, h, if_true]
  · exact ⟨tget_tset_same none s.dev.ssq.kicks p (some s.dev.now),
      fun q hq => tget_tset_ne none none s.dev.ssq.kicks (some s.dev.now) (Fin.val_ne_of_ne hq), rfl⟩

/-- A write of the block by a pair that does not supervise is a bus error with SUB 6 (R315). -/
theorem asSup_traps {d : Dev} {p : Fin 5} (h : d.sup ≠ p.val) (hexl : ((d.pairOf p).cwGet 0).getLsbD 2 = false)
    (addr : Nat) (f : Dev → Dev) : Traps d (asSup (.pair p) addr f d) p 4 6 true false (w32 addr) := by
  rw [asSup, supRights_other h, if_neg (by decide)]
  exact busError_traps hexl 6 addr true

variable (m : Master) (h : Bool) (w : Word)

theorem knellRequest_knells (hl : s.dev.sys.logicOn = true) (hr : s.dev.supRights m = true) (hw : w ≠ 0)
    (hk : s.dev.ssq.kAt ≠ some s.dev.now) (hp : s.dev.peal.running = false) :
    Does (.knellRequest m h w) s fun t => (∀ a ∈ halfMask h w, t.bit (PWM_FLT a) 4 = true) ∧ (∀ a : Fin 64, a.val ∉
          halfMask h w → t.bit (PWM_FLT a) 4 = s.dev.bit (PWM_FLT a) 4 ∧ t.axSt a = s.dev.axSt a) ∧ (t.mask64
          SSQ_KMASK_LO SSQ_KMASK_HI = w.toNat * (if h then 2 ^ 32 else 1)) ∧ t.get SSQ_KTS_T = s.dev.now % 2 ^ 32 ∧
          t.pend 900 = true := by
  refine does_onDev_of_eq (t := knell (halfMask h w) s.dev) (execKnellRequest m h w) rfl rfl hl
    ((asSup_ok _ hr).trans (if_neg hw)) ?_
  obtain ⟨hbits, hs, e, hn, he⟩ := knell_spec (halfMask_lt h w) (halfMask_ne_nil h hw) hk hp
  refine ⟨hbits, fun a ha => knell_others (halfMask_lt h w) hs a.isLt ha, ?_⟩
  obtain ⟨h1, h2, h3⟩ := knelled_records (maskOf (halfMask h w)) e (by rw [maskOf_halfMask]; exact wholeMask_lt h w)
  rw [he]
  exact ⟨h1.trans (maskOf_halfMask h w), h2.trans (by rw [hn]), h3⟩

theorem knellRequest_traps (p : Fin 5) (hl : s.dev.sys.logicOn = true) (hsup : s.dev.sup ≠ p.val)
    (hexl : ((s.dev.pairOf p).cwGet 0).getLsbD 2 = false) :
    Does (.knellRequest (.pair p) h w) s fun t => (Traps s.dev t p 4 6 true false (w32 (if h then SSQ_KNELL_HI else
          SSQ_KNELL_LO))) :=
  does_onDev (execKnellRequest (.pair p) h w) rfl rfl hl (asSup_traps hsup hexl _ _)

end

/-! ### Holds (R311) -/

section
variable {d : Dev}

/-- The two words of SYS_AXSAFE. -/
def safeRegs : List Nat := [SYS_AXSAFE_LO, SYS_AXSAFE_HI]

theorem sameRegs_hold (a : Nat) (d : Dev) : sameRegs d (d.setBit64 SYS_AXSAFE_LO SYS_AXSAFE_HI a) safeRegs := by
  unfold Dev.setBit64
  split
  · exact sameRegs_put (sameRegs_refl d _) ⟨SYS_AXSAFE_LO, a, 1⟩ 1 List.mem_cons_self
  · exact sameRegs_put (sameRegs_refl d _) ⟨SYS_AXSAFE_HI, a - 32, 1⟩ 1 (List.mem_cons_of_mem _ List.mem_cons_self)

theorem sameRegs_holdSafe (l : List Nat) (d : Dev) : sameRegs d (holdSafe l d) safeRegs := sameRegs_each sameRegs_hold d

/-- Holding one axis safe. -/
theorem heldSafe_hold {a b : Nat} (ha : a < 64) (hb : b < 64) (d : Dev) :
    (d.setBit64 SYS_AXSAFE_LO SYS_AXSAFE_HI a).heldSafe b = (d.heldSafe b || decide (b = a)) := by
  by_cases hab : b = a
  · subst hab
    rw [decide_eq_true rfl, Bool.or_true, Dev.setBit64, Dev.heldSafe]
    split
    · exact bit_setBit_same d SYS_AXSAFE_LO ‹_›
    · exact bit_setBit_same d SYS_AXSAFE_HI (by omega)
  · rw [decide_eq_false hab, Bool.or_false, Dev.setBit64, Dev.heldSafe, Dev.heldSafe]
    have hlow : ∀ (x n r k : Nat), n < 32 → r ≠ x ∨ k ≠ n → (d.setBit x n).bit r k = d.bit r k := fun x n r k hn hne => by
      by_cases hx : r = x
      · rw [hx]; exact bit_setBit_other d x hn (hne.resolve_left (not_not_intro hx))
      · exact bit_congr (reg_put_ne d ⟨x, n, 1⟩ 1 hx) k
    have hne : SYS_AXSAFE_LO ≠ SYS_AXSAFE_HI := by decide
    split <;> split
    · exact hlow _ _ _ _ ‹_› (.inr hab)
    · exact hlow _ _ _ _ (by omega) (.inl hne)
    · exact hlow _ _ _ _ ‹_› (.inl hne.symm)
    · exact hlow _ _ _ _ (by omega) (.inr (by omega))

theorem heldSafe_holdSafe {l : List Nat} (hl : ∀ a ∈ l, a < 64) {b : Nat} (hb : b < 64) : ∀ d : Dev,
    (holdSafe l d).heldSafe b = (d.heldSafe b || decide (b ∈ l)) := by
  induction l with
  | nil => exact fun d => by simp [holdSafe, Dev.each]
  | cons x l ih =>
    intro d
    refine (ih (fun a ha => hl a (List.mem_cons_of_mem _ ha)) (d.setBit64 SYS_AXSAFE_LO SYS_AXSAFE_HI x)).trans ?_
    rw [heldSafe_hold (hl x List.mem_cons_self) hb, Bool.or_assoc]
    congr 1
    simp only [List.mem_cons, Bool.decide_or]

end

section
variable (s : State) (m : Master) (h : Bool) (w : Word)

theorem holdSafe_holds (hl : s.dev.sys.logicOn = true) (hr : s.dev.supRights m = true) (hw : w ≠ 0)
    (hk : s.dev.ssq.kAt ≠ some s.dev.now) (hp : s.dev.peal.running = false) :
    Does (.holdSafe m h w) s fun t => (∀ a ∈ halfMask h w, t.heldSafe a = true ∧ t.bit (PWM_FLT a) 4 = true) ∧ (∀ a
          : Fin 64, a.val ∉ halfMask h w → t.heldSafe a = s.dev.heldSafe a) ∧ (∀ a : Fin 64, t.host a = s.dev.host a) := by
  refine does_onDev_of_eq (t := Machine.holdSafe (halfMask h w) (knell (halfMask h w) s.dev)) (execHoldSafe m h w) rfl rfl hl
    ((asSup_ok _ hr).trans (if_neg hw)) ?_
  have hlt := halfMask_lt h w
  obtain ⟨hbits, hs, -⟩ := knell_spec hlt (halfMask_ne_nil h hw) hk hp
  have hregs := sameRegs_holdSafe (halfMask h w) (knell (halfMask h w) s.dev)
  have hheld : ∀ a < 64, (Machine.holdSafe (halfMask h w) (knell (halfMask h w) s.dev)).heldSafe a =
      (s.dev.heldSafe a || decide (a ∈ halfMask h w)) := fun a ha => by
    rw [heldSafe_holdSafe hlt ha]
    congr 1
    have hsafe : ∀ r ∈ safeRegs, (knell (halfMask h w) s.dev).reg r = s.dev.reg r := fun r hr => hs.reg r (by
      simp only [safeRegs, List.mem_cons, List.not_mem_nil, or_false] at hr
      exact unknelled_low (by rcases hr with rfl | rfl <;> decide))
    rw [Dev.heldSafe, Dev.heldSafe, bit_congr (hsafe SYS_AXSAFE_LO List.mem_cons_self),
      bit_congr (hsafe SYS_AXSAFE_HI (List.mem_cons_of_mem _ List.mem_cons_self))]
  refine ⟨fun a ha => ⟨?_, ?_⟩, fun a ha => ?_, fun a => ?_⟩
  · rw [hheld a (hlt a ha), decide_eq_true ha, Bool.or_true]
  · refine (bit_congr (hregs _ ?_) 4).trans (hbits a ha)
    simp only [safeRegs, List.mem_cons, List.not_mem_nil, or_false, PWM_FLT, SYS_AXSAFE_LO, SYS_AXSAFE_HI]
    omega
  · rw [hheld a a.isLt, decide_eq_false ha, Bool.or_false]
  · have hk : EVC_PEND 64 ≤ LSS_HOST (a / 8) ∧ LSS_HOST (a / 8) < LSS_EVT := by
      simp only [EVC_PEND, LSS_HOST, LSS_EVT]; omega
    have hhost := (hregs (LSS_HOST (a / 8)) (by
      simp only [safeRegs, List.mem_cons, List.not_mem_nil, or_false, LSS_HOST, SYS_AXSAFE_LO, SYS_AXSAFE_HI]
      omega)).trans (hs.reg _ (unknelled_low (.inr hk)))
    exact congrArg (fun r => wordGet r (4 * (a % 8)) 3) hhost

end

/-! ### The FAULT line (R46, R301) -/

/-- A repeated operation keeps what each of its steps keeps. -/
theorem each_keeps_mem {α : Type} {P : Dev → Prop} {l : List α} {f : α → Dev → Dev} (hf : ∀ x ∈ l, ∀ d, P d → P (f x d)) :
    ∀ d : Dev, P d → P (d.each l f) := by
  induction l with
  | nil => exact fun d h => h
  | cons x l ih =>
    exact fun d h => ih (fun y hy => hf y (List.mem_cons_of_mem _ hy)) (f x d) (hf x List.mem_cons_self d h)

theorem allAxes_lt : ∀ a ∈ allAxes, a < 64 := fun _ ha => List.mem_range.1 ha

/-- Every axis is released because the line fell, and FAULT_LINE is raised. -/
def lineReleased (d : Dev) : Dev := raiseLss 7 (d.each allAxes (releaseAxis 3))

theorem lineFell_low {d : Dev} (h : d.get FLT_STAT_LEVEL ≠ 0) : lineFell false d = d := if_pos (by simpa [Dev.on] using h)

theorem lineFell_high {d : Dev} (h : d.get FLT_STAT_LEVEL = 0) : lineFell false d = lineReleased (d.put FLT_STAT_LEVEL 1) := by
  rw [lineFell, if_neg (by simp [Dev.on, h])]
  rfl

/-- The registers of the line. -/
def LineReg (r : Nat) : Prop := r = FLT_STAT ∨ r = SSQ_LINE

theorem lineReleased_spec (d : Dev) (hp : d.peal.running = false) : (∀ r, LineReg r → (lineReleased d).reg r = d.reg r) ∧
    (lineReleased d).ssq = d.ssq ∧ (lineReleased d).pend 903 = true ∧
    ∀ a < 64, (lineReleased d).bit (PWM_FLT a) 3 = true := by
  have hr := released_each (n := 3) allAxes_lt
    (fun a ha d hp => released_releaseAxis (by decide) (allAxes_lt a ha) d hp) d hp
  have hssq : (d.each allAxes (releaseAxis 3)).ssq = d.ssq := by
    refine (each_keeps_mem (P := fun t => t.peal.running = false ∧ t.ssq = d.ssq) (fun a ha t ⟨hpt, hst⟩ => ?_) d ⟨hp, rfl⟩).2
    obtain ⟨-, hc⟩ := releaseAxis_spec (n := 3) (allAxes_lt a ha) t (by decide) hpt
    exact ⟨by rw [hc.peal, hpt], hc.ssq.trans hst⟩
  have hl := steady_raiseLss (n := 7) (by decide) (d.each allAxes (releaseAxis 3))
  rw [lineReleased]
  generalize d.each allAxes (releaseAxis 3) = e at *
  refine ⟨fun r h => ?_, hl.ssq.trans hssq, pend_raise_same (by decide) _, fun a ha => ?_⟩
  · have hrest : NoEvents r ∧ r ≠ LSS_EVT := by
      rcases h with rfl | rfl <;> exact ⟨.inr (by decide), by decide⟩
    refine (hl.reg r hrest).trans (hr.reg r ⟨?_, fun b hb => ?_⟩)
    · rcases h with rfl | rfl <;> simp only [Resting, Working, FLT_STAT, SSQ_LINE] <;> omega
    · have := allAxes_lt b hb
      rcases h with rfl | rfl <;> simp only [FLT_STAT, SSQ_LINE, CU_STATE, PWM_FLT] <;> omega
  · have hrest : NoEvents (PWM_FLT a) ∧ PWM_FLT a ≠ LSS_EVT := by
      simp only [NoEvents, EVC_PEND, PWM_FLT, LSS_EVT]; omega
    exact (bit_congr (hl.reg _ hrest) 3).trans (hr.bits a (List.mem_range.2 ha))

/-- The line is low: its level is 1, and when it fell every axis has LINE latched and FAULT_LINE is pending. -/
theorem lineFell_spec (d : Dev) (hp : d.peal.running = false) : (lineFell false d).get FLT_STAT_LEVEL = 1 ∧
    (∀ f : Fld, f.addr = FLT_STAT → apart FLT_STAT_LEVEL f = true → (lineFell false d).get f = d.get f) ∧
    (lineFell false d).get SSQ_LINE_ASSERT = d.get SSQ_LINE_ASSERT ∧
    (lineFell false d).ssq = d.ssq ∧ (d.get FLT_STAT_LEVEL = 0 → (lineFell false d).pend 903 = true ∧
      ∀ a < 64, (lineFell false d).bit (PWM_FLT a) 3 = true) := by
  by_cases h : d.get FLT_STAT_LEVEL = 0
  · obtain ⟨hreg, hssq, hpend, hbits⟩ := lineReleased_spec (d.put FLT_STAT_LEVEL 1) hp
    rw [lineFell_high h]
    refine ⟨?_, fun f hf hap => ?_, ?_, hssq, fun _ => ⟨hpend, hbits⟩⟩
    · exact (congrArg (fun w => wordGet w 0 1) (hreg FLT_STAT (.inl rfl))).trans (get_put_const d FLT_STAT_LEVEL 1 rfl)
    · exact (congrArg (fun w => wordGet w f.lo f.width) (hreg f.addr (.inl hf))).trans
        (get_put_apart d FLT_STAT_LEVEL f 1 hf hap)
    · exact (congrArg (fun w => wordGet w 0 1) (hreg SSQ_LINE (.inr rfl))).trans
        (get_put_ne d FLT_STAT_LEVEL SSQ_LINE_ASSERT 1 (by decide))
  · have hlt : d.get FLT_STAT_LEVEL < 2 := get_lt d FLT_STAT_LEVEL
    rw [lineFell_low h]
    exact ⟨by omega, fun _ _ _ => rfl, rfl, rfl, fun h0 => absurd h0 h⟩

/-- The module's own drive is read from SSQ_LINE, the mode and the sequencer. -/
theorem driving_congr {d t : Dev} (hq : t.ssq = d.ssq) (ha : t.get SSQ_LINE_ASSERT = d.get SSQ_LINE_ASSERT)
    (hm : t.get SYS_MODE_MODE = d.get SYS_MODE_MODE) : t.driving = d.driving := by
  rw [Dev.driving, Dev.driving, Dev.on, Dev.on, Dev.mode, Dev.mode, hq, ha, hm]

theorem driving_put_drive (d : Dev) (v : Nat) : (d.put FLT_STAT_DRIVE v).driving = d.driving :=
  driving_congr rfl (get_put_ne d FLT_STAT_DRIVE SSQ_LINE_ASSERT v (by decide))
    (get_put_ne d FLT_STAT_DRIVE SYS_MODE_MODE v (by decide))

theorem extLine_put (d : Dev) (f : Fld) (v : Nat) : (d.put f v).ssq.extLine = d.ssq.extLine := rfl

theorem extLine_dropRestart (d : Dev) : (dropRestart d).ssq.extLine = d.ssq.extLine := rfl

/-- The line nobody drives is high. -/
theorem lineUpdate_idle {d : Dev} (hd : d.driving = false) (hx : d.ssq.extLine = false) :
    lineUpdate false d = (d.put FLT_STAT_DRIVE 0).put FLT_STAT_LEVEL 0 := by
  simp only [lineUpdate, hd, driving_put_drive, extLine_put, hx, Bool.false_and, Bool.or_false, Bool.false_eq_true, if_false]

/-- The line the module drives falls. -/
theorem lineUpdate_driving {d : Dev} (hd : d.driving = true) :
    lineUpdate false d = lineFell false (d.put FLT_STAT_DRIVE 1) := by
  simp only [lineUpdate, hd, driving_put_drive, extLine_put, Bool.not_true, Bool.and_false, Bool.true_or,
    Bool.false_eq_true, if_false, if_true]

/-- A line that only another device drives falls, the drive is seen, and the restart set is discarded. -/
theorem lineUpdate_external {d : Dev} (hd : d.driving = false) (hx : d.ssq.extLine = true) :
    lineUpdate false d = lineFell false (dropRestart ((d.put FLT_STAT_DRIVE 0).put FLT_STAT_EXTSEEN 1)) := by
  simp only [lineUpdate, hd, driving_put_drive, extLine_put, extLine_dropRestart, hx, Bool.not_false, Bool.and_true,
    Bool.or_true, Bool.false_eq_true, if_false, if_true]

section
variable {d : Dev} (hpulse : d.ssq.pulseEnd = none) (hfail : d.ssq.xfail = false) (hm : d.mode ≠ .lockout)
include hpulse hfail hm

/-- Without a pulse, a failed cross-check or LOCKOUT the module drives the line by SSQ_LINE alone. -/
theorem driving_of_assert (hassert : d.get SSQ_LINE_ASSERT = 0) : d.driving = false := by
  rw [Dev.driving, hpulse, hfail, decide_eq_false hm, Dev.on, hassert]
  rfl

end

/-- An idle line: its flags, and the registers written. -/
theorem idleLine_spec (d : Dev) : ((d.put FLT_STAT_DRIVE 0).put FLT_STAT_LEVEL 0).get FLT_STAT_DRIVE = 0 ∧
    ((d.put FLT_STAT_DRIVE 0).put FLT_STAT_LEVEL 0).get FLT_STAT_LEVEL = 0 ∧
    sameRegs d ((d.put FLT_STAT_DRIVE 0).put FLT_STAT_LEVEL 0) [FLT_STAT] :=
  ⟨(get_put_apart (d.put FLT_STAT_DRIVE 0) FLT_STAT_LEVEL FLT_STAT_DRIVE 0 rfl rfl).trans
      (get_put_const d FLT_STAT_DRIVE 0 rfl),
    get_put_const (d.put FLT_STAT_DRIVE 0) FLT_STAT_LEVEL 0 rfl,
    sameRegs_put (sameRegs_put (sameRegs_refl d _) FLT_STAT_DRIVE 0 List.mem_cons_self) FLT_STAT_LEVEL 0 List.mem_cons_self⟩

section
variable (s : State) (m : Master)

theorem lineAssertWrite_asserts (hl : s.dev.sys.logicOn = true) (hr : s.dev.supRights m = true)
    (hp : s.dev.peal.running = false) :
    Does (.lineAssertWrite m true) s fun t => t.get SSQ_LINE_ASSERT = 1 ∧ t.get FLT_STAT_DRIVE = 1 ∧ t.get
          FLT_STAT_LEVEL = 1 ∧ t.ssq.restart = [] ∧ (s.dev.get FLT_STAT_LEVEL = 0 → ∀ a : Fin 64, t.bit (PWM_FLT a) 3
          = true) := by
  refine does_onDev_of_eq (execLineAssertWrite m true) rfl rfl hl (asSup_ok _ hr) ?_
  have hassert : (dropRestart (s.dev.put SSQ_LINE_ASSERT 1)).get SSQ_LINE_ASSERT = 1 :=
    get_put_const s.dev SSQ_LINE_ASSERT 1 rfl
  have hlevel : (dropRestart (s.dev.put SSQ_LINE_ASSERT 1)).get FLT_STAT_LEVEL = s.dev.get FLT_STAT_LEVEL :=
    get_put_ne s.dev SSQ_LINE_ASSERT FLT_STAT_LEVEL 1 (by decide)
  have hrestart : (dropRestart (s.dev.put SSQ_LINE_ASSERT 1)).ssq.restart = [] := rfl
  have hpeal : (dropRestart (s.dev.put SSQ_LINE_ASSERT 1)).peal.running = false := hp
  have he : writeLine true s.dev = lineUpdate false (dropRestart (s.dev.put SSQ_LINE_ASSERT 1)) := rfl
  rw [he]
  generalize dropRestart (s.dev.put SSQ_LINE_ASSERT 1) = e at *
  have hdrive : e.driving = true := by rw [Dev.driving, Dev.on, hassert]; simp
  rw [lineUpdate_driving hdrive]
  obtain ⟨h1, h2, hline, h3, h4⟩ := lineFell_spec (e.put FLT_STAT_DRIVE 1) hpeal
  refine ⟨?_, ?_, h1, by rw [h3]; exact hrestart, fun h0 a => (h4 ?_).2 a a.isLt⟩
  · exact hline.trans ((get_put_ne e FLT_STAT_DRIVE SSQ_LINE_ASSERT 1 (by decide)).trans hassert)
  · exact (h2 FLT_STAT_DRIVE rfl rfl).trans (get_put_const e FLT_STAT_DRIVE 1 rfl)
  · exact (get_put_apart e FLT_STAT_DRIVE FLT_STAT_LEVEL 1 rfl rfl).trans (hlevel.trans h0)

theorem lineAssertWrite_releases (hl : s.dev.sys.logicOn = true) (hr : s.dev.supRights m = true)
    (hpulse : s.dev.ssq.pulseEnd = none) (hfail : s.dev.ssq.xfail = false) (hm : s.dev.mode ≠ .lockout)
    (hx : s.dev.ssq.extLine = false) :
    Does (.lineAssertWrite m false) s fun t => t.get SSQ_LINE_ASSERT = 0 ∧ t.get FLT_STAT_DRIVE = 0 ∧ t.get
          FLT_STAT_LEVEL = 0 ∧ t = { s.dev with regs := t.regs } ∧ sameRegs s.dev t ([SSQ_LINE, FLT_STAT]) := by
  have hassert := get_put_const s.dev SSQ_LINE_ASSERT 0 rfl
  have hmode : (s.dev.put SSQ_LINE_ASSERT 0).mode = s.dev.mode :=
    congrArg (fun v => (Mode.ofCode v).getD .selftest) (get_put_ne s.dev SSQ_LINE_ASSERT SYS_MODE_MODE 0 (by decide))
  have hd := driving_of_assert (d := s.dev.put SSQ_LINE_ASSERT 0) hpulse hfail (by rw [hmode]; exact hm) hassert
  have he : writeLine false s.dev = lineUpdate false (s.dev.put SSQ_LINE_ASSERT 0) := rfl
  refine does_onDev_of_eq (execLineAssertWrite m false) rfl rfl hl
    ((asSup_ok _ hr).trans (he.trans (lineUpdate_idle hd hx))) ?_
  obtain ⟨h1, h2, h3⟩ := idleLine_spec (s.dev.put SSQ_LINE_ASSERT 0)
  refine ⟨(congrArg (fun w => wordGet w 0 1) (h3 SSQ_LINE (by decide))).trans hassert, h1, h2, rfl, ?_⟩
  refine sameRegs_trans (sameRegs_put (sameRegs_refl _ _) SSQ_LINE_ASSERT 0 List.mem_cons_self) fun r hr => h3 r fun h => hr ?_
  rw [List.mem_singleton.1 h]
  exact List.mem_cons_of_mem _ List.mem_cons_self

theorem faultPulseEnd_releases {k : Nat} (hl : s.dev.sys.logicOn = true) (hk : s.dev.ssq.pulseEnd = some k)
    (ht : k ≤ s.dev.now) (hassert : s.dev.get SSQ_LINE_ASSERT = 0) (hfail : s.dev.ssq.xfail = false)
    (hm : s.dev.mode ≠ .lockout) (hx : s.dev.ssq.extLine = false) :
    Does (.faultPulseEnd) s fun t => t.ssq.pulseEnd = none ∧ t.get FLT_STAT_DRIVE = 0 ∧ t.get FLT_STAT_LEVEL = 0 ∧ t
          = { s.dev with regs := t.regs, ssq := t.ssq } ∧ sameRegs s.dev t ([FLT_STAT]) := by
  have hd := driving_of_assert (d := s.dev.onSsq fun q => { q with pulseEnd := none }) rfl hfail hm hassert
  refine does_onDev_of_eq (t := ((s.dev.onSsq fun q => { q with pulseEnd := none }).put FLT_STAT_DRIVE 0).put
    FLT_STAT_LEVEL 0) execFaultPulseEnd rfl rfl hl ?_ ?_
  · simp only [hk, ht, if_true]
    exact lineUpdate_idle hd hx
  · obtain ⟨h1, h2, h3⟩ := idleLine_spec (s.dev.onSsq fun q => { q with pulseEnd := none })
    exact ⟨rfl, h1, h2, rfl, h3⟩

theorem faultLineAssert_falls (hl : s.dev.sys.logicOn = true) (hlevel : s.dev.get FLT_STAT_LEVEL = 0)
    (hpulse : s.dev.ssq.pulseEnd = none) (hassert : s.dev.get SSQ_LINE_ASSERT = 0) (hfail : s.dev.ssq.xfail = false)
    (hm : s.dev.mode ≠ .lockout) (hp : s.dev.peal.running = false) :
    Does (.faultLineAssert) s fun t => t.get FLT_STAT_EXTSEEN = 1 ∧ t.get FLT_STAT_LEVEL = 1 ∧ t.ssq.extLine = true
          ∧ t.ssq.restart = [] ∧ t.pend 903 = true ∧ (∀ a : Fin 64, t.bit (PWM_FLT a) 3 = true) := by
  have hd := driving_of_assert (d := s.dev.onSsq fun q => { q with extLine := true }) hpulse hfail hm hassert
  refine does_onDev_of_eq execFaultLineAssert rfl rfl hl (lineUpdate_external hd rfl) ?_
  have hlevel' : (s.dev.onSsq fun q => { q with extLine := true }).get FLT_STAT_LEVEL = 0 := hlevel
  have hpeal : (s.dev.onSsq fun q => { q with extLine := true }).peal.running = false := hp
  have hext : (s.dev.onSsq fun q => { q with extLine := true }).ssq.extLine = true := rfl
  generalize (s.dev.onSsq fun q => { q with extLine := true }) = e at *
  obtain ⟨h1, h2, -, h3, h4⟩ := lineFell_spec (dropRestart ((e.put FLT_STAT_DRIVE 0).put FLT_STAT_EXTSEEN 1)) hpeal
  have hlow : (dropRestart ((e.put FLT_STAT_DRIVE 0).put FLT_STAT_EXTSEEN 1)).get FLT_STAT_LEVEL = 0 :=
    (get_put_apart (e.put FLT_STAT_DRIVE 0) FLT_STAT_EXTSEEN FLT_STAT_LEVEL 1 rfl rfl).trans
      ((get_put_apart e FLT_STAT_DRIVE FLT_STAT_LEVEL 0 rfl rfl).trans hlevel')
  obtain ⟨h5, h6⟩ := h4 hlow
  refine ⟨?_, h1, by rw [h3]; exact hext, by rw [h3]; rfl, h5, fun a => h6 a a.isLt⟩
  exact (h2 FLT_STAT_EXTSEEN rfl rfl).trans (get_put_const (e.put FLT_STAT_DRIVE 0) FLT_STAT_EXTSEEN 1 rfl)

theorem faultLineRelease_rises (hl : s.dev.sys.logicOn = true) (hpulse : s.dev.ssq.pulseEnd = none)
    (hassert : s.dev.get SSQ_LINE_ASSERT = 0) (hfail : s.dev.ssq.xfail = false) (hm : s.dev.mode ≠ .lockout) :
    Does (.faultLineRelease) s fun t => t.ssq.extLine = false ∧ t.get FLT_STAT_LEVEL = 0 ∧ t.get FLT_STAT_DRIVE = 0
          ∧ t = { s.dev with regs := t.regs, ssq := t.ssq } ∧ sameRegs s.dev t ([FLT_STAT]) := by
  have hd := driving_of_assert (d := s.dev.onSsq fun q => { q with extLine := false }) hpulse hfail hm hassert
  refine does_onDev_of_eq execFaultLineRelease rfl rfl hl (lineUpdate_idle hd rfl) ?_
  obtain ⟨h1, h2, h3⟩ := idleLine_spec (s.dev.onSsq fun q => { q with extLine := false })
  exact ⟨rfl, h2, h1, rfl, h3⟩

end

/-- Settles O35: one lemma per command of the sequencer and the line. -/
theorem knellsAndLine : Obligations.KnellsAndLine :=
  ⟨fun s p _ hl hk => watchdogKick_restarts s p hl hk,
    fun s m h w hl hr hw hk hp => knellRequest_knells s m h w hl hr hw hk hp,
    fun s p h w hl hsup hexl => knellRequest_traps s h w p hl hsup hexl,
    fun s m h w hl hr hw hk hp => holdSafe_holds s m h w hl hr hw hk hp,
    fun s m hl hr hp => lineAssertWrite_asserts s m hl hr hp,
    fun s m hl hr hpulse hfail hm hx => lineAssertWrite_releases s m hl hr hpulse hfail hm hx,
    fun s _ hl hk ht hassert hfail hm hx => faultPulseEnd_releases s hl hk ht hassert hfail hm hx,
    fun s hl hlevel hpulse hassert hfail hm hp => faultLineAssert_falls s hl hlevel hpulse hassert hfail hm hp,
    fun s hl hpulse hassert hfail hm => faultLineRelease_rises s hl hpulse hassert hfail hm⟩

end Sys2Proof.Proofs
end

section
namespace Sys2Proof.Proofs
open Sys2Proof Sys2Proof.Machine Sys2Proof.Laws Reg

/-! SUPPORT. The ends of a control message (R388 to R391): carried out with its record, refused by what it asks for, not
held, ill-formed. -/

/-! ### Records and the rest of the journal -/

/-- A submission appends to the queue, and leaves the images. -/
theorem submitRec_keeps (from_ : Option Nat) (r : JRec) (b e : Bool) (d : Dev) :
    (∀ q ∈ d.jnl.queue, q ∈ (submitRec from_ r b e d).jnl.queue) ∧
      (submitRec from_ r b e d).jnl.img = d.jnl.img ∧ (submitRec from_ r b e d).jnl.imgSt = d.jnl.imgSt := by
  unfold submitRec
  extract_lets code d1
  obtain ⟨rg, ev, h⟩ : ∃ rg ev, d1 = { d with regs := rg, evs := ev } := refused_shape from_ code d
  clear_value d1 code
  subst h
  split
  · exact ⟨fun q hq => List.mem_append_left _ hq, rfl, rfl⟩
  · split
    · obtain ⟨rg', ev', h⟩ := raiseJnl_shape 1 (controllerRec { typ := 20, slot := r.slot }
        (Dev.onJnl { d with regs := rg, evs := ev } fun j => { j with
          quota := tset (0, 0) j.quota r.slot (d.minute, d.quotaUsed r.slot + 65536) }))
      rw [h]
      exact ⟨fun q hq => List.mem_append_left _ hq, rfl, rfl⟩
    · exact ⟨fun q hq => hq, rfl, rfl⟩

/-- An accepted submission queues its record with its time and pair. -/
theorem mem_submitRec {r : JRec} {b e : Bool} {d : Dev} (from_ : Option Nat) (h : submitCode r b e d = 0) :
    ∃ q ∈ (submitRec from_ r b e d).jnl.queue, q.body = { r with time := d.now, pair := from_.getD 15 } := by
  unfold submitRec
  rw [h]
  exact ⟨_, List.mem_append_right _ List.mem_cons_self, rfl⟩

/-! ### The ends of a message -/

section
variable {d e : Dev} {z v : Nat} {h : Ctl} {m : Msg} {need : Nat → Dev → Nat} {act : Action} {mem mem' : List Host.Cell}

/-- The block `e` after the action of a message carried out in block `d`, with its record and its response. -/
def done (z : Nat) (h : Ctl) (m : Msg) (v : Nat) (d e : Dev) : Dev :=
  settle z h m 0 v (submitRec (some e.sup) (msgRec 1 z h m (ready d z h)) false false e)

/-- A message that is carried out (R391). -/
theorem control_done (hx : d.expects h m.op m.axis m.arg z) (hw : m.wellFormed = true) (hr : m.recorded = true)
    (hn : need z (ready d z h) = 0) (ha : act z (ready d z h, mem) = (0, v, (e, mem'))) :
    Machine.control h m need act (d, mem) = (done z h m v d e, mem') := by
  rw [control_expected hx, carryOut]
  simp only [hw, hn, hr, ready_accepts hx m, ha, Bool.not_true, Bool.false_eq_true, if_false, if_true, ne_eq,
    not_true_eq_false]
  rfl

/-- A message whose action is refused leaves no record (R391). -/
theorem control_declined (hx : d.expects h m.op m.axis m.arg z) (hw : m.wellFormed = true) (hr : m.recorded = true)
    (hn : need z (ready d z h) = 0) {st : Nat} (hst : st ≠ 0) (ha : act z (ready d z h, mem) = (st, v, (e, mem'))) :
    Machine.control h m need act (d, mem) = (settle z h m st v e, mem') := by
  rw [control_expected hx, carryOut]
  simp only [hw, hn, hr, ready_accepts hx m, ha, hst, Bool.not_true, Bool.false_eq_true, if_false, ne_eq,
    not_true_eq_false]
  rfl

/-- A message that asks for an axis or the device claim its sender does not hold (R29, R391). -/
theorem control_unheld (hx : d.expects h m.op m.axis m.arg z) (hw : m.wellFormed = true)
    (hn : need z (ready d z h) = 4) :
    Machine.control h m need act (d, mem) = (settle z h m 4 0 (msgJournal 2 z h m (ready d z h)), mem) := by
  rw [control_expected hx, carryOut_refused hw hn (by decide)]
  rfl

/-- A message out of range (R390). -/
theorem control_illFormed (hx : d.expects h m.op m.axis m.arg z) (hw : m.wellFormed = false) :
    Machine.control h m need act (d, mem) = (settle z h m 9 0 (ready d z h), mem) := by
  rw [control_expected hx, carryOut, hw]
  rfl

/-! ### What they leave -/

/-- The next SEQ is expected of a slot in use (R388). -/
theorem expect_settle (st : Nat) (hu : (e.clientOf z).used = true) :
    ((settle z h m st v e).clientOf z).expect = (h.seq.val + 1) % 256 := by rw [clientOf_settle m st v hu]

theorem settle_regs (st : Nat) (e : Dev) : (settle z h m st v e).regs = e.regs := rfl

theorem settle_reg (st : Nat) (e : Dev) (r : Nat) : (settle z h m st v e).reg r = e.reg r := by
  rw [Dev.reg, settle_regs, Dev.reg]

theorem settle_get (st : Nat) (e : Dev) (f : Fld) : (settle z h m st v e).get f = e.get f :=
  congrArg (fun w => wordGet w f.lo f.width) (settle_reg st e f.addr)

theorem settle_jnl (st : Nat) (e : Dev) : (settle z h m st v e).jnl = e.jnl := rfl

/-- A slot that was open stays in use while its message waits. -/
theorem used_ready (hx : d.expects h m.op m.axis m.arg z) : ((ready d z h).clientOf z).used = true := ready_used h hx

theorem clients_submitRec (from_ : Option Nat) (r : JRec) (b c : Bool) (e : Dev) :
    (submitRec from_ r b c e).clients = e.clients := by
  obtain ⟨rg, j, ev, hs⟩ := submitRec_shape from_ r b c e
  rw [hs]

theorem done_answers (d e : Dev) : (done z h m v d e).answers h m.op m.axis 0 v := reply_settle 0

theorem done_expect (hu : (e.clientOf z).used = true) :
    ((done z h m v d e).clientOf z).expect = (h.seq.val + 1) % 256 :=
  expect_settle 0 (by rw [Dev.clientOf, clients_submitRec]; exact hu)

theorem calm_settle {K E : Nat → Prop} (st : Nat) (e : Dev) : Calm K E e (settle z h m st v e) :=
  .of_hidden rfl rfl rfl rfl rfl fun _ => rfl

theorem calm_ready {K E : Nat → Prop} (d : Dev) : Calm K E d (ready d z h) := by
  obtain ⟨cl, he⟩ := ready_shape d z h
  rw [he]
  exact .of_hidden rfl rfl rfl rfl rfl fun _ => rfl

/-- A record of a message leaves all registers and events but the journal's. -/
theorem calm_record (r : JRec) (e : Dev) : Calm Unjournalled AxisEvent e (submitRec (some e.sup) r false false e) :=
  calm_submitRec e r false false fun _ hp => Option.some.inj hp ▸ sup_lt e

/-- What a message leaves of the block after its action: all registers and events but the journal's. -/
theorem calm_done (d e : Dev) : Calm Unjournalled AxisEvent e (done z h m v d e) :=
  (calm_record _ e).trans (calm_settle 0 _)

theorem done_shape (d e : Dev) : ∃ rg j ev cl rp, done z h m v d e =
    { e with regs := rg, jnl := j, evs := ev, clients := cl, reply := rp } := by
  obtain ⟨rg, j, ev, hs⟩ := submitRec_shape (some e.sup) (msgRec 1 z h m (ready d z h)) false false e
  rw [done, hs]
  exact ⟨rg, j, ev, _, _, rfl⟩

/-- Records queued and images stay with a message's own record. -/
theorem done_keeps (d e : Dev) : (∀ q ∈ e.jnl.queue, q ∈ (done z h m v d e).jnl.queue) ∧
    (done z h m v d e).jnl.img = e.jnl.img ∧ (done z h m v d e).jnl.imgSt = e.jnl.imgSt :=
  submitRec_keeps (some e.sup) (msgRec 1 z h m (ready d z h)) false false e

/-- A message whose action leaves the journal, the registers and the time has its record accepted. -/
theorem done_accepted (hx : d.expects h m.op m.axis m.arg z) (hj : e.jnl = d.jnl) (hreg : e.regs = d.regs)
    (hnow : e.now = d.now) : ∃ j cl rp, done z h m v d e = { e with jnl := j, clients := cl, reply := rp } := by
  obtain ⟨-, -, -, -, -, -, hacc⟩ := hx
  obtain ⟨j, hsub, -⟩ := submitRec_accepted (some e.sup) (r := msgRec 1 z h m (ready d z h)) (b := false) (e := false)
    (submitCode_eq_zero rfl rfl hacc hj hreg hnow)
  rw [done, hsub]
  exact ⟨j, _, _, rfl⟩

/-- What a settled message leaves of the block after its action. -/
theorem settled_shape (st : Nat) : ∃ cl rp, settle z h m st v (ready d z h) = { d with clients := cl, reply := rp } := by
  obtain ⟨cl, he⟩ := ready_shape d z h
  rw [he]
  exact ⟨_, _, rfl⟩

/-- A message that asks for what its sender does not hold does nothing but its record. -/
theorem unheld_shape (d : Dev) : ∃ rg cl rp j ev, settle z h m 4 0 (msgJournal 2 z h m (ready d z h)) =
    { d with regs := rg, clients := cl, reply := rp, jnl := j, evs := ev } := by
  obtain ⟨rg, j, ev, hj⟩ := submitRec_shape (some (ready d z h).sup) (msgRec 2 z h m (ready d z h)) false false (ready d z h)
  rw [msgJournal, hj]
  obtain ⟨cl, he⟩ := ready_shape d z h
  rw [he]
  exact ⟨rg, _, _, j, ev, rfl⟩

/-- It leaves all registers and events but the journal's. -/
theorem calm_unheld (d : Dev) : Calm Unjournalled AxisEvent d (settle z h m 4 0 (msgJournal 2 z h m (ready d z h))) :=
  ((calm_ready d).trans (calm_record _ _)).trans (calm_settle 4 _)

theorem unheld_expect (hx : d.expects h m.op m.axis m.arg z) :
    ((settle z h m 4 0 (msgJournal 2 z h m (ready d z h))).clientOf z).expect = (h.seq.val + 1) % 256 :=
  expect_settle 4 (by rw [clientOf_msgJournal]; exact used_ready hx)

/-- The state register of an axis is outside the journal. -/
theorem unjournalled_state (a : Nat) : Unjournalled (CU_STATE a) := by
  simp only [Unjournalled, NoEvents, EVC_PEND, CU_STATE]; omega

end

end Sys2Proof.Proofs
end

section
namespace Sys2Proof.Proofs
open Sys2Proof Sys2Proof.Machine Sys2Proof.Laws Reg

/-! SUPPORT. What a client may have the device do (R390), message by message, and the statement (O46). -/

/-! ### Claims of a message -/

section
variable {d : Dev} {z x : Nat} {h : Ctl}

/-- The holder of the device claim may use it. -/
theorem needDevice_held (hc : d.devClaim = some z) : needDevice z (ready d z h) = 0 := by
  have hc' : (ready d z h).devClaim = some z := hc
  rw [needDevice, hc']
  exact if_pos rfl

theorem needDevice_unheld (hc : d.devClaim = none) : needDevice z (ready d z h) = 4 := by
  have hc' : (ready d z h).devClaim = none := hc
  rw [needDevice, hc']

/-- The holder of an axis may use it. -/
theorem needAxis_held (hx : x < 64) (hc : tget none d.claim x = some z) : needAxes [axisOf x] z (ready d z h) = 0 := by
  have hc' : tget none (ready d z h).claim x = some z := hc
  rw [axisOf, Nat.mod_eq_of_lt hx]
  simp [needAxes, hc']

theorem needAxis_unheld (hx : x < 64) (hc : tget none d.claim x = none) : needAxes [axisOf x] z (ready d z h) = 4 := by
  have hc' : tget none (ready d z h).claim x = none := hc
  rw [axisOf, Nat.mod_eq_of_lt hx]
  simp [needAxes, hc']

end

theorem clientOf_put (d : Dev) (f : Fld) (v z : Nat) : (d.put f v).clientOf z = d.clientOf z := rfl

theorem ready_reg (d : Dev) (z : Nat) (h : Ctl) (r : Nat) : (ready d z h).reg r = d.reg r :=
  (calm_ready (K := fun _ => True) (E := fun _ => False) d).reg r trivial

theorem ready_get (d : Dev) (z : Nat) (h : Ctl) (f : Fld) : (ready d z h).get f = d.get f :=
  congrArg (fun w => wordGet w f.lo f.width) (ready_reg d z h f.addr)

theorem ready_axSt (d : Dev) (z : Nat) (h : Ctl) (a : Nat) : (ready d z h).axSt a = d.axSt a :=
  congrArg AxState.ofCode (ready_get d z h _)

/-! ### AXCMD (R178, R390) -/

/-- An AXCMD as a message. -/
def axcmdMessage (h : Ctl) (x g : Nat) : Msg :=
  { op := 0x20, axis := x, arg := g, wellFormed := shortOnly h && plainAxis x && (cuCmdOf (g % 16)).isSome }

/-- What an AXCMD does at an axis. -/
def axcmdAct (x g : Nat) : Action := fun _ y =>
  match cuCmdOf (g % 16) with
  | some c =>
    let r := tryCmd (axisOf x) c (g / 128 % 2) y.1
    (if r.1 = 0 then 0 else 6, r.1, (r.2, y.2))
  | none => (9, 0, y)

section
variable (s : State) (h : Ctl) (x : Fin 256) (g : Fin 16777216) {z : Nat}

theorem execAxcmd_eq : execAxcmd h x g =
    onDM (Machine.control h (axcmdMessage h x g) (needAxes [axisOf x]) (axcmdAct x g)) := rfl

theorem axcmdAct_command {c : CuCmd} (hx : x.val < 64) (hc : cuCmdOf (g.val % 16) = some c) {d y : Dev} {r : Nat}
    (ht : tryCmd x c (g / 128 % 2) d = (r, y)) (mem : List Host.Cell) :
    axcmdAct x g z (d, mem) = (if r = 0 then 0 else 6, r, (y, mem)) := by
  rw [axcmdAct, hc, axisOf, Nat.mod_eq_of_lt hx]
  simp only [ht]

theorem axcmd_wellFormed (hsh : shortOnly h = true) (hx : x.val < 64) {c : CuCmd} (hc : cuCmdOf (g.val % 16) = some c) :
    (axcmdMessage h x g).wellFormed = true := by
  simp [axcmdMessage, hsh, plainAxis, hx, hc]

theorem axcmd_unheld (hl : s.dev.sys.logicOn = true) (hx : s.dev.expects h 32 x.val g.val z) (hsh : shortOnly h = true)
    (hx64 : x.val < 64) (hc : tget none s.dev.claim x = none) (h1 : 1 ≤ g.val % 16) (h5 : g.val % 16 ≤ 5) :
    Does (.axcmd h x g) s fun t => (∀ a : Fin 64, t.axSt a = s.dev.axSt a) ∧ t.answers h 32 x.val (4) (0) ∧
          (t.clientOf z).expect = (h.seq.val + 1) % 256 ∧ t =
          { s.dev with regs := t.regs, clients := t.clients, reply := t.reply, jnl := t.jnl, evs := t.evs } := by
  have hcmd : ∃ c, cuCmdOf (g.val % 16) = some c := by
    generalize g.val % 16 = k at h1 h5
    match k with
    | 1 | 2 | 3 | 4 | 5 => exact ⟨_, rfl⟩
  obtain ⟨c, hcmd⟩ := hcmd
  refine does_onDM (execAxcmd h x g) rfl (execAxcmd_eq h x g) hl
    (control_unheld (m := axcmdMessage h x g) hx (axcmd_wellFormed h x g hsh hx64 hcmd) (needAxis_unheld hx64 hc))
    ⟨fun a => (calm_unheld s.dev).axSt (unjournalled_state a), reply_settle 4, unheld_expect hx, ?_⟩
  obtain ⟨rg, cl, rp, j, ev, ht⟩ := unheld_shape (z := z) (h := h) (m := axcmdMessage h x g) s.dev
  rw [ht]

end

/-! ### The slots of clients under a change of an axis state -/

section
variable (d : Dev)

@[simp] theorem onSix_clients (a : Nat) (f : SixH → SixH) : (d.onSix a f).clients = d.clients := rfl
@[simp] theorem onDtc_clients (a : Nat) (f : DtcH → DtcH) : (d.onDtc a f).clients = d.clients := rfl
@[simp] theorem onSess_clients (i : Nat) (f : SessH → SessH) : (d.onSess i f).clients = d.clients := rfl
@[simp] theorem onPort_clients (a : Nat) (f : PortH → PortH) : (d.onPort a f).clients = d.clients := rfl

theorem raise_clients (n : Nat) : (raise n d).clients = d.clients := by rw [raise_shape]

theorem resetTrims_clients (a : Nat) : (resetTrims a d).clients = d.clients := by
  unfold resetTrims
  split
  · rfl
  · exact each_frame Dev.clients _ _ (fun _ _ => by rw [put_clients, put_clients]) d

theorem takeBond_clients (a : Nat) : (takeBond a d).clients = d.clients := by
  unfold takeBond
  extract_lets q w own keep new e0 e1
  split
  · rfl
  · rw [resetTrims_clients]
    exact each_frame Dev.clients _ _ (fun _ _ => setReg_clients _ _ _) e0

theorem sessionsOnState_clients (a : Nat) (st : AxState) : (sessionsOnState a st d).clients = d.clients := by
  refine each_frame Dev.clients _ _ (fun s t => ?_) d
  split
  · unfold sessAbort raiseScu
    split
    · rw [raise_clients, Dev.setBit, put_clients, onSess_clients, put_clients, put_clients]
    · rfl
  · rfl

theorem quiesce_clients (a : Nat) : (quiesce a d).clients = d.clients := by
  rw [quiesce, put_clients, put_clients, put_clients, onDtc_clients, onSix_clients, setPat, put_clients, put_clients,
    put_clients, put_clients]

/-- Without a hold a change of an axis state leaves the slots of the clients. -/
theorem setAxState_clients {a : Nat} (st : AxState) (hh : tget none d.holdEnd a = none) :
    (setAxState a st d).clients = d.clients := by
  unfold setAxState
  extract_lets old d1 d2 d3 d4 d5
  have h1 : d1.clients = d.clients ∧ d1.holdEnd = d.holdEnd := by
    simp only [d1]; split <;> simp only [takeBond_clients, takeBond_holdEnd, and_self]
  have h2 : d2.clients = d1.clients ∧ d2.holdEnd = d1.holdEnd := by
    simp only [d2]; split <;> simp only [resetTrims_clients, resetTrims_holdEnd, and_self]
  have h3 : d3.clients = d2.clients ∧ d3.holdEnd = d2.holdEnd := by
    simp only [d3, raiseAx, raise_clients, raise_holdEnd, put_clients, put_holdEnd, and_self]
  have h4 : d4.clients = d3.clients ∧ d4.holdEnd = d3.holdEnd :=
    ⟨(onPort_clients _ _ _).trans (sessionsOnState_clients d3 a st), (onPort_holdEnd _ _ _).trans (sessionsOnState_holdEnd d3 a st)⟩
  have h5 : d5 = d4 := if_neg (by rw [h4.2, h3.2, h2.2, h1.2, hh]; exact Bool.false_ne_true)
  have hall : d5.clients = d.clients := by rw [h5, h4.1, h3.1, h2.1, h1.1]
  split
  · rfl
  · split
    · exact hall
    · rw [quiesce_clients, hall]

end

section
variable (s : State) (h : Ctl) (x : Fin 256) (g : Fin 16777216) {z : Nat}

/-- COAST has no direction. -/
theorem tryCmd_coast_dir (a dir : Nat) (d : Dev) : tryCmd a .coast dir d = tryCmd a .coast 0 d := rfl

/-- COAST of a six-stepping axis without a hold that forms its own drive (R178). -/
theorem tryCmd_coast_spec (d : Dev) {a : Nat} (ha : a < 64) (hm : d.members a = [a]) (hst : d.axSt a = .sixstep)
    (hh : tget none d.holdEnd a = none) (dir : Nat) : ∃ y, tryCmd a .coast dir d = (0, y) ∧
      y.axSt a = (if d.turning a then .hiz else .off) ∧ y.clients = d.clients := by
  obtain ⟨f, hf⟩ := tryCmd_coast_sixstep d ha hm hst
  rw [Dev.restState, turning_put_refuse d ha, ← tryCmd_coast_dir a dir] at hf
  refine ⟨_, hf, ?_, ?_⟩
  · rw [axSt_put_refuse, axSt_setAxState_same _ ha]
  · rw [put_clients, setAxState_clients, onDtc_clients, put_clients]
    rw [onDtc_holdEnd, put_holdEnd, hh]

theorem ready_turning (d : Dev) (z : Nat) (h : Ctl) (a : Nat) : (ready d z h).turning a = d.turning a := by
  obtain ⟨cl, he⟩ := ready_shape d z h
  rw [he]
  rfl

theorem axcmd_coasts (hl : s.dev.sys.logicOn = true) (hx : s.dev.expects h 32 x.val g.val z) (hsh : shortOnly h = true)
    (hx64 : x.val < 64) (hc : tget none s.dev.claim x = some z) (hg : g.val % 16 = 3) (hm : s.dev.members x = [x.val])
    (hst : s.dev.axSt x = .sixstep) (hh : tget none s.dev.holdEnd x = none) :
    Does (.axcmd h x g) s fun t => (t.axSt x = (if s.dev.turning x then .hiz else .off)) ∧ t.answers h 32 x.val (0)
          (0) ∧ (t.clientOf z).expect = (h.seq.val + 1) % 256 := by
  have hcmd : cuCmdOf (g.val % 16) = some .coast := by rw [hg]; rfl
  obtain ⟨y, hy, hax, hcl⟩ := tryCmd_coast_spec (ready s.dev z h) hx64 hm hst hh (g / 128 % 2)
  rw [ready_turning] at hax
  refine does_onDM (t := done z h (axcmdMessage h x g) 0 s.dev y) (execAxcmd h x g) rfl (execAxcmd_eq h x g) hl
    (control_done (m := axcmdMessage h x g) hx (axcmd_wellFormed h x g hsh hx64 hcmd) rfl (needAxis_held hx64 hc)
      (axcmdAct_command x g hx64 hcmd hy s.mem))
    ⟨?_, done_answers (m := axcmdMessage h x g) s.dev _, done_expect ?_⟩
  · rw [(calm_done s.dev _).axSt (unjournalled_state _), hax]
  · rw [Dev.clientOf, hcl]
    exact used_ready (m := axcmdMessage h x g) hx

/-- The reasons of a refused START are read from the bonds, the sequencer and registers other than CU_STAT. -/
theorem startReason_put_refuse (d : Dev) {a : Nat} (ha : a < 64) (v : Nat) :
    (d.put (CU_STAT_REFUSE a) v).startReason a = d.startReason a := by
  have hget : ∀ f : Fld, f.addr ≠ CU_STAT a → (d.put (CU_STAT_REFUSE a) v).get f = d.get f := fun f hf =>
    get_put_ne d (CU_STAT_REFUSE a) f v hf
  have hon : ∀ f : Fld, f.addr ≠ CU_STAT a → (d.put (CU_STAT_REFUSE a) v).on f = d.on f := fun f hf => by
    rw [Dev.on, hget f hf, Dev.on]
  have hmode : (d.put (CU_STAT_REFUSE a) v).mode = d.mode := by
    rw [Dev.mode, hget SYS_MODE_MODE (by simp only [SYS_MODE_MODE, SYS_MODE, CU_STAT]; omega), Dev.mode]
  have hheld : (d.put (CU_STAT_REFUSE a) v).heldSafe a = d.heldSafe a := by
    rw [Dev.heldSafe, Dev.heldSafe, Dev.bit, Dev.bit, Dev.bit, Dev.bit,
      hon ⟨SYS_AXSAFE_LO, a, 1⟩ (by simp only [SYS_AXSAFE_LO, CU_STAT]; omega),
      hon ⟨SYS_AXSAFE_HI, a - 32, 1⟩ (by simp only [SYS_AXSAFE_HI, CU_STAT]; omega)]
  have hrel : (d.put (CU_STAT_REFUSE a) v).releasing a = d.releasing a := by
    rw [Dev.releasing, hget (CSL_STAT_STATE (a / 4)) (by simp only [CSL_STAT_STATE, CSL_STAT, CU_STAT]; omega), Dev.releasing]
  have hready : (d.put (CU_STAT_REFUSE a) v).rearmReady a = d.rearmReady a := by
    have hflt : ∀ m : Nat, (d.put (CU_STAT_REFUSE a) v).get ⟨PWM_FLT m, 0, 8⟩ = d.get ⟨PWM_FLT m, 0, 8⟩ := fun m =>
      hget ⟨PWM_FLT m, 0, 8⟩ (by simp only [PWM_FLT, CU_STAT]; omega)
    rw [Dev.rearmReady, members_put, hon FLT_STAT_LEVEL (by simp only [FLT_STAT_LEVEL, FLT_STAT, CU_STAT]; omega),
      hon (AC_STAT_REFBAD (a / 4)) (by simp only [AC_STAT_REFBAD, AC_STAT, CU_STAT]; omega), Dev.rearmReady]
    simp only [hflt]
  have hmig : (d.put (CU_STAT_REFUSE a) v).migrating a = d.migrating a := by rw [Dev.migrating, put_ssq, Dev.migrating]
  rw [Dev.startReason, axSt_put_refuse, hmode, hheld, hrel, hready, hmig, Dev.startReason,
    hget (CSL_PORT_ST (a / 4) (a % 4)) (by simp only [CSL_PORT_ST, CSL_PORT, CU_STAT]; omega),
    hon SYS_MODE_PEND (by simp only [SYS_MODE_PEND, SYS_MODE, CU_STAT]; omega)]

/-- The reasons are codes of four bits. -/
theorem startReason_lt (d : Dev) (a : Nat) : d.startReason a < 16 := by
  unfold Dev.startReason
  extract_lets st
  split_ifs <;> decide

/-- A START refused at an axis that forms its own drive leaves its reason in REFUSE (R178). -/
theorem tryCmd_start_refused (d : Dev) {a : Nat} (ha : a < 64) (hm : d.members a = [a]) (hoff : d.axSt a ≠ .off)
    (hr : 0 < d.startReason a) (dir : Nat) : tryCmd a .start dir d =
      (d.startReason a, (d.put (CU_STAT_REFUSE a) 0).put (CU_STAT_REFUSE a) (d.startReason a)) := by
  have hcmd : command .debug a .start dir (d.put (CU_STAT_REFUSE a) 0) =
      (d.put (CU_STAT_REFUSE a) 0).put (CU_STAT_REFUSE a) (d.startReason a) := by
    rw [command_single _ ((members_put d _ _ a).trans hm) (by rw [axSt_put_refuse]; exact hoff), doCmd, doStart,
      startReason_put_refuse d ha]
    exact if_pos (Nat.ne_of_gt hr)
  have hget := get_put_fits (d.put (CU_STAT_REFUSE a) 0) (CU_STAT_REFUSE a) rfl (startReason_lt d a)
  unfold tryCmd
  simp only [hcmd, hget, Nat.ne_of_gt hr, if_false]

theorem axcmd_startRefused (hl : s.dev.sys.logicOn = true) (hx : s.dev.expects h 32 x.val g.val z)
    (hsh : shortOnly h = true) (hx64 : x.val < 64) (hc : tget none s.dev.claim x = some z) (hg : g.val % 16 = 1)
    (hm : s.dev.members x = [x.val]) (hoff : s.dev.axSt x ≠ .off) (hr : 0 < s.dev.startReason x) :
    Does (.axcmd h x g) s fun t => t.axSt x = s.dev.axSt x ∧ t.answers h 32 x.val (6) (s.dev.startReason x) ∧
          (t.clientOf z).expect = (h.seq.val + 1) % 256 ∧ t.get (CU_STAT_REFUSE x) = s.dev.startReason x ∧ t =
          { s.dev with regs := t.regs, clients := t.clients, reply := t.reply } ∧ sameRegs s.dev t ([CU_STAT x.val]) := by
  have hcmd : cuCmdOf (g.val % 16) = some .start := by rw [hg]; rfl
  have hreason : (ready s.dev z h).startReason x = s.dev.startReason x := by
    obtain ⟨cl, he⟩ := ready_shape s.dev z h
    rw [he]
    rfl
  have hy := tryCmd_start_refused (ready s.dev z h) hx64 hm hoff (by rw [hreason]; exact hr) (g / 128 % 2)
  have hlt : s.dev.startReason x < 16 := startReason_lt s.dev x
  rw [hreason] at hy
  have hact := axcmdAct_command x g (z := z) hx64 hcmd hy s.mem
  rw [if_neg (Nat.ne_of_gt hr)] at hact
  obtain ⟨cl, he⟩ := ready_shape s.dev z h
  have hst := settle_shape (z := z) (h := h) (m := axcmdMessage h x g) (v := s.dev.startReason x)
    (e := ((ready s.dev z h).put (CU_STAT_REFUSE x) 0).put (CU_STAT_REFUSE x) (s.dev.startReason x)) 6
  refine does_onDM (execAxcmd h x g) rfl (execAxcmd_eq h x g) hl
    (control_declined (m := axcmdMessage h x g) hx (axcmd_wellFormed h x g hsh hx64 hcmd) rfl (needAxis_held hx64 hc)
      (st := 6) (by decide) hact) ⟨?_, reply_settle 6, expect_settle 6 ?_, ?_, ?_, fun r hr' => ?_⟩
  · rw [axSt_settle, axSt_put_refuse, axSt_put_refuse, ready_axSt]
  · rw [clientOf_put, clientOf_put]
    exact used_ready (m := axcmdMessage h x g) hx
  · rw [settle_get]
    exact get_put_fits _ (CU_STAT_REFUSE x) rfl hlt
  · obtain ⟨cl', rp, ht⟩ := hst
    rw [ht, put_put_eq, he]
  · have hne : r ≠ CU_STAT x := fun h => hr' (h ▸ List.mem_cons_self)
    rw [settle_reg, reg_put_ne _ (CU_STAT_REFUSE x) _ hne, reg_put_ne _ (CU_STAT_REFUSE x) _ hne, ready_reg]

end

/-! ### POLICY (R390, R393) -/

section
variable (s : State) (h : Ctl) (x : Fin 64) (n : Fin 65536) (e : Fin 256) {z : Nat}

/-- A POLICY as a message. -/
def policyMessage (h : Ctl) (x n e : Nat) : Msg :=
  { op := 0x22, axis := x, words := [n, e], wellFormed := isLong h && plainAxis x && n ≤ 60000 && e ≤ 1 }

theorem execPolicy_eq : execPolicy h ⟨x, by omega⟩ n e = onDM (Machine.control h (policyMessage h x n e) (needAxes [axisOf x])
    fun _ y => (0, 0, y.dev fun d => { d with policy := tset (2000, 0) d.policy (axisOf x) (n.val, e.val) })) := rfl

theorem policy_sets (hl : s.dev.sys.logicOn = true) (hx : s.dev.expects h 34 x.val 0 z) (hlong : isLong h = true)
    (hc : tget none s.dev.claim x = some z) (hn : n.val ≤ 60000) (he : e.val ≤ 1) :
    Does (.policy h ⟨x.val, by omega⟩ n e) s fun t => tget (2000, 0) t.policy x = (n.val, e.val) ∧ (∀ a : Fin 64, a
          ≠ x → tget (2000, 0) t.policy a = tget (2000, 0) s.dev.policy a) ∧ t.answers h 34 x.val (0) (0) ∧
          (t.clientOf z).expect = (h.seq.val + 1) % 256 ∧ t =
          { s.dev with regs := t.regs, clients := t.clients, reply := t.reply, policy := t.policy, jnl := t.jnl } := by
  let y : Dev := { ready s.dev z h with policy := tset (2000, 0) s.dev.policy x (n.val, e.val) }
  have hax : axisOf x = x := Nat.mod_eq_of_lt x.isLt
  have hexp : ((done z h (policyMessage h x n e) 0 s.dev y).clientOf z).expect = (h.seq.val + 1) % 256 :=
    done_expect (used_ready (m := policyMessage h x n e) hx)
  have hans := done_answers (z := z) (h := h) (m := policyMessage h x n e) (v := 0) s.dev y
  obtain ⟨j, cl, rp, ht⟩ := done_accepted (m := policyMessage h x n e) (v := 0) (e := y) hx rfl rfl rfl
  obtain ⟨cl0, h0⟩ := ready_shape s.dev z h
  refine does_onDM (t := done z h (policyMessage h x n e) 0 s.dev y) (execPolicy h ⟨x, by omega⟩ n e) rfl
    (execPolicy_eq h x n e) hl ?_ ⟨?_, fun a ha => ?_, hans, hexp, ?_⟩
  · refine control_done (m := policyMessage h x n e) hx (by simp [policyMessage, hlong, plainAxis, hn, he]) rfl
      (needAxis_held x.isLt hc) ?_
    rw [hax]
    rfl
  · rw [ht]
    exact tget_tset_same (2000, 0) s.dev.policy x (n.val, e.val)
  · rw [ht]
    exact tget_tset_ne (2000, 0) (2000, 0) s.dev.policy (n.val, e.val) (Fin.val_ne_of_ne ha)
  · rw [ht]
    simp only [y, h0]

theorem policy_outOfRange (hl : s.dev.sys.logicOn = true) (hx : s.dev.expects h 34 x.val 0 z) (hn : 60000 < n.val) :
    Does (.policy h ⟨x.val, by omega⟩ n e) s fun t => t.policy = s.dev.policy ∧ t.answers h 34 x.val (9) (0) ∧
          (t.clientOf z).expect = (h.seq.val + 1) % 256 ∧ t = { s.dev with clients := t.clients, reply := t.reply } := by
  obtain ⟨cl, rp, ht⟩ := settled_shape (d := s.dev) (z := z) (h := h) (m := policyMessage h x n e) (v := 0) 9
  refine does_onDM (execPolicy h ⟨x, by omega⟩ n e) rfl (execPolicy_eq h x n e) hl
    (control_illFormed (m := policyMessage h x n e) hx (by simp [policyMessage, Nat.not_le.2 hn])) ⟨?_, reply_settle 9,
    expect_settle 9 (used_ready (m := policyMessage h x n e) hx), ?_⟩
  · rw [ht]
  · rw [ht]

end

end Sys2Proof.Proofs
end

section
namespace Sys2Proof.Proofs
open Sys2Proof Sys2Proof.Machine Sys2Proof.Laws Reg

/-! ### SETREF (R216, R390) -/

/-- A signed value of 24 bits is stored whole in a word. -/
theorem sx_w32i (g : Nat) : sx 32 (w32i (sx 24 g)).toNat = sx 24 g := by
  have hlo : -(2 ^ 23) ≤ sx 24 g := by unfold sx; extract_lets m; split <;> omega
  have hhi : sx 24 g < 2 ^ 23 := by unfold sx; extract_lets m; split <;> omega
  rw [sx_eq_toInt (by decide), BitVec.ofNat_toNat, BitVec.setWidth_eq, w32i, BitVec.toInt_ofInt]
  exact Int.bmod_eq_of_le (by omega) (by omega)

section
variable (d : Dev) (e k : Nat)

theorem loopOf_onLoop_same (f : LoopH → LoopH) : (d.onLoop e k f).loopOf e k = f (d.loopOf e k) :=
  tget_tset_same {} d.loops (24 * e + k) (f (d.loopOf e k))

theorem loopOf_put (f : Fld) (v : Nat) : (d.put f v).loopOf e k = d.loopOf e k := rfl

theorem loopOf_setReg (r : Nat) (w : Word) : (d.setReg r w).loopOf e k = d.loopOf e k := rfl

theorem onLoop_reg (f : LoopH → LoopH) (r : Nat) : (d.onLoop e k f).reg r = d.reg r := rfl

theorem onLoop_now (f : LoopH → LoopH) : (d.onLoop e k f).now = d.now := rfl

/-- The references and the control word of a loop are three registers. -/
theorem loop_regs_ne : LE_REF0 e k ≠ LE_REF1 e k ∧ LE_REF0 e k ≠ LE_LCTL e k ∧ LE_REF1 e k ≠ LE_LCTL e k := by
  simp only [LE_REF0, LE_REF1, LE_LCTL]; omega

/-- A reference staged (R216). -/
theorem stageRef_spec (i : Nat) (w : Word) :
    (stageRef e k i w d).reg (if i = 0 then LE_REF0 e k else LE_REF1 e k) = w ∧
    (∀ r, r ≠ (if i = 0 then LE_REF0 e k else LE_REF1 e k) → r ≠ LE_LCTL e k → (stageRef e k i w d).reg r = d.reg r) ∧
    (stageRef e k i w d).get (LE_LCTL_STAGED e k) = 1 ∧
    ((stageRef e k i w d).loopOf e k).refGo = (d.loopOf e k).refGo ∧ (stageRef e k i w d).now = d.now := by
  have hne : (if i = 0 then LE_REF0 e k else LE_REF1 e k) ≠ (LE_LCTL_STAGED e k).addr := by
    obtain ⟨-, h0, h1⟩ := loop_regs_ne e k
    split
    · exact h0
    · exact h1
  unfold stageRef
  extract_lets old d1
  refine ⟨?_, fun r h1 h2 => ?_, get_put_const _ (LE_LCTL_STAGED e k) 1 rfl, ?_, ?_⟩
  · rw [reg_put_ne _ (LE_LCTL_STAGED e k) 1 hne, reg_setReg_same]
  · rw [reg_put_ne _ (LE_LCTL_STAGED e k) 1 h2, reg_setReg_ne _ _ h1, onLoop_reg]
  · rw [loopOf_put, loopOf_setReg, loopOf_onLoop_same]
  · rw [put_now, setReg_now, onLoop_now]

/-- A commit in a later cycle takes both references as they stand (R216). -/
theorem commitRefs_spec (hw : (d.loopOf e k).refWr = none) : (commitRefs e k d) =
    (d.onLoop e k fun l => { l with refGo := some (d.now, [d.sword (LE_REF0 e k), d.sword (LE_REF1 e k)]) }).put
      (LE_LCTL_STAGED e k) 0 := by
  unfold commitRefs Dev.stagedAtCycle
  rw [hw]
  exact if_neg Bool.false_ne_true

/-- The second reference staged and committed (R216). -/
theorem setRef_spec (w : Word) : (setRef e k 1 w d).reg (LE_REF1 e k) = w ∧
    ((setRef e k 1 w d).loopOf e k).refGo = some (d.now, [d.sword (LE_REF0 e k), sx 32 w.toNat]) ∧
    (setRef e k 1 w d).get (LE_LCTL_STAGED e k) = 0 := by
  obtain ⟨h1, h2, -, -, h5⟩ := stageRef_spec d e k 1 w
  rw [if_neg (by decide)] at h1 h2
  obtain ⟨hne, hne0, hne1⟩ := loop_regs_ne e k
  unfold setRef
  rw [commitRefs_spec _ e k (by rw [loopOf_onLoop_same])]
  refine ⟨?_, ?_, get_put_const _ (LE_LCTL_STAGED e k) 0 rfl⟩
  · rw [reg_put_ne _ (LE_LCTL_STAGED e k) 0 hne1, onLoop_reg, onLoop_reg, h1]
  · rw [loopOf_put, loopOf_onLoop_same]
    simp only [Dev.sword, onLoop_reg, onLoop_now, h1, h5, h2 _ hne hne0]

end

/-- A SETREF as a message. -/
def setrefMessage (h : Ctl) (x g : Nat) (long : Option (Word × Bool)) (v : Word) (stay : Bool) : Msg :=
  { op := 0x21, axis := x, arg := g, words := [v.toNat, if stay then 1 else 0],
    wellFormed := x < 128 && (if long.isSome then isLong h else shortOnly h) }

section
variable (s : State) (h : Ctl) (x : Fin 64) (g : Fin 16777216) {z : Nat}

theorem execSetref_short : execSetref h ⟨x + 64, by omega⟩ g none =
    onDM (Machine.control h (setrefMessage h (x + 64) g none (w32i (sx 24 g)) false) (needAxes [axisOf (x + 64)])
      fun _ y => (0, 0, y.dev (setRef (axisOf (x + 64) / 8) (axisOf (x + 64) % 8) ((x + 64) / 64 % 2) (w32i (sx 24 g))))) :=
  rfl

theorem execSetref_staged (w : Word) : execSetref h ⟨x, by omega⟩ g (some (w, true)) =
    onDM (Machine.control h (setrefMessage h x g (some (w, true)) w true) (needAxes [axisOf x])
      fun _ y => (0, 0, y.dev (stageRef (axisOf x / 8) (axisOf x % 8) (x / 64 % 2) w))) :=
  rfl

/-- The loops of an engine stay with a message's record. -/
theorem done_loops {m : Msg} {v : Nat} (d e : Dev) : (done z h m v d e).loops = e.loops := by
  obtain ⟨rg, j, ev, cl, rp, ht⟩ := done_shape (z := z) (h := h) (m := m) (v := v) d e
  rw [ht]

/-- The registers of the loop engines are outside the journal. -/
theorem unjournalled_loop {e k r : Nat} (hr : LE_LCTL e k ≤ r) : Unjournalled r := by
  simp only [Unjournalled, NoEvents, EVC_PEND, LE_LCTL] at *; omega

theorem setref_commits (hl : s.dev.sys.logicOn = true) (hx : s.dev.expects h 33 (x.val + 64) g.val z)
    (hsh : shortOnly h = true) (hc : tget none s.dev.claim x = some z) :
    Does (.setref h ⟨x.val + 64, by omega⟩ g none) s fun t => t.reg (LE_REF1 (x.val / 8) (x.val % 8)) = w32i (sx 24
          g.val) ∧ (t.loopOf (x.val / 8) (x.val % 8)).refGo = some (s.dev.now, [s.dev.sword (LE_REF0 (x.val / 8)
          (x.val % 8)), sx 24 g.val]) ∧ t.get (LE_LCTL_STAGED (x.val / 8) (x.val % 8)) = 0 ∧ t.answers h 33 (x.val +
          64) (0) (0) := by
  have hax : axisOf (x.val + 64) = x := by simp only [axisOf]; omega
  have hidx : (x.val + 64) / 64 % 2 = 1 := by omega
  have hneed : needAxes [axisOf (x.val + 64)] z (ready s.dev z h) = 0 := by
    have := needAxis_held (h := h) x.isLt hc
    rwa [show axisOf x = axisOf (x.val + 64) by simp only [axisOf]; omega] at this
  have hsword : (ready s.dev z h).sword (LE_REF0 (x / 8) (x % 8)) = s.dev.sword (LE_REF0 (x / 8) (x % 8)) := by
    rw [Dev.sword, ready_reg, Dev.sword]
  obtain ⟨h1, h2, h3⟩ := setRef_spec (ready s.dev z h) (x / 8) (x % 8) (w32i (sx 24 g.val))
  rw [sx_w32i, hsword, (calm_ready (K := fun _ => True) (E := fun _ => False) s.dev).now] at h2
  generalize hy : setRef (x / 8) (x % 8) 1 (w32i (sx 24 g.val)) (ready s.dev z h) = y at h1 h2 h3
  have hd := calm_done (z := z) (h := h) (m := setrefMessage h (x + 64) g none (w32i (sx 24 g)) false) (v := 0) s.dev y
  refine does_onDM (execSetref h ⟨x + 64, by omega⟩ g none) rfl (execSetref_short h x g) hl
    (control_done (m := setrefMessage h (x + 64) g none (w32i (sx 24 g)) false) (v := 0) (e := y) hx
      ?_ rfl hneed ?_)
    ⟨?_, ?_, ?_, done_answers s.dev y⟩
  · simp only [setrefMessage, Option.isSome_none, Bool.false_eq_true, if_false, hsh, Bool.and_true, decide_eq_true_eq]
    omega
  · rw [hax, hidx, ← hy]
    rfl
  · rw [hd.reg _ (unjournalled_loop (e := x / 8) (k := x % 8) (by simp only [LE_LCTL, LE_REF1]; omega)), h1]
  · rw [Dev.loopOf, done_loops]
    exact h2
  · rw [hd.get (f := LE_LCTL_STAGED (x / 8) (x % 8)) (unjournalled_loop (e := x / 8) (k := x % 8) (Nat.le_refl _)), h3]

theorem setref_stages (w : Word) (hl : s.dev.sys.logicOn = true) (hx : s.dev.expects h 33 x.val g.val z)
    (hlong : isLong h = true) (hc : tget none s.dev.claim x = some z) :
    Does (.setref h ⟨x.val, by omega⟩ g (some (w, true))) s fun t => t.reg (LE_REF0 (x.val / 8) (x.val % 8)) = w ∧
          t.get (LE_LCTL_STAGED (x.val / 8) (x.val % 8)) = 1 ∧ (t.loopOf (x.val / 8) (x.val % 8)).refGo =
          (s.dev.loopOf (x.val / 8) (x.val % 8)).refGo ∧ t.answers h 33 x.val (0) (0) := by
  have hax : axisOf x.val = x := Nat.mod_eq_of_lt x.isLt
  have hidx : x.val / 64 % 2 = 0 := by omega
  have hloops : (ready s.dev z h).loopOf (x / 8) (x % 8) = s.dev.loopOf (x / 8) (x % 8) := by
    obtain ⟨cl, he⟩ := ready_shape s.dev z h
    rw [he]
    rfl
  obtain ⟨h1, -, h3, h4, -⟩ := stageRef_spec (ready s.dev z h) (x / 8) (x % 8) 0 w
  rw [if_pos rfl] at h1
  rw [hloops] at h4
  generalize hy : stageRef (x / 8) (x % 8) 0 w (ready s.dev z h) = y at h1 h3 h4
  have hd := calm_done (z := z) (h := h) (m := setrefMessage h x g (some (w, true)) w true) (v := 0) s.dev y
  refine does_onDM (execSetref h ⟨x, by omega⟩ g (some (w, true))) rfl (execSetref_staged h x g w) hl
    (control_done (m := setrefMessage h x g (some (w, true)) w true) (v := 0) (e := y) hx ?_ rfl
      (needAxis_held x.isLt hc) ?_)
    ⟨?_, ?_, ?_, done_answers s.dev y⟩
  · simp only [setrefMessage, Option.isSome_some, if_true, hlong, Bool.and_true, decide_eq_true_eq]
    omega
  · rw [hax, hidx, ← hy]
    rfl
  · rw [hd.reg _ (unjournalled_loop (e := x / 8) (k := x % 8) (by simp only [LE_LCTL, LE_REF0]; omega)), h1]
  · rw [hd.get (f := LE_LCTL_STAGED (x / 8) (x % 8)) (unjournalled_loop (e := x / 8) (k := x % 8) (Nat.le_refl _)), h3]
  · rw [Dev.loopOf, done_loops]
    exact h4

end

end Sys2Proof.Proofs
end

section
namespace Sys2Proof.Proofs
open Sys2Proof Sys2Proof.Machine Sys2Proof.Laws Reg

/-! ### MODE without the device claim (R29, R390) -/

/-- A MODE as a message. -/
def modeMessage (h : Ctl) (g : Nat) : Msg := { op := 0x30, axis := 255, arg := g, wellFormed := shortOnly h && true }

/-- What a MODE does: the request, with the refusal code as it stood when it is taken up. -/
def modeAct (g r : Nat) : Action := fun _ y =>
  let old := y.1.get SYS_MODE_REFUSE
  let y := requestMode (Mode.ofCode (g % 16)) 1 r (y.dev fun d => d.put SYS_MODE_REFUSE 0)
  let c := y.1.get SYS_MODE_REFUSE
  if c = 0 then (0, 0, y.dev fun d => d.put SYS_MODE_REFUSE old) else (6, c, y)

section
variable (s : State) (h : Ctl) (g : Fin 16777216) (r : Fin 65536) {z : Nat}

theorem execMode_eq : execMode h 255 g r = onDM (Machine.control h (modeMessage h g) needDevice (modeAct g r)) := rfl

theorem mode_wellFormed (hsh : shortOnly h = true) : (modeMessage h g).wellFormed = true := by simp [modeMessage, hsh]

theorem unjournalled_mode : Unjournalled SYS_MODE_MODE.addr := by
  simp only [Unjournalled, NoEvents, EVC_PEND, SYS_MODE_MODE, SYS_MODE]; omega

theorem mode_unheld (hl : s.dev.sys.logicOn = true) (hx : s.dev.expects h 48 255 g.val z) (hsh : shortOnly h = true)
    (hc : s.dev.devClaim = none) :
    Does (.mode h 255 g r) s fun t => t.mode = s.dev.mode ∧ t.answers h 48 255 (4) (0) ∧ t =
          { s.dev with regs := t.regs, clients := t.clients, reply := t.reply, jnl := t.jnl, evs := t.evs } := by
  refine does_onDM (execMode h 255 g r) rfl (execMode_eq h g r) hl
    (control_unheld (m := modeMessage h g) hx (mode_wellFormed h g hsh) (needDevice_unheld hc))
    ⟨?_, reply_settle 4, ?_⟩
  · rw [Dev.mode, (calm_unheld s.dev).get (f := SYS_MODE_MODE) unjournalled_mode, Dev.mode]
  · obtain ⟨rg, cl, rp, j, ev, ht⟩ := unheld_shape (z := z) (h := h) (m := modeMessage h g) s.dev
    rw [ht]

end

/-! ### CAPTURE of a running session (R242, R390) -/

/-- A CAPTURE as a message. -/
def captureMessage (h : Ctl) (x i : Nat) (l : List (Fin 32 × Word)) : Msg :=
  { op := 0x40, axis := x, words := [i] ++ (l.map fun e => [e.1.val, e.2.toNat]).flatten,
    wellFormed := isLong h && plainAxis x }

/-- The registers a CAPTURE gives its session: those of the message, and its loop. -/
def captureSet (i a : Nat) (l : List (Fin 32 × Word)) (d : Dev) : Dev :=
  ((setSession i l d).put (SCU_STGT_ENG i) (a / 8)).put (SCU_STGT_LOOP i) (a % 8)

/-- What a CAPTURE does. -/
def captureAct (a : Nat) (i : Fin 4) (l : List (Fin 32 × Word)) : Action := fun z y =>
  if y.1.sessRunning i then (6, 1, y)
  else
    let d := captureSet i a l y.1
    if max 1 (y.1.item 0x109 1000) < y.1.captureLoad z + d.get (SCU_CBW_BWMAX i) then (7, 0, y)
    else
      let own := y.1.get (SCU_SCTL_OWN i)
      let d := writeSctl .debug i (w32 (2 ^ 31 + 0 + own)) d
      if d.sessRunning i then (0, 0, ({ d with capSlot := tset none d.capSlot i (some z) }, y.2))
      else (6, d.get (SCU_SSTAT_CAUSE i), (d, y.2))

section
variable (s : State) (h : Ctl) (x : Fin 64) (i : Fin 4) (l : List (Fin 32 × Word)) {z : Nat}

theorem execCapture_eq : execCapture h ⟨x, by omega⟩ i false l =
    onDM (Machine.control h (captureMessage h x i l) (needAxes [axisOf x]) (captureAct (axisOf x) i l)) := rfl

theorem capture_wellFormed (hlong : isLong h = true) : (captureMessage h x i l).wellFormed = true := by
  simp [captureMessage, hlong, plainAxis]

theorem ready_sessRunning (d : Dev) (k : Nat) : (ready d z h).sessRunning k = d.sessRunning k := by
  obtain ⟨cl, he⟩ := ready_shape d z h
  rw [he]
  rfl

theorem capture_running (hl : s.dev.sys.logicOn = true) (hx : s.dev.expects h 64 x.val 0 z) (hlong : isLong h = true)
    (hc : tget none s.dev.claim x = some z) (hrun : s.dev.sessRunning i = true) :
    Does (.capture h ⟨x.val, by omega⟩ i false l) s fun t => t.answers h 64 x.val (6) (1) ∧ (t.clientOf z).expect =
          (h.seq.val + 1) % 256 ∧ t = { s.dev with clients := t.clients, reply := t.reply } := by
  have hact : captureAct (axisOf x) i l z (ready s.dev z h, s.mem) = (6, 1, (ready s.dev z h, s.mem)) :=
    if_pos ((ready_sessRunning h s.dev i).trans hrun)
  refine does_onDM (execCapture h ⟨x, by omega⟩ i false l) rfl (execCapture_eq h x i l) hl
    (control_declined (m := captureMessage h x i l) hx (capture_wellFormed h x i l hlong) rfl (needAxis_held x.isLt hc)
      (by decide) hact)
    ⟨reply_settle 6, expect_settle 6 (used_ready (m := captureMessage h x i l) hx), ?_⟩
  obtain ⟨cl, rp, ht⟩ := settled_shape (d := s.dev) (z := z) (h := h) (m := captureMessage h x i l) (v := 1) 6
  rw [ht]

end

/-! ### IMAGESEG (R390) -/

/-- An IMAGESEG as a message. -/
def imagesegMessage (h : Ctl) (ofs n : Nat) : Msg :=
  { op := 0x48, axis := 255, words := [ofs, n], wellFormed := isLong h && ofs + n ≤ 278528 }

section
variable (s : State) (h : Ctl) (w : Word) (l : List (Fin 256)) {z : Nat}

theorem execImageseg_eq : execImageseg h w l = onDM (Machine.control h (imagesegMessage h w.toNat l.length) needDevice
    fun _ y => (0, 0, (y.1, memWriteBytes y.2 (stagingArea + w.toNat) (l.map (·.val))))) := rfl

theorem imageseg_stores (hl : s.dev.sys.logicOn = true) (hx : s.dev.expects h 72 0xFF 0 z) (hlong : isLong h = true)
    (hc : s.dev.devClaim = some z) (hfit : w.toNat + l.length ≤ 278528) :
    DoesMem (.imageseg h w l) s (memWriteBytes s.mem (stagingArea + w.toNat) (l.map (·.val))) fun t => t.answers h
          72 255 (0) (0) ∧ (t.clientOf z).expect = (h.seq.val + 1) % 256 ∧ t =
          { s.dev with regs := t.regs, clients := t.clients, reply := t.reply, jnl := t.jnl } := by
  have ht := control_done (m := imagesegMessage h w.toNat l.length) (need := needDevice) (mem := s.mem)
    (act := fun _ y => (0, 0, (y.1, memWriteBytes y.2 (stagingArea + w.toNat) (l.map (·.val))))) hx
    (by simp [imagesegMessage, hlong, hfit]) rfl (needDevice_held hc) rfl
  have hexec := (congrFun (execImageseg_eq h w l) s).trans (onDM_next _ s hl)
  refine ⟨_, hexec, congrArg Prod.snd ht, rfl, ?_⟩
  simp only [ht]
  refine ⟨done_answers (m := imagesegMessage h w.toNat l.length) s.dev _,
    done_expect (used_ready (m := imagesegMessage h w.toNat l.length) hx), ?_⟩
  obtain ⟨j, cl, rp, hd⟩ := done_accepted (m := imagesegMessage h w.toNat l.length) (v := 0) (e := ready s.dev z h) hx
    rfl rfl rfl
  obtain ⟨cl0, h0⟩ := ready_shape s.dev z h
  rw [hd, h0]

theorem imageseg_outOfRange (hl : s.dev.sys.logicOn = true) (hx : s.dev.expects h 72 0xFF 0 z)
    (hbig : 278528 < w.toNat + l.length) :
    Does (.imageseg h w l) s fun t => t.answers h 72 255 (9) (0) ∧ t =
          { s.dev with clients := t.clients, reply := t.reply } := by
  refine does_onDM (execImageseg h w l) rfl (execImageseg_eq h w l) hl
    (control_illFormed (m := imagesegMessage h w.toNat l.length) hx (by simp [imagesegMessage, Nat.not_le.2 hbig]))
    ⟨reply_settle 9, ?_⟩
  obtain ⟨cl, rp, ht⟩ := settled_shape (d := s.dev) (z := z) (h := h) (m := imagesegMessage h w.toNat l.length) (v := 0) 9
  rw [ht]

end

/-! ### IMAGEWR (R331, R390) -/

/-- An IMAGEWR as a message. -/
def imagewrMessage (h : Ctl) (n : Nat) : Msg := { op := 0x49, axis := 255, words := [n], wellFormed := isLong h }

/-- What an IMAGEWR does. -/
def imagewrAct (n : Nat) : Action := fun _ y =>
  let y := startImage n (y.dev fun d => d.put JNL_IMGSRC_ADDR (stagingArea / 4))
  let e := y.1.get JNL_IMGWR_ERR
  (if e = 0 then 0 else 6, e, y)

section
variable (s : State) (h : Ctl) (n : Fin 8) {z : Nat}

theorem execImagewr_eq : execImagewr h n = onDM (Machine.control h (imagewrMessage h n) needDevice (imagewrAct n)) := rfl

theorem imageErr_lt (k : Nat) (y : DM) : imageErr k y < 8 := by
  unfold imageErr
  extract_lets src
  split_ifs <;> decide

/-- The causes of a refused image write do not depend on the slots of the clients. -/
theorem imageErr_ready (d : Dev) (k v : Nat) (mem : List Host.Cell) :
    imageErr k ((ready d z h).put JNL_IMGSRC_ADDR v, mem) = imageErr k (d.put JNL_IMGSRC_ADDR v, mem) := by
  obtain ⟨cl, he⟩ := ready_shape d z h
  rw [he]
  rfl

/-- What survives every write of a register but the request of an image write survives the journal's mirror. -/
theorem jnlMirror_keeps (P : Dev → Prop) (hput : ∀ (f : Fld) (v : Nat) (t : Dev), f.addr ≠ JNL_IMGWR → P t → P (t.put f v))
    {d : Dev} (hd : P d) : P (jnlMirror d) := by
  unfold jnlMirror
  refine each_keeps P _ _ (fun _ t ht => hput _ _ t ?_ ht) _ ?_
  · exact (by decide : JNL_IMGST ≠ JNL_IMGWR)
  · exact hput _ _ _ (by decide) (hput _ _ _ (by decide) (hput _ _ _ (by decide) (hput _ _ _ (by decide)
      (hput _ _ _ (by decide) (hput _ _ _ (by decide) (hput _ _ _ (by decide) (hput _ _ _ (by decide) hd)))))))

theorem jnlMirror_jnl (d : Dev) : (jnlMirror d).jnl = d.jnl :=
  jnlMirror_keeps (fun t => t.jnl = d.jnl) (fun f v t _ ht => (put_jnl t f v).trans ht) rfl

/-- The request of an image write is not mirrored. -/
theorem reg_jnlMirror_imgwr (d : Dev) : (jnlMirror d).reg JNL_IMGWR = d.reg JNL_IMGWR :=
  jnlMirror_keeps (fun t => t.reg JNL_IMGWR = d.reg JNL_IMGWR)
    (fun f v t hf ht => (reg_put_ne t f v (Ne.symm hf)).trans ht) rfl

/-- The block that asks for an image write, with its source and its error code. -/
def imageAsked (k e : Nat) (d : Dev) : Dev :=
  ((d.put JNL_IMGSRC_ADDR (stagingArea / 4)).put JNL_IMGWR_SLOT k).put JNL_IMGWR_ERR e

theorem err_imageAsked (k : Nat) {e : Nat} (he : e < 8) (d : Dev) : (imageAsked k e d).get JNL_IMGWR_ERR = e :=
  get_put_fits _ JNL_IMGWR_ERR rfl (Nat.lt_of_lt_of_le he (by decide))

theorem jnl_imageAsked (k e : Nat) (d : Dev) : (imageAsked k e d).jnl = d.jnl := by
  rw [imageAsked, put_jnl, put_jnl, put_jnl]

theorem source_imageAsked (k e : Nat) (d : Dev) : (imageAsked k e d).get JNL_IMGSRC_ADDR = stagingArea / 4 := by
  rw [imageAsked, get_put_ne _ JNL_IMGWR_ERR JNL_IMGSRC_ADDR e (by decide),
    get_put_ne _ JNL_IMGWR_SLOT JNL_IMGSRC_ADDR k (by decide)]
  exact get_put_const d JNL_IMGSRC_ADDR _ rfl

/-- The block an image write starts in. -/
def imageStarted (k : Nat) (d : Dev) : Dev :=
  jnlMirror (setSlot k 1 (d.onJnl fun j => { j with img := some (k, stagingArea) }))

theorem imageStarted_spec (d : Dev) (k : Nat) : (imageStarted k d).jnl.img = some (k, stagingArea) ∧
    tget 0 (imageStarted k d).jnl.imgSt k = 1 ∧ (imageStarted k d).get JNL_IMGWR_ERR = d.get JNL_IMGWR_ERR := by
  refine ⟨?_, ?_, congrArg (fun w => wordGet w JNL_IMGWR_ERR.lo JNL_IMGWR_ERR.width) (reg_jnlMirror_imgwr _)⟩
  · rw [imageStarted, jnlMirror_jnl]
    rfl
  · rw [imageStarted, jnlMirror_jnl]
    exact tget_tset_same 0 _ k 1

section
variable {d : Dev} {k e : Nat} {mem : List Host.Cell} (he : imageErr k (d.put JNL_IMGSRC_ADDR (stagingArea / 4), mem) = e)
include he

theorem imagewrAct_starts (h0 : e = 0) : imagewrAct k z (d, mem) = (0, 0, (imageStarted k (imageAsked k 0 d), mem)) := by
  have hsrc := source_imageAsked k 0 d
  have herr := ((imageStarted_spec (imageAsked k 0 d) k).2.2).trans (err_imageAsked k (by decide) d)
  have hstart : startImage k (d.put JNL_IMGSRC_ADDR (stagingArea / 4), mem) =
      (imageStarted k (imageAsked k 0 d), mem) := by
    rw [imageAsked] at hsrc
    unfold startImage
    simp only [he, h0, DM.dev, if_true, hsrc]
    rfl
  unfold imagewrAct
  simp only [DM.dev, hstart, herr, if_true]

theorem imagewrAct_refused (h0 : 0 < e) : imagewrAct k z (d, mem) = (6, e, (imageAsked k e d, mem)) := by
  have herr := err_imageAsked k (he ▸ imageErr_lt k _) d
  have hstart : startImage k (d.put JNL_IMGSRC_ADDR (stagingArea / 4), mem) = (imageAsked k e d, mem) := by
    unfold startImage
    simp only [he, DM.dev, Nat.ne_of_gt h0, if_false]
    rfl
  unfold imagewrAct
  simp only [DM.dev, hstart, herr, Nat.ne_of_gt h0, if_false]

end

theorem imagewr_starts (hl : s.dev.sys.logicOn = true) (hx : s.dev.expects h 73 0xFF 0 z) (hlong : isLong h = true)
    (hc : s.dev.devClaim = some z) (he : imageErr n (s.dev.put JNL_IMGSRC_ADDR (stagingArea / 4), s.mem) = 0) :
    Does (.imagewr h n) s fun t => t.jnl.img = some (n.val, stagingArea) ∧ tget 0 t.jnl.imgSt n = 1 ∧ t.answers h 73
          255 (0) (0) := by
  have hact := imagewrAct_starts (z := z) ((imageErr_ready (z := z) h s.dev n (stagingArea / 4) s.mem).trans he) rfl
  obtain ⟨himg, hst, -⟩ := imageStarted_spec (imageAsked n 0 (ready s.dev z h)) n
  generalize imageStarted n (imageAsked n 0 (ready s.dev z h)) = y at *
  obtain ⟨-, hkimg, hkst⟩ := done_keeps (z := z) (h := h) (m := imagewrMessage h n) (v := 0) s.dev y
  refine does_onDM (execImagewr h n) rfl (execImagewr_eq h n) hl
    (control_done (m := imagewrMessage h n) hx hlong rfl (needDevice_held hc) hact)
    ⟨hkimg.trans himg, ?_, done_answers (m := imagewrMessage h n) s.dev y⟩
  rw [hkst, hst]

theorem imagewr_refused (hl : s.dev.sys.logicOn = true) (hx : s.dev.expects h 73 0xFF 0 z) (hlong : isLong h = true)
    (hc : s.dev.devClaim = some z) (he : 0 < imageErr n (s.dev.put JNL_IMGSRC_ADDR (stagingArea / 4), s.mem)) :
    Does (.imagewr h n) s fun t => t.answers h 73 255 (6) (imageErr n (s.dev.put JNL_IMGSRC_ADDR (stagingArea / 4),
          s.mem)) ∧ t.jnl.img = s.dev.jnl.img := by
  have hact := imagewrAct_refused (z := z) (imageErr_ready (z := z) h s.dev n (stagingArea / 4) s.mem) he
  have hjnl := jnl_imageAsked n (imageErr n (s.dev.put JNL_IMGSRC_ADDR (stagingArea / 4), s.mem)) (ready s.dev z h)
  generalize imageAsked n _ (ready s.dev z h) = y at *
  refine does_onDM (execImagewr h n) rfl (execImagewr_eq h n) hl
    (control_declined (m := imagewrMessage h n) hx hlong rfl (needDevice_held hc) (by decide) hact)
    ⟨reply_settle 6, ?_⟩
  rw [settle_jnl, hjnl]
  rfl

end

end Sys2Proof.Proofs
end

section
namespace Sys2Proof.Proofs
open Sys2Proof Sys2Proof.Machine Sys2Proof.Laws Reg

/-! ### LOOPSET (R333, R390) -/

/-- A LOOPSET as a message. -/
def loopsetMessage (h : Ctl) (n : Nat) : Msg := { op := 0x4A, axis := 255, words := [n], wellFormed := isLong h }

/-- A loop commits at its next run (R333). -/
def commitLoop (l : Nat × Nat) (d : Dev) : Dev :=
  (d.put (LE_PROVED_PROVED l.1) (d.get (LE_PROVED_PROVED l.1) ||| 2 ^ l.2)).onEng l.1 fun g => { g with
    commits := g.commits ||| 2 ^ l.2 }

/-- The galleys of a set loaded. -/
def loadSet (m : List Host.Cell) (ss : List Section) (d : Dev) : Dev := d.each ss fun s d => loadSection m s d

/-- Loops and schedules of a set committed. -/
def commitSet (ls : List (Nat × Nat)) (sched : List Nat) (d : Dev) : Dev := (d.each ls commitLoop).each sched commitSchedule

/-- What a LOOPSET does with the sections `ss`, loops `ls` and schedules `sched` of the image `m` in slot `n`. -/
def loopsetAct (n : Nat) (b : Bool) (m : List Host.Cell) (ss : List Section) (ls : List (Nat × Nat)) (sched : List Nat) : Action :=
  fun _ y =>
    if tget 0 y.1.jnl.imgSt n ≠ 2 || memWord m 4 % 256 ≠ 2 || y.1.sys.bootFault then (6, 0, y)
    else
      let d := loadSet m ss y.1
      if !b then (6, 0, (d, y.2)) else (0, 0, (commitSet ls sched d, y.2))

/-- The engines whose schedule a set changes. -/
def schedulesOf (ss : List Section) : List Nat := (ss.filter (·.kind = 6)).map fun s => s.target / 65536

section
variable (d : Dev)

@[simp] theorem onEng_clients (e : Nat) (f : EngineH → EngineH) : (d.onEng e f).clients = d.clients := rfl

theorem raiseLe_clients (e n : Nat) : (raiseLe e n d).clients = d.clients := by
  rw [raiseLe, raiseIn, raise_clients, Dev.setBit, put_clients]

theorem proofEnd_clients (e cause : Nat) : (proofEnd e cause d).clients = d.clients := by
  unfold proofEnd
  split
  · rfl
  · extract_lets d1 d2 d3
    have h3 : d3.clients = d2.clients := by simp only [d3]; split <;> [rw [put_clients]; rfl]
    rw [raiseLe_clients, h3]
    simp only [d2, d1]
    rw [put_clients, put_clients, put_clients, put_clients, onEng_clients]

theorem writeBank_clients (e b off : Nat) (w : Word) : (writeBank e b off w d).clients = d.clients := by
  unfold writeBank
  extract_lets k d1 d2
  have h2 : d2.clients = d.clients := (put_clients _ _ _).trans (setReg_clients _ _ _)
  split
  · exact setReg_clients _ _ _
  · split
    · split
      · rw [proofEnd_clients, h2]
      · exact h2
    · exact h2

theorem loadSection_clients (m : List Host.Cell) (x : Section) : (loadSection m x d).clients = d.clients := by
  have hput : ∀ e b base : Nat, ∀ t : Dev, (t.each (List.range (x.len / 4)) fun i t =>
      writeBank e b (base + 4 * i) (w32 (memWord m (x.data + 4 * i))) t).clients = t.clients := fun e b base =>
    each_frame Dev.clients _ _ fun _ t => writeBank_clients t e b _ _
  unfold loadSection
  extract_lets e n put
  split
  · exact hput _ _ _ d
  · split
    · exact hput _ _ _ d
    · split
      · exact hput _ _ _ d
      · rfl

theorem loadSet_clients (m : List Host.Cell) (ss : List Section) : (loadSet m ss d).clients = d.clients :=
  each_frame Dev.clients _ _ (fun x t => loadSection_clients t m x) d

theorem commitLoop_clients (l : Nat × Nat) : (commitLoop l d).clients = d.clients := by
  rw [commitLoop, onEng_clients, put_clients]

theorem commitSchedule_clients (e : Nat) : (commitSchedule e d).clients = d.clients := by
  unfold commitSchedule
  extract_lets c d1
  split
  · rw [onEng_clients, put_clients]
  · rw [put_clients]

theorem commitSet_clients (ls : List (Nat × Nat)) (sched : List Nat) : (commitSet ls sched d).clients = d.clients :=
  (each_frame Dev.clients _ _ (fun e t => commitSchedule_clients t e) _).trans
    (each_frame Dev.clients _ _ (fun l t => commitLoop_clients t l) d)

/-! The commits of an engine only grow. -/

/-- The engine of a loop commits it at its next run. -/
def Committing (l : Nat × Nat) (d : Dev) : Prop := (d.engOf l.1).commits.testBit l.2 = true

variable {d}

theorem committing_onEng {l : Nat × Nat} {e : Nat} {f : EngineH → EngineH} (hd : Committing l d)
    (hf : ∀ g, g.commits.testBit l.2 = true → (f g).commits.testBit l.2 = true) : Committing l (d.onEng e f) := by
  by_cases he : l.1 = e
  · subst he
    rw [Committing, engOf_onEng_same]
    exact hf _ hd
  · rw [Committing, engOf_onEng_ne _ _ he]
    exact hd

theorem committing_put {l : Nat × Nat} (hd : Committing l d) (f : Fld) (v : Nat) : Committing l (d.put f v) := hd

/-- The commit alone, without the proof that counts as passed. -/
theorem committing_commitEng (l : Nat × Nat) (d : Dev) :
    Committing l (d.onEng l.1 fun g => { g with commits := g.commits ||| 2 ^ l.2 }) := by
  rw [Committing, engOf_onEng_same]
  simp [Nat.testBit_two_pow_self]

theorem committing_commitLoop (l : Nat × Nat) (d : Dev) : Committing l (commitLoop l d) := committing_commitEng l _

theorem committing_commitLoop_other {l : Nat × Nat} (k : Nat × Nat) (hd : Committing l d) : Committing l (commitLoop k d) :=
  committing_onEng (committing_put hd _ _) fun g hg => by simp [hg]

theorem committing_commitSchedule {l : Nat × Nat} (e : Nat) (hd : Committing l d) : Committing l (commitSchedule e d) := by
  unfold commitSchedule
  extract_lets c d1
  have h1 : Committing l d1 := committing_put hd _ _
  clear_value d1 c
  split
  · exact committing_onEng h1 fun g hg => hg
  · exact h1

theorem each_cons {α : Type} (d : Dev) (x : α) (l : List α) (f : α → Dev → Dev) : d.each (x :: l) f = (f x d).each l f := rfl

theorem committing_loops {l : Nat × Nat} (ls : List (Nat × Nat)) (d : Dev) (h : l ∈ ls) : Committing l (d.each ls commitLoop) := by
  induction ls generalizing d with
  | nil => exact absurd h List.not_mem_nil
  | cons k ks ih =>
    rw [each_cons]
    rcases List.mem_cons.1 h with rfl | hks
    · exact each_keeps (Committing l) ks commitLoop (fun k _ => committing_commitLoop_other k) _ (committing_commitLoop l d)
    · exact ih _ hks

theorem committing_commitSet {l : Nat × Nat} {ls : List (Nat × Nat)} (sched : List Nat) (d : Dev) (h : l ∈ ls) :
    Committing l (commitSet ls sched d) :=
  each_keeps (Committing l) sched commitSchedule (fun e _ => committing_commitSchedule e) _ (committing_loops ls d h)

end

section
variable (s : State) (h : Ctl) (n : Fin 8) (b : Bool) {z : Nat}

theorem execLoopset_eq : execLoopset h n b = onDM fun y =>
    let m := y.1.imageMem y.2 n
    Machine.control h (loopsetMessage h n) (loopsetNeed (setLoops y.1 (sectionsOf m 0)) (schedulesOf (sectionsOf m 0) ≠ []))
      (loopsetAct n b m (sectionsOf m 0) (setLoops y.1 (sectionsOf m 0)) (schedulesOf (sectionsOf m 0))) y := rfl

theorem loopset_refused (hl : s.dev.sys.logicOn = true) (hx : s.dev.expects h 74 0xFF 0 z) (hlong : isLong h = true)
    (hss : sectionsOf (s.dev.imageMem s.mem n) 0 = []) (hst : tget 0 s.dev.jnl.imgSt n ≠ 2) :
    Does (.loopset h n b) s fun t => t.answers h 74 255 (6) (0) ∧ (t.clientOf z).expect = (h.seq.val + 1) % 256 ∧ t
          = { s.dev with clients := t.clients, reply := t.reply } := by
  have hst' : tget 0 (ready s.dev z h).jnl.imgSt n ≠ 2 := hst
  refine does_onDM (t := settle z h (loopsetMessage h n) 6 0 (ready s.dev z h)) (execLoopset h n b) rfl
    (execLoopset_eq h n b) hl ?_
    ⟨reply_settle 6, expect_settle 6 (used_ready (m := loopsetMessage h n) hx), ?_⟩
  · simp only [hss]
    refine control_declined (m := loopsetMessage h n) hx hlong rfl rfl (by decide) ?_
    rw [loopsetAct, if_pos (by simp [hst'])]
  · obtain ⟨cl, rp, ht⟩ := settled_shape (d := s.dev) (z := z) (h := h) (m := loopsetMessage h n) (v := 0) 6
    rw [ht]

/-- Claims are what the needs of axes and of the device read. -/
theorem needAxes_ready (d : Dev) (l : List Nat) : needAxes l z (ready d z h) = needAxes l z d := rfl

theorem needDevice_ready (d : Dev) : needDevice z (ready d z h) = needDevice z d := rfl

theorem needAll_congr {d e : Dev} {l : List (Nat → Dev → Nat)} (hl : ∀ f ∈ l, f z e = f z d) : needAll l z e = needAll l z d := by
  rw [needAll, needAll, List.map_congr_left hl]

theorem loopsetNeed_ready (d : Dev) (ls : List (Nat × Nat)) (sched : Bool) :
    loopsetNeed ls sched z (ready d z h) = loopsetNeed ls sched z d := by
  refine needAll_congr fun f hf => ?_
  rcases List.mem_append.1 hf with hf | hf
  · obtain ⟨k, -, rfl⟩ := List.mem_map.1 hf
    split
    · exact needAxes_ready h d _
    · exact needDevice_ready h d
  · split at hf
    · rw [List.mem_singleton.1 hf, needDevice_ready h d]
    · exact absurd hf List.not_mem_nil

/-- Engines stay with a message's record. -/
theorem done_eng {m : Msg} {v : Nat} (d e : Dev) : (done z h m v d e).eng = e.eng := by
  obtain ⟨rg, j, ev, cl, rp, ht⟩ := done_shape (z := z) (h := h) (m := m) (v := v) d e
  rw [ht]

theorem loopset_commits (hl : s.dev.sys.logicOn = true) (hx : s.dev.expects h 74 0xFF 0 z) (hlong : isLong h = true)
    (hboot : s.dev.sys.bootFault = false) (hst : tget 0 s.dev.jnl.imgSt n = 2)
    (hkind : memWord (s.dev.imageMem s.mem n) 4 % 256 = 2)
    (hneed : loopsetNeed (setLoops s.dev (sectionsOf (s.dev.imageMem s.mem n) 0)) (decide ((((sectionsOf (s.dev.imageMem
      s.mem n) 0).filter (·.kind = 6)).map fun s => s.target / 65536) ≠ [])) z s.dev = 0) :
    Does (.loopset h n true) s fun t => t.answers h 74 255 (0) (0) ∧ (t.clientOf z).expect = (h.seq.val + 1) % 256 ∧
          (∀ l ∈ setLoops s.dev (sectionsOf (s.dev.imageMem s.mem n) 0), (t.engOf l.1).commits.testBit l.2 = true) := by
  let m := s.dev.imageMem s.mem n
  let ls := setLoops s.dev (sectionsOf m 0)
  have hst' : tget 0 (ready s.dev z h).jnl.imgSt n = 2 := hst
  have hboot' : (ready s.dev z h).sys.bootFault = false := hboot
  let y := commitSet ls (schedulesOf (sectionsOf m 0)) (loadSet m (sectionsOf m 0) (ready s.dev z h))
  refine does_onDM (t := done z h (loopsetMessage h n) 0 s.dev y) (execLoopset h n true) rfl (execLoopset_eq h n true) hl ?_
    ⟨done_answers (m := loopsetMessage h n) s.dev y, done_expect ?_, fun l hmem => ?_⟩
  · refine control_done (m := loopsetMessage h n) hx hlong rfl ?_ ?_
    · rw [loopsetNeed_ready]
      exact hneed
    · rw [loopsetAct, if_neg (by simp [hst', hboot', hkind])]
      rfl
  · rw [Dev.clientOf, commitSet_clients, loadSet_clients]
    exact used_ready (m := loopsetMessage h n) hx
  · rw [Dev.engOf, done_eng]
    exact committing_commitSet (schedulesOf (sectionsOf m 0)) _ hmem

end

end Sys2Proof.Proofs
end

section
namespace Sys2Proof.Proofs
open Sys2Proof Sys2Proof.Machine Sys2Proof.Laws Reg

/-! ### AUX (R40, R390) -/

theorem auxShape_auxFollow (d : Dev) : AuxShape d (auxFollow d) := by
  rw [auxFollow_eq]
  exact ((AuxShape.refl d).onAux _).trans (.each (fun _ _ => auxShape_followGroup) _)

theorem sameRegs_auxFollow (d : Dev) : sameRegs d (auxFollow d) [AUX_GSTAT] := by
  rw [auxFollow_eq]
  exact sameRegs_trans (sameRegs_onAux (sameRegs_refl d _) _) (sameRegs_each (fun _ _ => sameRegs_followGroup) _)

theorem AuxShape.clients {d t : Dev} (h : AuxShape d t) : t.clients = d.clients := by
  obtain ⟨rg, ax, rfl⟩ := h
  rfl

theorem writeAuxOut_clients (w : Word) (d : Dev) : (writeAuxOut w d).clients = d.clients :=
  (auxShape_auxFollow _).clients.trans (put_clients _ _ _)

theorem out_writeAuxOut (w : Word) (d : Dev) : (writeAuxOut w d).get AUX_OUT_ON = w.toNat % 2 ^ 16 :=
  (congrArg (fun r => wordGet r 0 16) (sameRegs_auxFollow _ AUX_OUT (by decide))).trans
    (get_put_same d AUX_OUT_ON w.toNat (by decide))

/-- An AUX as a message. -/
def auxMessage (h : Ctl) (g : Nat) : Msg := { op := 0x32, axis := 255, arg := g, wellFormed := shortOnly h && true }

section
variable (s : State) (h : Ctl) (g : Fin 16777216) {z : Nat}

theorem execAux_eq : execAux h 255 g = onDM (Machine.control h (auxMessage h g) needDevice
    fun _ y => (0, 0, y.dev (writeAuxOut (w32 (g % 65536))))) := rfl

theorem aux_switches (hl : s.dev.sys.logicOn = true) (hx : s.dev.expects h 50 255 g.val z) (hsh : shortOnly h = true)
    (hc : s.dev.devClaim = some z) :
    Does (.aux h 255 g) s fun t => t.get AUX_OUT_ON = g.val % 65536 ∧ t.answers h 50 255 (0) (0) ∧ (t.clientOf
          z).expect = (h.seq.val + 1) % 256 := by
  have hout := out_writeAuxOut (w32 (g % 65536)) (ready s.dev z h)
  have hcl := writeAuxOut_clients (w32 (g % 65536)) (ready s.dev z h)
  have hw : (w32 (g.val % 65536)).toNat % 2 ^ 16 = g.val % 65536 := by
    simp only [w32, BitVec.toNat_ofNat]; omega
  refine does_onDM (t := done z h (auxMessage h g) 0 s.dev (writeAuxOut (w32 (g % 65536)) (ready s.dev z h)))
    (execAux h 255 g) rfl (execAux_eq h g) hl
    (control_done (m := auxMessage h g) hx (by simp [auxMessage, hsh]) rfl (needDevice_held hc) rfl) ?_
  generalize writeAuxOut (w32 (g % 65536)) (ready s.dev z h) = y at hout hcl ⊢
  refine ⟨?_, done_answers (m := auxMessage h g) s.dev y, done_expect ?_⟩
  · rw [(calm_done s.dev y).get (f := AUX_OUT_ON) (by
      simp only [Unjournalled, NoEvents, EVC_PEND, AUX_OUT_ON, AUX_OUT]; omega), hout, hw]
  · rw [Dev.clientOf, hcl]
    exact used_ready (m := auxMessage h g) hx

end

/-! ### CFGITEM and CFGCOMMIT (R334, R390) -/

/-- The journal accepts a record of a client's message, of every type but a fault's. -/
theorem submitCode_client {d e : Dev} {z : Nat} {r : JRec} (ht : r.typ ≠ 3) (hs : r.slot = z) (ha : d.wouldAccept z = true)
    (hj : e.jnl = d.jnl) (hr : e.regs = d.regs) (hn : e.now = d.now) : submitCode r false false e = 0 := by
  have hd : submitCode { typ := 1, slot := z } false false d = 0 := of_decide_eq_true ha
  have hreg : ∀ a, e.reg a = d.reg a := fun a => by rw [Dev.reg, hr, Dev.reg]
  have ht' : decide (r.typ ≠ 3) = decide ((1 : Nat) ≠ 3) := by rw [decide_eq_true ht]; rfl
  rw [← hd]
  simp only [submitCode, Dev.quotaUsed, Dev.consUsed, Dev.minute, Dev.get, Dev.on, hreg, ht', hs, hj, hn]
  rfl

/-- A CFGITEM as a message. -/
def cfgitemMessage (h : Ctl) (n key : Nat) (l : List Word) : Msg :=
  { op := 0x38, axis := 255, words := [n, key] ++ l.map (·.toNat),
    wellFormed := isLong h && n ≠ 0 && l.length ≤ 1000 && (key / 2 ^ 30 ≠ 0 || l.length = 2) }

/-- The record of an item. -/
def itemRec (z n key : Nat) (l : List Word) (d : Dev) : JRec :=
  { typ := 6, srck := 1, slot := z, name := (d.clientOf z).name, txn := n, key := key, payload := l.map (·.toNat) }

/-- What a CFGITEM does. -/
def cfgitemAct (n key : Nat) (l : List Word) : Action := fun z y =>
  if y.1.sys.bootFault then (6, 0, y)
  else if 256 ≤ (y.1.itemsOf n).length then (9, 0, y)
  else
    let c := submitCode (itemRec z n key l y.1) false false y.1
    (if c = 0 then 0 else if c = 3 then 7 else 11, 0, y.dev (submitRec (some y.1.sup) (itemRec z n key l y.1) false false))

section
variable (s : State) (h : Ctl) (n : Fin 65536) (w : Word) (l : List Word) {z : Nat}

theorem execCfgitem_eq : execCfgitem h n w l =
    onDM (Machine.control h (cfgitemMessage h n w.toNat l) (itemNeed w.toNat) (cfgitemAct n w.toNat l)) := rfl

theorem cfgitem_wellFormed {n key : Nat} (hlong : isLong h = true) (hn : n ≠ 0) (hlen : l.length ≤ 1000)
    (hk : key / 2 ^ 30 = 3) : (cfgitemMessage h n key l).wellFormed = true := by
  simp only [cfgitemMessage, hk, hlong, hlen]
  simp [hn]

/-- A parameter of the device needs the device claim (R334). -/
theorem itemNeed_device {key : Nat} (hk : key / 2 ^ 30 = 3) (hlo : 64 < key % 2 ^ 30) (hhi : key % 2 ^ 30 < 0x140) :
    itemNeed key = needDevice := by
  unfold itemNeed
  rw [hk]
  dsimp only
  rw [if_neg (by simp only [Bool.and_eq_true, decide_eq_true_eq]; omega),
    if_neg (by simp only [Bool.and_eq_true, decide_eq_true_eq]; omega)]
  rfl

theorem cfgitem_stages (hl : s.dev.sys.logicOn = true) (hx : s.dev.expects h 56 0xFF 0 z) (hlong : isLong h = true)
    (hn : n.val ≠ 0) (hlen : l.length ≤ 1000) (hk : w.toNat / 2 ^ 30 = 3) (hlo : 64 < w.toNat % 2 ^ 30)
    (hhi : w.toNat % 2 ^ 30 < 0x140) (hc : s.dev.devClaim = some z) (hitems : (s.dev.itemsOf n).length < 256)
    (hboot : s.dev.sys.bootFault = false) :
    Does (.cfgitem h n w l) s fun t => (∃ q ∈ t.jnl.queue, q.body.typ = 6 ∧ q.body.txn = n.val ∧ q.body.key =
          w.toNat ∧ q.body.payload = l.map (·.toNat) ∧ q.body.slot = z) ∧ t.answers h 56 255 (0) (0) ∧ (t.clientOf
          z).expect = (h.seq.val + 1) % 256 := by
  have hboot' : (ready s.dev z h).sys.bootFault = false := hboot
  have hitems' : ((ready s.dev z h).itemsOf n).length < 256 := hitems
  have hcode : submitCode (itemRec z n w.toNat l (ready s.dev z h)) false false (ready s.dev z h) = 0 := by
    obtain ⟨-, -, -, -, -, -, hacc⟩ := hx
    exact submitCode_client (by simp [itemRec]) rfl hacc rfl rfl rfl
  obtain ⟨q, hq, hbody⟩ := mem_submitRec (some (ready s.dev z h).sup) hcode
  have hcl := clients_submitRec (some (ready s.dev z h).sup) (itemRec z n w.toNat l (ready s.dev z h)) false false
    (ready s.dev z h)
  refine does_onDM (t := done z h (cfgitemMessage h n w.toNat l) 0 s.dev
    (submitRec (some (ready s.dev z h).sup) (itemRec z n w.toNat l (ready s.dev z h)) false false (ready s.dev z h)))
    (execCfgitem h n w l) rfl (execCfgitem_eq h n w l) hl
    (control_done (m := cfgitemMessage h n w.toNat l) hx (cfgitem_wellFormed h l hlong hn hlen hk) rfl ?_ ?_) ?_
  · rw [itemNeed_device hk hlo hhi]
    exact needDevice_held hc
  · rw [cfgitemAct, if_neg (by rw [hboot']; decide), if_neg (Nat.not_le.2 hitems')]
    dsimp only
    rw [hcode]
    rfl
  · generalize submitRec (some (ready s.dev z h).sup) (itemRec z n w.toNat l (ready s.dev z h)) false false
      (ready s.dev z h) = y at hq hcl ⊢
    refine ⟨⟨q, (done_keeps s.dev y).1 q hq, ?_⟩, done_answers (m := cfgitemMessage h n w.toNat l) s.dev y, done_expect ?_⟩
    · rw [hbody]
      exact ⟨rfl, rfl, rfl, rfl, rfl⟩
    · rw [Dev.clientOf, hcl]
      exact used_ready (m := cfgitemMessage h n w.toNat l) hx

theorem cfgitem_refused (hl : s.dev.sys.logicOn = true) (hx : s.dev.expects h 56 0xFF 0 z) (hlong : isLong h = true)
    (hn : n.val ≠ 0) (hlen : l.length ≤ 1000) (hk : w.toNat / 2 ^ 30 = 3) (hlo : 64 < w.toNat % 2 ^ 30)
    (hhi : w.toNat % 2 ^ 30 < 0x140) (hc : s.dev.devClaim = some z) (hboot : s.dev.sys.bootFault = true) :
    Does (.cfgitem h n w l) s fun t => t.answers h 56 255 (6) (0) ∧ (t.clientOf z).expect = (h.seq.val + 1) % 256 ∧
          t = { s.dev with clients := t.clients, reply := t.reply } := by
  have hboot' : (ready s.dev z h).sys.bootFault = true := hboot
  refine does_onDM (t := settle z h (cfgitemMessage h n w.toNat l) 6 0 (ready s.dev z h)) (execCfgitem h n w l) rfl
    (execCfgitem_eq h n w l) hl
    (control_declined (m := cfgitemMessage h n w.toNat l) hx (cfgitem_wellFormed h l hlong hn hlen hk) rfl ?_
      (by decide) (if_pos hboot'))
    ⟨reply_settle 6, expect_settle 6 (used_ready (m := cfgitemMessage h n w.toNat l) hx), ?_⟩
  · rw [itemNeed_device hk hlo hhi]
    exact needDevice_held hc
  · obtain ⟨cl, rp, ht⟩ := settled_shape (d := s.dev) (z := z) (h := h) (m := cfgitemMessage h n w.toNat l) (v := 0) 6
    rw [ht]

end

/-- A CFGCOMMIT as a message. -/
def cfgcommitMessage (h : Ctl) (n : Nat) : Msg :=
  { op := 0x39, axis := 255, words := [n], wellFormed := isLong h && n ≠ 0 }

/-- The record of a commit: how many items, and the map of those performed. -/
def commitRec (z n k map : Nat) (d : Dev) : JRec :=
  { typ := 7, srck := 1, slot := z, name := (d.clientOf z).name, txn := n
    payload := k :: (List.range 8).map fun i => map / 2 ^ (32 * i) % 2 ^ 32 }

/-- What a CFGCOMMIT does. -/
def cfgcommitAct (n : Nat) (proved : Bool) : Action := fun z y =>
  let items := y.1.itemsOf n
  let fixed := items.any fun r => r.key / 2 ^ 30 = 1 || r.key / 2 ^ 30 = 2
  if items = [] || !proved || (fixed && y.1.mode ≠ .configure) || y.1.sys.bootFault then (6, 0, y)
  else
    let x := y
    let (map, y) := applyItems items 0 0 y
    let c := submitCode (commitRec z n items.length map x.1) false false y.1
    (if c = 0 then 0 else if c = 3 then 7 else 11, 0, y.dev (submitRec (some y.1.sup) (commitRec z n items.length map x.1) false false))

section
variable (s : State) (h : Ctl) (n : Fin 65536) {z : Nat}

theorem execCfgcommit_eq (b : Bool) : execCfgcommit h n b = onDM fun y =>
    Machine.control h (cfgcommitMessage h n) (needAll ((y.1.itemsOf n).map fun r => itemNeed r.key)) (cfgcommitAct n b) y := rfl

theorem cfgcommit_wellFormed (hlong : isLong h = true) (hn : n.val ≠ 0) : (cfgcommitMessage h n).wellFormed = true := by
  simp [cfgcommitMessage, hlong, hn]

theorem cfgcommit_refused (hl : s.dev.sys.logicOn = true) (hx : s.dev.expects h 57 0xFF 0 z) (hlong : isLong h = true)
    (hn : n.val ≠ 0) (hitems : s.dev.itemsOf n = []) :
    Does (.cfgcommit h n true) s fun t => t.answers h 57 255 (6) (0) ∧ t =
          { s.dev with clients := t.clients, reply := t.reply } := by
  have hitems' : (ready s.dev z h).itemsOf n = [] := hitems
  refine does_onDM (t := settle z h (cfgcommitMessage h n) 6 0 (ready s.dev z h)) (execCfgcommit h n true) rfl
    (execCfgcommit_eq h n true) hl ?_ ⟨reply_settle 6, ?_⟩
  · refine control_declined (m := cfgcommitMessage h n) hx (cfgcommit_wellFormed h n hlong hn) rfl ?_ (by decide) ?_
    · simp only [hitems]
      rfl
    · rw [cfgcommitAct]
      simp only [hitems']
      rfl
  · obtain ⟨cl, rp, ht⟩ := settled_shape (d := s.dev) (z := z) (h := h) (m := cfgcommitMessage h n) (v := 0) 6
    rw [ht]

theorem cfgcommit_commits (hl : s.dev.sys.logicOn = true) (hx : s.dev.expects h 57 0xFF 0 z) (hlong : isLong h = true)
    (hn : n.val ≠ 0) (hc : s.dev.devClaim = some z) (hitems : (s.dev.itemsOf n).map (·.key) = [0xC0000107])
    (hboot : s.dev.sys.bootFault = false) :
    Does (.cfgcommit h n true) s fun t => t.answers h 57 255 (0) (0) ∧ (t.clientOf z).expect = (h.seq.val + 1) % 256
          ∧ (∃ q ∈ t.jnl.queue, q.body.typ = 7 ∧ q.body.txn = n.val ∧ q.body.payload = [1, 1, 0, 0, 0, 0, 0, 0, 0]) := by
  obtain ⟨r, hr, hkey⟩ := List.map_eq_singleton_iff.1 hitems
  have hr' : (ready s.dev z h).itemsOf n = [r] := hr
  have hboot' : (ready s.dev z h).sys.bootFault = false := hboot
  have happly : applyItems [r] 0 0 (ready s.dev z h, s.mem) = (1, (ready s.dev z h, s.mem)) := by
    simp only [applyItems, applyItem, hkey]
    rfl
  have hcode : submitCode (commitRec z n 1 1 (ready s.dev z h)) false false (ready s.dev z h) = 0 := by
    obtain ⟨-, -, -, -, -, -, hacc⟩ := hx
    exact submitCode_client (by simp [commitRec]) rfl hacc rfl rfl rfl
  obtain ⟨q, hq, hbody⟩ := mem_submitRec (some (ready s.dev z h).sup) hcode
  have hcl := clients_submitRec (some (ready s.dev z h).sup) (commitRec z n 1 1 (ready s.dev z h)) false false
    (ready s.dev z h)
  refine does_onDM (t := done z h (cfgcommitMessage h n) 0 s.dev
    (submitRec (some (ready s.dev z h).sup) (commitRec z n 1 1 (ready s.dev z h)) false false (ready s.dev z h)))
    (execCfgcommit h n true) rfl (execCfgcommit_eq h n true) hl
    (control_done (m := cfgcommitMessage h n) hx (cfgcommit_wellFormed h n hlong hn) rfl ?_ ?_) ?_
  · simp only [hr, List.map_cons, List.map_nil, hkey, itemNeed_device (key := 0xC0000107) (by decide) (by decide) (by decide)]
    exact needDevice_held hc
  · rw [cfgcommitAct]
    simp only [hr', happly, List.any_cons, List.any_nil, hkey, hboot', List.length_singleton, hcode]
    rfl
  · generalize submitRec (some (ready s.dev z h).sup) (commitRec z n 1 1 (ready s.dev z h)) false false
      (ready s.dev z h) = y at hq hcl ⊢
    refine ⟨done_answers (m := cfgcommitMessage h n) s.dev y, done_expect ?_, q, (done_keeps s.dev y).1 q hq, ?_⟩
    · rw [Dev.clientOf, hcl]
      exact used_ready (m := cfgcommitMessage h n) hx
    · rw [hbody]
      exact ⟨rfl, rfl, rfl⟩

end

end Sys2Proof.Proofs
end

section
namespace Sys2Proof.Proofs
open Sys2Proof Sys2Proof.Machine Sys2Proof.Laws Reg

/-! ### CAPTURE (R242, R390, R392) -/

/-! A field written with the value it holds. -/

section
variable {α : Type} (t : Tab α) (i : Nat) (x : α)

theorem tput_tput_self : tput (tput t i x) i x = tput t i x := by
  have hhere : ∀ l : Tab α, tput ((i, x) :: l) i x = (i, x) :: l := fun l => by
    rw [tput.eq_2, if_neg (Nat.lt_irrefl i), if_pos rfl]
  induction t with
  | nil => exact hhere []
  | cons e t ih =>
    obtain ⟨k, v⟩ := e
    rw [tput.eq_2]
    split_ifs with hlt hne
    · exact hhere _
    · exact hhere _
    · rw [tput.eq_2, if_neg hlt, if_neg hne, ih]

theorem tset_tset_self [DecidableEq α] (dflt : α) : tset dflt (tset dflt t i x) i x = tset dflt t i x := by
  by_cases h : x = dflt
  · simp [tset, h, tdel, List.filter_filter]
  · simp only [tset, h, if_false, tput_tput_self]

end

theorem setReg_setReg_self (d : Dev) (a : Nat) (w : Word) : (d.setReg a w).setReg a w = d.setReg a w := by
  rw [Dev.setReg, Dev.setReg, tset_tset_self]

theorem wordPut_wordGet (w : Word) {lo width : Nat} (h : lo + width ≤ 32) : wordPut w lo width (wordGet w lo width) = w := by
  refine BitVec.eq_of_toNat_eq ?_
  rw [toNat_wordPut w h, wordGet, Nat.mod_mod, pow_add, ← Nat.div_div_eq_div_mul]
  calc w.toNat % 2 ^ lo + w.toNat / 2 ^ lo % 2 ^ width * 2 ^ lo + w.toNat / 2 ^ lo / 2 ^ width * (2 ^ lo * 2 ^ width)
      = w.toNat % 2 ^ lo + 2 ^ lo * (w.toNat / 2 ^ lo % 2 ^ width + 2 ^ width * (w.toNat / 2 ^ lo / 2 ^ width)) := by ring
    _ = w.toNat := by rw [Nat.mod_add_div, Nat.mod_add_div]

/-- A field of the register just written, written with what it holds. -/
theorem put_put_held (d : Dev) {f g : Fld} (v : Nat) {w : Nat} (ha : g.addr = f.addr) (hg : g.lo + g.width ≤ 32)
    (hw : (d.put f v).get g = w) : (d.put f v).put g w = d.put f v := by
  have hword : wordPut ((d.put f v).reg g.addr) g.lo g.width w = wordPut (d.reg f.addr) f.lo f.width v := by
    rw [← hw, Dev.get, wordPut_wordGet _ hg, ha, reg_put_same]
  rw [Dev.put, hword, ha, Dev.put, setReg_setReg_self]

/-! The start of a session. -/

section
variable (d : Dev) {k : Nat}

/-- The registers of a session that starts. -/
def sessionBegun (k : Nat) (d : Dev) : Dev :=
  (((d.put (SCU_SSTAT_STATE k) 1).put (SCU_SSTAT_CAUSE k) 0).put (SCU_SSTAT_FULL k) 0).setReg (SCU_CWPTR k) 0

theorem sessRunning_sessionBegun : (sessionBegun k d).sessRunning k = true := by
  have hptr : SCU_SSTAT k ≠ SCU_CWPTR k := by simp only [SCU_SSTAT, SCU_CWPTR]; omega
  have hstate : (sessionBegun k d).get (SCU_SSTAT_STATE k) = 1 :=
    calc (sessionBegun k d).get (SCU_SSTAT_STATE k)
        = (((d.put (SCU_SSTAT_STATE k) 1).put (SCU_SSTAT_CAUSE k) 0).put (SCU_SSTAT_FULL k) 0).get (SCU_SSTAT_STATE k) :=
          congrArg (fun w => wordGet w 0 3) (reg_setReg_ne _ 0 hptr)
      _ = ((d.put (SCU_SSTAT_STATE k) 1).put (SCU_SSTAT_CAUSE k) 0).get (SCU_SSTAT_STATE k) :=
          get_put_apart _ (SCU_SSTAT_FULL k) (SCU_SSTAT_STATE k) 0 rfl rfl
      _ = (d.put (SCU_SSTAT_STATE k) 1).get (SCU_SSTAT_STATE k) :=
          get_put_apart _ (SCU_SSTAT_CAUSE k) (SCU_SSTAT_STATE k) 0 rfl rfl
      _ = 1 := get_put_const d (SCU_SSTAT_STATE k) 1 rfl
  exact decide_eq_true hstate

theorem sessRunning_onSess (i : Nat) (f : SessH → SessH) : (d.onSess i f).sessRunning k = d.sessRunning k := rfl

theorem startSess_begins (hc : d.startCause k = 0) : ∃ f : SessH → SessH, startSess k d = (sessionBegun k d).onSess k f := by
  unfold startSess
  extract_lets c d1 cap seed hold
  exact ⟨_, if_neg (fun h => h hc)⟩

/-- A start that nothing refuses runs the session. -/
theorem sessRunning_startSess (hc : d.startCause k = 0) : (startSess k d).sessRunning k = true := by
  obtain ⟨f, hf⟩ := startSess_begins d hc
  rw [hf, sessRunning_onSess, sessRunning_sessionBegun]

/-- The word of a start without RING that leaves the owner (R242). -/
def startWord (own : Nat) : Word := w32 (2 ^ 31 + 0 + own)

/-- A start that leaves the owner writes RING alone. -/
theorem writeSctl_starts (d : Dev) (k : Nat) : writeSctl .debug k (startWord (d.get (SCU_SCTL_OWN k))) d =
    startSess k (d.put (SCU_SCTL_RING k) 0) := by
  have hlt : d.get (SCU_SCTL_OWN k) < 8 := get_lt d (SCU_SCTL_OWN k)
  have hheld := put_put_held d (f := SCU_SCTL_RING k) (g := SCU_SCTL_OWN k) 0 rfl (by simp only [SCU_SCTL_OWN]; omega)
    (get_put_apart d (SCU_SCTL_RING k) (SCU_SCTL_OWN k) 0 rfl rfl)
  generalize d.get (SCU_SCTL_OWN k) = own at hlt hheld
  have hnat : (startWord own).toNat = 2147483648 + own := by simp only [startWord, w32, BitVec.toNat_ofNat]; omega
  have hown : wordGet (startWord own) 0 3 = own := by simp only [wordGet, hnat]; omega
  have hring : wordGet (startWord own) 8 1 = 0 := by simp only [wordGet, hnat]; omega
  have h30 : (startWord own).getLsbD 30 = false := by
    rw [BitVec.getLsbD, hnat, Nat.testBit, Nat.shiftRight_eq_div_pow]; simp; omega
  have h31 : (startWord own).getLsbD 31 = true := by
    rw [BitVec.getLsbD, hnat, Nat.testBit, Nat.shiftRight_eq_div_pow]; simp; omega
  unfold writeSctl
  simp only [Dev.sessRights, Dev.supRights, Bool.true_or, Bool.and_self, if_true, hring, hown, hheld, h30, h31,
    Bool.false_eq_true, if_false]

end

section
variable (s : State) (h : Ctl) (x : Fin 64) (i : Fin 4) {z : Nat}

/-- The causes of a refused start do not depend on the slots of the clients. -/
theorem startCause_ready (d : Dev) (f g e : Fld) (u v w k : Nat) :
    ((((ready d z h).put f u).put g v).put e w).startCause k = (((d.put f u).put g v).put e w).startCause k := by
  obtain ⟨cl, he⟩ := ready_shape d z h
  rw [he]
  rfl

/-- A message's record leaves the sessions and their slots. -/
theorem done_session {m : Msg} {v : Nat} (d e : Dev) (k : Nat) : (done z h m v d e).sessRunning k = e.sessRunning k ∧
    (done z h m v d e).capSlot = e.capSlot := by
  refine ⟨?_, ?_⟩
  · rw [Dev.sessRunning, (calm_done d e).get (f := SCU_SSTAT_STATE k) (by
      simp only [Unjournalled, NoEvents, EVC_PEND, SCU_SSTAT_STATE, SCU_SSTAT]; omega), Dev.sessRunning]
  · obtain ⟨rg, j, ev, cl, rp, ht⟩ := done_shape (z := z) (h := h) (m := m) (v := v) d e
    rw [ht]

/-- A start within the quota that nothing refuses (R242, R392). -/
theorem captureAct_starts {d : Dev} {a : Nat} {mem : List Host.Cell} (hrun : d.sessRunning i = false)
    (hcause : ((captureSet i a [] d).put (SCU_SCTL_RING i) 0).startCause i = 0)
    (hload : d.captureLoad z + d.get (SCU_CBW_BWMAX i) ≤ max 1 (d.item 0x109 1000)) :
    ∃ y : Dev, y.sessRunning i = true ∧ captureAct a i [] z (d, mem) =
      (0, 0, ({ y with capSlot := tset none y.capSlot i (some z) }, mem)) := by
  have hget : ∀ f : Fld, f.addr ≠ SCU_STGT i → (captureSet i a [] d).get f = d.get f := fun f hf =>
    (get_put_ne _ (SCU_STGT_LOOP i) f _ hf).trans (get_put_ne d (SCU_STGT_ENG i) f _ hf)
  have hbw := hget (SCU_CBW_BWMAX i) (by simp only [SCU_CBW_BWMAX, SCU_CBW, SCU_STGT]; omega)
  have hown := hget (SCU_SCTL_OWN i) (by simp only [SCU_SCTL_OWN, SCU_SCTL, SCU_STGT]; omega)
  have hstart := writeSctl_starts (captureSet i a [] d) i
  have hon := sessRunning_startSess _ hcause
  rw [hown] at hstart
  refine ⟨_, hon, ?_⟩
  unfold captureAct
  simp only [hrun, Bool.false_eq_true, if_false, hbw, Nat.not_lt.2 hload]
  rw [show w32 (2 ^ 31 + 0 + d.get (SCU_SCTL_OWN i)) = startWord (d.get (SCU_SCTL_OWN i)) from rfl, hstart, if_pos hon]

theorem capture_starts (hl : s.dev.sys.logicOn = true) (hx : s.dev.expects h 64 x.val 0 z) (hlong : isLong h = true)
    (hc : tget none s.dev.claim x = some z) (hrun : s.dev.sessRunning i = false)
    (hcause : (((s.dev.put (SCU_STGT_ENG i) (x.val / 8)).put (SCU_STGT_LOOP i) (x.val % 8)).put
      (SCU_SCTL_RING i) 0).startCause i = 0)
    (hload : s.dev.captureLoad z + s.dev.get (SCU_CBW_BWMAX i) ≤ max 1 (s.dev.item 0x109 1000)) :
    Does (.capture h ⟨x.val, by omega⟩ i false []) s fun t => t.sessRunning i = true ∧ tget none t.capSlot i = some
          z ∧ t.answers h 64 x.val (0) (0) := by
  have hax : axisOf x.val = x := Nat.mod_eq_of_lt x.isLt
  obtain ⟨y, hy, hact⟩ := captureAct_starts (z := z) i (d := ready s.dev z h) (a := x) (mem := s.mem)
    ((ready_sessRunning h s.dev i).trans hrun) ((startCause_ready h s.dev _ _ _ _ _ _ _).trans hcause) hload
  obtain ⟨hdrun, hdslot⟩ := done_session (z := z) h (m := captureMessage h x i []) (v := 0) s.dev
    { y with capSlot := tset none y.capSlot i (some z) } i
  refine does_onDM (execCapture h ⟨x, by omega⟩ i false []) rfl (execCapture_eq h x i []) hl
    (control_done (m := captureMessage h x i []) hx (capture_wellFormed h x i [] hlong) rfl (needAxis_held x.isLt hc)
      (by rw [hax]; exact hact))
    ⟨hdrun.trans hy, ?_, done_answers (m := captureMessage h x i []) s.dev _⟩
  rw [hdslot]
  exact tget_tset_same none y.capSlot i (some z)

end

end Sys2Proof.Proofs
end

section
namespace Sys2Proof.Proofs
open Sys2Proof Sys2Proof.Machine Sys2Proof.Laws Reg

/-! ### CARTREL (R52, R53, R390) -/

/-! What stops an axis leaves the registers of the slots. -/

/-- A register of the cartridge slots. -/
def SlotReg (r : Nat) : Prop := 0x40520000 ≤ r ∧ r < 0x40530000

section
variable (d : Dev) {a : Nat} (ha : a < 64)
include ha

theorem steady_setAxState_slot (st : AxState) : Steady SlotReg d (setAxState a st d) :=
  (calm_setAxState d ha st).toSteady.mono fun r hr => ⟨fun h => by simp only [SlotReg, Working] at *; omega,
    fun h => by simp only [SlotReg, CU_STATE] at *; omega⟩

theorem steady_takeBond_slot : Steady SlotReg d (takeBond a d) :=
  (calm_takeBond d ha).toSteady.mono fun r hr h => by simp only [SlotReg, Working] at *; omega

theorem steady_setDriveState_slot (st : AxState) : Steady SlotReg d (setDriveState a st d) := by
  unfold setDriveState
  extract_lets d1
  have h1 : Steady SlotReg d d1 := .ite (steady_takeBond_slot d ha) (.refl _ d)
  exact h1.trans (.each (fun m hm t => steady_setAxState_slot t (members_lt d1 ha m hm) st) d1)

theorem steady_put_cu (f : Fld) (v : Nat) (hf : CU_STATE a ≤ f.addr ∧ f.addr < CU_STATE a + 0x800) :
    Steady SlotReg d (d.put f v) :=
  .put d f v (by simp only [SlotReg, CU_STATE] at *; omega) (by simp only [CU_STATE, EVC_PEND] at *; omega)

theorem steady_abandonHandover_slot : Steady SlotReg d (abandonHandover a d) := by
  have hfail : Steady SlotReg d (d.bump (CU_DTCSTAT_HOFAIL a) 1) :=
    steady_put_cu d ha _ _ (by simp only [CU_DTCSTAT_HOFAIL, CU_DTCSTAT, CU_STATE]; omega)
  exact (hfail.onDtc a _).trans (steady_setDriveState_slot _ ha .sixstep)

theorem steady_enterDecel_slot : Steady SlotReg d (enterDecel a d) := by
  unfold enterDecel
  extract_lets st d1
  have h1 : Steady SlotReg d d1 := .ite (steady_abandonHandover_slot d ha) (.refl _ d)
  have href : ∀ (w : Word) (t : Dev), Steady SlotReg t (t.setReg (CU_DECREF a) w) := fun w t =>
    .setReg t w (by simp only [SlotReg, CU_DECREF]; omega) (by simp only [CU_DECREF, EVC_PEND]; omega)
  exact h1.trans (.ite ((steady_setDriveState_slot d1 ha .hiz).onDtc a _)
    (((steady_setDriveState_slot d1 ha .decel).trans (href _ _)).onDtc a _))

theorem steady_doStop_slot : Steady SlotReg d (doStop a d) := by
  unfold doStop
  extract_lets st
  refine .ite (steady_setDriveState_slot d ha _) (.ite (steady_setDriveState_slot d ha _) (.ite ?_ (.ite ?_ ?_)))
  · exact ((Steady.refl _ d).onDtc a _).trans (steady_enterDecel_slot _ ha)
  · exact (Steady.refl _ d).onDtc a _
  · exact steady_put_cu d ha (CU_STAT_REFUSE a) 1 (by simp only [CU_STAT_REFUSE, CU_STAT, CU_STATE]; omega)

theorem steady_stopForChange_slot : Steady SlotReg d (stopForChange a d) := by
  unfold stopForChange
  extract_lets st
  exact .ite (steady_setDriveState_slot d ha .off) (.ite (.refl _ d) (steady_doStop_slot d ha))

end

section
variable {d : Dev} {q : Nat} (src : Nat)

theorem slotReg_stat {k : Nat} (hk : k < 16) : SlotReg (CSL_STAT k) := by simp only [SlotReg, CSL_STAT]; omega

/-- A release that starts, whatever the axes of the quad do (R52). -/
theorem requestRelease_begins (hq : q < 16) (hx : ∀ x < 16, x ≠ q → d.get (CSL_STAT_STATE x) ≠ 4)
    (h2 : d.get (CSL_STAT_STATE q) = 2) :
    (requestRelease q src d).get (CSL_STAT_STATE q) = 4 ∧ (requestRelease q src d).pend 1009 = true := by
  have hc : ¬ ((List.range 16).any (fun x => x ≠ q && d.get (CSL_STAT_STATE x) = 4) ||
      d.get (CSL_STAT_STATE q) ≠ 2) = true := by
    simp only [h2, ne_eq, not_true, decide_false, Bool.or_false, List.any_eq_true, not_exists, not_and]
    intro x hxm hx'
    simp only [Bool.and_eq_true, decide_eq_true_eq] at hx'
    exact hx x (List.mem_range.1 hxm) hx'.1 hx'.2
  have hfar : ∀ r, SlotReg r → Far r := fun r hr => by simp only [SlotReg, Far] at *; omega
  have hab : ∀ r, SlotReg r → EVC_PEND 64 ≤ r := fun r hr => (hfar r hr).above_events
  unfold requestRelease
  extract_lets other e1 e2 e3
  rw [if_neg hc]
  have h1 : Steady SlotReg (d.put (CSL_STAT_STATE q) 4) e1 :=
    ((steady_journal 5 src [1009, q] _).mono hfar).trans (steady_raise hab (by decide) _)
  have hp1 : e1.pend 1009 = true := pend_raise_same (by decide) _
  have h3 : e3.regs = e1.regs := each_frame Dev.regs _ _ (fun a t => (countHours_keeps t a q).1) e2
  have h3reg : ∀ r, e3.reg r = e1.reg r := fun r => by rw [Dev.reg, h3, Dev.reg]
  have h4 : Steady SlotReg e3 (e3.each (quadAxes q) fun a d => if d.lowest a = a then stopForChange a d else d) :=
    .each (fun a ha t => .ite (steady_stopForChange_slot t (quadAxes_lt hq ha)) (.refl _ t)) e3
  have h5 := h4.trans ((steady_cartridgeRecord q _).mono hfar)
  refine ⟨?_, h5.pend 1009 (by decide) ((pend_congr (h3reg _)).trans hp1)⟩
  calc (cartridgeRecord q _).get (CSL_STAT_STATE q)
      = e3.get (CSL_STAT_STATE q) := h5.get (f := CSL_STAT_STATE q) (slotReg_stat hq)
    _ = e1.get (CSL_STAT_STATE q) := congrArg (fun w => wordGet w 0 4) (h3reg _)
    _ = (d.put (CSL_STAT_STATE q) 4).get (CSL_STAT_STATE q) := h1.get (f := CSL_STAT_STATE q) (slotReg_stat hq)
    _ = 4 := get_put_const d (CSL_STAT_STATE q) 4 rfl

/-- A release that is refused leaves the state of every slot (R53). -/
theorem requestRelease_keeps (h : d.get (CSL_STAT_STATE q) ≠ 2) : (requestRelease q src d).get CSL_PANEL_RELREF = 1 ∧
    ∀ k < 16, (requestRelease q src d).get (CSL_STAT_STATE k) = d.get (CSL_STAT_STATE k) := by
  have he : requestRelease q src d = journal 2 src [q] ((d.put CSL_PANEL_RELREF 1).onSlot q fun s =>
    { s with refusedAt := some d.now }) := if_pos (by simp [h])
  rw [he]
  have hs := steady_journal 2 src [q] ((d.put CSL_PANEL_RELREF 1).onSlot q fun s => { s with refusedAt := some d.now })
  refine ⟨?_, fun k hk => ?_⟩
  · rw [hs.get (f := CSL_PANEL_RELREF) (by unfold Far; decide)]
    exact get_put_const d CSL_PANEL_RELREF 1 rfl
  · rw [hs.get (f := CSL_STAT_STATE k) (watched_slot hk).far]
    exact get_put_ne d CSL_PANEL_RELREF (CSL_STAT_STATE k) 1
      (by simp only [CSL_STAT_STATE, CSL_STAT, CSL_PANEL_RELREF, CSL_PANEL]; omega)

end

/-- A CARTREL as a message. -/
def cartrelMessage (h : Ctl) (g : Nat) : Msg := { op := 0x31, axis := 255, arg := g, wellFormed := shortOnly h && true }

/-- What a CARTREL does. -/
def cartrelAct (q : Nat) : Action := fun _ y =>
  let d := requestRelease q 1 y.1
  (if d.get (CSL_STAT_STATE q) = 4 && y.1.get (CSL_STAT_STATE q) = 2 then 0 else 6, 0, (d, y.2))

section
variable (s : State) (h : Ctl) (q : Fin 16) {z : Nat}

theorem execCartrel_eq : execCartrel h 255 ⟨q, by omega⟩ =
    onDM (Machine.control h (cartrelMessage h q) needDevice (cartrelAct (q % 16))) := rfl

theorem cartrel_wellFormed (hsh : shortOnly h = true) : (cartrelMessage h q).wellFormed = true := by
  simp [cartrelMessage, hsh]

theorem unjournalled_slot {r : Nat} (hr : SlotReg r) : Unjournalled r := by
  simp only [Unjournalled, NoEvents, EVC_PEND, SlotReg] at *; omega

theorem cartrel_starts (hl : s.dev.sys.logicOn = true) (hx : s.dev.expects h 49 255 q.val z) (hsh : shortOnly h = true)
    (hc : s.dev.devClaim = some z) (h2 : s.dev.get (CSL_STAT_STATE q) = 2)
    (hother : ∀ k : Fin 16, k ≠ q → s.dev.get (CSL_STAT_STATE k) ≠ 4) :
    Does (.cartrel h 255 ⟨q.val, by omega⟩) s fun t => t.get (CSL_STAT_STATE q) = 4 ∧ t.pend 1009 = true ∧ t.answers
          h 49 255 (0) (0) := by
  have h2' : (ready s.dev z h).get (CSL_STAT_STATE q) = 2 := (ready_get s.dev z h _).trans h2
  obtain ⟨hst, hpend⟩ := requestRelease_begins (d := ready s.dev z h) 1 q.isLt (fun x hx hne => by
    rw [ready_get]
    exact hother ⟨x, hx⟩ (Fin.ne_of_val_ne hne)) h2'
  have hact : cartrelAct (q % 16) z (ready s.dev z h, s.mem) = (0, 0, (requestRelease q 1 (ready s.dev z h), s.mem)) := by
    rw [Nat.mod_eq_of_lt q.isLt, cartrelAct]
    simp only [hst, h2', decide_true, Bool.and_self, if_true]
  generalize requestRelease q 1 (ready s.dev z h) = y at hst hpend hact
  have hd := calm_done (z := z) (h := h) (m := cartrelMessage h q) (v := 0) s.dev y
  refine does_onDM (execCartrel h 255 ⟨q, by omega⟩) rfl (execCartrel_eq h q) hl
    (control_done (m := cartrelMessage h q) hx (cartrel_wellFormed h q hsh) rfl (needDevice_held hc) hact)
    ⟨?_, hd.pend 1009 (by decide) hpend, done_answers (m := cartrelMessage h q) s.dev y⟩
  rw [hd.get (f := CSL_STAT_STATE q) (unjournalled_slot (slotReg_stat q.isLt)), hst]

theorem cartrel_refused (hl : s.dev.sys.logicOn = true) (hx : s.dev.expects h 49 255 q.val z) (hsh : shortOnly h = true)
    (hc : s.dev.devClaim = some z) (h2 : s.dev.get (CSL_STAT_STATE q) ≠ 2) :
    Does (.cartrel h 255 ⟨q.val, by omega⟩) s fun t => t.get CSL_PANEL_RELREF = 1 ∧ t.answers h 49 255 (6) (0) ∧ (∀
          k : Fin 16, t.get (CSL_STAT_STATE k) = s.dev.get (CSL_STAT_STATE k)) := by
  have h2' : (ready s.dev z h).get (CSL_STAT_STATE q) ≠ 2 := by rwa [ready_get]
  obtain ⟨href, hkeep⟩ := requestRelease_keeps (d := ready s.dev z h) 1 h2'
  have hact : cartrelAct (q % 16) z (ready s.dev z h, s.mem) = (6, 0, (requestRelease q 1 (ready s.dev z h), s.mem)) := by
    rw [Nat.mod_eq_of_lt q.isLt, cartrelAct]
    simp [h2']
  generalize requestRelease q 1 (ready s.dev z h) = y at href hkeep hact
  refine does_onDM (execCartrel h 255 ⟨q, by omega⟩) rfl (execCartrel_eq h q) hl
    (control_declined (m := cartrelMessage h q) hx (cartrel_wellFormed h q hsh) rfl (needDevice_held hc) (by decide) hact)
    ⟨?_, reply_settle 6, fun k => ?_⟩
  · rw [settle_get, href]
  · rw [settle_get, hkeep k k.isLt, ready_get]

end

end Sys2Proof.Proofs
end

section
namespace Sys2Proof.Proofs
open Sys2Proof Sys2Proof.Machine Sys2Proof.Laws Reg

/-! ### MODE (R95, R96, R390) -/

/-! What a change of mode leaves: SYS_MODE once written, and whether a slot is in use. -/

/-- SYS_MODE stays, and slot `z` stays in use. -/
structure SysKept (z : Nat) (d t : Dev) : Prop where
  word : t.reg SYS_MODE = d.reg SYS_MODE
  used : (t.clientOf z).used = (d.clientOf z).used

namespace SysKept
variable {z : Nat} {d e t : Dev}

theorem refl (z : Nat) (d : Dev) : SysKept z d d := ⟨rfl, rfl⟩

theorem trans (h : SysKept z d e) (h' : SysKept z e t) : SysKept z d t := ⟨h'.word.trans h.word, h'.used.trans h.used⟩

theorem of_hidden (hr : t.regs = d.regs) (hc : t.clients = d.clients) : SysKept z d t :=
  ⟨by rw [Dev.reg, hr, Dev.reg], by rw [Dev.clientOf, hc, Dev.clientOf]⟩

theorem of_clients (hr : t.reg SYS_MODE = d.reg SYS_MODE) (hc : t.clients = d.clients) : SysKept z d t :=
  ⟨hr, by rw [Dev.clientOf, hc, Dev.clientOf]⟩

theorem ite {c : Prop} [Decidable c] {u : Dev} (ht : SysKept z d t) (hu : SysKept z d u) : SysKept z d (if c then t else u) := by
  split
  · exact ht
  · exact hu

theorem each {α : Type} {l : List α} {f : α → Dev → Dev} (hf : ∀ x t, SysKept z t (f x t)) (d : Dev) :
    SysKept z d (d.each l f) := each_keeps (SysKept z d) l f (fun x t h => h.trans (hf x t)) d (refl z d)

theorem setReg (d : Dev) {r : Nat} (w : Word) (h : r ≠ SYS_MODE) : SysKept z d (d.setReg r w) :=
  ⟨reg_setReg_ne d w (Ne.symm h), rfl⟩

theorem put (d : Dev) (f : Fld) (v : Nat) (h : f.addr ≠ SYS_MODE) : SysKept z d (d.put f v) := setReg d _ h

theorem setMask64 (d : Dev) {lo hi : Nat} (m : Nat) (hlo : lo ≠ SYS_MODE) (hhi : hi ≠ SYS_MODE) :
    SysKept z d (d.setMask64 lo hi m) := (setReg d _ hlo).trans (setReg _ _ hhi)

section
variable (h : SysKept z d t)
include h

theorem onSess (i : Nat) (f : SessH → SessH) : SysKept z d (t.onSess i f) := h.trans (of_hidden rfl rfl)

theorem onPair (i : Nat) (f : PairH → PairH) : SysKept z d (t.onPair i f) := h.trans (of_hidden rfl rfl)

theorem onPort (i : Nat) (f : PortH → PortH) : SysKept z d (t.onPort i f) := h.trans (of_hidden rfl rfl)

theorem onCan (i : Nat) (f : CanH → CanH) : SysKept z d (t.onCan i f) := h.trans (of_hidden rfl rfl)

theorem onSsq (f : SsqH → SsqH) : SysKept z d (t.onSsq f) := h.trans (of_hidden rfl rfl)

theorem onPeal (f : Peal → Peal) : SysKept z d (t.onPeal f) := h.trans (of_hidden rfl rfl)

theorem onSys (f : SysH → SysH) : SysKept z d (t.onSys f) := h.trans (of_hidden rfl rfl)

theorem onWin (f : WinH → WinH) : SysKept z d (t.onWin f) := h.trans (of_hidden rfl rfl)

theorem onSp0 (f : Sp0H → Sp0H) : SysKept z d (t.onSp0 f) := h.trans (of_hidden rfl rfl)

theorem onAux (f : AuxH → AuxH) : SysKept z d (t.onAux f) := h.trans (of_hidden rfl rfl)

end

theorem mode (h : SysKept z d t) : t.mode = d.mode := by
  rw [Dev.mode, Dev.mode, Dev.get, Dev.get, show t.reg SYS_MODE_MODE.addr = d.reg SYS_MODE_MODE.addr from h.word]

theorem get (h : SysKept z d t) {f : Fld} (hf : f.addr = SYS_MODE) : t.get f = d.get f := by
  rw [Dev.get, hf, h.word, Dev.get, hf]

end SysKept

section
variable {z : Nat} (d : Dev)

/-- SYS_MODE holds no journal results and no events. -/
theorem noEvents_mode : NoEvents SYS_MODE := by simp only [NoEvents, EVC_PEND, SYS_MODE]; omega

theorem kept_raise {n : Nat} (hn : n < 1024) : SysKept z d (raise n d) :=
  .of_clients ((Calm.raise (K := (· = SYS_MODE)) (E := fun _ => False) hn (fun _ h => h ▸ noEvents_mode) id d).reg _ rfl)
    (raise_clients d n)

theorem kept_raiseIn {evt base n : Nat} (hn : base + n < 1024) (he : evt ≠ SYS_MODE) : SysKept z d (raiseIn evt base n d) :=
  (SysKept.put d ⟨evt, n, 1⟩ 1 he).trans (kept_raise _ hn)

theorem kept_journal (typ srck : Nat) (payload : List Nat) : SysKept z d (journal typ srck payload d) :=
  .of_clients ((calm_journal d typ srck payload).reg _ unjournalled_mode) (clients_submitRec _ _ _ _ d)

theorem kept_raiseSys {n : Nat} (hn : n < 3) : SysKept z d (raiseSys n d) :=
  kept_raiseIn d (base := 1015) (by omega) (by decide : SYS_EVT ≠ SYS_MODE)

theorem kept_raiseLss {n : Nat} (hn : n < 32) : SysKept z d (raiseLss n d) :=
  kept_raiseIn d (base := 896) (by omega) (by decide : LSS_EVT ≠ SYS_MODE)

theorem kept_raisePse {n : Nat} (hn : n < 12) : SysKept z d (raisePse n d) :=
  kept_raiseIn d (base := 992) (by omega) (by decide : PSE_EVT ≠ SYS_MODE)

theorem scu_evt_ne : SCU_EVT ≠ SYS_MODE := by decide

theorem kept_sessAbort {s : Nat} (cause : Nat) : SysKept z d (sessAbort s cause d) := by
  have hput : ∀ (f : Fld) v t, f.addr = SCU_SSTAT s → SysKept z t (t.put f v) := fun f v t hf =>
    .put t f v (by rw [hf]; simp only [SCU_SSTAT, SYS_MODE]; omega)
  have hevt : ∀ t, SysKept z t (raiseScu s 0 t) := fun t =>
    (SysKept.put t ⟨SCU_EVT, 4 * s + 0, 1⟩ 1 scu_evt_ne).trans (kept_raise _ (by decide))
  unfold sessAbort
  exact .ite ((((hput (SCU_SSTAT_STATE s) 3 d rfl).trans (hput (SCU_SSTAT_CAUSE s) cause _ rfl)).onSess s _).trans (hevt _))
    (.refl z d)

theorem kept_sessionsOnMode (m : Mode) : SysKept z d (sessionsOnMode m d) :=
  .each (fun _ t => .ite (kept_sessAbort t 13) (.refl z t)) d

/-- A client's response is stored without a change of the slot's use. -/
theorem kept_tellPeal (res : Nat) : SysKept z d (tellPeal res d) := by
  unfold tellPeal
  extract_lets d1
  have h1 : SysKept z d d1 := by
    simp only [d1]
    split
    · rename_i s r _
      refine ⟨rfl, ?_⟩
      by_cases hs : z = s
      · subst hs
        refine (congrArg ClientH.used (clientOf_onClient_same d z _)).trans ?_
        split <;> rfl
      · exact congrArg ClientH.used (clientOf_onClient_ne d _ hs)
    · exact .refl z d
  refine h1.trans (.each (fun p t => ?_) d1)
  split
  · exact .of_hidden rfl rfl
  · exact .refl z t

theorem kept_migrationAfterPeal : SysKept z d (migrationAfterPeal d) := by
  unfold migrationAfterPeal
  split
  · refine .ite ?_ (.refl z d)
    extract_lets tm
    exact (((SysKept.refl z d).onSsq _).trans (.put _ LSS_MIGRES_RES 1 (by decide))).trans (.put _ LSS_MIGTS_TM _ (by decide))
  · exact .refl z d

theorem kept_pealEnd (res fail mixed : Nat) : SysKept z d (pealEnd res fail mixed d) := by
  unfold pealEnd
  extract_lets d1 d2
  have h1 : SysKept z d d1 := (SysKept.setMask64 d fail (by decide) (by decide)).trans (.setMask64 _ mixed (by decide) (by decide))
  have h2 : SysKept z d1 d2 := ((kept_tellPeal d1 res).trans (.put _ SYS_PEAL_RES_RES res (by decide))).trans
    (.put _ SYS_PEAL_RES_NBAD (axesOf (fail ||| mixed)).length (by decide))
  exact (((h1.trans h2).onPeal _).trans (kept_raiseSys _ (by decide))).trans (kept_migrationAfterPeal _)

theorem kept_loseRoles (p : Nat) : SysKept z d (loseRoles p d) := by
  unfold loseRoles
  extract_lets d1 d2
  have h1 : SysKept z d d1 :=
    .ite ((SysKept.put d SWC_STAT_AGENTLOST 1 (by decide)).onWin _) (.refl z d)
  have h2 : SysKept z d1 d2 :=
    .ite ((SysKept.put d1 SP0_STAT_OWNLOST 1 (by decide)).onSp0 _) (.refl z d1)
  exact (h1.trans h2).trans (.each (fun c t => .ite ((SysKept.refl z t).onCan c _) (.refl z t)) d2)

theorem split_ne : LSS_SPLIT ≠ SYS_MODE := by decide

theorem kept_setPairSt {p : Nat} (st : PairState) : SysKept z d (setPairSt p st d) := by
  unfold setPairSt
  extract_lets d1 d2
  have h1 : SysKept z d d1 := .put d (LSS_PAIRST_ST p) _ (by simp only [LSS_PAIRST_ST]; decide)
  have h2 : SysKept z d1 d2 := .ite (kept_loseRoles d1 p) (.refl z d1)
  exact (h1.trans h2).trans (.ite (.put d2 ⟨LSS_SPLIT, p, 1⟩ 1 split_ne) (.put d2 ⟨LSS_SPLIT, p, 1⟩ 0 split_ne))

theorem kept_beginPairReset (p : Nat) : SysKept z d (beginPairReset p d) := by
  unfold beginPairReset
  extract_lets d1
  have h1 : SysKept z d d1 := .ite (kept_raiseLss d (by decide)) (.refl z d)
  exact ((h1.trans (kept_setPairSt d1 .reset)).onPair p _).onSsq _

theorem kept_joinSplit : SysKept z d (joinSplit d) := .each (fun p t => .ite (kept_beginPairReset t p) (.refl z t)) d

theorem kept_auxOnMode (m : Mode) : SysKept z d (auxOnMode m d) := by
  unfold auxOnMode
  extract_lets d1
  have h1 : SysKept z d d1 := .ite ((SysKept.refl z d).onAux _) (.refl z d)
  exact h1.trans (.of_clients (sameRegs_auxFollow d1 SYS_MODE (by decide)) (auxShape_auxFollow d1).clients)

theorem kept_autoTimer (m : Mode) : SysKept z d (autoTimer m d) := by
  unfold autoTimer
  exact (SysKept.refl z d).onSys _

theorem kept_enterArmed (r : Nat) : SysKept z d (enterArmed r d) := by
  have hclamp : SysKept z d (clampTest r d) := by
    unfold clampTest
    refine .ite ?_ (.refl z d)
    exact .ite ((SysKept.put d PSE_CLAMP_RCLMP r (by decide)).trans (kept_raisePse _ (by decide)))
      (.put d PSE_CLAMP_RCLMP r (by decide))
  exact hclamp.trans (SysKept.each (fun a t => .ite ((SysKept.refl z t).onPort a _) (.refl z t)) _)

/-- SYS_MODE as a requested change of mode leaves it. -/
def modeTaken (m : Mode) (d : Dev) : Dev :=
  ((d.put SYS_MODE_PREV d.mode.code).put SYS_MODE_MODE m.code).put SYS_MODE_PEND 0

theorem kept_enterMode (m : Mode) (cause : Nat) : SysKept z (modeTaken m d) (enterMode m false cause d) := by
  unfold enterMode
  extract_lets old pended d1 d2 d3 d4 d5 d6 d7
  have h2 : d2 = d1 := if_neg (by rw [Bool.and_false]; decide)
  have h3 : SysKept z d1 d3 := h2 ▸ (SysKept.refl z d2).onSys _
  have h4 : SysKept z d3 d4 := .ite (kept_pealEnd d3 _ _ _) (.refl z d3)
  have h5 : SysKept z d4 d5 := ((SysKept.refl z d4).onSsq _).trans (kept_sessionsOnMode _ m)
  have h6 : d6 = d5 := if_neg (by rw [Bool.false_and]; decide)
  have h7 : SysKept z d5 d7 := h6 ▸ (SysKept.ite (kept_joinSplit d6) (.refl z d6)).trans (kept_auxOnMode _ old)
  have h8 := ((h3.trans h4).trans h5).trans h7
  exact ((h8.trans (kept_raiseSys d7 (by decide))).trans (kept_journal _ _ _ _)).trans (kept_autoTimer _ m)

end

/-! The request. -/

section
variable (d : Dev)

theorem mode_ofCode {n : Nat} {k : Mode} (h : Mode.ofCode n = some k) : k.code = n ∧ Mode.ofCode k.code = some k := by
  match n with
  | 0 | 1 | 2 | 3 | 4 | 5 | 6 | 7 | 8 | 9 | 10 | 11 => cases h; exact ⟨rfl, rfl⟩

theorem mode_code_lt (k : Mode) : k.code < 16 := by cases k <;> decide

/-- The refusal code and the mode are apart, and the other registers stay. -/
theorem get_put_modeRefuse (v : Nat) {f : Fld} (hf : f.addr ≠ SYS_MODE ∨ f = SYS_MODE_MODE ∨ f = SYS_MODE_PEND) :
    (d.put SYS_MODE_REFUSE v).get f = d.get f := by
  rcases hf with hf | rfl | rfl
  · exact get_put_ne d SYS_MODE_REFUSE f v hf
  · exact get_put_apart d SYS_MODE_REFUSE SYS_MODE_MODE v rfl rfl
  · exact get_put_apart d SYS_MODE_REFUSE SYS_MODE_PEND v rfl rfl

theorem mode_put_modeRefuse (v : Nat) : (d.put SYS_MODE_REFUSE v).mode = d.mode := by
  rw [Dev.mode, get_put_modeRefuse d v (.inr (.inl rfl)), Dev.mode]

theorem axSt_put_modeRefuse (v a : Nat) : (d.put SYS_MODE_REFUSE v).axSt a = d.axSt a :=
  congrArg AxState.ofCode (get_put_modeRefuse d v (.inl (by simp only [CU_STATE_STATE, CU_STATE, SYS_MODE]; omega)))

theorem on_put_modeRefuse (v : Nat) {f : Fld} (hf : f.addr ≠ SYS_MODE ∨ f = SYS_MODE_MODE ∨ f = SYS_MODE_PEND) :
    (d.put SYS_MODE_REFUSE v).on f = d.on f := by
  rw [Dev.on, get_put_modeRefuse d v hf, Dev.on]

theorem formeValid_put (f : Fld) (v : Nat) : (d.put f v).formeValid = d.formeValid := by
  rw [Dev.formeValid, put_jnl, Dev.formeValid]

/-- Neither the refusal code nor the slots of the clients are read by a request (R95, R96). -/
theorem modeRefusal_put_modeRefuse (v : Nat) (k : Mode) : (d.put SYS_MODE_REFUSE v).modeRefusal k = d.modeRefusal k := by
  have hcause : (d.put SYS_MODE_REFUSE v).causePresent = d.causePresent := by
    rw [Dev.causePresent, on_put_modeRefuse d v (.inl (by decide)), on_put_modeRefuse d v (.inl (by decide)),
      on_put_modeRefuse d v (.inl (by decide)), on_put_modeRefuse d v (.inl (by decide)), Dev.causePresent]
  rw [Dev.modeRefusal, mode_put_modeRefuse, hcause, on_put_modeRefuse d v (.inr (.inr rfl)),
    get_put_modeRefuse d v (.inl (by decide)), formeValid_put, Dev.modeRefusal]
  simp only [axSt_put_modeRefuse]

theorem mustStop_put_modeRefuse (v : Nat) (k : Mode) : (d.put SYS_MODE_REFUSE v).mustStop k = d.mustStop k := by
  rw [Dev.mustStop, mode_put_modeRefuse, Dev.mustStop]
  simp only [axSt_put_modeRefuse]

theorem modeRefusal_lt (k : Mode) : d.modeRefusal k < 8 := by
  unfold Dev.modeRefusal
  split_ifs <;> decide

variable {z : Nat} {h : Ctl}

theorem modeRefusal_ready (k : Mode) : (ready d z h).modeRefusal k = d.modeRefusal k := by
  obtain ⟨cl, he⟩ := ready_shape d z h
  rw [he]
  rfl

theorem mustStop_ready (k : Mode) : (ready d z h).mustStop k = d.mustStop k := by
  obtain ⟨cl, he⟩ := ready_shape d z h
  rw [he]
  rfl

theorem mode_ready : (ready d z h).mode = d.mode := by rw [Dev.mode, ready_get, Dev.mode]

end

/-- The fields of SYS_MODE once a requested mode is taken (R97). -/
theorem modeTaken_fields (d : Dev) {k : Mode} (hk : Mode.ofCode k.code = some k) : (modeTaken k d).mode = k ∧
    (modeTaken k d).get SYS_MODE_PREV = d.mode.code ∧ (modeTaken k d).get SYS_MODE_REFUSE = d.get SYS_MODE_REFUSE := by
  have hmode : (modeTaken k d).get SYS_MODE_MODE = k.code :=
    (get_put_apart _ SYS_MODE_PEND SYS_MODE_MODE 0 rfl rfl).trans
      (get_put_fits (d.put SYS_MODE_PREV d.mode.code) SYS_MODE_MODE rfl (mode_code_lt k))
  refine ⟨?_, ?_, ?_⟩
  · rw [Dev.mode, hmode, hk]
    rfl
  · rw [modeTaken, get_put_apart _ SYS_MODE_PEND SYS_MODE_PREV 0 rfl rfl,
      get_put_apart _ SYS_MODE_MODE SYS_MODE_PREV _ rfl rfl]
    exact get_put_fits d SYS_MODE_PREV rfl (mode_code_lt d.mode)
  · rw [modeTaken, get_put_apart _ SYS_MODE_PEND SYS_MODE_REFUSE 0 rfl rfl,
      get_put_apart _ SYS_MODE_MODE SYS_MODE_REFUSE _ rfl rfl, get_put_apart _ SYS_MODE_PREV SYS_MODE_REFUSE _ rfl rfl]

theorem clientOf_modeTaken (k : Mode) (d : Dev) (z : Nat) : (modeTaken k d).clientOf z = d.clientOf z := by
  rw [modeTaken, clientOf_put, clientOf_put, clientOf_put]

/-- The block a requested mode is entered in. -/
def modeEntered (k : Mode) (r : Nat) (d : Dev) : Dev :=
  if k = .armed then enterArmed r (enterMode k false 0 d) else enterMode k false 0 d

theorem kept_modeEntered {z : Nat} (k : Mode) (r : Nat) (d : Dev) : SysKept z (modeTaken k d) (modeEntered k r d) :=
  .ite ((kept_enterMode d k 0).trans (kept_enterArmed _ r)) (kept_enterMode d k 0)

/-- A request that is taken up at once (R96, R98). -/
theorem requestMode_enters {d : Dev} {k : Mode} (src r : Nat) {mem : List Host.Cell} (hr : d.modeRefusal k = 0)
    (hs : d.mustStop k = false) (hk : k ≠ .dormant) (hsafe : d.mode ≠ .safe) :
    requestMode (some k) src r (d, mem) = (modeEntered k r d, mem) := by
  unfold requestMode
  simp only [hr, hs, ne_eq, not_true_eq_false, if_false, Bool.false_eq_true]
  unfold enterRequested
  simp only [hsafe, decide_false, Bool.false_and, Bool.false_eq_true, if_false, hk]
  rfl

/-- A request that is refused (R95). -/
theorem requestMode_refused {d : Dev} {k : Mode} (src r : Nat) {mem : List Host.Cell} (hr : 0 < d.modeRefusal k) :
    requestMode (some k) src r (d, mem) =
      (journal 2 src [SYS_MODEREQ, d.modeRefusal k] (d.put SYS_MODE_REFUSE (d.modeRefusal k)), mem) := by
  unfold requestMode
  simp only [ne_eq, Nat.ne_of_gt hr, not_false_eq_true, if_true]
  rfl

section
variable {d : Dev} {g r z : Nat} {k : Mode} {mem : List Host.Cell} (hk : Mode.ofCode (g % 16) = some k)
include hk

/-- A MODE that is taken up at once leaves the refusal code as it was (R95, R96). -/
theorem modeAct_enters (hr : d.modeRefusal k = 0) (hs : d.mustStop k = false) (hd : k ≠ .dormant) (hsafe : d.mode ≠ .safe) :
    ∃ y, modeAct g r z (d, mem) = (0, 0, (y, mem)) ∧ y.mode = k ∧ y.get SYS_MODE_PREV = d.mode.code ∧
      (y.clientOf z).used = (d.clientOf z).used := by
  obtain ⟨-, hkk⟩ := mode_ofCode hk
  have hmode := mode_put_modeRefuse d 0
  have henter := requestMode_enters (d := d.put SYS_MODE_REFUSE 0) (k := k) 1 r (mem := mem)
    ((modeRefusal_put_modeRefuse d 0 k).trans hr) ((mustStop_put_modeRefuse d 0 k).trans hs) hd (by rw [hmode]; exact hsafe)
  obtain ⟨hm, hp, hc⟩ := modeTaken_fields (d.put SYS_MODE_REFUSE 0) hkk
  have hkept := kept_modeEntered (z := z) k r (d.put SYS_MODE_REFUSE 0)
  have hcode := ((hkept.get (f := SYS_MODE_REFUSE) rfl).trans hc).trans (get_put_const d SYS_MODE_REFUSE 0 rfl)
  have hmode' := hkept.mode.trans hm
  have hprev := ((hkept.get (f := SYS_MODE_PREV) rfl).trans hp).trans (congrArg Mode.code hmode)
  have hused : ((modeEntered k r (d.put SYS_MODE_REFUSE 0)).clientOf z).used = (d.clientOf z).used := by
    rw [hkept.used, clientOf_modeTaken, clientOf_put]
  generalize modeEntered k r (d.put SYS_MODE_REFUSE 0) = y at henter hcode hmode' hprev hused
  refine ⟨y.put SYS_MODE_REFUSE (d.get SYS_MODE_REFUSE), ?_, (mode_put_modeRefuse y _).trans hmode',
    (get_put_apart y SYS_MODE_REFUSE SYS_MODE_PREV _ rfl rfl).trans hprev, by rw [clientOf_put, hused]⟩
  unfold modeAct
  simp only [hk, DM.dev, henter, hcode, if_true]

/-- A MODE that is refused answers its code (R95). -/
theorem modeAct_refused {c : Nat} (hc : d.modeRefusal k = c) (hr : 0 < c) :
    ∃ y, modeAct g r z (d, mem) = (6, c, (y, mem)) ∧ y.mode = d.mode ∧ y.get SYS_MODE_REFUSE = c := by
  have hlt : c < 16 := Nat.lt_of_lt_of_le (hc ▸ modeRefusal_lt d k) (by decide)
  have hc' := (modeRefusal_put_modeRefuse d 0 k).trans hc
  have href := requestMode_refused (d := d.put SYS_MODE_REFUSE 0) (k := k) 1 r (mem := mem) (hc'.symm ▸ hr)
  rw [hc'] at href
  have hj := calm_journal ((d.put SYS_MODE_REFUSE 0).put SYS_MODE_REFUSE c) 2 1 [SYS_MODEREQ, c]
  have hcode := (hj.get (f := SYS_MODE_REFUSE) unjournalled_mode).trans
    (get_put_fits (d.put SYS_MODE_REFUSE 0) SYS_MODE_REFUSE rfl hlt)
  have hmode : (journal 2 1 [SYS_MODEREQ, c] ((d.put SYS_MODE_REFUSE 0).put SYS_MODE_REFUSE c)).mode = d.mode := by
    rw [Dev.mode, hj.get (f := SYS_MODE_MODE) unjournalled_mode]
    exact (mode_put_modeRefuse _ c).trans (mode_put_modeRefuse d 0)
  generalize journal 2 1 [SYS_MODEREQ, c] ((d.put SYS_MODE_REFUSE 0).put SYS_MODE_REFUSE c) = y at href hcode hmode
  refine ⟨y, ?_, hmode, hcode⟩
  unfold modeAct
  simp only [hk, DM.dev, href, hcode, Nat.ne_of_gt hr, if_false]

end

section
variable (s : State) (h : Ctl) (g : Fin 16777216) (r : Fin 65536) (k : Mode) {z : Nat}

/-- SYS_MODE is not touched by a message's record. -/
theorem done_mode {m : Msg} {v : Nat} (d e : Dev) {f : Fld} (hf : f.addr = SYS_MODE) :
    (done z h m v d e).get f = e.get f := (calm_done d e).get (hf ▸ unjournalled_mode)

theorem mode_enters (hl : s.dev.sys.logicOn = true) (hx : s.dev.expects h 48 255 g.val z) (hsh : shortOnly h = true)
    (hc : s.dev.devClaim = some z) (hk : Mode.ofCode (g.val % 16) = some k) (hr : s.dev.modeRefusal k = 0)
    (hs : s.dev.mustStop k = false) (hd : k ≠ .dormant) (hsafe : s.dev.mode ≠ .safe) :
    Does (.mode h 255 g r) s fun t => t.mode = k ∧ t.get SYS_MODE_PREV = s.dev.mode.code ∧ t.answers h 48 255 (0)
          (0) ∧ (t.clientOf z).expect = (h.seq.val + 1) % 256 := by
  have hmode := mode_ready (z := z) (h := h) s.dev
  obtain ⟨y, hact, hy, hprev, hused⟩ := modeAct_enters (d := ready s.dev z h) (r := r) (z := z) (mem := s.mem) hk
    ((modeRefusal_ready s.dev k).trans hr) ((mustStop_ready s.dev k).trans hs) hd (by rw [hmode]; exact hsafe)
  refine does_onDM (t := done z h (modeMessage h g) 0 s.dev y) (execMode h 255 g r) rfl (execMode_eq h g r) hl
    (control_done (m := modeMessage h g) hx (mode_wellFormed h g hsh) rfl (needDevice_held hc) hact)
    ⟨?_, ?_, done_answers (m := modeMessage h g) s.dev y, done_expect (hused.trans (used_ready (m := modeMessage h g) hx))⟩
  · rw [Dev.mode, done_mode h s.dev y rfl]
    exact hy
  · rw [done_mode h s.dev y rfl, hprev, hmode]

theorem mode_refused (hl : s.dev.sys.logicOn = true) (hx : s.dev.expects h 48 255 g.val z) (hsh : shortOnly h = true)
    (hc : s.dev.devClaim = some z) (hk : Mode.ofCode (g.val % 16) = some k) (hr : 0 < s.dev.modeRefusal k) :
    Does (.mode h 255 g r) s fun t => t.mode = s.dev.mode ∧ t.answers h 48 255 (6) (s.dev.modeRefusal k) ∧ t.get
          SYS_MODE_REFUSE = s.dev.modeRefusal k := by
  obtain ⟨y, hact, hy, hcode⟩ := modeAct_refused (d := ready s.dev z h) (r := r) (z := z) (mem := s.mem) hk
    (modeRefusal_ready s.dev k) hr
  refine does_onDM (execMode h 255 g r) rfl (execMode_eq h g r) hl
    (control_declined (m := modeMessage h g) hx (mode_wellFormed h g hsh) rfl (needDevice_held hc) (by decide) hact)
    ⟨?_, reply_settle 6, ?_⟩
  · rw [Dev.mode, settle_get, ← mode_ready (z := z) (h := h) s.dev]
    exact hy
  · rw [settle_get, hcode]

end

end Sys2Proof.Proofs
end

section
namespace Sys2Proof.Proofs
open Sys2Proof Sys2Proof.Machine Sys2Proof.Laws Reg

/-! ### PEAL (R108, R109, R390) -/

/-- Registers of the peal machine are all that has changed of what the votes and the slots of clients read. -/
structure PealKept (d t : Dev) : Prop where
  reg : ∀ r, r < SYS_PEAL_CTL ∨ SYS_PEAL_TC < r → t.reg r = d.reg r
  ssq : t.ssq = d.ssq
  bond : t.bond = d.bond
  clients : t.clients = d.clients
  now : t.now = d.now

namespace PealKept
variable {d e t : Dev}

theorem refl (d : Dev) : PealKept d d := ⟨fun _ _ => rfl, rfl, rfl, rfl, rfl⟩

theorem trans (h : PealKept d e) (h' : PealKept e t) : PealKept d t :=
  ⟨fun r hr => (h'.reg r hr).trans (h.reg r hr), h'.ssq.trans h.ssq, h'.bond.trans h.bond, h'.clients.trans h.clients,
    h'.now.trans h.now⟩

theorem setReg (h : PealKept d t) {r : Nat} (w : Word) (hr : SYS_PEAL_CTL ≤ r ∧ r ≤ SYS_PEAL_TC) : PealKept d (t.setReg r w) :=
  h.trans ⟨fun x hx => reg_setReg_ne t w (by omega), rfl, rfl, rfl, rfl⟩

theorem put (h : PealKept d t) (f : Fld) (v : Nat) (hf : SYS_PEAL_CTL ≤ f.addr ∧ f.addr ≤ SYS_PEAL_TC) : PealKept d (t.put f v) :=
  h.setReg _ hf

theorem setMask64 (h : PealKept d t) {lo hi : Nat} (m : Nat) (hlo : SYS_PEAL_CTL ≤ lo ∧ lo ≤ SYS_PEAL_TC)
    (hhi : SYS_PEAL_CTL ≤ hi ∧ hi ≤ SYS_PEAL_TC) : PealKept d (t.setMask64 lo hi m) := (h.setReg _ hlo).setReg _ hhi

theorem onPeal (h : PealKept d t) (f : Peal → Peal) : PealKept d (t.onPeal f) := h.trans ⟨fun _ _ => rfl, rfl, rfl, rfl, rfl⟩

theorem pealFor (h : PealKept d t) (x : Option (Nat × Reply)) : PealKept d { t with pealFor := x } :=
  h.trans ⟨fun _ _ => rfl, rfl, rfl, rfl, rfl⟩

section
variable (h : PealKept d t)
include h

theorem get {f : Fld} (hf : f.addr < SYS_PEAL_CTL ∨ SYS_PEAL_TC < f.addr) : t.get f = d.get f :=
  congrArg (fun w => wordGet w f.lo f.width) (h.reg _ hf)

theorem on {f : Fld} (hf : f.addr < SYS_PEAL_CTL ∨ SYS_PEAL_TC < f.addr) : t.on f = d.on f := by
  rw [Dev.on, h.get hf, Dev.on]

theorem quadTooFast (a : Nat) : t.quadTooFast a = d.quadTooFast a := by
  rw [Dev.quadTooFast, Dev.isQuad, Dev.bondBits, h.bond, h.get (by simp only [CU_REV_TH, CU_REV, SYS_PEAL_TC]; omega),
    h.get (by simp only [CU_RATED_RATED, CU_RATED, SYS_PEAL_TC]; omega), h.reg _ (by simp only [CU_SPEED, SYS_PEAL_TC]; omega),
    Dev.quadTooFast, Dev.isQuad, Dev.bondBits]

theorem mode : t.mode = d.mode := by rw [Dev.mode, h.get (by decide), Dev.mode]

theorem axSt (a : Nat) : t.axSt a = d.axSt a :=
  congrArg AxState.ofCode (h.get (by simp only [CU_STATE_STATE, CU_STATE, SYS_PEAL_TC]; omega))

theorem heldSafe (a : Nat) : t.heldSafe a = d.heldSafe a := by
  rw [Dev.heldSafe, bit_congr (h.reg SYS_AXSAFE_LO (by decide)), bit_congr (h.reg SYS_AXSAFE_HI (by decide)), Dev.heldSafe]

theorem releasing (a : Nat) : t.releasing a = d.releasing a := by
  rw [Dev.releasing, h.get (by simp only [CSL_STAT_STATE, CSL_STAT, SYS_PEAL_TC]; omega), Dev.releasing]

/-- The votes are what they were (R109). -/
theorem pealRefuses (act a : Nat) : t.pealRefuses act a = d.pealRefuses act a := by
  have hmig : t.pealMigrating a = d.pealMigrating a := by
    rw [Dev.pealMigrating, Dev.migrating, h.ssq, Dev.pealMigrating, Dev.migrating]
  have hport := h.get (f := CSL_PORT_ST (a / 4) (a % 4)) (by simp only [CSL_PORT_ST, CSL_PORT, SYS_PEAL_TC]; omega)
  have hstaged := h.on (f := LE_LCTL_STAGED (a / 8) (a % 8)) (by simp only [LE_LCTL_STAGED, LE_LCTL, SYS_PEAL_TC]; omega)
  have hproved := h.get (f := LE_PROVED_PROVED (a / 8)) (by simp only [LE_PROVED_PROVED, LE_PROVED, SYS_PEAL_TC]; omega)
  unfold Dev.pealRefuses
  rw [hmig, h.axSt, h.heldSafe, h.releasing, h.mode, h.quadTooFast, hport, hstaged, hproved]

end

end PealKept

/-! The start of a peal. -/

/-- ACTION and LEAD of SYS_PEAL_CTL. -/
def pealSet (act lead : Nat) (d : Dev) : Dev := (d.put SYS_PEAL_CTL_ACTION act).put SYS_PEAL_CTL_LEAD lead

/-- The results of the last peal gone. -/
def pealCleared (d : Dev) : Dev :=
  ((d.setMask64 SYS_PEAL_FLO SYS_PEAL_FHI 0).setMask64 SYS_PEAL_XLO SYS_PEAL_XHI 0).put SYS_PEAL_RES_NBAD 0

/-- The peal votes. -/
def pealVoting (act : Nat) (d : Dev) : Dev :=
  (d.put SYS_PEAL_RES_RES 1).onPeal fun _ => {
    running := true, mask := d.pealMask, action := act, lead := max 2 (d.get SYS_PEAL_CTL_LEAD), goAt := d.now }

section
variable (d : Dev)

theorem pealMask_put (f : Fld) (v : Nat) (hlo : SYS_PEAL_MLO ≠ f.addr) (hhi : SYS_PEAL_MHI ≠ f.addr) :
    (d.put f v).pealMask = d.pealMask := by
  rw [Dev.pealMask, Dev.mask64, reg_put_ne d f v hlo, reg_put_ne d f v hhi, Dev.pealMask, Dev.mask64]

theorem pealMask_setMask64 {lo hi : Nat} (m : Nat) (hlo : SYS_PEAL_MLO ≠ lo ∧ SYS_PEAL_MLO ≠ hi)
    (hhi : SYS_PEAL_MHI ≠ lo ∧ SYS_PEAL_MHI ≠ hi) : (d.setMask64 lo hi m).pealMask = d.pealMask := by
  rw [Dev.pealMask, Dev.mask64, Dev.setMask64, reg_setReg_ne _ _ hlo.2, reg_setReg_ne _ _ hlo.1, reg_setReg_ne _ _ hhi.2,
    reg_setReg_ne _ _ hhi.1, Dev.pealMask, Dev.mask64]

theorem pealMask_pealSet (act lead : Nat) : (pealSet act lead d).pealMask = d.pealMask := by
  rw [pealSet, pealMask_put _ _ _ (by decide) (by decide), pealMask_put _ _ _ (by decide) (by decide)]

theorem pealMask_pealCleared : (pealCleared d).pealMask = d.pealMask := by
  rw [pealCleared, pealMask_put _ _ _ (by decide) (by decide), pealMask_setMask64 _ _ (by decide) (by decide),
    pealMask_setMask64 _ _ (by decide) (by decide)]

theorem kept_pealSet (act lead : Nat) : PealKept d (pealSet act lead d) :=
  ((PealKept.refl d).put SYS_PEAL_CTL_ACTION act (by decide)).put SYS_PEAL_CTL_LEAD lead (by decide)

theorem kept_pealCleared : PealKept d (pealCleared d) :=
  (((PealKept.refl d).setMask64 0 (by decide) (by decide)).setMask64 0 (by decide) (by decide)).put SYS_PEAL_RES_NBAD 0
    (by decide)

theorem kept_pealVoting (act : Nat) : PealKept d (pealVoting act d) :=
  ((PealKept.refl d).put SYS_PEAL_RES_RES 1 (by decide)).onPeal _

theorem onPeal_get (f : Peal → Peal) (x : Fld) : (d.onPeal f).get x = d.get x := rfl

theorem pealVoting_peal (act : Nat) : (pealVoting act d).peal.running = true ∧ (pealVoting act d).peal.mask = d.pealMask ∧
    (pealVoting act d).peal.action = act := ⟨rfl, rfl, rfl⟩

theorem pealVoting_res (act : Nat) : (pealVoting act d).get SYS_PEAL_RES_RES = 1 := by
  rw [pealVoting, onPeal_get]
  exact get_put_const d SYS_PEAL_RES_RES 1 rfl

/-- An axis that does not refuse REVERSE is no quad above its threshold (R109, R210). -/
theorem quadTooFast_of_accepts {a : Nat} (h : d.pealRefuses 4 a = false) : d.quadTooFast a = false := by
  unfold Dev.pealRefuses at h
  simp only [Bool.or_eq_false_iff] at h
  exact h.2.2

/-- The word of a start. -/
def pealWord (act lead : Nat) : Word := w32 (2 ^ 31 + act % 16 * 2 ^ 16 + lead % 1024)

theorem pealWord_fields (act lead : Nat) : wordGet (pealWord act lead) 16 4 = act % 16 ∧
    wordGet (pealWord act lead) 0 10 = lead % 1024 ∧ (pealWord act lead).toNat.testBit 31 = true := by
  have hnat : (pealWord act lead).toNat = 2147483648 + act % 16 * 65536 + lead % 1024 := by
    simp only [pealWord, w32, BitVec.toNat_ofNat]; omega
  refine ⟨?_, ?_, ?_⟩
  · simp only [wordGet, hnat]; omega
  · simp only [wordGet, hnat]; omega
  · rw [hnat, Nat.testBit, Nat.shiftRight_eq_div_pow]; simp; omega

variable {d} {act lead : Nat}

/-- The axes above their reversal threshold report it (R210). -/
def reportFast (act : Nat) (l : List Nat) (d : Dev) : Dev :=
  d.each l fun a d => if act = 4 && d.quadTooFast a then raiseAx a 8 d else d

theorem writePeal_eq (m : Master) (w : Word) (d : Dev) : writePeal m w d =
    let e := pealSet (wordGet w 16 4) (wordGet w 0 10) d
    if !w.toNat.testBit 31 then e
    else if e.peal.running then e.put SYS_PEAL_RES_RES 6
    else if axesOf e.pealMask = [] || 5 < wordGet w 16 4 || !e.pealHosts m (axesOf e.pealMask) then
      (e.put SYS_PEAL_RES_NBAD 0).put SYS_PEAL_RES_RES 7
    else
      let u := reportFast (wordGet w 16 4) (axesOf e.pealMask) (pealVoting (wordGet w 16 4) (pealCleared e))
      let bad := maskOf ((axesOf e.pealMask).filter (u.pealRefuses (wordGet w 16 4)))
      if bad = 0 then u else pealEnd 3 bad 0 u := rfl

theorem pealSet_peal (d : Dev) (act lead : Nat) : (pealSet act lead d).peal = d.peal := by rw [pealSet, put_peal, put_peal]

/-- A peal over axes of which none refuses begins to vote (R108, R109). -/
theorem writePeal_votes (hact : act ≤ 5) (hrun : d.peal.running = false) (hl : axesOf d.pealMask ≠ [])
    (hok : ∀ a ∈ axesOf d.pealMask, d.pealRefuses act a = false) :
    writePeal .debug (pealWord act lead) d = pealVoting act (pealCleared (pealSet act (lead % 1024) d)) := by
  obtain ⟨hw1, hw2, hw3⟩ := pealWord_fields act lead
  rw [writePeal_eq, hw1, hw2, hw3, Nat.mod_eq_of_lt (by omega : act < 16)]
  have hset := kept_pealSet d act (lead % 1024)
  have hmask := pealMask_pealSet d act (lead % 1024)
  have hrun' : (pealSet act (lead % 1024) d).peal.running = false := by rw [pealSet_peal, hrun]
  generalize pealSet act (lead % 1024) d = e at hset hmask hrun' ⊢
  have hkept : PealKept d (pealVoting act (pealCleared e)) := (hset.trans (kept_pealCleared e)).trans (kept_pealVoting _ act)
  generalize hv : pealVoting act (pealCleared e) = v at hkept ⊢
  have hfast : reportFast act (axesOf d.pealMask) v = v := by
    refine each_id fun a ha => if_neg ?_
    rw [hkept.quadTooFast]
    by_cases h4 : act = 4
    · subst h4
      rw [quadTooFast_of_accepts d (hok a ha)]
      decide
    · simp [h4]
  have hbad : maskOf ((axesOf d.pealMask).filter (v.pealRefuses act)) = 0 := by
    rw [List.filter_eq_nil_iff.2 fun a ha => by rw [hkept.pealRefuses, hok a ha]; decide]
    rfl
  have hgo : (axesOf d.pealMask = [] || decide (5 < act) || !e.pealHosts .debug (axesOf d.pealMask)) = false := by
    simp [hl, Nat.not_lt.2 hact, Dev.pealHosts]
  simp only [hmask, hrun', hgo, hv, hfast, hbad, Bool.not_true, Bool.false_eq_true, if_false, if_true]

/-- A peal over no axis is refused outright (R108). -/
theorem writePeal_empty (hrun : d.peal.running = false) (hl : axesOf d.pealMask = []) :
    writePeal .debug (pealWord act lead) d =
      ((pealSet (act % 16) (lead % 1024) d).put SYS_PEAL_RES_NBAD 0).put SYS_PEAL_RES_RES 7 := by
  obtain ⟨hw1, hw2, hw3⟩ := pealWord_fields act lead
  rw [writePeal_eq, hw1, hw2, hw3]
  have hmask := pealMask_pealSet d (act % 16) (lead % 1024)
  have hrun' : (pealSet (act % 16) (lead % 1024) d).peal.running = false := by rw [pealSet_peal, hrun]
  generalize pealSet (act % 16) (lead % 1024) d = e at hmask hrun' ⊢
  simp only [hmask, hrun', hl, Bool.not_true, Bool.false_eq_true, if_false, decide_true, Bool.true_or, if_true]

end

/-! The message. -/

/-- A PEAL as a message. -/
def pealMessage (h : Ctl) (mask : BitVec 64) (act lead : Nat) : Msg :=
  { op := 0x28, axis := 255, words := [mask.toNat % 2 ^ 32, mask.toNat / 2 ^ 32, act, lead],
    wellFormed := isLong h && act ≤ 5 }

/-- The mask of a peal set, with the client that waits for its end. -/
def pealAwaiting (z : Nat) (h : Ctl) (mask : Nat) (d : Dev) : Dev :=
  { d.setMask64 SYS_PEAL_MLO SYS_PEAL_MHI mask with pealFor := some (z, { op := 0xA8, seq := h.seq }) }

/-- What a PEAL starts, or is refused with, while no peal runs. -/
theorem clientPeal_idle {z : Nat} {h : Ctl} {mask act lead : Nat} {d e : Dev} {mem : List Host.Cell}
    (hrun : d.peal.running = false) (he : writePeal .debug (pealWord act lead) (pealAwaiting z h mask d) = e) :
    clientPeal z h mask act lead (d, mem) =
      if e.get SYS_PEAL_RES_RES = 7 then (6, e.get SYS_PEAL_RES_RES, ({ e with pealFor := none }, mem))
      else (0, e.get SYS_PEAL_RES_RES, (e, mem)) := by
  have hrun' : (d.setMask64 SYS_PEAL_MLO SYS_PEAL_MHI mask).peal.running = false := hrun
  unfold clientPeal
  simp only [hrun', Bool.false_eq_true, if_false, Bool.false_or, decide_eq_true_eq]
  rw [← he]
  rfl

section
variable (z : Nat) (h : Ctl) (mask : Nat) (d : Dev)

theorem kept_pealAwaiting : PealKept d (pealAwaiting z h mask d) :=
  ((PealKept.refl d).setMask64 mask (by decide) (by decide)).pealFor _

theorem pealMask_pealAwaiting (hm : mask < 2 ^ 64) : (pealAwaiting z h mask d).pealMask = mask :=
  mask64_setMask64 d hm (by decide)

theorem pealAwaiting_peal : (pealAwaiting z h mask d).peal = d.peal := rfl

theorem setMask64_pealFor (lo hi m : Nat) : (d.setMask64 lo hi m).pealFor = d.pealFor := rfl

theorem onPeal_pealFor (f : Peal → Peal) : (d.onPeal f).pealFor = d.pealFor := rfl

theorem pealVoting_pealFor (act lead : Nat) : (pealVoting act (pealCleared (pealSet act lead d))).pealFor = d.pealFor := by
  rw [pealVoting, onPeal_pealFor, put_pealFor, pealCleared, put_pealFor, setMask64_pealFor, setMask64_pealFor, pealSet,
    put_pealFor, put_pealFor]

end

/-- A PEAL over axes of which none refuses starts a peal that its client waits for. -/
theorem clientPeal_starts {z : Nat} {h : Ctl} {mask act : Nat} (lead : Nat) {d : Dev} {mem : List Host.Cell} (hm : mask < 2 ^ 64)
    (hact : act ≤ 5) (hrun : d.peal.running = false) (hne : axesOf mask ≠ [])
    (hok : ∀ a ∈ axesOf mask, d.pealRefuses act a = false) :
    ∃ y, clientPeal z h mask act lead (d, mem) = (0, 1, (y, mem)) ∧ y.peal.running = true ∧ y.peal.mask = mask ∧
      y.peal.action = act ∧ y.get SYS_PEAL_RES_RES = 1 ∧ y.pealFor = some (z, { op := 0xA8, seq := h.seq }) ∧
      y.clients = d.clients := by
  have hmask := pealMask_pealAwaiting z h mask d hm
  have hkept := kept_pealAwaiting z h mask d
  have hwrite := writePeal_votes (d := pealAwaiting z h mask d) (lead := lead) hact hrun (by rw [hmask]; exact hne)
    (fun a ha => by
      rw [hmask] at ha
      rw [hkept.pealRefuses, hok a ha])
  have hfor := pealVoting_pealFor (pealAwaiting z h mask d) act (lead % 1024)
  have hkept' := (hkept.trans (kept_pealSet _ act (lead % 1024))).trans (kept_pealCleared _)
  have hmask' := (pealMask_pealCleared _).trans ((pealMask_pealSet _ act (lead % 1024)).trans hmask)
  generalize pealCleared (pealSet act (lead % 1024) (pealAwaiting z h mask d)) = v at hwrite hfor hkept' hmask'
  have hres := pealVoting_res v act
  obtain ⟨hp1, hp2, hp3⟩ := pealVoting_peal v act
  refine ⟨pealVoting act v, ?_, hp1, hp2.trans hmask', hp3, hres, hfor, (hkept'.trans (kept_pealVoting v act)).clients⟩
  rw [clientPeal_idle hrun hwrite, hres, if_neg (by decide)]

/-- A PEAL over no axis leaves the peal machine and nobody waits (R108). -/
theorem clientPeal_refused {z : Nat} {h : Ctl} {act lead : Nat} {d : Dev} {mem : List Host.Cell} (hrun : d.peal.running = false) :
    ∃ y, clientPeal z h 0 act lead (d, mem) = (6, 7, (y, mem)) ∧ y.peal = d.peal ∧ y.pealFor = none ∧ y.clients = d.clients := by
  have hmask := pealMask_pealAwaiting z h 0 d (by decide)
  have hkept := kept_pealAwaiting z h 0 d
  have hpeal := pealAwaiting_peal z h 0 d
  generalize hw : pealAwaiting z h 0 d = w at hmask hkept hpeal
  have hwrite := writePeal_empty (d := w) (act := act) (lead := lead) ((congrArg Peal.running hpeal).trans hrun)
    (by rw [hmask]; rfl)
  have hset := hkept.trans (kept_pealSet w (act % 16) (lead % 1024))
  have hpeal' := (pealSet_peal w (act % 16) (lead % 1024)).trans hpeal
  generalize pealSet (act % 16) (lead % 1024) w = e at hwrite hset hpeal'
  have hres := get_put_const (e.put SYS_PEAL_RES_NBAD 0) SYS_PEAL_RES_RES 7 rfl
  have hend := (hset.put SYS_PEAL_RES_NBAD 0 (by decide)).put SYS_PEAL_RES_RES 7 (by decide)
  have hpealEnd : ((e.put SYS_PEAL_RES_NBAD 0).put SYS_PEAL_RES_RES 7).peal = d.peal := by rw [put_peal, put_peal, hpeal']
  generalize (e.put SYS_PEAL_RES_NBAD 0).put SYS_PEAL_RES_RES 7 = y at hwrite hres hend hpealEnd
  refine ⟨{ y with pealFor := none }, ?_, hpealEnd, rfl, hend.clients⟩
  rw [clientPeal_idle hrun (hw ▸ hwrite), hres, if_pos rfl]

section
variable (s : State) (h : Ctl) (c l : Fin 1024) {z : Nat}

theorem execPealOp_eq (k : BitVec 64) : execPealOp h k c l = onDM fun x =>
    let y := Machine.control h (pealMessage h k c l) (needAxes (axesOf k.toNat)) (fun s x => clientPeal s h k.toNat c l x) x
    if y.1.pealFor.isSome && x.1.pealFor.isNone then y.dev fun d => { d with reply := x.1.reply } else y := rfl

theorem peal_wellFormed {k : BitVec 64} (hlong : isLong h = true) (hc : c.val ≤ 5) : (pealMessage h k c l).wellFormed = true := by
  simp [pealMessage, hlong, hc]

/-- The holder of every axis of a list may use them. -/
theorem needAxes_held {d : Dev} {l : List Nat} (hl : ∀ a ∈ l, tget none d.claim a = some z) : needAxes l z d = 0 := by
  have h1 : (l.any fun a => (tget none d.claim a).isSome && tget none d.claim a ≠ some z) = false :=
    List.any_eq_false.2 fun a ha => by simp [hl a ha]
  have h2 : (l.any fun a => tget none d.claim a ≠ some z) = false := List.any_eq_false.2 fun a ha => by simp [hl a ha]
  rw [needAxes, h1, h2]
  rfl

/-- A peal and the client that waits for it stay with a message's record. -/
theorem done_peal {m : Msg} {v : Nat} (d e : Dev) : (done z h m v d e).peal = e.peal ∧
    (done z h m v d e).pealFor = e.pealFor := by
  obtain ⟨rg, j, ev, cl, rp, ht⟩ := done_shape (z := z) (h := h) (m := m) (v := v) d e
  rw [ht]
  exact ⟨rfl, rfl⟩

theorem pealRefuses_ready (d : Dev) (act a : Nat) : (ready d z h).pealRefuses act a = d.pealRefuses act a := by
  obtain ⟨cl, he⟩ := ready_shape d z h
  rw [he]
  rfl

theorem unjournalled_pealRes : Unjournalled SYS_PEAL_RES := by
  simp only [Unjournalled, NoEvents, EVC_PEND, SYS_PEAL_RES]; omega

theorem pealOp_starts (k : BitVec 64) (hl : s.dev.sys.logicOn = true) (hx : s.dev.expects h 40 0xFF 0 z)
    (hlong : isLong h = true) (hc : c.val ≤ 5) (hk : k ≠ 0)
    (hax : ∀ a ∈ axesOf k.toNat, tget none s.dev.claim a = some z ∧ s.dev.pealRefuses c.val a = false)
    (hrun : s.dev.peal.running = false) (hfor : s.dev.pealFor = none) :
    Does (.pealOp h k c l) s fun t => t.peal.running = true ∧ t.peal.mask = k.toNat ∧ t.peal.action = c.val ∧ t.get
          SYS_PEAL_RES_RES = 1 ∧ t.reply = s.dev.reply ∧ (∃ r ∈ t.pealFor, r.1 = z ∧ r.2.op = 0xA8 ∧ r.2.seq =
          h.seq.val) ∧ (t.clientOf z).expect = (h.seq.val + 1) % 256 := by
  have hneed : needAxes (axesOf k.toNat) z (ready s.dev z h) = 0 := needAxes_held (fun a ha => (hax a ha).1)
  have hne : axesOf k.toNat ≠ [] := fun h0 => hk (BitVec.eq_of_toNat_eq (by
    rw [← maskOf_axesOf k.isLt, h0]
    rfl))
  obtain ⟨y, hact, hp1, hp2, hp3, hres, hwait, hcl⟩ := clientPeal_starts (z := z) (h := h) l (d := ready s.dev z h) (mem := s.mem)
    k.isLt hc hrun hne (fun a ha => (pealRefuses_ready h s.dev c a).trans (hax a ha).2)
  have hctl := control_done (m := pealMessage h k c l) (act := fun s x => clientPeal s h k.toNat c l x) hx
    (peal_wellFormed h c l hlong hc) rfl hneed hact
  obtain ⟨hdp, hdf⟩ := done_peal (z := z) h (m := pealMessage h k c l) (v := 1) s.dev y
  have hde := done_expect (z := z) (h := h) (m := pealMessage h k c l) (v := 1) (d := s.dev) (e := y)
    (by rw [Dev.clientOf, hcl]; exact used_ready (m := pealMessage h k c l) hx)
  have hdr := (calm_done (z := z) (h := h) (m := pealMessage h k c l) (v := 1) s.dev y).get (f := SYS_PEAL_RES_RES)
    unjournalled_pealRes
  generalize done z h (pealMessage h k c l) 1 s.dev y = u at hctl hdp hdf hde hdr
  refine does_onDM (t := { u with reply := s.dev.reply }) (execPealOp h k c l) rfl (execPealOp_eq h c l k) hl ?_
    ⟨?_, ?_, ?_, hdr.trans hres, rfl, ⟨_, hdf.trans hwait, rfl, rfl, rfl⟩, hde⟩
  · have hwaits : (u.pealFor.isSome && s.dev.pealFor.isNone) = true := by rw [hdf, hwait, hfor]; rfl
    simp only [hctl]
    rw [if_pos hwaits]
    rfl
  · exact (congrArg Peal.running hdp).trans hp1
  · exact (congrArg Peal.mask hdp).trans hp2
  · exact (congrArg Peal.action hdp).trans hp3

theorem pealOp_empty (hl : s.dev.sys.logicOn = true) (hx : s.dev.expects h 40 0xFF 0 z) (hlong : isLong h = true)
    (hc : c.val ≤ 5) (hrun : s.dev.peal.running = false) :
    Does (.pealOp h 0 c l) s fun t => t.peal = s.dev.peal ∧ t.answers h 40 255 (6) (7) ∧ (t.clientOf z).expect =
          (h.seq.val + 1) % 256 := by
  obtain ⟨y, hact, hpeal, hnone, hcl⟩ := clientPeal_refused (z := z) (h := h) (act := c) (lead := l) (d := ready s.dev z h)
    (mem := s.mem) hrun
  have hctl := control_declined (m := pealMessage h 0 c l) (need := needAxes (axesOf (0 : BitVec 64).toNat))
    (act := fun s x => clientPeal s h (0 : BitVec 64).toNat c l x) hx
    (peal_wellFormed h c l hlong hc) rfl rfl (by decide) hact
  obtain ⟨cl, rp, hs⟩ := settle_shape (z := z) (h := h) (m := pealMessage h 0 c l) (v := 7) (e := y) 6
  refine does_onDM (t := settle z h (pealMessage h 0 c l) 6 7 y) (execPealOp h 0 c l) rfl (execPealOp_eq h c l 0) hl ?_
    ⟨?_, reply_settle 6, expect_settle 6 ?_⟩
  · simp only [hctl]
    refine if_neg ?_
    rw [hs]
    simp [hnone]
  · rw [hs]
    exact hpeal
  · rw [Dev.clientOf, hcl]
    exact used_ready (m := pealMessage h 0 c l) hx

end

end Sys2Proof.Proofs
end

section
namespace Sys2Proof.Proofs
open Sys2Proof Sys2Proof.Machine Sys2Proof.Laws Reg

/-! ### The statement (O46) -/

/-- Settles O46: one lemma per message and answer. -/
theorem controlMessages : Obligations.ControlMessages :=
  ⟨fun s h x g _ hl hx hsh hx64 hc hg hm hst hh => axcmd_coasts s h x g hl hx hsh hx64 hc hg hm hst hh,
    fun s h x g _ hl hx hsh hx64 hc hg hm hoff hr => axcmd_startRefused s h x g hl hx hsh hx64 hc hg hm hoff hr,
    fun s h x g _ hl hx hsh hx64 hc h1 h5 => axcmd_unheld s h x g hl hx hsh hx64 hc h1 h5,
    fun s h x g _ hl hx hsh hc => setref_commits s h x g hl hx hsh hc,
    fun s h x g w _ hl hx hlong hc => setref_stages s h x g w hl hx hlong hc,
    fun s h x n e _ hl hx hlong hc hn he => policy_sets s h x n e hl hx hlong hc hn he,
    fun s h x n e _ hl hx _ _ hn => policy_outOfRange s h x n e hl hx hn,
    fun s h k c l _ hl hx hlong hc hk hax hrun hfor => pealOp_starts s h c l k hl hx hlong hc hk hax hrun hfor,
    fun s h c l _ hl hx hlong hc hrun _ => pealOp_empty s h c l hl hx hlong hc hrun,
    fun s h g r k _ hl hx hsh hc hk hr hs hd hsafe => mode_enters s h g r k hl hx hsh hc hk hr hs hd hsafe,
    fun s h g r k _ hl hx hsh hc hk hr => mode_refused s h g r k hl hx hsh hc hk hr,
    fun s h g r _ hl hx hsh hc => mode_unheld s h g r hl hx hsh hc,
    fun s h q _ hl hx hsh hc h2 hother => cartrel_starts s h q hl hx hsh hc h2 hother,
    fun s h q _ hl hx hsh hc h2 => cartrel_refused s h q hl hx hsh hc h2,
    fun s h g _ hl hx hsh hc => aux_switches s h g hl hx hsh hc,
    fun s h n w l _ hl hx hlong hn hlen hk hlo hhi hc hitems hboot =>
      cfgitem_stages s h n w l hl hx hlong hn hlen hk hlo hhi hc hitems hboot,
    fun s h n w l _ hl hx hlong hn hlen hk hlo hhi hc hboot =>
      cfgitem_refused s h n w l hl hx hlong hn hlen hk hlo hhi hc hboot,
    fun s h n _ hl hx hlong hn hc hitems hboot => cfgcommit_commits s h n hl hx hlong hn hc hitems hboot,
    fun s h n _ hl hx hlong hn hitems => cfgcommit_refused s h n hl hx hlong hn hitems,
    fun s h x i _ hl hx hlong hc hrun hcause hload => capture_starts s h x i hl hx hlong hc hrun hcause hload,
    fun s h x i l _ hl hx hlong hc hrun => capture_running s h x i l hl hx hlong hc hrun,
    fun s h w l _ hl hx hlong hc hfit => imageseg_stores s h w l hl hx hlong hc hfit,
    fun s h w l _ hl hx _ _ hbig => imageseg_outOfRange s h w l hl hx hbig,
    fun s h n _ hl hx hlong hc he => imagewr_starts s h n hl hx hlong hc he,
    fun s h n _ hl hx hlong hc he => imagewr_refused s h n hl hx hlong hc he,
    fun s h n b _ hl hx hlong hss hst => loopset_refused s h n b hl hx hlong hss hst,
    fun s h n _ hl hx hlong hboot hst hkind hneed => loopset_commits s h n hl hx hlong hboot hst hkind hneed⟩

end Sys2Proof.Proofs
end

section
namespace Sys2Proof.Proofs
open Sys2Proof Sys2Proof.Machine Sys2Proof.Laws Reg

/-! SUPPORT. The loads of a PWM generator (R114, R122 to R124): arming, capture, the start of a period, and their
statement (O12). -/

/-! ### Period starts -/

section
variable (d : Dev) (a : Nat)

/-- The position in the period is within it. -/
theorem gridCnt_le_per (t : Nat) : d.gridCnt a t ≤ d.per a := by
  have h : d.gridCnt a t < max 1 (d.per a) := Nat.mod_lt _ (by omega)
  omega

/-- The first period start at or after an instant does not come before it. -/
theorem le_firstStart (t : Nat) : t ≤ d.firstStart a t := by
  have h := gridCnt_le_per d a t
  unfold Dev.firstStart
  split <;> split_ifs <;> omega

/-- A change of a generator's loads leaves the bridging period of every generator. -/
theorem bridge_onPwm {b : Nat} {f : PwmH → PwmH} (hf : (f (d.pwmOf b)).bridge = (d.pwmOf b).bridge) (i : Nat) :
    ((d.onPwm b f).pwmOf i).bridge = (d.pwmOf i).bridge := by
  by_cases hi : i = b
  · subst hi; rw [pwmOf_onPwm_same, hf]
  · rw [pwmOf_onPwm_ne d f hi]

/-- So the period starts of every axis stay. -/
theorem firstStart_onPwm {b : Nat} {f : PwmH → PwmH} (hf : (f (d.pwmOf b)).bridge = (d.pwmOf b).bridge) (t : Nat) :
    (d.onPwm b f).firstStart a t = d.firstStart a t := by
  have hl : (d.onPwm b f).lowest a = d.lowest a := rfl
  have hg : (d.onPwm b f).gridCnt a t = d.gridCnt a t := rfl
  have hp : (d.onPwm b f).per a = d.per a := rfl
  rw [Dev.firstStart, hl, bridge_onPwm d hf, hg, hp, Dev.firstStart]

/-- Replacing the hidden state of a generator depends on what it becomes alone. -/
theorem onPwm_congr {f g : PwmH → PwmH} (h : f (d.pwmOf a) = g (d.pwmOf a)) : d.onPwm a f = d.onPwm a g := by
  rw [Dev.onPwm, Dev.onPwm, h]

end

/-! ### Capture (R123) -/

section
variable {d : Dev} {a T : Nat}

/-- With no load whose capture instant has come nothing is captured. -/
theorem capture_waits (h : ∀ t, d.loadStart a = some t → d.now + 8 < t) : capture a d = d := by
  unfold capture
  cases hl : d.loadStart a with
  | none => rfl
  | some t => exact if_neg (by simp [Nat.not_le.2 (h t hl)])

/-- The block after a load has taken the shadows at its capture instant. -/
def captured (a T : Nat) (d : Dev) : Dev :=
  d.onPwm a fun p => { p with armed := p.armed.filter fun x => d.firstStart a x ≠ T, capt := some (T, d.shadowsAtCycle a) }

theorem capture_takes (hs : d.loadStart a = some T) (hT : T ≤ d.now + 8) (hc : (d.pwmOf a).capt = none) :
    capture a d = captured a T d := by
  rw [capture, hs]
  exact if_pos (by simp [hT, hc])

/-- Captured, the load is no longer armed. -/
theorem loadStart_captured : (captured a T d).loadStart a ≠ some T := by
  intro h
  rw [Dev.loadStart, Option.map_eq_some_iff] at h
  obtain ⟨x, hx, hT⟩ := h
  rw [captured, firstStart_onPwm d a (by rfl)] at hT
  rw [captured, pwmOf_onPwm_same] at hx
  have hmem := List.mem_of_mem_head? hx
  simp [hT] at hmem

theorem shadowsAtCycle_unwritten (h : (d.pwmOf a).wr = none) : d.shadowsAtCycle a = d.shadows a := by
  rw [Dev.shadowsAtCycle, h]

end

/-! ### Load-all (R22, R123) -/

/-- The one-bit mask of an axis names it alone. -/
theorem axesOf_single {a : Nat} (ha : a < 64) : axesOf (2 ^ a) = [a] := by
  have hbit : ∀ x, (2 ^ a).testBit x = decide (x = a) := fun x => by rw [Nat.testBit_two_pow, decide_eq_decide]; exact eq_comm
  simp only [axesOf, hbit]
  rw [List.filter_eq, List.count_eq_one_of_mem List.nodup_range (List.mem_range.2 ha)]
  rfl

/-- The half and the bit of an axis make up its one-bit mask. -/
theorem halfBit_eq (a : Fin 64) :
    (w32 (2 ^ (a.val % 32))).toNat * (if decide (32 ≤ a.val) then 2 ^ 32 else 1) = 2 ^ a.val := by
  have hw : (w32 (2 ^ (a.val % 32))).toNat = 2 ^ (a.val % 32) := by
    rw [w32, BitVec.toNat_ofNat]
    exact Nat.mod_eq_of_lt (Nat.pow_lt_pow_right (by decide) (Nat.mod_lt _ (by decide)))
  rw [hw]
  by_cases h : 32 ≤ a.val
  · rw [decide_eq_true h, if_pos rfl, ← pow_add]
    congr 1
    omega
  · rw [decide_eq_false h, if_neg (by decide), Nat.mul_one, Nat.mod_eq_of_lt (by omega)]

section
variable {d : Dev} {a : Nat}

/-- The block with one load armed for an axis. -/
def armed (a t : Nat) (d : Dev) : Dev := d.onPwm a fun p => { p with armed := [t] }

theorem loadStart_armed (t : Nat) : (armed a t d).loadStart a = some (d.firstStart a t) := by
  rw [armed, Dev.loadStart, pwmOf_onPwm_same]
  exact congrArg some (firstStart_onPwm d a (by rfl) t)

/-- Arming the first load of an unbonded axis whose period start lies more than 8 counts ahead. -/
theorem armLoad_first {t : Nat} (hm : d.members a = [a]) (h0 : (d.pwmOf a).armed = []) (ht : d.now + 8 < d.firstStart a t) :
    armLoad a t d = armed a t d := by
  have hwait : capture a (armed a t d) = armed a t d := capture_waits fun k hk => by
    rw [loadStart_armed] at hk
    exact Option.some.inj hk ▸ ht
  rw [armLoad, hm]
  refine (congrArg (capture a) (onPwm_congr d a ?_)).trans hwait
  simp [h0]

/-- A load-all by a writer with rights that names one axis. -/
theorem loadMask_single {m : Master} (ha : a < 64) (hr : d.ldRights m a = true) : loadMask m (2 ^ a) d = loadAll a d := by
  rw [loadMask, axesOf_single ha, List.filter_cons_of_pos hr]
  rfl

end

section
variable (s : State) (a : Fin 64)

theorem loadAll_arms (m : Master) (hl : s.dev.sys.logicOn = true) (hr : s.dev.ldRights m a = true)
    (hm : s.dev.members a = [a.val]) (h0 : (s.dev.pwmOf a).armed = [])
    (hne : s.dev.firstStart a (s.dev.now + 8) ≠ s.dev.now + 8) :
    Does (.loadAll m (decide (32 ≤ a.val)) (w32 (2 ^ (a.val % 32)))) s fun t => t.loadStart a = some
          (s.dev.firstStart a (s.dev.now + 8)) ∧ t.ldPend a = true ∧ (∀ b : Fin 64, b ≠ a → t.pwmOf b = s.dev.pwmOf b)
          ∧ t = { s.dev with pwm := t.pwm } := by
  refine does_onDev_of_eq (t := armed a (s.dev.now + 8) s.dev) (execLoadAll m _ _) rfl rfl hl ?_ ?_
  · have hahead : s.dev.now + 8 < s.dev.firstStart a (s.dev.now + 8) :=
      lt_of_le_of_ne (le_firstStart _ _ _) (Ne.symm hne)
    rw [halfBit_eq, loadMask_single a.isLt hr, loadAll, if_pos (lowest_single hm), armLoad_first hm h0 hahead]
  · refine ⟨loadStart_armed _, ?_, fun b hb => pwmOf_onPwm_ne _ _ (Fin.val_ne_of_ne hb), rfl⟩
    rw [Dev.ldPend, armed, pwmOf_onPwm_same]
    rfl

theorem loadCapture_takes {T : Nat} (hl : s.dev.sys.logicOn = true) (hs : s.dev.loadStart a = some T)
    (hT : T ≤ s.dev.now + 8) (hc : (s.dev.pwmOf a).capt = none) (hw : (s.dev.pwmOf a).wr = none) :
    Does (.loadCapture a) s fun t => (t.pwmOf a).capt = some (T, s.dev.shadows a) ∧ t.loadStart a ≠ some T ∧ (∀ b :
          Fin 64, b ≠ a → t.pwmOf b = s.dev.pwmOf b) ∧ t = { s.dev with pwm := t.pwm } := by
  refine does_onDev_of_eq (t := captured a T s.dev) (execLoadCapture a) rfl rfl hl (capture_takes hs hT hc)
    ⟨?_, loadStart_captured, fun b hb => pwmOf_onPwm_ne _ _ (Fin.val_ne_of_ne hb), rfl⟩
  rw [captured, pwmOf_onPwm_same, shadowsAtCycle_unwritten hw]

end

/-! ### The start of a period (R114, R115, R124) -/

/-- What a generator keeps while its half-bridges follow their targets: loads, bridging period, refreshes, triggers. -/
def genLoads (p : PwmH) : List Nat × Option (Nat × List Nat) × Option (Nat × Nat) × Nat × Nat × Nat :=
  (p.armed, p.capt, p.bridge, p.refDue, p.trig0, p.trig1)

theorem genLoads_setPh (p : PwmH) (x : Nat) (h : PhaseH) : genLoads (p.setPh x h) = genLoads p := by
  unfold PwmH.setPh
  split
  · rfl
  · split <;> rfl

section
variable (a : Nat) (d : Dev)

/-- Bringing the half-bridges up to date is a change of the generator that keeps its loads. -/
theorem followPhases_eq : ∃ f : Nat → Dev → PwmH → PwmH, (∀ x t p, genLoads (f x t p) = genLoads p) ∧
    followPhases a d = d.each [0, 1, 2] fun x t => t.onPwm a (f x t) := by
  unfold followPhases
  extract_lets t icz direct trim
  exact ⟨_, fun x e p => genLoads_setPh p x _, rfl⟩

theorem followPhases_shape : ∃ pw, followPhases a d = { d with pwm := pw } := by
  obtain ⟨f, -, hf⟩ := followPhases_eq a d
  rw [hf]
  refine each_keeps (fun t => ∃ pw, t = { d with pwm := pw }) [0, 1, 2] _ (fun x t ht => ?_) d ⟨d.pwm, rfl⟩
  obtain ⟨pw, rfl⟩ := ht
  exact ⟨_, rfl⟩

theorem genLoads_followPhases : genLoads ((followPhases a d).pwmOf a) = genLoads (d.pwmOf a) := by
  obtain ⟨f, hp, hf⟩ := followPhases_eq a d
  rw [hf]
  exact each_frame (fun t => genLoads (t.pwmOf a)) [0, 1, 2] _ (fun x t => by simp only [pwmOf_onPwm_same, hp]) d

/-- A field written, and a change of the PSE's hidden state. -/
theorem put_onPse_eq (f : Fld) (v : Nat) (g : PseH → PseH) :
    (d.put f v).onPse g = { d with regs := (d.put f v).regs, pse := g d.pse } := rfl

theorem takeCeil_some {k : Nat} (h : tget none d.pse.sent a = some k) :
    takeCeil a d = (d.put (CU_IDC_CEIL a) k).onPse fun p => { p with sent := tset none p.sent a none } := by
  unfold takeCeil
  rw [h]

theorem takeCeil_none (h : tget none d.pse.sent a = none) : takeCeil a d = d := by
  unfold takeCeil
  rw [h]

/-- A ceiling of the arbiter that is not yet taken up comes into force (R74). -/
theorem takeCeil_takes {k : Nat} (h : tget none d.pse.sent a = some k) :
    (takeCeil a d).get (CU_IDC_CEIL a) = k % 65536 ∧ tget none (takeCeil a d).pse.sent a = none := by
  rw [takeCeil_some a d h]
  refine ⟨?_, ?_⟩
  · rw [onPse_get, get_put_same d (CU_IDC_CEIL a) k (by simp only [CU_IDC_CEIL]; omega)]
    rfl
  · rw [put_onPse_eq]
    exact tget_tset_same none d.pse.sent a none

theorem takeCeil_shape : ∃ rg ps, takeCeil a d = { d with regs := rg, pse := ps } := by
  cases h : tget none d.pse.sent a with
  | none => exact ⟨d.regs, d.pse, takeCeil_none a d h⟩
  | some c => exact ⟨_, _, (takeCeil_some a d h).trans (put_onPse_eq d _ c _)⟩

theorem takeCeil_reg {r : Nat} (h : r ≠ CU_IDC a) : (takeCeil a d).reg r = d.reg r := by
  cases hc : tget none d.pse.sent a with
  | none => rw [takeCeil_none a d hc]
  | some c => rw [takeCeil_some a d hc, onPse_reg, reg_put_ne d (CU_IDC_CEIL a) c h]

end

/-! Writes of several fields. -/

/-- A write of the first field leaves the second: another register, or other bits. -/
def Away (f g : Fld) : Prop := g.addr ≠ f.addr ∨ g.addr = f.addr ∧ apart f g = true

theorem get_put_away (d : Dev) {f g : Fld} (v : Nat) (h : Away f g) : (d.put f v).get g = d.get g :=
  h.elim (get_put_ne d f g v) fun h => get_put_apart d f g v h.1 h.2

/-- Fields written one after another. -/
def putAll (ws : List (Fld × Nat)) (d : Dev) : Dev := d.each ws fun w d => d.put w.1 w.2

/-- A field that every write leaves. -/
theorem get_putAll_away {ws : List (Fld × Nat)} {g : Fld} (h : ∀ w ∈ ws, Away w.1 g) (d : Dev) :
    (putAll ws d).get g = d.get g :=
  each_frame_mem (g := fun d => d.get g) (fun w hw d => get_put_away d w.2 (h w hw)) d

/-- Each written field holds its value when later writes leave earlier fields. -/
theorem get_putAll_mem {ws : List (Fld × Nat)} (hws : ws.Pairwise fun w x => Away x.1 w.1) {f : Fld} {v : Nat}
    (hf : (f.lo + f.width).ble 32 = true) (hm : (f, v) ∈ ws) : ∀ d : Dev, (putAll ws d).get f = v % 2 ^ f.width := by
  induction ws with
  | nil => exact absurd hm List.not_mem_nil
  | cons w ws ih =>
    obtain ⟨hw, hws⟩ := List.pairwise_cons.1 hws
    intro d
    rcases List.mem_cons.1 hm with rfl | hm
    · exact (get_putAll_away (fun x hx => hw x hx) _).trans (get_put_same d f v (Nat.le_of_ble_eq_true hf))
    · exact ih hws hm (d.put w.1 w.2)

/-! A load. -/

/-- What a load writes at an instant: every captured shadow but the triggers, the period clamped, and the instant. -/
def loadWrites (a : Nat) (l : List Nat) (t : Nat) : List (Fld × Nat) :=
  [(PWM_APO_PER a, clampPer (l.getD 0 0 % 65536)), (PWM_APO_OFS a, l.getD 1 0 % 65536),
    (PWM_ACMPUV_CMPU a, l.getD 2 0), (PWM_ACMPUV_CMPV a, l.getD 3 0), (PWM_ACMPWD_CMPW a, l.getD 4 0),
    (PWM_ACMPWD_CMPD a, l.getD 5 0), (PWM_ATRIM_TRIM a, l.getD 6 0), (PWM_LASTLD_T a, t)]

theorem loadWrites_apart (a : Nat) (l : List Nat) (t : Nat) : (loadWrites a l t).Pairwise fun w x => Away x.1 w.1 := by
  simp [loadWrites, Away, apart, PWM_APO_PER, PWM_APO_OFS, PWM_ACMPUV_CMPU, PWM_ACMPUV_CMPV, PWM_ACMPWD_CMPW,
    PWM_ACMPWD_CMPD, PWM_ATRIM_TRIM, PWM_LASTLD_T, PWM_APO, PWM_ACMPUV, PWM_ACMPWD, PWM_ATRIM, PWM_LASTLD]

section
variable (a : Nat) (d : Dev) (l : List Nat)

/-- A clamped period is noted. -/
def noteClip : Dev := if clampPer (l.getD 0 0 % 65536) ≠ l.getD 0 0 % 65536 then d.put (PWM_STAT_PERCLIP a) 1 else d

/-- The registers after a load. -/
def loadRegs : Dev := putAll (loadWrites a l d.now) (noteClip a d l)

/-- The generator after a load: nothing captured, the triggers in force, a bridging period of a length unless it is 0. -/
def loadedGen (t len : Nat) (p : PwmH) : PwmH := { p with
  capt := none, trig0 := l.getD 7 0, trig1 := l.getD 8 0, cmpuServes := false
  bridge := if len = 0 then p.bridge else some (t, len) }

theorem noteClip_shape : ∃ rg, noteClip a d l = { d with regs := rg } := by
  unfold noteClip
  split
  · exact ⟨(d.put (PWM_STAT_PERCLIP a) 1).regs, rfl⟩
  · exact ⟨d.regs, rfl⟩

theorem putAll_shape (ws : List (Fld × Nat)) : ∃ rg, putAll ws d = { d with regs := rg } := by
  refine each_keeps (fun t => ∃ rg, t = { d with regs := rg }) ws _ (fun w t ht => ?_) d ⟨d.regs, rfl⟩
  obtain ⟨rg, rfl⟩ := ht
  exact ⟨_, rfl⟩

/-- Withdrawing the announcements of triggers changes the clusters alone. -/
theorem withdraw_each_shape (len : Nat) (l : List Nat) :
    ∃ cl, d.each l (fun m d => withdraw m (d.now + len) d) = { d with clu := cl } := by
  refine each_keeps (fun e => ∃ cl, e = { d with clu := cl }) l _ (fun x e he => ?_) d ⟨d.clu, rfl⟩
  obtain ⟨cl, rfl⟩ := he
  exact ⟨_, rfl⟩

/-- A load is its registers, its generator, and withdrawn announcements. -/
theorem applyLoad_shape : ∃ t len cl,
    applyLoad a l d = { (loadRegs a d l).onPwm a (loadedGen l t len) with clu := cl } := by
  have hself : ∀ e : Dev, ∃ cl, e = { e with clu := cl } := fun e => ⟨e.clu, rfl⟩
  have hnow : (noteClip a d l).now = d.now := by
    obtain ⟨rg, h⟩ := noteClip_shape a d l
    rw [h]
  unfold applyLoad
  extract_lets g per ofs changed d1 d2 d3 d4 d5 len d6
  have h1 : d1 = noteClip a d l := rfl
  clear_value d1
  subst h1
  have h5 : d5 = loadRegs a d l := by
    simp only [d5, d4, d3, d2]
    rw [put_now, put_now, put_now, put_now, put_now, put_now, hnow]
    rfl
  have h6 : d6 = d5.onPwm a (loadedGen l d5.now len) := rfl
  clear_value d6 len d5
  subst h5 h6
  split
  · exact ⟨_, len, hself _⟩
  · exact ⟨_, len, withdraw_each_shape _ _ _⟩

theorem clampPer_lt (p : Nat) : clampPer p < 65536 := by
  simp only [clampPer, clampN]
  omega

/-- A load puts every captured shadow into force, the period clamped, at the present instant (R115, R122). -/
theorem loadRegs_fields : (loadRegs a d l).get (PWM_APO_PER a) = clampPer (l.getD 0 0 % 65536) ∧
    (loadRegs a d l).get (PWM_APO_OFS a) = l.getD 1 0 % 65536 ∧
    (loadRegs a d l).get (PWM_ACMPUV_CMPU a) = l.getD 2 0 % 65536 ∧
    (loadRegs a d l).get (PWM_ACMPUV_CMPV a) = l.getD 3 0 % 65536 ∧
    (loadRegs a d l).get (PWM_ACMPWD_CMPW a) = l.getD 4 0 % 65536 ∧
    (loadRegs a d l).get (PWM_ACMPWD_CMPD a) = l.getD 5 0 % 65536 ∧
    (loadRegs a d l).get (PWM_ATRIM_TRIM a) = l.getD 6 0 % 4096 ∧
    (loadRegs a d l).get (PWM_LASTLD_T a) = d.now % 2 ^ 32 := by
  have hget : ∀ {f : Fld} {v : Nat}, (f.lo + f.width).ble 32 = true → (f, v) ∈ loadWrites a l d.now →
      (loadRegs a d l).get f = v % 2 ^ f.width := fun hf hm => get_putAll_mem (loadWrites_apart a l d.now) hf hm _
  have hofs : l.getD 1 0 % 65536 = l.getD 1 0 % 65536 % 2 ^ (PWM_APO_OFS a).width := (Nat.mod_mod _ _).symm
  have hper : clampPer (l.getD 0 0 % 65536) = clampPer (l.getD 0 0 % 65536) % 2 ^ (PWM_APO_PER a).width :=
    (Nat.mod_eq_of_lt (clampPer_lt _)).symm
  refine ⟨(hget rfl ?_).trans hper.symm, (hget rfl ?_).trans hofs.symm, hget rfl ?_, hget rfl ?_, hget rfl ?_,
    hget rfl ?_, hget rfl ?_, hget rfl ?_⟩ <;>
  simp [loadWrites]

/-- A period below the lowest is noted as clamped. -/
theorem loadRegs_clip (h : l.getD 0 0 % 65536 < 2000) : (loadRegs a d l).get (PWM_STAT_PERCLIP a) = 1 := by
  have hne : clampPer (l.getD 0 0 % 65536) ≠ l.getD 0 0 % 65536 := by
    simp only [clampPer, clampN]
    omega
  have haway : ∀ w ∈ loadWrites a l d.now, Away w.1 (PWM_STAT_PERCLIP a) := by
    simp [loadWrites, Away, PWM_STAT_PERCLIP, PWM_STAT, PWM_APO_PER, PWM_APO_OFS, PWM_ACMPUV_CMPU, PWM_ACMPUV_CMPV,
      PWM_ACMPWD_CMPW, PWM_ACMPWD_CMPD, PWM_ATRIM_TRIM, PWM_LASTLD_T, PWM_APO, PWM_ACMPUV, PWM_ACMPWD, PWM_ATRIM, PWM_LASTLD]
  rw [loadRegs, get_putAll_away haway, noteClip, if_pos hne]
  exact get_put_const d (PWM_STAT_PERCLIP a) 1 rfl

end

/-! ### The period start of a drive that does not run -/

section
variable (a : Nat) (d : Dev)

theorem each_single {α : Type} (x : α) (f : α → Dev → Dev) : d.each [x] f = f x d := rfl

/-- The generator without a bridging period. -/
def unbridged : Dev := d.onPwm a fun p => { p with bridge := none }

/-- The generator with its refreshes served. -/
def refreshed : Dev := d.onPwm a fun p => { p with refDue := 0, refAt := none }

/-- From `d` to `t` the parts that a period start reads to go on stay: time, bonds, the sequencer's moves, and the state of
the axis. -/
structure Onward (d t : Dev) : Prop where
  now : t.now = d.now
  bond : t.bond = d.bond
  ssq : t.ssq = d.ssq
  state : t.reg (CU_STATE a) = d.reg (CU_STATE a)

theorem Onward.trans {a : Nat} {d e t : Dev} (h : Onward a d e) (h' : Onward a e t) : Onward a d t :=
  ⟨h'.now.trans h.now, h'.bond.trans h.bond, h'.ssq.trans h.ssq, h'.state.trans h.state⟩

theorem onward_followPhases : Onward a d (followPhases a d) := by
  obtain ⟨pw, h⟩ := followPhases_shape a d
  rw [h]
  exact ⟨rfl, rfl, rfl, rfl⟩

theorem onward_onPwm (f : PwmH → PwmH) : Onward a d (d.onPwm a f) := ⟨rfl, rfl, rfl, rfl⟩

theorem onward_takeCeil : Onward a d (takeCeil a d) := by
  have hreg := takeCeil_reg a d (r := CU_STATE a) (by simp only [CU_STATE, CU_IDC, ne_eq]; omega)
  obtain ⟨rg, ps, h⟩ := takeCeil_shape a d
  rw [h] at hreg ⊢
  exact ⟨rfl, rfl, rfl, hreg⟩

/-- A load writes registers of the axis's PWM block alone. -/
theorem loadWrites_block (l : List Nat) (t : Nat) :
    ∀ w ∈ loadWrites a l t, 0x40200000 + 0x400 * a ≤ w.1.addr ∧ w.1.addr < 0x40200000 + 0x400 * (a + 1) := by
  simp only [loadWrites, List.mem_cons, List.not_mem_nil, or_false, forall_eq_or_imp, forall_eq, PWM_APO_PER, PWM_APO_OFS,
    PWM_ACMPUV_CMPU, PWM_ACMPUV_CMPV, PWM_ACMPWD_CMPW, PWM_ACMPWD_CMPD, PWM_ATRIM_TRIM, PWM_LASTLD_T, PWM_APO, PWM_ACMPUV,
    PWM_ACMPWD, PWM_ATRIM, PWM_LASTLD]
  omega

theorem reg_putAll {ws : List (Fld × Nat)} {r : Nat} (h : ∀ w ∈ ws, r ≠ w.1.addr) (d : Dev) : (putAll ws d).reg r = d.reg r :=
  each_frame_mem (g := fun d => d.reg r) (fun w hw d => reg_put_ne d w.1 w.2 (h w hw)) d

theorem reg_loadRegs (l : List Nat) {r : Nat} (hr : 0x40200000 + 0x400 * (a + 1) ≤ r) : (loadRegs a d l).reg r = d.reg r := by
  have hclip : (noteClip a d l).reg r = d.reg r := by
    unfold noteClip
    split
    · exact reg_put_ne d (PWM_STAT_PERCLIP a) 1 (by simp only [PWM_STAT_PERCLIP, PWM_STAT]; omega)
    · rfl
  exact (reg_putAll (fun w hw => by have := loadWrites_block a l d.now w hw; omega) _).trans hclip

theorem loadRegs_shape (l : List Nat) : ∃ rg, loadRegs a d l = { d with regs := rg } := by
  obtain ⟨rg, h⟩ := noteClip_shape a d l
  rw [loadRegs, h]
  exact putAll_shape { d with regs := rg } _

theorem onward_loadRegs (l : List Nat) : Onward a d (loadRegs a d l) ∧ (loadRegs a d l).pse = d.pse ∧
    (loadRegs a d l).pwm = d.pwm := by
  have hstate := reg_loadRegs a d l (r := CU_STATE a) (by simp only [CU_STATE]; omega)
  obtain ⟨rg, hrg⟩ := loadRegs_shape a d l
  rw [hrg] at hstate ⊢
  exact ⟨⟨rfl, rfl, rfl, hstate⟩, rfl, rfl⟩

/-- A change of a generator and of the clusters. -/
theorem genClu_spec (f : PwmH → PwmH) (cl : Tab ClusterH) : Onward a d { d.onPwm a f with clu := cl } ∧
    Dev.pse { d.onPwm a f with clu := cl } = d.pse ∧ (∀ r, Dev.reg { d.onPwm a f with clu := cl } r = d.reg r) ∧
    Dev.pwmOf { d.onPwm a f with clu := cl } a = f (d.pwmOf a) :=
  ⟨⟨rfl, rfl, rfl, rfl⟩, rfl, fun _ => rfl, pwmOf_onPwm_same d a f⟩

/-- What a load does: its registers, the generator of its axis; the rest of what a period start reads stays. -/
theorem applyLoad_spec (l : List Nat) : Onward a d (applyLoad a l d) ∧ (applyLoad a l d).pse = d.pse ∧
    (∀ r, (applyLoad a l d).reg r = (loadRegs a d l).reg r) ∧
    ∃ t len, (applyLoad a l d).pwmOf a = loadedGen l t len (d.pwmOf a) := by
  obtain ⟨t, len, cl, h⟩ := applyLoad_shape a d l
  obtain ⟨ho, hpse, hpwm⟩ := onward_loadRegs a d l
  have hgen : (loadRegs a d l).pwmOf a = d.pwmOf a := by rw [Dev.pwmOf, hpwm, Dev.pwmOf]
  obtain ⟨ho', hpse', hreg, hp⟩ := genClu_spec a (loadRegs a d l) (loadedGen l t len) cl
  rw [h]
  exact ⟨ho.trans ho', hpse'.trans hpse, hreg, t, len, hp.trans (by rw [hgen])⟩

end

section
variable {a : Nat} {d : Dev} {T : Nat} {l : List Nat}

/-- The start of a period of an unbonded axis at rest, with a captured load that is due and no other: the arbiter's
ceiling, the load, no refresh; the half-bridges follow. -/
theorem periodOfDrive_load (hm : d.members a = [a]) (hst : d.axSt a = .off) (h0 : (d.pwmOf a).armed = [])
    (hb : (d.pwmOf a).bridge = none) (hc : (d.pwmOf a).capt = some (T, l)) (hT : T ≤ d.now) (hr : (d.pwmOf a).refDue = 0) :
    periodOfDrive a d = followPhases a (refreshed a (applyLoad a l (unbridged a (takeCeil a (followPhases a d))))) := by
  have hgen := genLoads_followPhases a d
  simp only [genLoads, h0, hb, hc, hr, Prod.mk.injEq] at hgen
  obtain ⟨g0, gc, gb, gr, -, -⟩ := hgen
  have hwait : capture a (followPhases a d) = followPhases a d := capture_waits fun t ht => by
    rw [Dev.loadStart, g0] at ht
    exact absurd ht (by simp)
  have hpwm : (takeCeil a (followPhases a d)).pwmOf a = (followPhases a d).pwmOf a := by
    obtain ⟨rg, ps, h⟩ := takeCeil_shape a (followPhases a d)
    rw [h]
    rfl
  have ho := (onward_followPhases a d).trans (onward_takeCeil a (followPhases a d))
  unfold periodOfDrive
  extract_lets ms d1 d2 d3 d4 st d5 d6 e7 e8 d7
  have hms : ms = [a] := hm
  clear_value ms
  subst hms
  have h1 : d1 = takeCeil a (followPhases a d) := congrArg (takeCeil a) hwait
  have h2 : d2 = unbridged a d1 := onPwm_congr d1 a (by rw [h1, hpwm, gb])
  have h3 : d3 = applyLoad a l d2 := by
    have hcapt : (d2.pwmOf a).capt = some (T, l) := by
      rw [h2, unbridged, pwmOf_onPwm_same, h1, hpwm, gc]
    have hnow : T ≤ d2.now := by rw [h2, unbridged, onPwm_now, h1, ho.now]; exact hT
    simp only [d3, each_single, hcapt, if_pos hnow]
  have ho3 : Onward a d d3 := by
    rw [h3, h2, h1]
    exact (ho.trans (onward_onPwm a _ _)).trans (applyLoad_spec a _ l).1
  have hdue : (d3.pwmOf a).refDue = 0 := by
    obtain ⟨-, -, -, t, len, hg⟩ := applyLoad_spec a d2 l
    rw [h3, hg, loadedGen, h2, unbridged, pwmOf_onPwm_same, h1, hpwm, gr]
  have h4 : d4 = refreshed a d3 := by
    simp only [d4, each_single, hdue, Nat.zero_testBit, Bool.false_and]
    rfl
  have hoff : d4.axSt a = .off := by
    have hreg := (ho3.trans (onward_onPwm a d3 fun p => { p with refDue := 0, refAt := none })).state
    rw [h4, ← hst]
    exact congrArg (fun w => AxState.ofCode (wordGet w 0 4)) hreg
  have h5 : d5 = d4 := by simp [d5, st, hoff]
  have h6 : d6 = d4 := by simp [d6, h5, Dev.inDtc, hoff]
  have h7 : d7 = d4 := by simp [d7, h6, Dev.sixOn, hoff]
  rw [h7, each_single, h4, h3, h2, h1]

/-- The block that a period start with a load begins from: the half-bridges at the present instant, the arbiter's ceiling
taken up. -/
def ceiled (a : Nat) (d : Dev) : Dev := unbridged a (takeCeil a (followPhases a d))

theorem onward_ceiled : Onward a d (ceiled a d) :=
  ((onward_followPhases a d).trans (onward_takeCeil a _)).trans (onward_onPwm a _ fun p => { p with bridge := none })

/-- The ceiling in force afterwards. -/
theorem ceiled_ceil {k : Nat} (h : tget none d.pse.sent a = some k) :
    (ceiled a d).get (CU_IDC_CEIL a) = k % 65536 ∧ tget none (ceiled a d).pse.sent a = none := by
  have hs : tget none (followPhases a d).pse.sent a = some k := by
    obtain ⟨pw, hp⟩ := followPhases_shape a d
    rw [hp]
    exact h
  obtain ⟨h1, h2⟩ := takeCeil_takes a (followPhases a d) hs
  exact ⟨(onPwm_get _ _ _ _).trans h1, h2⟩

/-- What a load leaves at the start of a period: its registers, its triggers, nothing pending. -/
theorem started_spec (l : List Nat) (h0 : (d.pwmOf a).armed = []) :
    let t := followPhases a (refreshed a (applyLoad a l (ceiled a d)))
    Onward a d t ∧ (∀ f, t.get f = (loadRegs a (ceiled a d) l).get f) ∧ t.pse = (ceiled a d).pse ∧
      (t.pwmOf a).trig0 = l.getD 7 0 ∧ (t.pwmOf a).trig1 = l.getD 8 0 ∧ t.ldPend a = false := by
  intro t
  obtain ⟨ho, hpse, hreg, i, len, hgen⟩ := applyLoad_spec a (ceiled a d) l
  have hfol := genLoads_followPhases a (refreshed a (applyLoad a l (ceiled a d)))
  have harm : ((ceiled a d).pwmOf a).armed = [] := by
    have hgen := genLoads_followPhases a d
    obtain ⟨rg, ps, h⟩ := takeCeil_shape a (followPhases a d)
    simp only [genLoads, h0, Prod.mk.injEq] at hgen
    rw [ceiled, unbridged, pwmOf_onPwm_same, h]
    exact hgen.1
  have href : (refreshed a (applyLoad a l (ceiled a d))).pwmOf a =
      { loadedGen l i len ((ceiled a d).pwmOf a) with refDue := 0, refAt := none } := by
    rw [refreshed, pwmOf_onPwm_same, hgen]
  rw [href] at hfol
  simp only [genLoads, loadedGen, harm, Prod.mk.injEq] at hfol
  obtain ⟨f0, fc, -, -, f7, f8⟩ := hfol
  obtain ⟨pw, hpw⟩ := followPhases_shape a (refreshed a (applyLoad a l (ceiled a d)))
  refine ⟨((onward_ceiled.trans ho).trans (onward_onPwm a _ fun p => { p with refDue := 0, refAt := none })).trans
    (onward_followPhases a _), fun f => ?_, ?_, f7, f8, ?_⟩
  · have hf : t.reg f.addr = (applyLoad a l (ceiled a d)).reg f.addr := by
      simp only [t, hpw]
      rfl
    rw [Dev.get, hf, hreg, ← Dev.get]
  · simp only [t, hpw]
    exact hpse
  · rw [Dev.ldPend, f0, fc]
    rfl

end

/-- With no move or migration under way a period start is that of the drive (R304, R308). -/
theorem periodStart_drive {a : Nat} {d : Dev} (hstart : d.atStart a = true) (hm : d.members a = [a])
    (ho : Onward a d (periodOfDrive a d)) (hmig : d.ssq.mig = none) (hmoves : d.ssq.moves = []) :
    (if d.atStart a && d.lowest a = a then migrateAtStart (d.members a) (moveAtStart (d.members a) (periodOfDrive a d)) else d) =
      periodOfDrive a d := by
  have hmove : moveAtStart (d.members a) (periodOfDrive a d) = periodOfDrive a d := by
    rw [moveAtStart, ho.ssq, hmoves]
    rfl
  rw [if_pos (by simp [hstart, lowest_single hm]), hmove, migrateAtStart, ho.ssq, hmig]

theorem periodStart_loads (s : State) (a : Fin 64) {T p o u v w c b g h : Nat} (hl : s.dev.sys.logicOn = true)
    (ht : s.dev.timeOn = true) (hm : s.dev.members a = [a.val]) (hst : s.dev.axSt a = .off) (hmig : s.dev.ssq.mig = none)
    (hmoves : s.dev.ssq.moves = []) (hb : (s.dev.pwmOf a).bridge = none) (h0 : (s.dev.pwmOf a).armed = [])
    (hc : (s.dev.pwmOf a).capt = some (T, [p, o, u, v, w, c, b, g, h])) (hT : T ≤ s.dev.now) (hr : (s.dev.pwmOf a).refDue = 0)
    (hcnt : s.dev.cnt a s.dev.now = 0) :
    Does (.periodStart a) s fun t => t.get (PWM_APO_PER a) = clampPer (p % 65536) ∧ t.get (PWM_APO_OFS a) = o %
          65536 ∧ t.get (PWM_ACMPUV_CMPU a) = u % 65536 ∧ t.get (PWM_ACMPUV_CMPV a) = v % 65536 ∧ t.get
          (PWM_ACMPWD_CMPW a) = w % 65536 ∧ t.get (PWM_ACMPWD_CMPD a) = c % 65536 ∧ t.get (PWM_ATRIM_TRIM a) = b %
          4096 ∧ (t.pwmOf a).trig0 = g ∧ (t.pwmOf a).trig1 = h ∧ t.get (PWM_LASTLD_T a) = s.dev.now % 2 ^ 32 ∧
          t.ldPend a = false ∧ (p % 65536 < 2000 → t.get (PWM_STAT_PERCLIP a) = 1) ∧ (∀ k, tget none s.dev.pse.sent a
          = some k → t.get (CU_IDC_CEIL a) = k % 65536 ∧ tget none t.pse.sent a = none) := by
  have hp := periodOfDrive_load hm hst h0 hb hc hT hr
  obtain ⟨ho, hget, hpse, h7, h8, hpend⟩ := started_spec [p, o, u, v, w, c, b, g, h] h0
  have hnow := (onward_ceiled (a := a.val) (d := s.dev)).now
  obtain ⟨fper, fofs, fu, fv, fw, fc, fb, ft⟩ := loadRegs_fields a (ceiled a s.dev) [p, o, u, v, w, c, b, g, h]
  have hstart : s.dev.atStart a = true := by simp [Dev.atStart, ht, hcnt]
  refine does_onDev_of_eq (execPeriodStart a) rfl rfl hl
    ((periodStart_drive hstart hm (hp ▸ ho) hmig hmoves).trans hp) ?_
  refine ⟨(hget _).trans fper, (hget _).trans fofs, (hget _).trans fu, (hget _).trans fv, (hget _).trans fw,
    (hget _).trans fc, (hget _).trans fb, h7, h8, (hget _).trans (ft.trans (by rw [hnow])), hpend, fun hlow => ?_,
    fun k hk => ?_⟩
  · exact (hget _).trans (loadRegs_clip a (ceiled a s.dev) [p, o, u, v, w, c, b, g, h] hlow)
  · obtain ⟨hceil, hsent⟩ := ceiled_ceil hk
    refine ⟨(hget _).trans (Eq.trans ?_ hceil), (congrArg (fun x => tget none (PseH.sent x) a) hpse).trans hsent⟩
    exact congrArg (fun x => wordGet x 16 16) (reg_loadRegs a _ _ (by simp only [CU_IDC_CEIL, CU_IDC]; omega))

/-- Settles O12: load-all, the capture instant and the period start, each by its own lemma. -/
theorem pwmLoads : Obligations.PwmLoads :=
  ⟨fun s m a hl hr hm h0 hne => loadAll_arms s a m hl hr hm h0 hne,
    fun s a _ hl hs hT hc hw => loadCapture_takes s a hl hs hT hc hw,
    fun s a _ _ _ _ _ _ _ _ _ _ hl ht hm hst hmig hmoves hb h0 hc hT hr hcnt =>
      periodStart_loads s a hl ht hm hst hmig hmoves hb h0 hc hT hr hcnt⟩

end Sys2Proof.Proofs
end

section
namespace Sys2Proof.Proofs
open Sys2Proof Sys2Proof.Machine Sys2Proof.Laws Reg

/-! SUPPORT. What a warm reset does to a slot whose release it abandons (R53, R106), and the refutation of the statement of
the resets (O10). -/

/-! ### What leaves the slots -/

section
variable (d : Dev)

/-- Every axis released because the line fell. -/
theorem slots_lineFell (hp : d.peal.running = false) : (lineFell false d).slots = d.slots := by
  by_cases h : d.get FLT_STAT_LEVEL = 0
  · have hr := released_each (n := 3) allAxes_lt
      (fun a ha d hp => released_releaseAxis (by decide) (allAxes_lt a ha) d hp) (d.put FLT_STAT_LEVEL 1) hp
    rw [lineFell_high h, lineReleased]
    exact (steady_raiseLss (n := 7) (by decide) _).slots.trans hr.slots
  · rw [lineFell_low h]

/-- The line follows its drivers. -/
theorem slots_lineUpdate (hp : d.peal.running = false) : (lineUpdate false d).slots = d.slots := by
  by_cases hd : d.driving = true
  · rw [lineUpdate_driving hd]
    exact slots_lineFell _ hp
  · have hd := Bool.eq_false_iff.2 hd
    by_cases hx : d.ssq.extLine = true
    · rw [lineUpdate_external hd hx]
      exact slots_lineFell _ hp
    · rw [lineUpdate_idle hd (Bool.eq_false_iff.2 hx)]
      rfl

/-- A reset whose journal does not mount. -/
theorem slots_resetMode (old : Mode) (cause : Nat) (h : d.sys.jnlOk = false) : (resetMode old cause d).slots = d.slots := by
  have hs : (raiseSys 0 (d.put SYS_MODE_PREV old.code)).sys = d.sys := by
    rw [raiseSys, raiseIn, raise_shape]
    rfl
  have hsl : (raiseSys 0 (d.put SYS_MODE_PREV old.code)).slots = d.slots := by
    rw [raiseSys, raiseIn, raise_shape]
    rfl
  rw [resetMode, if_neg (by rw [hs, h]; decide), hsl]

end

/-! ### Kept registers -/

/-- Registers kept over a reset hold what they held. -/
theorem reg_keepRegs {old : Dev} {l : List Nat} {r : Nat} (h : r ∈ l) (d : Dev) : (keepRegs old l d).reg r = old.reg r := by
  induction l generalizing d with
  | nil => exact absurd h List.not_mem_nil
  | cons x l ih =>
    by_cases hl : r ∈ l
    · exact ih hl (d.setReg x (old.reg x))
    · obtain rfl : r = x := (List.mem_cons.1 h).resolve_right hl
      exact (each_frame_mem (g := fun t => t.reg r) (fun y hy t => reg_setReg_ne t _ fun he => hl (he ▸ hy)) _).trans
        (reg_setReg_same d r _)

/-! ### A slot over a warm reset (R53, R106) -/

section
variable (old d : Dev) {q : Nat} (hq : q < 16)

/-- The reference buffer, the trims and the link of an accepted cartridge after a warm reset. -/
def warmTrims (old : Dev) (q : Nat) (d : Dev) : Dev :=
  let d := ((loadTrims q d).put (AC_CTL_REFEN q) (old.get (AC_CTL_REFEN q))).put (AC_STAT_REFRDY q) (old.get (AC_STAT_REFRDY q))
  let c := old.cluOf q
  let d := d.onClu q fun h => { h with refAt := c.refAt, refWas := c.refWas }
  { d with link := tset {} d.link q (old.linkOf q) }

/-- A release between its steps 2 and 5 is abandoned. -/
def warmAbandon (q : Nat) (d : Dev) : Dev :=
  if d.get (CSL_STAT_STATE q) = 4 then
    let d := (d.put (CSL_STAT_STATE q) 2).onSys fun h => { h with relDone := true }
    if d.on (CSL_STAT_SEGSW q) then d else d.onSlot q fun s => { s with reclose := true }
  else d

theorem warmSlot_eq : warmSlot old q d = if !old.present q then d else warmAbandon q (warmTrims old q d) := rfl

/-- A release under way with the segment switch open asks for the switch to close again. -/
theorem warmAbandon_recloses (h4 : d.get (CSL_STAT_STATE q) = 4) (hsw : d.get (CSL_STAT_SEGSW q) = 0) :
    ((warmAbandon q d).slotOf q).reclose = true := by
  have hoff : Dev.on ((d.put (CSL_STAT_STATE q) 2).onSys fun h => { h with relDone := true }) (CSL_STAT_SEGSW q) = false := by
    rw [Dev.on, onSys_get, get_segsw_put_state, hsw]
    rfl
  simp only [warmAbandon, h4, if_true, hoff, Bool.false_eq_true, if_false, slotOf_onSlot_same]

/-- Loading the trims of a quad writes registers alone. -/
theorem peal_loadTrims (p : Nat) : (loadTrims p d).peal = d.peal := by
  unfold loadTrims
  extract_lets i d1
  rw [each_frame Dev.peal _ _ (fun _ t => setReg_peal t _ _), put_peal, put_peal, put_peal, put_peal, put_peal, put_peal]

theorem peal_warmSlot (p : Nat) : (warmSlot old p d).peal = d.peal := by
  have hclu : ∀ (e : Dev) f l, Dev.peal { e.onClu p f with link := l } = e.peal := fun _ _ _ => rfl
  have htrims : (warmTrims old p d).peal = d.peal := by
    unfold warmTrims
    rw [hclu, put_peal, put_peal, peal_loadTrims]
  have habandon : ∀ e : Dev, (warmAbandon p e).peal = e.peal := fun e => by
    unfold warmAbandon
    extract_lets e1
    split_ifs <;> rfl
  rw [warmSlot_eq]
  split
  · rfl
  · exact (habandon _).trans htrims

include hq

theorem steady_warmTrims : Steady Watched d (warmTrims old q d) := by
  have hlink : ∀ e : Dev, Steady Watched e { e with link := tset {} e.link q (old.linkOf q) } :=
    fun e => .of_hidden rfl rfl rfl
  have hen := steady_put_cluster (loadTrims q d) (AC_CTL_REFEN q) (old.get (AC_CTL_REFEN q))
    (inClusters_control hq (by decide : 0 < 0x20))
  have hrdy := steady_put_cluster ((loadTrims q d).put (AC_CTL_REFEN q) (old.get (AC_CTL_REFEN q))) (AC_STAT_REFRDY q)
    (old.get (AC_STAT_REFRDY q)) (inClusters_control hq (by decide : 4 < 0x20))
  exact ((((steady_loadTrims d hq).trans hen).trans hrdy).onClu q _).trans (hlink _)

theorem warmSlot_recloses (hp : old.present q = true) (h4 : d.get (CSL_STAT_STATE q) = 4)
    (hsw : d.get (CSL_STAT_SEGSW q) = 0) : ((warmSlot old q d).slotOf q).reclose = true := by
  have hs := steady_warmTrims old d hq
  rw [warmSlot_eq, hp]
  exact warmAbandon_recloses _ ((hs.get (f := CSL_STAT_STATE q) (watched_slot hq)).trans h4)
    ((hs.get (f := CSL_STAT_SEGSW q) (watched_slot hq)).trans hsw)

/-- Another slot's status word and hidden state stay. -/
theorem warmSlot_other {p : Nat} (hp : p < 16) (h : p ≠ q) : (warmSlot old p d).reg (CSL_STAT q) = d.reg (CSL_STAT q) ∧
    (warmSlot old p d).slotOf q = d.slotOf q := by
  have hs := steady_warmTrims old d hp
  have habandon : ∀ e : Dev, (warmAbandon p e).reg (CSL_STAT q) = e.reg (CSL_STAT q) ∧ (warmAbandon p e).slotOf q = e.slotOf q := by
    intro e
    have hput : (e.put (CSL_STAT_STATE p) 2).reg (CSL_STAT q) = e.reg (CSL_STAT q) :=
      reg_put_ne e (CSL_STAT_STATE p) 2 (by simp only [CSL_STAT_STATE, CSL_STAT]; omega)
    unfold warmAbandon
    extract_lets e1
    split_ifs
    · exact ⟨hput, rfl⟩
    · exact ⟨hput, slotOf_onSlot_ne e1 _ (Ne.symm h)⟩
    · exact ⟨rfl, rfl⟩
  rw [warmSlot_eq]
  split
  · exact ⟨rfl, rfl⟩
  · exact ⟨(habandon _).1.trans (hs.reg _ (watched_slot hq)), (habandon _).2.trans (hs.slotOf q)⟩

/-- Over all slots: a release that the reset abandons with the switch open asks for it to close. -/
theorem warmSlots_reclose (hp : old.present q = true) (h4 : d.get (CSL_STAT_STATE q) = 4)
    (hsw : d.get (CSL_STAT_SEGSW q) = 0) : ((d.each (List.range 16) (warmSlot old)).slotOf q).reclose = true := by
  obtain ⟨t, ht, he⟩ := each_local (g := fun t => (t.reg (CSL_STAT q), t.slotOf q)) (f := warmSlot old) List.nodup_range
    (List.mem_range.2 hq) (fun p hp hne t => Prod.ext_iff.2 (warmSlot_other old t hq (List.mem_range.1 hp) hne)) d
  obtain ⟨hreg, -⟩ := Prod.ext_iff.1 ht
  obtain ⟨-, hslot⟩ := Prod.ext_iff.1 he
  simp only at hreg hslot
  rw [hslot]
  have hget : ∀ f : Fld, f.addr = CSL_STAT q → t.get f = d.get f := fun f hf => by rw [Dev.get, hf, hreg, Dev.get, hf]
  exact warmSlot_recloses old t hq hp ((hget _ rfl).trans h4) ((hget _ rfl).trans hsw)

end

/-! ### The whole reset -/

/-- The block after a warm reset but for its slots, its cause and the line (R106). -/
def warmKept (full : Bool) (old : Dev) : Dev :=
  let d : Dev := { now := old.now, timeOn := old.timeOn, jnl := old.jnl, free := old.free, tru := old.tru, pse := old.pse
                   inputs := old.inputs, slots := old.slots, aux := { diagEnd := old.aux.diagEnd } }
  let d := (keepRegs old warmRegs d).onBus fun b => { b with lastAddr := old.bus.lastAddr }
  let d := (d.onSys fun h => { h with aon := true, full := full || d.on SYS_WAKEEN_FULLBIST }).onSsq fun q => { q with
    extLine := old.ssq.extLine }
  d.each allAxes fun a d => warmAxis old a d

theorem warmDev_eq (cause : Nat) (full : Bool) (old : Dev) : warmDev cause full old =
    lineUpdate false (((warmKept full old).each (List.range 16) (warmSlot old)).put ⟨SYS_RCAUSE, 0, 6⟩ cause) := rfl

section
variable (old : Dev) {q : Nat}

/-- The hidden state that a reset notes besides leaves the registers, the slots and the peal. -/
theorem noted_keeps (d : Dev) (f : BusH → BusH) (g : SysH → SysH) (h : SsqH → SsqH) :
    (∀ r, (((d.onBus f).onSys g).onSsq h).reg r = d.reg r) ∧ (((d.onBus f).onSys g).onSsq h).slots = d.slots ∧
      (((d.onBus f).onSys g).onSsq h).peal = d.peal := ⟨fun _ => rfl, rfl, rfl⟩

theorem peal_keepRegs (old : Dev) (l : List Nat) (d : Dev) : (keepRegs old l d).peal = d.peal :=
  each_frame Dev.peal l (fun r d => d.setReg r (old.reg r)) (fun _ _ => rfl) d

/-- What stays over the reset of the rest: the status word and the hidden state of a slot; no peal runs. -/
theorem warmKept_spec (hq : q < 16) (full : Bool) : (warmKept full old).reg (CSL_STAT q) = old.reg (CSL_STAT q) ∧
    (warmKept full old).peal.running = false := by
  have hmem : CSL_STAT q ∈ warmRegs := List.mem_append_right _ (List.mem_map.2 ⟨q, List.mem_range.2 hq, rfl⟩)
  have hax : ∀ a ∈ allAxes, ∀ t : Dev, (warmAxis old a t).reg (CSL_STAT q) = t.reg (CSL_STAT q) := fun a ha t =>
    reg_put_ne t (CU_STATE_STATE a) _ (by
      have := allAxes_lt a ha
      simp only [CU_STATE_STATE, CU_STATE, CSL_STAT]
      omega)
  unfold warmKept
  extract_lets d1 d2 d3
  obtain ⟨hreg, -, hpeal⟩ := noted_keeps (keepRegs old warmRegs d1) (fun b => { b with lastAddr := old.bus.lastAddr })
    (fun h => { h with aon := true, full := full || d2.on SYS_WAKEEN_FULLBIST }) (fun q => { q with extLine := old.ssq.extLine })
  refine ⟨?_, ?_⟩
  · rw [each_frame_mem (g := fun t => t.reg (CSL_STAT q)) hax d3, hreg]
    exact reg_keepRegs hmem d1
  · rw [each_frame Dev.peal allAxes (warmAxis old) (fun _ _ => rfl) d3, hpeal, peal_keepRegs]

theorem warmDev_recloses (hq : q < 16) (cause : Nat) (full : Bool) (hp : old.present q = true) (h4 : old.get (CSL_STAT_STATE q) = 4)
    (hsw : old.get (CSL_STAT_SEGSW q) = 0) : ((warmDev cause full old).slotOf q).reclose = true := by
  obtain ⟨hreg, hpeal⟩ := warmKept_spec old hq full
  have hidle : ((warmKept full old).each (List.range 16) (warmSlot old)).peal.running = false := by
    rw [each_frame Dev.peal _ _ (fun p t => peal_warmSlot old t p), hpeal]
  have hget : ∀ f : Fld, f.addr = CSL_STAT q → (warmKept full old).get f = old.get f := fun f hf => by
    rw [Dev.get, hf, hreg, Dev.get, hf]
  have h := warmSlots_reclose old (warmKept full old) hq hp ((hget _ rfl).trans h4) ((hget _ rfl).trans hsw)
  rw [warmDev_eq, Dev.slotOf, slots_lineUpdate (Dev.put _ _ _) hidle]
  exact h

/-- A journal that is neither open nor read-only is sealed by what its controller notes alone. -/
theorem sealJournal_closed (m : List Host.Cell) (hopen : old.jnlOpen = false) (hro : old.get JNL_STAT_MODE ≠ 3) :
    sealJournal false (old, m) =
      (old.onJnl fun j => { j with sealing := true, img := none, compacting := false, copies := [] }, m) := by
  unfold sealJournal
  extract_lets opened x1 x2 x3 x4
  have ho : opened = false := hopen
  have h4 : x4 = x1 := if_neg (by rw [ho]; decide)
  have h3 : decide (x1.1.get JNL_STAT_MODE = 3) = false := decide_eq_false hro
  rw [h4, ho, h3]
  rfl

/-- A journal that does not mount leaves the slots. -/
theorem bootMount_failed (x : DM) : (bootMount false x).1.slots = x.1.slots ∧ (bootMount false x).1.sys.jnlOk = false := by
  have hm : (mountJournal false x).1 =
      (x.1.onJnl fun j => { j with sealing := false, queue := [], lastCopy := false }).put JNL_STAT_MODE 5 := rfl
  have hsys : ∀ (d : Dev) (f : SysH → SysH), (d.onSys f).slots = d.slots ∧ (d.onSys f).sys = f d.sys := fun _ _ => ⟨rfl, rfl⟩
  rw [bootMount, dm_dev_dev, (hsys _ _).1, (hsys _ _).2, hm, put_slots]
  exact ⟨rfl, rfl⟩

/-- A warm reset of a block whose journal is neither open nor read-only, and does not mount: a release it abandons with the
segment switch open asks for the switch to close (R53). -/
theorem warmReset_recloses (hq : q < 16) (m : List Host.Cell) (cause : Nat) (full : Bool) (hopen : old.jnlOpen = false)
    (hro : old.get JNL_STAT_MODE ≠ 3) (hp : old.present q = true) (h4 : old.get (CSL_STAT_STATE q) = 4)
    (hsw : old.get (CSL_STAT_SEGSW q) = 0) :
    ((Machine.warmReset cause full false (old, m)).1.slotOf q).reclose = true := by
  have h := warmDev_recloses (old.onJnl fun j => { j with sealing := true, img := none, compacting := false, copies := [] })
    hq cause full hp h4 hsw
  rw [Machine.warmReset, sealJournal_closed old m hopen hro]
  obtain ⟨hs, hok⟩ := bootMount_failed (warmDev cause full
    (old.onJnl fun j => { j with sealing := true, img := none, compacting := false, copies := [] }), keepWarm m)
  rw [dm_dev_dev, Dev.slotOf, slots_resetMode _ _ _ hok, hs]
  exact h

end

/-! ### The counterexample -/

/-- STANDBY with the journal sealed and no axis powered, while the release of slot 0 is under way and its segment switch is
open (R52). -/
def releasing0 : Dev := ((({} : Dev).put SYS_MODE_MODE 3).put JNL_STAT_MODE 4).put (CSL_STAT_STATE 0) 4

/-- A write of SYS_RESET with its key and GO, which nothing refuses, performs the reset (R106). -/
theorem warmReset_performs {s : State} {p : Fin 5} {w : Word} {b : Bool} (hl : s.dev.sys.logicOn = true)
    (hkey : wordGet w 24 8 = 0xC5) (hgo : w.toNat.testBit 0 = true) (hr : s.dev.warmRefused = false) :
    exec (.warmReset (.pair p) w b) s = .next { s with
      dev := (Machine.warmReset 4 false b (s.dev, s.mem)).1, mem := (Machine.warmReset 4 false b (s.dev, s.mem)).2 } := by
  have hw : writeReset w b (s.dev, s.mem) = Machine.warmReset 4 false b (s.dev, s.mem) := by
    rw [writeReset, if_pos (by simp [hkey, hgo]), requestWarm, if_neg (by simp [hr])]
  exact hw ▸ onDM_next (writeReset w b) s hl

/-- Refutes O10: a warm reset does not keep the hidden state of every slot. It abandons a release between its steps 2 and 5
(R53, R106), and a slot whose segment switch is open then asks for it to close. -/
theorem not_dormantAndResets : ¬ Obligations.DormantAndResets := by
  unfold Obligations.DormantAndResets
  rintro ⟨-, -, -, -, -, -, -, -, -, -, -, -, -, -, -, -, -, -, -, -, hwarm, -⟩
  have hrefused : releasing0.warmRefused = false := by decide +kernel
  have hopen : releasing0.jnlOpen = false := by decide +kernel
  have hro : releasing0.get JNL_STAT_MODE ≠ 3 := by decide +kernel
  obtain ⟨u, he, -, -, -, -, -, -, -, hslots, -⟩ := hwarm ⟨releasing0, [], []⟩ 0 0xC5000001 rfl (by decide) (by decide)
    hrefused hopen hro
  obtain rfl := Host.Outcome.next.inj ((warmReset_performs rfl (by decide) (by decide) hrefused).symm.trans he)
  have hasked := warmReset_recloses releasing0 (q := 0) (by decide) [] 4 false hopen hro (by decide +kernel)
    (by decide +kernel) (by decide +kernel)
  rw [Dev.slotOf, hslots] at hasked
  exact absurd hasked (by decide)

end Sys2Proof.Proofs
end

section
namespace Sys2Proof.Proofs
open Sys2Proof Sys2Proof.Machine Sys2Proof.Laws Reg

/-! SUPPORT. The DC inputs (R55 to R57), the cartridge segments (R58, R59), and their statement (O4). -/

/-! ### What an operation on the inputs changes -/

/-- From `d` to `t` only the registers of `l`, the hidden state of inputs and of events change. -/
structure InputChange (l : List Nat) (d t : Dev) : Prop where
  shape : t = { d with regs := t.regs, inputs := t.inputs, evs := t.evs }
  regs : sameRegs d t l

namespace InputChange
variable {l : List Nat} {d t : Dev}

theorem refl (l : List Nat) (d : Dev) : InputChange l d d := ⟨rfl, sameRegs_refl d l⟩

theorem put (h : InputChange l d t) (f : Fld) (v : Nat) (hf : f.addr ∈ l) : InputChange l d (t.put f v) where
  shape := by
    have hs : t.put f v = { t with regs := (t.put f v).regs } := rfl
    rw [hs, h.shape]
  regs := sameRegs_put h.regs f v hf

theorem onInput (h : InputChange l d t) (x : Nat) (f : InputH → InputH) : InputChange l d (t.onInput x f) where
  shape := by
    have hs : t.onInput x f = { t with inputs := (t.onInput x f).inputs } := rfl
    rw [hs, h.shape]
  regs := sameRegs_trans h.regs fun _ _ => onInput_reg _ _ _ _

/-- A raise of an event of the PSE. -/
theorem raisePse (h : InputChange l d t) (n : Nat) (hf : PSE_EVT ∈ l) (he : ∀ r ∈ evRegs (992 + n), r ∈ l) :
    InputChange l d (Machine.raisePse n t) where
  shape := by
    obtain ⟨rg, ev, hs⟩ := raiseIn_shape PSE_EVT 992 n t
    rw [show Machine.raisePse n t = _ from hs, h.shape]
  regs := sameRegs_raise (sameRegs_put h.regs ⟨PSE_EVT, n, 1⟩ 1 hf) (992 + n) he

/-- With no raise, events stay. -/
theorem quiet (h : InputChange l d t) (he : t.evs = d.evs) : t = { d with regs := t.regs, inputs := t.inputs } := by
  have hs := h.shape
  rwa [he] at hs

end InputChange

/-! ### The fields of an input -/

theorem onInput_evs (d : Dev) (x : Nat) (f : InputH → InputH) : (d.onInput x f).evs = d.evs := rfl

section
variable (d : Dev) (x : Fin 2) (v : Nat)

theorem inVolt_addr : (inVolt x).addr = PSE_VIN := by decide +revert

theorem inClosed_addr : (inClosed x).addr = PSE_STAT := by decide +revert

theorem inTripped_addr : (inTripped x).addr = PSE_STAT := by decide +revert

theorem inReverse_addr : (inReverse x).addr = PSE_STAT := by decide +revert

/-- The terminal voltage holds what is measured. -/
theorem get_put_inVolt (w : Fin 65536) : ∀ x : Fin 2, (d.put (inVolt x) w).get (inVolt x) = w :=
  Fin.forall_fin_two.2 ⟨get_put_fits d PSE_VIN_VDCA rfl w.isLt, get_put_fits d PSE_VIN_VDCB rfl w.isLt⟩

/-- The flags of an input hold a bit. -/
theorem get_put_inClosed (hv : v < 2) : ∀ x : Fin 2, (d.put (inClosed x) v).get (inClosed x) = v :=
  Fin.forall_fin_two.2 ⟨get_put_fits d PSE_STAT_INA rfl hv, get_put_fits d PSE_STAT_INB rfl hv⟩

theorem get_put_inTripped (hv : v < 2) : ∀ x : Fin 2, (d.put (inTripped x) v).get (inTripped x) = v :=
  Fin.forall_fin_two.2 ⟨get_put_fits d PSE_STAT_OCA rfl hv, get_put_fits d PSE_STAT_OCB rfl hv⟩

theorem get_put_inReverse (hv : v < 2) : ∀ x : Fin 2, (d.put (inReverse x) v).get (inReverse x) = v :=
  Fin.forall_fin_two.2 ⟨get_put_fits d PSE_STAT_REVA rfl hv, get_put_fits d PSE_STAT_REVB rfl hv⟩

/-- The flags of an input and PRECH do not overlap. -/
theorem apart_flags : ∀ x : Fin 2, apart (inTripped x) (inClosed x) = true ∧ apart (inReverse x) (inClosed x) = true ∧
    apart PSE_STAT_PRECH (inClosed x) = true ∧ apart PSE_STAT_PRECH (inTripped x) = true := by decide

theorem get_closed_put_tripped : (d.put (inTripped x) v).get (inClosed x) = d.get (inClosed x) :=
  get_put_apart d _ _ v (by rw [inClosed_addr, inTripped_addr]) (apart_flags x).1

theorem get_closed_put_reverse : (d.put (inReverse x) v).get (inClosed x) = d.get (inClosed x) :=
  get_put_apart d _ _ v (by rw [inClosed_addr, inReverse_addr]) (apart_flags x).2.1

theorem get_closed_prechFlag : (prechFlag d).get (inClosed x) = d.get (inClosed x) :=
  get_put_apart d _ _ _ (by rw [inClosed_addr]; rfl) (apart_flags x).2.2.1

theorem get_tripped_prechFlag : (prechFlag d).get (inTripped x) = d.get (inTripped x) :=
  get_put_apart d _ _ _ (by rw [inTripped_addr]; rfl) (apart_flags x).2.2.2

/-- A measured terminal leaves the registers but PSE_VIN. -/
theorem get_put_volt {f : Fld} (hf : f.addr ≠ PSE_VIN) : (d.put (inVolt x) v).get f = d.get f :=
  get_put_ne d _ f v (by rwa [inVolt_addr])

/-- So whether inputs may be connected stays. -/
theorem inputsAllowed_put_volt : (d.put (inVolt x) v).inputsAllowed = d.inputsAllowed := by
  rw [Dev.inputsAllowed, Dev.mode, Dev.on, get_put_volt d x v (f := SYS_MODE_MODE) (by decide),
    get_put_volt d x v (f := PSE_STAT_HOLDUP) (by decide), Dev.inputsAllowed, Dev.mode, Dev.on]

theorem get_prechFlag {f : Fld} (hf : f.addr ≠ PSE_STAT) : (prechFlag d).get f = d.get f := get_put_ne d _ f _ hf

theorem inputOf_put (f : Fld) (i : Nat) : (d.put f v).inputOf i = d.inputOf i := rfl

theorem inputOf_prechFlag (i : Nat) : (prechFlag d).inputOf i = d.inputOf i := by rw [prechFlag, inputOf_put]

/-- PRECH is set while an input precharges. -/
theorem prech_prechFlag {t : Nat} (h : (d.inputOf x).preAt = some t) : (prechFlag d).get PSE_STAT_PRECH = 1 := by
  have hp : ((d.inputOf 0).preAt.isSome || (d.inputOf 1).preAt.isSome) = true := by
    rcases (by omega : x.val = 0 ∨ x.val = 1) with hx | hx <;> rw [hx] at h <;> simp [h]
  rw [prechFlag, if_pos hp]
  exact get_put_const d PSE_STAT_PRECH 1 rfl

theorem inputChange_prechFlag {l : List Nat} {e : Dev} (h : InputChange l e d) (hl : PSE_STAT ∈ l) :
    InputChange l e (prechFlag d) := h.put _ _ hl

end

/-! ### A raise of an event of the PSE -/

section
variable (d : Dev) {n : Nat}

/-- A raise of an event of the PSE loses no other register, slot or pending event. -/
theorem steady_raisePse {K : Nat → Prop} (hn : n < 32) (hK : ∀ r, K r → EVC_PEND 64 ≤ r) (he : ¬ K PSE_EVT) :
    Steady K d (raisePse n d) := steady_raiseIn hK (by omega) he (by decide) d

theorem pend_raisePse (hn : n < 32) : (raisePse n d).pend (992 + n) = true := pend_raise_same (by omega) _

theorem inputOf_raisePse (i : Nat) : (raisePse n d).inputOf i = d.inputOf i := by
  obtain ⟨rg, ev, h⟩ := raiseIn_shape PSE_EVT 992 n d
  rw [show raisePse n d = _ from h]
  rfl

/-- It leaves PSE_STAT. -/
theorem get_raisePse (hn : n < 32) {f : Fld} (hf : f.addr = PSE_STAT ∨ f.addr = PSE_VLINK) : (raisePse n d).get f = d.get f :=
  (steady_raisePse (K := fun r => r = PSE_STAT ∨ r = PSE_VLINK) d hn (by rintro r (rfl | rfl) <;> decide)
    (by decide)).get hf

end

/-! ### Precharge and trips -/

section
variable (d : Dev) (x : Fin 2) {l : List Nat}

theorem inputOf_beginPrecharge : (beginPrecharge x d).inputOf x =
    { d.inputOf x with preAt := some d.now, retryAt := none } := by
  rw [beginPrecharge, inputOf_prechFlag, inputOf_onInput_same]

theorem prech_beginPrecharge : (beginPrecharge x d).get PSE_STAT_PRECH = 1 :=
  prech_prechFlag _ x (t := d.now) (by rw [inputOf_onInput_same])

theorem inputChange_beginPrecharge {e : Dev} (h : InputChange l e d) (hl : PSE_STAT ∈ l) :
    InputChange l e (beginPrecharge x d) := inputChange_prechFlag _ (h.onInput _ _) hl

theorem evs_beginPrecharge : (beginPrecharge x d).evs = d.evs := by rw [beginPrecharge, prechFlag, put_evs, onInput_evs]

/-- The block as a tripped input leaves it, before INPUT_TRIP is raised. -/
def tripped (i : Nat) : Dev :=
  let e := d.onInput i fun h => { h with preAt := none, retryAt := some (d.now + 1000000000) }
  prechFlag (((e.put (inClosed i) 0).put (inReverse i) 0).put (inTripped i) 1)

theorem tripInput_eq : tripInput x d = raisePse 9 (tripped d x) := rfl

theorem inputOf_tripped : (tripped d x).inputOf x =
    { d.inputOf x with preAt := none, retryAt := some (d.now + 1000000000) } := by
  unfold tripped
  extract_lets e
  rw [inputOf_prechFlag, inputOf_put, inputOf_put, inputOf_put]
  exact inputOf_onInput_same d x _

theorem flags_tripped : (tripped d x).get (inClosed x) = 0 ∧ (tripped d x).get (inTripped x) = 1 := by
  unfold tripped
  extract_lets e
  rw [get_closed_prechFlag, get_closed_put_tripped, get_closed_put_reverse, get_put_inClosed _ _ (by decide),
    get_tripped_prechFlag, get_put_inTripped _ _ (by decide)]
  exact ⟨rfl, rfl⟩

theorem inputChange_tripped (hl : PSE_STAT ∈ l) : InputChange l d (tripped d x) :=
  inputChange_prechFlag _ (((((InputChange.refl l d).onInput _ _).put _ 0 (by rwa [inClosed_addr])).put _ 0
    (by rwa [inReverse_addr])).put _ 1 (by rwa [inTripped_addr])) hl

/-- A tripped input is open with OCx, INPUT_TRIP is pending, and it retries 5 s later (R55, R57). -/
theorem tripInput_spec : (tripInput x d).get (inClosed x) = 0 ∧ (tripInput x d).get (inTripped x) = 1 ∧
    (tripInput x d).inputOf x = { d.inputOf x with preAt := none, retryAt := some (d.now + 1000000000) } ∧
    (tripInput x d).pend 1001 = true ∧ InputChange (PSE_STAT :: PSE_EVT :: evRegs 1001) d (tripInput x d) := by
  obtain ⟨hc, ht⟩ := flags_tripped d x
  rw [tripInput_eq, get_raisePse _ (by decide) (.inl (inClosed_addr x)),
    get_raisePse _ (by decide) (.inl (inTripped_addr x)), inputOf_raisePse]
  exact ⟨hc, ht, inputOf_tripped d x, pend_raisePse _ (by decide),
    (inputChange_tripped d x List.mem_cons_self).raisePse 9 (by simp) fun r h => by simp [h]⟩

end

/-! ### The link as measured -/

section
variable (d : Dev) (v : Nat) {l : List Nat}

/-- A measured link shows in PSE_VLINK and the level bits; VDECEL may be raised. -/
theorem setVlink_cases : setVlink v d = levelBits (d.put PSE_VLINK_VLINK v) ∨
    setVlink v d = raisePse 4 (levelBits (d.put PSE_VLINK_VLINK v)) := by
  unfold setVlink
  extract_lets was e
  split
  · exact .inr rfl
  · exact .inl rfl

theorem get_levelBits {f : Fld} (hf : f.addr ≠ PSE_STAT) : (levelBits d).get f = d.get f := by
  rw [levelBits, get_put_ne (d.put PSE_STAT_VDECEL _) PSE_STAT_REGEN0 f _ hf]
  exact get_put_ne d PSE_STAT_VDECEL f _ hf

theorem inputOf_levelBits (i : Nat) : (levelBits d).inputOf i = d.inputOf i := by
  rw [levelBits, inputOf_put, inputOf_put]

theorem inputChange_levelBits {e : Dev} (h : InputChange l e d) (hl : PSE_STAT ∈ l) : InputChange l e (levelBits d) :=
  (h.put PSE_STAT_VDECEL _ hl).put PSE_STAT_REGEN0 _ hl

theorem get_setVlink (hv : v < 65536) : (setVlink v d).get PSE_VLINK_VLINK = v := by
  have h : (levelBits (d.put PSE_VLINK_VLINK v)).get PSE_VLINK_VLINK = v := by
    rw [get_levelBits _ (by decide)]
    exact get_put_fits d PSE_VLINK_VLINK rfl hv
  rcases setVlink_cases d v with hs | hs <;> rw [hs]
  · exact h
  · exact (get_raisePse _ (by decide) (.inr rfl)).trans h

theorem inputOf_setVlink (i : Nat) : (setVlink v d).inputOf i = d.inputOf i := by
  have h : (levelBits (d.put PSE_VLINK_VLINK v)).inputOf i = d.inputOf i := by
    rw [inputOf_levelBits, inputOf_put]
  rcases setVlink_cases d v with hs | hs <;> rw [hs]
  · exact h
  · rw [inputOf_raisePse, h]

theorem inputChange_setVlink {e : Dev} (h : InputChange l e d)
    (hl : ∀ r ∈ PSE_VLINK :: PSE_STAT :: PSE_EVT :: evRegs 996, r ∈ l) : InputChange l e (setVlink v d) := by
  have hlev := inputChange_levelBits _ (h.put PSE_VLINK_VLINK v (hl _ (by simp [PSE_VLINK_VLINK]))) (hl _ (by simp))
  rcases setVlink_cases d v with hs | hs <;> rw [hs]
  · exact hlev
  · exact hlev.raisePse 4 (hl _ (by simp)) fun r hr => hl r (by simp [hr])

end

/-! ### The events of the inputs (R55 to R57) -/

section
variable (s : State) (x : Fin 2) (v : Fin 65536)

/-- An input begins to precharge with its terminal measured. -/
theorem precharge_measured (d : Dev) :
    (beginPrecharge x (d.put (inVolt x) v)).inputOf x =
      { d.inputOf x with preAt := some d.now, retryAt := none } ∧
    (beginPrecharge x (d.put (inVolt x) v)).get PSE_STAT_PRECH = 1 ∧
    (beginPrecharge x (d.put (inVolt x) v)).get (inVolt x) = v.val ∧
    beginPrecharge x (d.put (inVolt x) v) = { d with
      regs := (beginPrecharge x (d.put (inVolt x) v)).regs, inputs := (beginPrecharge x (d.put (inVolt x) v)).inputs } ∧
    sameRegs d (beginPrecharge x (d.put (inVolt x) v)) [PSE_VIN, PSE_STAT] := by
  have hch : InputChange [PSE_VIN, PSE_STAT] d (d.put (inVolt x) v) :=
    (InputChange.refl _ _).put _ _ (by rw [inVolt_addr]; exact List.mem_cons_self)
  have hev : (d.put (inVolt x) v).evs = d.evs := put_evs _ _ _
  have hvolt := get_put_inVolt d v x
  have hin := inputOf_put d v (inVolt x) x
  have hnow : (d.put (inVolt x) v).now = d.now := rfl
  generalize d.put (inVolt x) v = e at hch hev hvolt hin hnow
  have hb := inputChange_beginPrecharge e x hch (by simp)
  refine ⟨?_, prech_beginPrecharge e x, ?_, hb.quiet (by rw [evs_beginPrecharge, hev]), hb.regs⟩
  · rw [inputOf_beginPrecharge, hnow, hin]
  · rw [beginPrecharge, get_prechFlag _ (by rw [inVolt_addr]; decide), onInput_get, hvolt]

theorem inputPrechargeStart_begins (hl : s.dev.sys.logicOn = true) (hv : 10000 ≤ v.val)
    (hok : s.dev.inputsAllowed = true) (hc : s.dev.get (inClosed x) = 0) (hp : (s.dev.inputOf x).preAt = none)
    (hr : (s.dev.inputOf x).retryAt = none) :
    Does (.inputPrechargeStart x v) s fun t => (t.inputOf x).preAt = some s.dev.now ∧ t.get PSE_STAT_PRECH = 1 ∧
      t.get (inVolt x) = v.val ∧ t = { s.dev with regs := t.regs, inputs := t.inputs } ∧
      sameRegs s.dev t [PSE_VIN, PSE_STAT] := by
  have hcond : (10000 ≤ v.val && (s.dev.put (inVolt x) v).inputsAllowed && !(s.dev.put (inVolt x) v).on (inClosed x) &&
      ((s.dev.put (inVolt x) v).inputOf x).preAt.isNone && ((s.dev.put (inVolt x) v).inputOf x).retryAt.isNone) = true := by
    rw [inputsAllowed_put_volt, hok, Dev.on, get_put_volt _ _ _ (by rw [inClosed_addr]; decide), hc, inputOf_put, hp, hr]
    simp [hv]
  refine does_onDev_of_eq (execInputPrechargeStart x v) rfl rfl hl (if_pos hcond) ?_
  obtain ⟨hi, hprech, hvolt, hshape, hregs⟩ := precharge_measured x v s.dev
  rw [hi]
  exact ⟨rfl, hprech, hvolt, hshape, hregs⟩

theorem inputPrechargeStart_low (hl : s.dev.sys.logicOn = true) (hv : v.val < 10000) :
    Does (.inputPrechargeStart x v) s fun t => t.get (inVolt x) = v.val ∧ t = { s.dev with regs := t.regs } ∧
      sameRegs s.dev t [PSE_VIN] := by
  refine does_onDev_of_eq (execInputPrechargeStart x v) rfl rfl hl
    (if_neg (by simp [Nat.not_le.2 hv]) : _ = s.dev.put (inVolt x) v) ?_
  exact ⟨get_put_inVolt s.dev v x, rfl,
    sameRegs_put (sameRegs_refl _ _) _ _ (by rw [inVolt_addr]; exact List.mem_cons_self)⟩

/-- The block as a connected input leaves it, PSE_VIN and PSE_VLINK being measured. -/
def connected (i : Nat) (e : Dev) : Dev :=
  prechFlag (((e.put (inClosed i) 1).put (inTripped i) 0).onInput i fun h => { h with preAt := none })

theorem connected_spec {l : List Nat} {d e : Dev} (h : InputChange l d e) (hl : PSE_STAT ∈ l) :
    (connected x e).get (inClosed x) = 1 ∧ (connected x e).get (inTripped x) = 0 ∧
    ((connected x e).inputOf x).preAt = none ∧ (connected x e).get PSE_VLINK_VLINK = e.get PSE_VLINK_VLINK ∧
    InputChange l d (connected x e) := by
  refine ⟨?_, ?_, ?_, ?_, inputChange_prechFlag _ (((h.put _ 1 (by rwa [inClosed_addr])).put _ 0
    (by rwa [inTripped_addr])).onInput _ _) hl⟩
  · rw [connected, get_closed_prechFlag, onInput_get, get_closed_put_tripped, get_put_inClosed _ _ (by decide)]
  · rw [connected, get_tripped_prechFlag, onInput_get, get_put_inTripped _ _ (by decide)]
  · rw [connected, inputOf_prechFlag, inputOf_onInput_same]
  · rw [connected, get_prechFlag _ (by decide), onInput_get, get_put_ne _ _ _ _ (by rw [inTripped_addr]; decide),
      get_put_ne _ _ _ _ (by rw [inClosed_addr]; decide)]

theorem inputConnect_connects (l : Fin 65536) {k : Nat} (hl : s.dev.sys.logicOn = true)
    (hp : (s.dev.inputOf x).preAt = some k) (h1 : v.val ≤ l.val + 500) (h2 : l.val ≤ v.val + 500) :
    Does (.inputConnect x v l) s fun t => t.get (inClosed x) = 1 ∧ t.get (inTripped x) = 0 ∧
      (t.inputOf x).preAt = none ∧ t.get PSE_VLINK_VLINK = l.val ∧
      t = { s.dev with regs := t.regs, inputs := t.inputs, evs := t.evs } ∧
      sameRegs s.dev t (PSE_VIN :: PSE_VLINK :: PSE_STAT :: PSE_EVT :: evRegs 996) := by
  have hcond : (((setVlink l (s.dev.put (inVolt x) v)).inputOf x).preAt.isSome && decide (v.val ≤ l.val + 500) &&
      decide (l.val ≤ v.val + 500)) = true := by
    rw [inputOf_setVlink, inputOf_put, hp]
    simp [h1, h2]
  refine does_onDev_of_eq (execInputConnect x v l) rfl rfl hl
    (if_pos hcond : _ = connected x (setVlink l (s.dev.put (inVolt x) v))) ?_
  have hch : InputChange (PSE_VIN :: PSE_VLINK :: PSE_STAT :: PSE_EVT :: evRegs 996) s.dev (s.dev.put (inVolt x) v) :=
    (InputChange.refl _ _).put _ _ (by rw [inVolt_addr]; exact List.mem_cons_self)
  obtain ⟨hc, ht, hi, hv, hch⟩ := connected_spec x
    (inputChange_setVlink (s.dev.put (inVolt x) v) l hch fun _ h => List.mem_cons_of_mem _ h) (by simp)
  exact ⟨hc, ht, hi, hv.trans (get_setVlink _ _ l.isLt), hch.shape, hch.regs⟩

theorem prechargeTimeout_trips {k : Nat} (hl : s.dev.sys.logicOn = true) (hp : (s.dev.inputOf x).preAt = some k)
    (hk : k + 50000000 ≤ s.dev.now) :
    Does (.prechargeTimeout x) s fun t => t.get (inTripped x) = 1 ∧ t.get (inClosed x) = 0 ∧
      (t.inputOf x).retryAt = some (s.dev.now + 1000000000) ∧ (t.inputOf x).preAt = none ∧ t.pend 1001 = true ∧
      t = { s.dev with regs := t.regs, inputs := t.inputs, evs := t.evs } ∧
      sameRegs s.dev t (PSE_STAT :: PSE_EVT :: evRegs 1001) := by
  refine does_onDev (execPrechargeTimeout x) rfl rfl hl ?_
  simp only [hp, if_pos hk]
  obtain ⟨hc, ht, hi, hpend, hch⟩ := tripInput_spec s.dev x
  rw [hi]
  exact ⟨ht, hc, rfl, rfl, hpend, hch.shape, hch.regs⟩

theorem inputRetry_begins {k : Nat} (hl : s.dev.sys.logicOn = true) (hr : (s.dev.inputOf x).retryAt = some k)
    (hk : k ≤ s.dev.now) (hv : 10000 ≤ v.val) (hok : s.dev.inputsAllowed = true) :
    Does (.inputRetry x v) s fun t => (t.inputOf x).preAt = some s.dev.now ∧ (t.inputOf x).retryAt = none ∧
      t.get PSE_STAT_PRECH = 1 ∧ t = { s.dev with regs := t.regs, inputs := t.inputs } ∧
      sameRegs s.dev t [PSE_VIN, PSE_STAT] := by
  refine does_onDev_of_eq (t := beginPrecharge x (s.dev.put (inVolt x) v)) (execInputRetry x v) rfl rfl hl ?_ ?_
  · simp only [inputOf_put, hr, put_now, if_neg (Nat.not_lt.2 hk), inputsAllowed_put_volt, hok, hv, decide_true,
      Bool.and_self, if_true]
  · obtain ⟨hi, hprech, -, hshape, hregs⟩ := precharge_measured x v s.dev
    rw [hi]
    exact ⟨rfl, rfl, hprech, hshape, hregs⟩

theorem inputOvercurrent_trips (hl : s.dev.sys.logicOn = true) (hc : s.dev.get (inClosed x) = 1) :
    Does (.inputOvercurrent x) s fun t => t.get (inClosed x) = 0 ∧ t.get (inTripped x) = 1 ∧
      (t.inputOf x).retryAt = some (s.dev.now + 1000000000) ∧ t.pend 1001 = true ∧
      t = { s.dev with regs := t.regs, inputs := t.inputs, evs := t.evs } ∧
      sameRegs s.dev t (PSE_STAT :: PSE_EVT :: evRegs 1001) := by
  have hon : s.dev.on (inClosed x) = true := by rw [Dev.on, hc]; rfl
  refine does_onDev_of_eq (execInputOvercurrent x) rfl rfl hl (if_pos hon) ?_
  obtain ⟨hc, ht, hi, hpend, hch⟩ := tripInput_spec s.dev x
  rw [hi]
  exact ⟨hc, ht, rfl, hpend, hch.shape, hch.regs⟩

theorem reverseCurrentBlock_blocks (hl : s.dev.sys.logicOn = true) (hc : s.dev.get (inClosed x) = 1)
    (hr : s.dev.get (inRevCfg x) = 1) :
    Does (.reverseCurrentBlock x) s fun t => t.get (inReverse x) = 0 ∧ (t.inputOf x).block = true ∧
      t = { s.dev with regs := t.regs, inputs := t.inputs } ∧ sameRegs s.dev t [PSE_STAT] := by
  have hon : (s.dev.on (inClosed x) && s.dev.on (inRevCfg x)) = true := by rw [Dev.on, hc, Dev.on, hr]; rfl
  refine does_onDev_of_eq (execReverseCurrentBlock x) rfl rfl hl (if_pos hon) ?_
  have hch := ((InputChange.refl [PSE_STAT] s.dev).put (inReverse x) 0
    (by rw [inReverse_addr]; exact List.mem_cons_self)).onInput x fun h => { h with block := true }
  refine ⟨?_, ?_, hch.quiet ?_, hch.regs⟩
  · rw [onInput_get, get_put_inReverse _ _ (by decide)]
  · rw [inputOf_onInput_same]
  · rw [onInput_evs, put_evs]

end

/-! ### A fault of a quad (R58, R59) -/

/-- The registers that a fault of the axes of a list leaves. -/
def Unfaulted (l : List Nat) (r : Nat) : Prop := Resting r ∧ ∀ a ∈ l, r ≠ CU_STATE a ∧ r ≠ CU_FLT a

section
variable {d : Dev} {a : Nat}

/-- A recorded fault code leaves its latch bit set; bit 10 is below CODE and PHASE. -/
theorem bit_latchFault (d : Dev) (a ph : Nat) : (latchFault a 10 ph d).bit (CU_FLT a) 10 = true := by
  have hset := bit_setBit_same d (CU_FLT a) (n := 10) (by decide)
  have hput : ∀ (f : Fld) v (t : Dev), f.addr = CU_FLT a → apart f ⟨CU_FLT a, 10, 1⟩ = true →
      t.bit (CU_FLT a) 10 = true → (t.put f v).bit (CU_FLT a) 10 = true := fun f v t hf hap ht => by
    rw [Dev.bit, Dev.on, get_put_apart t f ⟨CU_FLT a, 10, 1⟩ v hf.symm hap]
    exact ht
  unfold latchFault
  extract_lets same keep d1 d2
  change d2.bit (CU_FLT a) 10 = true
  change d1.bit (CU_FLT a) 10 = true at hset
  have hd2 : d2 = d1 ∨ d2 = (d1.put (CU_FLT_CODE a) 10).put (CU_FLT_PHASE a) ph := by
    by_cases hk : keep = true
    · exact .inl (if_pos hk)
    · exact .inr (if_neg hk)
  clear_value d1 d2
  rcases hd2 with rfl | rfl
  · exact hset
  · exact hput (CU_FLT_PHASE a) ph _ rfl rfl (hput (CU_FLT_CODE a) 10 d1 rfl rfl hset)

/-- A fault of one axis by its segment while no peal runs: FAULT with SEGMENT latched, and nothing else of what rests. -/
theorem faultOne_segment (ha : a < 64) (hab : d.axSt a ≠ .absent) (hp : d.peal.running = false) :
    (faultOne a 10 0 d).axSt a = .fault ∧ (faultOne a 10 0 d).bit (CU_FLT a) 10 = true ∧
    (faultOne a 10 0 d).peal = d.peal ∧ Steady (Unfaulted [a]) d (faultOne a 10 0 d) := by
  have hl := calm_latchFault d ha 10 0
  have hu := calm_undriven (latchFault a 10 0 d) ha
  have hbit := bit_latchFault d a 0
  rw [faultOne_eq hab, pealAxisFault_idle (by rw [hu.peal, hl.peal, hp])]
  generalize latchFault a 10 0 d = e at hl hu hbit
  generalize undriven a e = e' at hu
  have hs := calm_setAxState e' ha .fault
  refine ⟨axSt_setAxState_same e' ha .fault, ?_, by rw [hs.peal, hu.peal, hl.peal], ?_⟩
  · rw [bit_congr (hs.reg _ (restingBut_flt ha)), bit_congr (hu.reg _ (restingBut_flt ha).1), hbit]
  · have hne : ∀ r, Unfaulted [a] r → Resting r ∧ r ≠ CU_STATE a ∧ r ≠ CU_FLT a := fun r h =>
      ⟨h.1, h.2 a List.mem_cons_self⟩
    exact ((hl.toSteady.mono fun r h => ⟨h.1, (hne r h).2.2⟩).trans (hu.toSteady.mono fun r h => h.1)).trans
      (hs.toSteady.mono fun r h => ⟨h.1, (hne r h).2.1⟩)

/-- The state and the fault record of another axis are left. -/
theorem unfaulted_other {l : List Nat} (hl : ∀ b ∈ l, b < 64) (ha : a < 64) (h : a ∉ l) :
    Unfaulted l (CU_STATE a) ∧ Unfaulted l (CU_FLT a) := by
  have hb : ∀ b ∈ l, b < 64 ∧ b ≠ a := fun b hb => ⟨hl b hb, fun e => h (e ▸ hb)⟩
  simp only [Unfaulted, Resting, Working, CU_STATE, CU_FLT]
  refine ⟨⟨by omega, fun b hbl => ?_⟩, ⟨by omega, fun b hbl => ?_⟩⟩ <;>
  · obtain ⟨h1, h2⟩ := hb b hbl
    omega

/-- A fault of each axis of a list. -/
theorem each_faultOne_segment {l : List Nat} (hl : ∀ a ∈ l, a < 64) :
    ∀ d : Dev, d.peal.running = false → (∀ a ∈ l, d.axSt a ≠ .absent) →
      (∀ a ∈ l, (d.each l fun a d => faultOne a 10 0 d).axSt a = .fault ∧
        (d.each l fun a d => faultOne a 10 0 d).bit (CU_FLT a) 10 = true) ∧
      Steady (Unfaulted l) d (d.each l fun a d => faultOne a 10 0 d) := by
  induction l with
  | nil => exact fun d _ _ => ⟨fun a h => absurd h List.not_mem_nil, .refl _ d⟩
  | cons b l ih =>
    intro d hp hab
    have hb := hl b List.mem_cons_self
    have hl' : ∀ a ∈ l, a < 64 := fun a h => hl a (List.mem_cons_of_mem _ h)
    obtain ⟨hst, hbit, hpeal, hfirst⟩ := faultOne_segment hb (hab b List.mem_cons_self) hp
    rw [each_cons]
    generalize faultOne b 10 0 d = e at hst hbit hpeal hfirst
    have habe : ∀ a ∈ l, e.axSt a ≠ .absent := fun a h => by
      by_cases hne : a = b
      · rw [hne, hst]; decide
      · rw [hfirst.axSt (unfaulted_other (by simpa using hb) (hl' a h) (by simpa using hne)).1]
        exact hab a (List.mem_cons_of_mem _ h)
    obtain ⟨hall, hrest⟩ := ih hl' e (by rw [hpeal, hp]) habe
    refine ⟨fun a h => ?_, ?_⟩
    · by_cases hal : a ∈ l
      · exact hall a hal
      · obtain rfl : a = b := (List.mem_cons.1 h).resolve_right hal
        obtain ⟨hs, hf⟩ := unfaulted_other hl' hb hal
        rw [hrest.axSt hs, bit_congr (hrest.reg _ hf)]
        exact ⟨hst, hbit⟩
    · exact (hfirst.mono fun r h => ⟨h.1, fun a ha => h.2 a (List.mem_cons.1 ha |>.elim (fun e => e ▸ List.mem_cons_self)
        fun h => absurd h List.not_mem_nil)⟩).trans
        (hrest.mono fun r h => ⟨h.1, fun a ha => h.2 a (List.mem_cons_of_mem _ ha)⟩)

end

/-! ### The segment events -/

/-- The registers that the fault of a quad by its segment leaves, its events included. -/
def SegmentKept (q r : Nat) : Prop := Unfaulted (quadAxes q) r ∧ EVC_PEND 64 ≤ r ∧ r ≠ PSE_EVT

section
variable {d : Dev} {q : Nat}

/-- The segment of a quad faults it: every axis in FAULT with SEGMENT, events 1002 and the link's fault pending. -/
theorem segmentFault_spec (hq : q < 16) (hp : d.peal.running = false) (hab : ∀ a, a / 4 = q → d.axSt a ≠ .absent) :
    (∀ a, a / 4 = q → (raise (833 + 2 * q) (segmentFault q d)).axSt a = .fault ∧
      (raise (833 + 2 * q) (segmentFault q d)).bit (CU_FLT a) 10 = true) ∧
    (raise (833 + 2 * q) (segmentFault q d)).pend 1002 = true ∧
    (raise (833 + 2 * q) (segmentFault q d)).pend (833 + 2 * q) = true ∧
    Steady (SegmentKept q) d (raise (833 + 2 * q) (segmentFault q d)) := by
  obtain ⟨hall, hsteady⟩ := each_faultOne_segment (fun a h => quadAxes_lt hq h) d hp fun a h => hab a (mem_quadAxes.1 h)
  unfold segmentFault
  generalize (d.each (quadAxes q) fun a d => faultOne a 10 0 d) = e at hall hsteady
  have hpse : Steady (fun r => EVC_PEND 64 ≤ r ∧ r ≠ PSE_EVT) e (raisePse 10 e) :=
    steady_raisePse e (by decide) (fun _ => And.left) fun h => h.2 rfl
  have hlink : Steady (fun r => EVC_PEND 64 ≤ r ∧ r ≠ PSE_EVT) (raisePse 10 e) (raise (833 + 2 * q) (raisePse 10 e)) :=
    steady_raise (fun _ => And.left) (by omega) _
  have hraise := hpse.trans hlink
  refine ⟨fun a ha => ?_, hlink.pend _ (by decide) (pend_raisePse e (by decide)), pend_raise_same (by omega) _,
    (hsteady.mono fun _ => And.left).trans (hraise.mono fun _ => And.right)⟩
  have h64 : a < 64 := by omega
  obtain ⟨hst, hbit⟩ := hall a (mem_quadAxes.2 ha)
  rw [hraise.axSt (by simp only [CU_STATE, EVC_PEND, PSE_EVT]; omega),
    bit_congr (hraise.reg _ (by simp only [CU_FLT, EVC_PEND, PSE_EVT]; omega))]
  exact ⟨hst, hbit⟩

/-- It leaves the segment mask and the slots' status words. -/
theorem segmentKept_seg (hq : q < 16) : SegmentKept q PSE_SEG := by
  refine ⟨⟨by simp only [Resting, Working, PSE_SEG]; omega, fun a ha => ?_⟩, by decide, by decide⟩
  have := quadAxes_lt hq ha
  simp only [PSE_SEG, CU_STATE, CU_FLT]
  omega

theorem segmentKept_slot (hq : q < 16) {p : Nat} (hp : p < 16) : SegmentKept q (CSL_STAT p) := by
  refine ⟨⟨by simp only [Resting, Working, CSL_STAT]; omega, fun a ha => ?_⟩,
    by simp only [CSL_STAT, EVC_PEND]; omega, by simp only [CSL_STAT, PSE_EVT]; omega⟩
  have := quadAxes_lt hq ha
  simp only [CSL_STAT, CU_STATE, CU_FLT]
  omega

/-- It leaves the states of the axes of other quads. -/
theorem segmentKept_state (hq : q < 16) {a : Nat} (ha : a < 64) (h : a / 4 ≠ q) : SegmentKept q (CU_STATE a) :=
  ⟨(unfaulted_other (fun _ hb => quadAxes_lt hq hb) ha fun hm => h (mem_quadAxes.1 hm)).1,
    by simp only [CU_STATE, EVC_PEND]; omega, by simp only [CU_STATE, PSE_EVT]; omega⟩

/-- Clearing a bit of a register leaves hidden state. -/
theorem peal_clrBit (r n : Nat) (d : Dev) : (d.clrBit r n).peal = d.peal := rfl

theorem slotOf_clrBit (r n p : Nat) (d : Dev) : (d.clrBit r n).slotOf p = d.slotOf p := rfl

/-- The states of the axes are not in the segment mask. -/
theorem axSt_clrSeg (n a : Nat) (d : Dev) : (d.clrBit PSE_SEG n).axSt a = d.axSt a :=
  congrArg AxState.ofCode (get_put_ne d ⟨PSE_SEG, n, 1⟩ (CU_STATE_STATE a) 0
    (by simp only [PSE_SEG, CU_STATE_STATE, CU_STATE]; omega))

/-- The block as an open segment switch leaves it, before the quad faults. -/
def segmentOpened (q : Nat) (d : Dev) : Dev :=
  ((d.put (CSL_STAT_SEGSW q) 0).clrBit PSE_SEG q).onSlot q fun s =>
    { s with ident := s.ident.map fun i => { i with fuseStress := i.fuseStress + 1 } }

theorem segmentOpened_spec (hq : q < 16) : (segmentOpened q d).get (CSL_STAT_SEGSW q) = 0 ∧
    (segmentOpened q d).bit PSE_SEG q = false ∧
    ((segmentOpened q d).slotOf q).ident = (d.slotOf q).ident.map (fun i => { i with fuseStress := i.fuseStress + 1 }) ∧
    (segmentOpened q d).peal = d.peal ∧ ∀ a < 64, (segmentOpened q d).axSt a = d.axSt a := by
  unfold segmentOpened
  have hsw : (d.put (CSL_STAT_SEGSW q) 0).get (CSL_STAT_SEGSW q) = 0 := get_put_const d (CSL_STAT_SEGSW q) 0 rfl
  have hst : ∀ a < 64, (d.put (CSL_STAT_SEGSW q) 0).axSt a = d.axSt a := fun a ha => axSt_put_slot d rfl 0 ha
  have hslot : (d.put (CSL_STAT_SEGSW q) 0).slotOf q = d.slotOf q := rfl
  have hpeal : (d.put (CSL_STAT_SEGSW q) 0).peal = d.peal := rfl
  generalize d.put (CSL_STAT_SEGSW q) 0 = e at hsw hst hslot hpeal
  have hbit := bit_clrBit_same e PSE_SEG (n := q) (by omega)
  have hsw' := (get_clrSeg e q q (f := CSL_STAT_SEGSW q) rfl).trans hsw
  have hpeal' := (peal_clrBit PSE_SEG q e).trans hpeal
  have hslot' := slotOf_clrBit PSE_SEG q q e
  have hax := fun a => axSt_clrSeg q a e
  generalize e.clrBit PSE_SEG q = e' at hbit hsw' hpeal' hslot' hax
  refine ⟨hsw', hbit, ?_, hpeal', fun a ha => (hax a).trans (hst a ha)⟩
  rw [slotOf_onSlot_same, hslot', hslot]

end

section
variable (s : State) (q : Fin 16)

theorem segmentTrip_trips {i : Ident} (hl : s.dev.sys.logicOn = true) (hsw : s.dev.get (CSL_STAT_SEGSW q) = 1)
    (hid : (s.dev.slotOf q).ident = some i) (hp : s.dev.peal.running = false)
    (hab : ∀ a : Fin 64, a.val / 4 = q.val → s.dev.axSt a ≠ .absent) :
    Does (.segmentTrip q) s fun t => t.get (CSL_STAT_SEGSW q) = 0 ∧ t.bit PSE_SEG q = false ∧
      (t.slotOf q).ident = some { i with fuseStress := i.fuseStress + 1 } ∧
      (∀ a : Fin 64, a.val / 4 = q.val → t.axSt a = .fault ∧ t.bit (CU_FLT a) 10 = true) ∧
      (∀ a : Fin 64, a.val / 4 ≠ q.val → t.axSt a = s.dev.axSt a) ∧ t.pend 1002 = true ∧
      t.pend (833 + 2 * q) = true := by
  have hon : s.dev.on (CSL_STAT_SEGSW q) = true := by rw [Dev.on, hsw]; rfl
  refine does_onDev_of_eq (execSegmentTrip q) rfl rfl hl
    (if_pos hon : _ = raise (833 + 2 * q) (segmentFault q (segmentOpened q s.dev))) ?_
  obtain ⟨hgone, hseg, hident, hpeal, hax⟩ := segmentOpened_spec (d := s.dev) q.isLt
  generalize segmentOpened q s.dev = e at hgone hseg hident hpeal hax
  obtain ⟨hfault, hevt, hlink, hkept⟩ := segmentFault_spec (d := e) q.isLt (by rw [hpeal, hp]) fun a ha => by
    rw [hax a (by omega)]
    exact hab ⟨a, by omega⟩ ha
  refine ⟨?_, ?_, ?_, fun a ha => hfault a ha, fun a ha => ?_, hevt, hlink⟩
  · rw [hkept.get (segmentKept_slot q.isLt q.isLt), hgone]
  · rw [bit_congr (hkept.reg _ (segmentKept_seg q.isLt)), hseg]
  · rw [hkept.slotOf, hident, hid]
    rfl
  · rw [hkept.axSt (segmentKept_state q.isLt a.isLt ha), hax a a.isLt]

theorem fuseOpen_faults (hl : s.dev.sys.logicOn = true) (hpres : s.dev.present q = true)
    (hsw : s.dev.get (CSL_STAT_SEGSW q) = 1) (hv : 2500 ≤ s.dev.get PSE_VLINK_VLINK) (hp : s.dev.peal.running = false)
    (hab : ∀ a : Fin 64, a.val / 4 = q.val → s.dev.axSt a ≠ .absent) :
    Does (.fuseOpen q) s fun t => t.bit PSE_SEG (16 + q) = false ∧
      (∀ a : Fin 64, a.val / 4 = q.val → t.axSt a = .fault) ∧ t.pend 1002 = true := by
  have hon : (s.dev.present q && s.dev.on (CSL_STAT_SEGSW q) && 2500 ≤ s.dev.get PSE_VLINK_VLINK) = true := by
    rw [hpres, Dev.on, hsw]
    simp [hv]
  refine does_onDev_of_eq (execFuseOpen q) rfl rfl hl (if_pos hon) ?_
  have hseg := bit_clrBit_same s.dev PSE_SEG (n := 16 + q) (by omega)
  have hpeal := peal_clrBit PSE_SEG (16 + q) s.dev
  have hax := fun a => axSt_clrSeg (16 + q) a s.dev
  generalize s.dev.clrBit PSE_SEG (16 + q) = e at hseg hpeal hax
  obtain ⟨hfault, hevt, -, hkept⟩ := segmentFault_spec (d := e) q.isLt (by rw [hpeal, hp]) fun a ha => by
    rw [hax a]
    exact hab ⟨a, by omega⟩ ha
  exact ⟨by rw [bit_congr (hkept.reg _ (segmentKept_seg q.isLt)), hseg], fun a ha => (hfault a ha).1, hevt⟩

end

/-! ### The re-closing of a segment (R58) -/

/-- What decides whether a write of PSE_SEGRC asks for the precharge of a segment. -/
def recloses (w : Word) (q : Nat) (d : Dev) : Bool :=
  w.toNat.testBit q && d.get (CSL_STAT_STATE q) = 2 && !d.on (CSL_STAT_SEGSW q) &&
    (quadAxes q).all fun a => d.axSt a = .off || d.axSt a = .fault

section
variable {d t : Dev}

theorem recloses_eq (w : Word) (q : Nat) (d : Dev) : recloses w q d = decide (w.toNat.testBit q = true ∧
    d.get (CSL_STAT_STATE q) = 2 ∧ d.get (CSL_STAT_SEGSW q) = 0 ∧
    ∀ j : Fin 4, d.axSt (4 * q + j.val) = .off ∨ d.axSt (4 * q + j.val) = .fault) := by
  rw [Bool.eq_iff_iff]
  simp [recloses, Dev.on, quadAxes, Fin.forall_fin_succ, and_assoc]

/-- It is read from the registers. -/
theorem recloses_congr (w : Word) (q : Nat) (h : t.regs = d.regs) : recloses w q t = recloses w q d := by
  have hreg : ∀ f, t.get f = d.get f := fun f => by rw [Dev.get, Dev.reg, h, Dev.get, Dev.reg]
  rw [recloses_eq, recloses_eq, decide_eq_decide]
  simp only [Dev.axSt, hreg]

/-- One slot's part of a write of PSE_SEGRC. -/
def segrcOf (w : Word) (q : Nat) (d : Dev) : Dev :=
  if recloses w q d then d.onSlot q fun s => { s with reclose := true } else d

theorem writeSegrc_eq (w : Word) (d : Dev) : writeSegrc w d = d.each (List.range 16) (segrcOf w) := rfl

/-- Only the hidden state of slots changes. -/
theorem segrcOf_shape (w : Word) (q : Nat) (d : Dev) : ∃ sl, segrcOf w q d = { d with slots := sl } := by
  unfold segrcOf
  split
  · exact ⟨_, rfl⟩
  · exact ⟨d.slots, rfl⟩

theorem writeSegrc_shape (w : Word) (d : Dev) : ∃ sl, writeSegrc w d = { d with slots := sl } :=
  each_keeps (fun t => ∃ sl, t = { d with slots := sl }) _ (segrcOf w) (fun q t ⟨sl, ht⟩ => by
    obtain ⟨sl', h⟩ := segrcOf_shape w q t
    exact ⟨sl', by rw [h, ht]⟩) d ⟨d.slots, rfl⟩

/-- The slot of another segment stays. -/
theorem slotOf_segrcOf_ne (w : Word) {p q : Nat} (h : q ≠ p) (d : Dev) : (segrcOf w p d).slotOf q = d.slotOf q := by
  unfold segrcOf
  split
  · exact slotOf_onSlot_ne d _ h
  · rfl

theorem reclose_segrcOf (w : Word) (q : Nat) (d : Dev) :
    ((segrcOf w q d).slotOf q).reclose = (recloses w q d || (d.slotOf q).reclose) := by
  unfold segrcOf
  split
  · rename_i h
    rw [h, slotOf_onSlot_same]
    rfl
  · rename_i h
    rw [Bool.eq_false_iff.2 h, Bool.false_or]

/-- A slot asks for its precharge after a write of PSE_SEGRC, or asked before. -/
theorem reclose_writeSegrc (w : Word) {q : Nat} (hq : q < 16) (d : Dev) :
    ((writeSegrc w d).slotOf q).reclose = (recloses w q d || (d.slotOf q).reclose) := by
  obtain ⟨t, ht, he⟩ := each_local (g := fun t => (t.regs, t.slotOf q)) List.nodup_range (List.mem_range.2 hq)
    (f := segrcOf w) (fun p _ hp t => by
      obtain ⟨sl, h⟩ := segrcOf_shape w p t
      rw [slotOf_segrcOf_ne w (Ne.symm hp), h]) d
  obtain ⟨hregs, hslot⟩ := Prod.mk.inj ht
  rw [writeSegrc_eq, (Prod.mk.inj he).2, reclose_segrcOf, recloses_congr w q hregs, hslot]

end

theorem segmentReclose_asks (s : State) (p : Fin 5) (w : Word) (hl : s.dev.sys.logicOn = true) :
    Does (.segmentReclose (.pair p) w) s fun t => (∀ q : Fin 16, (t.slotOf q).reclose =
      (decide (w.toNat.testBit q = true ∧ s.dev.get (CSL_STAT_STATE q) = 2 ∧ s.dev.get (CSL_STAT_SEGSW q) = 0 ∧
        ∀ j : Fin 4, s.dev.axSt (4 * q.val + j.val) = .off ∨ s.dev.axSt (4 * q.val + j.val) = .fault) ||
        (s.dev.slotOf q).reclose)) ∧ t = { s.dev with slots := t.slots } := by
  refine does_onDev_of_eq (execSegmentReclose (.pair p) w) rfl rfl hl (rfl : _ = writeSegrc w s.dev) ⟨fun q => ?_, ?_⟩
  · rw [reclose_writeSegrc w q.isLt, recloses_eq]
  · obtain ⟨sl, h⟩ := writeSegrc_shape w s.dev
    rw [h]

/-- Settles O4, event by event. -/
theorem inputsAndSegments : Obligations.InputsAndSegments :=
  ⟨inputPrechargeStart_begins, inputPrechargeStart_low, fun s x v l _ => inputConnect_connects s x v l,
    fun s x _ => prechargeTimeout_trips s x, fun s x v _ => inputRetry_begins s x v, inputOvercurrent_trips,
    reverseCurrentBlock_blocks, fun s q _ => segmentTrip_trips s q, segmentReclose_asks, fuseOpen_faults⟩

end Sys2Proof.Proofs
end

section
namespace Sys2Proof.Proofs
open Sys2Proof Sys2Proof.Machine Sys2Proof.Laws Reg

/-! SUPPORT. Device time on an idle step (O49), and what the operations on the references (R85, R86) change. -/

/-! ### The idle step -/

theorem step_idle {s : State} (hq : s.pending = []) : step s = idle s := by
  unfold step
  rw [hq]

/-- Settles O49: an idle step is `idle`, by whether device time runs. -/
theorem idleStepCountsTime : Obligations.IdleStepCountsTime := by
  refine ⟨fun s hq ht => ?_, fun s hq ht => ?_⟩
  · rw [step_idle hq, idle, if_pos ht]
  · rw [step_idle hq, idle, if_neg (ht ▸ Bool.false_ne_true)]

/-! ### What an operation on the references changes -/

/-- From `d` to `t` only the registers of `l`, the hidden state of the TRU and of events change, and no pending event is
lost. -/
structure TruChange (l : List Nat) (d t : Dev) : Prop extends Steady (· ∉ l) d t where
  shape : t = { d with regs := t.regs, tru := t.tru, evs := t.evs }

namespace TruChange
variable {l : List Nat} {d e t : Dev}

theorem refl (l : List Nat) (d : Dev) : TruChange l d d := ⟨Steady.refl _ d, rfl⟩

theorem trans (h : TruChange l d e) (h' : TruChange l e t) : TruChange l d t :=
  ⟨h.toSteady.trans h'.toSteady, by rw [h'.shape, h.shape]⟩

theorem regs (h : TruChange l d t) : sameRegs d t l := h.reg

theorem setReg (h : TruChange l d t) {r : Nat} (w : Word) (hr : r ∈ l) (hx : EVC_PEND 32 ≤ r := by decide) :
    TruChange l d (t.setReg r w) :=
  h.trans ⟨.setReg t w (fun hn => hn hr) (.inr hx), rfl⟩

theorem put (h : TruChange l d t) (f : Fld) (v : Nat) (hf : f.addr ∈ l) (hx : EVC_PEND 32 ≤ f.addr := by decide) :
    TruChange l d (t.put f v) := h.setReg _ hf hx

theorem onTru (h : TruChange l d t) (f : TruH → TruH) : TruChange l d (t.onTru f) :=
  h.trans ⟨.of_hidden rfl rfl rfl, rfl⟩

theorem raise (h : TruChange l d t) {n : Nat} (hn : n < 1024) (hl : evRegs n ⊆ l) :
    TruChange l d (Machine.raise n t) := by
  refine h.trans ?_
  have hs := raise_shape n t
  have hp := (steady_raise (K := fun _ => False) (fun _ => False.elim) hn t).pend
  have hr := sameRegs_raise (sameRegs_refl t l) n fun _ ha => hl ha
  generalize Machine.raise n t = u at *
  exact ⟨⟨hr, hp, by rw [hs], by rw [hs]⟩, by rw [hs]⟩

/-- A raise of an event of the TRU. -/
theorem raiseTru (h : TruChange l d t) {n : Nat} (hn : n < 4) (hl : TRU_EVT :: evRegs (1004 + n) ⊆ l) :
    TruChange l d (Machine.raiseTru n t) := by
  obtain ⟨hevt, hev⟩ := List.cons_subset.1 hl
  exact (h.put ⟨TRU_EVT, n, 1⟩ 1 hevt (show EVC_PEND 32 ≤ TRU_EVT by decide)).raise (by omega) hev

theorem ite {c : Prop} [Decidable c] {u : Dev} (ht : TruChange l d t) (hu : TruChange l d u) :
    TruChange l d (if c then t else u) := by
  split
  · exact ht
  · exact hu

end TruChange

section
variable {d t : Dev}

/-- A raise of the TRU leaves every register above the events but its flags. -/
theorem get_raiseTru {n : Nat} (hn : n < 4) {f : Fld} (hx : EVC_PEND 64 ≤ f.addr) (hf : f.addr ≠ TRU_EVT) (d : Dev) :
    (raiseTru n d).get f = d.get f :=
  (steady_raiseIn (K := (· = f.addr)) (fun _ h => h ▸ hx) (by omega) (Ne.symm hf) (by decide) d).get rfl

theorem pend_raiseTru {n : Nat} (hn : n < 4) (d : Dev) : (raiseTru n d).pend (1004 + n) = true :=
  pend_raise_same (by omega) _

theorem tru_raiseTru (n : Nat) (d : Dev) : (raiseTru n d).tru = d.tru := by
  obtain ⟨rg, ev, h⟩ := raiseIn_shape TRU_EVT 1004 n d
  rw [raiseTru, h]

/-! ### The selection of a reference (R86, R90) -/

/-- A field of TRU_CFG, or one of TRU_STAT that a new selection leaves. -/
def unselected (f : Fld) : Bool :=
  f.addr == TRU_CFG || (f.addr == TRU_STAT && apart TRU_STAT_SEL f && apart TRU_STAT_STATE f)

/-- The reference selected, with the lock to be gained. -/
def selected (s : Nat) (d : Dev) : Dev :=
  ((d.put TRU_STAT_SEL s).put TRU_STAT_STATE 1).onTru fun t => { t with lockSince := none }

/-- The crystal and no reference at all have no phase error and no rate. -/
def unsteered (s : Nat) (d : Dev) : Dev := if s = 0 || s = 3 then (d.setReg TRU_FREF 0).setReg TRU_PHERR 0 else d

theorem reselect_same (h : d.bestRef = d.get TRU_STAT_SEL) : reselect d = d := if_pos h

theorem reselect_switch (h : d.bestRef ≠ d.get TRU_STAT_SEL) :
    reselect d = raiseTru 1 (unsteered d.bestRef (selected d.bestRef d)) := if_neg h

/-- The selection is read from fields that a new selection leaves. -/
theorem bestRef_congr (h : ∀ f, unselected f = true → t.get f = d.get f) : t.bestRef = d.bestRef := by
  unfold Dev.bestRef Dev.on Dev.siMode Dev.plRole
  rw [h TRU_STAT_SIQ rfl, h TRU_STAT_PLQ rfl, h TRU_STAT_XQ rfl, h TRU_CFG_SIMODE rfl, h TRU_CFG_PLROLE rfl]

theorem bestRef_lt (d : Dev) : d.bestRef < 4 := by
  unfold Dev.bestRef
  split_ifs <;> decide

theorem bestRef_unqualified (h : d.get TRU_STAT_SIQ = 0) : d.bestRef ≠ 2 := by
  unfold Dev.bestRef
  rw [if_neg (by simp [Dev.on, h])]
  split_ifs <;> decide

theorem bestRef_qualified (h : d.get TRU_STAT_SIQ = 1) (hm : d.siMode ≠ 0) : d.bestRef = 2 :=
  if_pos (by simp [Dev.on, h, hm])

theorem bestRef_none (hsi : d.get TRU_STAT_SIQ = 0) (hpl : d.get TRU_STAT_PLQ = 0) (hx : d.get TRU_STAT_XQ = 0) :
    d.bestRef = 3 := by
  simp [Dev.bestRef, Dev.on, hsi, hpl, hx]

/-- The registers of settings and status, which only a selection's own fields touch. -/
theorem get_unsteered {f : Fld} (hf : f.addr = TRU_STAT ∨ f.addr = TRU_CFG) (s : Nat) (d : Dev) :
    (unsteered s d).get f = d.get f := by
  have hne : f.addr ≠ TRU_FREF ∧ f.addr ≠ TRU_PHERR := by rcases hf with h | h <;> rw [h] <;> decide
  unfold unsteered
  split
  · rw [Dev.get, reg_setReg_ne _ _ hne.2, reg_setReg_ne _ _ hne.1, Dev.get]
  · rfl

theorem get_switched {f : Fld} (hf : f.addr = TRU_STAT ∨ f.addr = TRU_CFG) (s : Nat) (d : Dev) :
    (raiseTru 1 (unsteered s (selected s d))).get f = (selected s d).get f := by
  have hx : EVC_PEND 64 ≤ f.addr ∧ f.addr ≠ TRU_EVT := by rcases hf with h | h <;> rw [h] <;> decide
  rw [get_raiseTru (by decide) hx.1 hx.2, get_unsteered hf]

theorem sel_reselect (d : Dev) : (reselect d).get TRU_STAT_SEL = d.bestRef := by
  by_cases h : d.bestRef = d.get TRU_STAT_SEL
  · rw [reselect_same h, h]
  · rw [reselect_switch h, get_switched (.inl rfl), selected, onTru_get,
      get_put_apart _ TRU_STAT_STATE TRU_STAT_SEL _ rfl rfl]
    exact get_put_fits d TRU_STAT_SEL rfl (bestRef_lt d)

theorem get_reselect {f : Fld} (hf : unselected f = true) (d : Dev) : (reselect d).get f = d.get f := by
  by_cases h : d.bestRef = d.get TRU_STAT_SEL
  · rw [reselect_same h]
  · simp only [unselected, Bool.or_eq_true, Bool.and_eq_true, beq_iff_eq] at hf
    rw [reselect_switch h, get_switched (hf.symm.imp_left fun h => h.1.1), selected, onTru_get]
    rcases hf with hcfg | ⟨⟨hstat, hsel⟩, hstate⟩
    · have hne : f.addr ≠ TRU_STAT := hcfg ▸ (by decide : TRU_CFG ≠ TRU_STAT)
      rw [get_put_ne _ TRU_STAT_STATE f _ hne, get_put_ne _ TRU_STAT_SEL f _ hne]
    · rw [get_put_apart _ TRU_STAT_STATE f _ hstat hstate, get_put_apart _ TRU_STAT_SEL f _ hstat hsel]

theorem bestRef_reselect (d : Dev) : (reselect d).bestRef = d.bestRef := bestRef_congr fun _ hf => get_reselect hf d

/-- A change of the selection begins to slew and raises REF_SWITCH. -/
theorem reselect_switched (h : d.bestRef ≠ d.get TRU_STAT_SEL) :
    (reselect d).get TRU_STAT_STATE = 1 ∧ (reselect d).pend 1005 = true := by
  rw [reselect_switch h]
  exact ⟨(get_switched (.inl rfl) _ d).trans (get_put_const _ TRU_STAT_STATE 1 rfl), pend_raiseTru (n := 1) (by decide) _⟩

/-- What a new selection changes; a selection of SYNC IN or the link of modules keeps its rate and phase error. -/
theorem TruChange.reselect {l : List Nat} (h : TruChange l d t) (hl : TRU_STAT :: TRU_EVT :: evRegs 1005 ⊆ l)
    (hs : t.bestRef = 0 ∨ t.bestRef = 3 → [TRU_FREF, TRU_PHERR] ⊆ l) : TruChange l d (reselect t) := by
  by_cases hb : t.bestRef = t.get TRU_STAT_SEL
  · rwa [reselect_same hb]
  obtain ⟨hstat, hevt⟩ := List.cons_subset.1 hl
  rw [reselect_switch hb]
  have hsel : TruChange l d (selected t.bestRef t) :=
    ((h.put TRU_STAT_SEL _ hstat).put TRU_STAT_STATE 1 hstat).onTru _
  refine TruChange.raiseTru ?_ (n := 1) (by decide) hevt
  unfold unsteered
  split
  · rename_i h03
    have hsub := hs (by simpa using h03)
    exact (hsel.setReg 0 (hsub (by decide))).setReg 0 (hsub (by decide))
  · exact hsel

/-- What SYNC IN's edges have left: the good intervals, the bad ones, the last edge. -/
def siMarks (d : Dev) : Nat × Nat × Option Nat := (d.tru.siGood, d.tru.siBad, d.tru.siEdge)

theorem siMarks_reselect (d : Dev) : siMarks (reselect d) = siMarks d := by
  by_cases h : d.bestRef = d.get TRU_STAT_SEL
  · rw [reselect_same h]
  · rw [reselect_switch h, siMarks, tru_raiseTru, unsteered]
    split <;> rfl

/-! ### The qualification of a reference (R85) -/

/-- The flag of a reference's qualification. -/
def qualFlag (r : Nat) : Fld := if r = 2 then TRU_STAT_SIQ else if r = 1 then TRU_STAT_PLQ else TRU_STAT_XQ

theorem qualFlag_cases (r : Nat) : qualFlag r = TRU_STAT_SIQ ∨ qualFlag r = TRU_STAT_PLQ ∨ qualFlag r = TRU_STAT_XQ := by
  unfold qualFlag
  split_ifs <;> simp

theorem qualFlag_addr (r : Nat) : (qualFlag r).addr = TRU_STAT := by
  rcases qualFlag_cases r with h | h | h <;> rw [h] <;> rfl

theorem unselected_qualFlag (r : Nat) : unselected (qualFlag r) = true := by
  rcases qualFlag_cases r with h | h | h <;> rw [h] <;> rfl

/-- The flag set or cleared; a loss makes the counts start afresh. -/
def requalified (r : Nat) (on : Bool) (d : Dev) : Dev :=
  (d.put (qualFlag r) (if on then 1 else 0)).onTru fun t =>
    if on then t
    else if r = 2 then { t with siGood := 0, siBad := 0 }
    else if r = 1 then { t with plGood := 0 }
    else t

theorem qualify_same {r : Nat} {on : Bool} (h : d.on (qualFlag r) = on) : qualify r on d = d := if_pos h

theorem qualify_change {r : Nat} {on : Bool} (h : d.on (qualFlag r) ≠ on) :
    qualify r on d = reselect (raiseTru 0 (requalified r on d)) := if_neg h

/-- A flag of one bit that is not set is 0, one that is set 1. -/
theorem get_of_on {f : Fld} (hf : f.width = 1) {b : Bool} (h : d.on f = b) : d.get f = if b then 1 else 0 := by
  have hlt := get_lt d f
  rw [hf] at hlt
  cases b <;> simp [Dev.on] at h ⊢ <;> omega

theorem get_qualify_flag (r : Nat) (on : Bool) (d : Dev) : (qualify r on d).get (qualFlag r) = if on then 1 else 0 := by
  have hfit : ((qualFlag r).lo + (qualFlag r).width).ble 32 = true ∧ (qualFlag r).width = 1 := by
    rcases qualFlag_cases r with h | h | h <;> rw [h] <;> decide
  by_cases h : d.on (qualFlag r) = on
  · rw [qualify_same h, get_of_on hfit.2 h]
  · have hx : EVC_PEND 64 ≤ (qualFlag r).addr ∧ (qualFlag r).addr ≠ TRU_EVT := by rw [qualFlag_addr]; decide
    rw [qualify_change h, get_reselect (unselected_qualFlag r), get_raiseTru (by decide) hx.1 hx.2, requalified, onTru_get]
    exact get_put_fits d (qualFlag r) hfit.1 (by rw [hfit.2]; split_ifs <;> decide)

theorem get_qualify_other {r : Nat} {f : Fld} (hf : unselected f = true)
    (hr : f.addr = TRU_STAT → apart (qualFlag r) f = true) (on : Bool) (d : Dev) : (qualify r on d).get f = d.get f := by
  by_cases h : d.on (qualFlag r) = on
  · rw [qualify_same h]
  · have haddr : f.addr = TRU_CFG ∨ f.addr = TRU_STAT := by
      simp only [unselected, Bool.or_eq_true, Bool.and_eq_true, beq_iff_eq] at hf
      exact hf.imp_right fun h => h.1.1
    have hx : EVC_PEND 64 ≤ f.addr ∧ f.addr ≠ TRU_EVT := by rcases haddr with h | h <;> rw [h] <;> decide
    rw [qualify_change h, get_reselect hf, get_raiseTru (by decide) hx.1 hx.2, requalified, onTru_get]
    rcases haddr with hcfg | hstat
    · exact get_put_ne d _ f _ (by rw [qualFlag_addr, hcfg]; decide)
    · exact get_put_apart d _ f _ (by rw [qualFlag_addr, hstat]) (hr hstat)

section
variable {r : Nat} {on : Bool} (h : d.on (qualFlag r) ≠ on)
include h

/-- A gain or a loss raises REF_QUAL and selects the best candidate there is then. -/
theorem qualify_selects :
    (qualify r on d).pend 1004 = true ∧ (qualify r on d).get TRU_STAT_SEL = (qualify r on d).bestRef := by
  rw [qualify_change h, sel_reselect, bestRef_reselect]
  have hkeeps := (TruChange.refl _ (raiseTru 0 (requalified r on d))).reselect
    (List.subset_append_left _ [TRU_FREF, TRU_PHERR]) fun _ => List.subset_append_right _ _
  exact ⟨hkeeps.pend _ (by decide) (pend_raiseTru (n := 0) (by decide) _), rfl⟩

/-- If the best candidate is another than the one selected, it begins to slew and raises REF_SWITCH. -/
theorem qualify_switched (hs : (qualify r on d).bestRef ≠ d.get TRU_STAT_SEL) :
    (qualify r on d).get TRU_STAT_STATE = 1 ∧ (qualify r on d).pend 1005 = true := by
  rw [qualify_change h] at hs ⊢
  rw [bestRef_reselect] at hs
  refine reselect_switched ?_
  have hsel : (raiseTru 0 (requalified r on d)).get TRU_STAT_SEL = d.get TRU_STAT_SEL := by
    rw [get_raiseTru (by decide) (by decide) (by decide), requalified, onTru_get]
    refine get_put_apart d _ TRU_STAT_SEL _ (qualFlag_addr r).symm ?_
    rcases qualFlag_cases r with h | h | h <;> rw [h] <;> rfl
  rwa [hsel]

end

/-- What a gain or a loss changes; with SYNC IN or the link of modules selected after it, not the rate and phase error. -/
theorem TruChange.qualify {l : List Nat} (h : TruChange l d t) {r : Nat} {on : Bool}
    (hl : TRU_STAT :: TRU_EVT :: (evRegs 1004 ++ evRegs 1005) ⊆ l)
    (hs : (qualify r on t).bestRef = 0 ∨ (qualify r on t).bestRef = 3 → [TRU_FREF, TRU_PHERR] ⊆ l) :
    TruChange l d (qualify r on t) := by
  by_cases hf : t.on (qualFlag r) = on
  · rwa [qualify_same hf]
  rw [qualify_change hf] at hs ⊢
  rw [bestRef_reselect] at hs
  obtain ⟨hstat, hrest⟩ := List.cons_subset.1 hl
  obtain ⟨hevt, hev⟩ := List.cons_subset.1 hrest
  obtain ⟨hqual, hswitch⟩ := List.append_subset.1 hev
  have hput : TruChange l d (requalified r on t) :=
    (h.put (qualFlag r) _ (qualFlag_addr r ▸ hstat) (by rw [qualFlag_addr]; decide)).onTru _
  exact (hput.raiseTru (n := 0) (by decide) (List.cons_subset.2 ⟨hevt, hqual⟩)).reselect
    (List.cons_subset.2 ⟨hstat, List.cons_subset.2 ⟨hevt, hswitch⟩⟩) hs

/-- A change of the qualification of the link of modules leaves SYNC IN's counts. -/
theorem siMarks_qualify_link (on : Bool) (d : Dev) : siMarks (qualify 1 on d) = siMarks d := by
  by_cases h : d.on (qualFlag 1) = on
  · rw [qualify_same h]
  · rw [qualify_change h, siMarks_reselect, siMarks, tru_raiseTru]
    cases on <;> rfl

end

end Sys2Proof.Proofs
end

section
namespace Sys2Proof.Proofs
open Sys2Proof Sys2Proof.Machine Sys2Proof.Laws Reg

/-! SUPPORT. What a knell and the automatic change to SAFE leave, with or without a peal: the mode, the PLL flags, the
latches of knells, pending events (R83, R96, R97, R299). -/

/-! ### Fixed registers -/

/-- The registers followed here: SYS_MODE, TRU_STAT and PWM_FLT of each axis. -/
abbrev Fixed (r : Nat) : Prop :=
  r = SYS_MODE ∨ r = TRU_STAT ∨ (0x40200000 ≤ r ∧ r < 0x40210000 ∧ r % 0x400 = 4)

theorem fixed_flt {a : Nat} (ha : a < 64) : Fixed (PWM_FLT a) := by
  simp only [Fixed, PWM_FLT]
  omega

theorem Fixed.resting {r : Nat} (h : Fixed r) : Resting r := by
  simp only [Fixed, SYS_MODE, TRU_STAT, Resting, Working] at *
  omega

theorem Fixed.restingBut {r : Nat} (h : Fixed r) (a : Nat) : RestingBut a r :=
  ⟨h.resting, by simp only [Fixed, SYS_MODE, TRU_STAT, CU_STATE] at *; omega⟩

section
variable (d : Dev)

theorem fixed_raise {n : Nat} (hn : n < 1024) : Steady Fixed d (raise n d) :=
  (Calm.raise (E := fun _ => False) hn (fun _ h => h.resting.noEvents) id d).toSteady

theorem fixed_raiseIn {evt base n : Nat} (hn : base + n < 1024) (he : ¬ Fixed evt)
    (hx : evt < EVC_PEND 0 ∨ EVC_PEND 32 ≤ evt) : Steady Fixed d (raiseIn evt base n d) :=
  (Steady.put d ⟨evt, n, 1⟩ 1 he hx).trans (fixed_raise _ hn)

theorem fixed_onSsq (f : SsqH → SsqH) : Steady Fixed d (d.onSsq f) := .of_hidden rfl rfl rfl

theorem fixed_onPeal (f : Peal → Peal) : Steady Fixed d (d.onPeal f) := .of_hidden rfl rfl rfl

theorem fixed_onPair (p : Nat) (f : PairH → PairH) : Steady Fixed d (d.onPair p f) := .of_hidden rfl rfl rfl

theorem fixed_onSys (f : SysH → SysH) : Steady Fixed d (d.onSys f) := .of_hidden rfl rfl rfl

theorem fixed_onAux (f : AuxH → AuxH) : Steady Fixed d (d.onAux f) := .of_hidden rfl rfl rfl

theorem fixed_onWin (f : WinH → WinH) : Steady Fixed d (d.onWin f) := .of_hidden rfl rfl rfl

theorem fixed_onSp0 (f : Sp0H → Sp0H) : Steady Fixed d (d.onSp0 f) := .of_hidden rfl rfl rfl

theorem fixed_onCan (c : Nat) (f : CanH → CanH) : Steady Fixed d (d.onCan c f) := .of_hidden rfl rfl rfl

theorem fixed_raiseSys {n : Nat} (hn : n < 3) : Steady Fixed d (raiseSys n d) :=
  fixed_raiseIn d (base := 1015) (by omega) (by decide) (.inl (by decide))

theorem fixed_setMask64 {lo hi : Nat} (m : Nat)
    (h : ∀ r ∈ [lo, hi], ¬ Fixed r ∧ (r < EVC_PEND 0 ∨ EVC_PEND 32 ≤ r)) : Steady Fixed d (d.setMask64 lo hi m) := by
  have hlo := h lo (by simp)
  have hhi := h hi (by simp)
  exact (Steady.setReg d _ hlo.1 hlo.2).trans (.setReg _ _ hhi.1 hhi.2)

theorem fixed_journal (typ srck : Nat) (payload : List Nat) : Steady Fixed d (journal typ srck payload d) :=
  (calm_journal d typ srck payload).toSteady.mono fun _ h => h.resting.unjournalled

/-! ### The end of a peal (R110) -/

theorem fixed_tellPeal (res : Nat) : Steady Fixed d (tellPeal res d) := by
  unfold tellPeal
  extract_lets d1
  have h1 : Steady Fixed d d1 := by
    simp only [d1]
    split
    · exact .of_hidden rfl rfl rfl
    · exact .refl _ d
  refine h1.trans (.each (fun p _ t => ?_) d1)
  split
  · exact fixed_onPair t p _
  · exact .refl _ t

theorem fixed_migrationAfterPeal : Steady Fixed d (migrationAfterPeal d) := by
  unfold migrationAfterPeal
  split
  · refine .ite ?_ (.refl _ d)
    extract_lets tm
    exact ((fixed_onSsq d _).trans (.put _ LSS_MIGRES_RES 1 (by decide) (.inr (by decide)))).trans
      (.put _ LSS_MIGTS_TM _ (by decide) (.inr (by decide)))
  · exact .refl _ d

theorem fixed_pealEnd (res fail mixed : Nat) : Steady Fixed d (pealEnd res fail mixed d) := by
  unfold pealEnd
  extract_lets d1 d2
  have h1 : Steady Fixed d d1 := (fixed_setMask64 d fail (by decide)).trans (fixed_setMask64 _ mixed (by decide))
  have hput : ∀ (f : Fld) v t, f.addr = SYS_PEAL_RES → Steady Fixed t (t.put f v) := fun f v t hf =>
    .put t f v (by rw [hf]; decide) (.inl (by rw [hf]; decide))
  have h2 : Steady Fixed d1 d2 := ((fixed_tellPeal d1 res).trans (hput SYS_PEAL_RES_RES res _ rfl)).trans
    (hput SYS_PEAL_RES_NBAD _ _ rfl)
  exact (((h1.trans h2).trans (fixed_onPeal _ _)).trans (fixed_raiseSys _ (by decide))).trans (fixed_migrationAfterPeal _)

theorem fixed_pealAxisFault (a : Nat) : Steady Fixed d (pealAxisFault a d) := by
  unfold pealAxisFault
  refine .ite ?_ (.refl _ d)
  split
  · exact fixed_pealEnd d _ _ _
  · exact fixed_onPeal d _

end

/-! ### Latching steps -/

/-- From `d` to `t` the registers of `K` and the time stay, no pending event and no latch of a knell is lost. -/
structure Latching (K : Nat → Prop) (d t : Dev) : Prop extends Steady K d t where
  latch : ∀ a < 64, d.bit (PWM_FLT a) 4 = true → t.bit (PWM_FLT a) 4 = true

/-- The registers that a knell leaves. -/
abbrev Modal (r : Nat) : Prop := r = SYS_MODE ∨ r = TRU_STAT

namespace Latching
variable {K : Nat → Prop} {d e t : Dev}

theorem refl (K : Nat → Prop) (d : Dev) : Latching K d d := ⟨.refl K d, fun _ _ h => h⟩

theorem trans (h : Latching K d e) (h' : Latching K e t) : Latching K d t :=
  ⟨h.toSteady.trans h'.toSteady, fun a ha hb => h'.latch a ha (h.latch a ha hb)⟩

theorem mono {K' : Nat → Prop} (h : Latching K d t) (hK : ∀ r, K' r → K r) : Latching K' d t :=
  ⟨h.toSteady.mono hK, h.latch⟩

/-- A step that leaves the latches' registers. -/
theorem of_steady (h : Steady K d t) (hK : ∀ a < 64, K (PWM_FLT a)) : Latching K d t :=
  ⟨h, fun a ha hb => (bit_congr (h.reg _ (hK a ha)) 4).trans hb⟩

theorem of_fixed (h : Steady Fixed d t) : Latching Modal d t :=
  (of_steady h fun _ => fixed_flt).mono fun _ h => h.imp_right .inl

theorem mode (h : Latching K d t) (hK : K SYS_MODE) : t.mode = d.mode := by
  rw [Dev.mode, h.get (f := SYS_MODE_MODE) hK, Dev.mode]

end Latching

/-! ### Knells (R299, R300) -/

/-- A knell at an axis latches its bit, whatever peal runs. -/
theorem latching_knellAxis {a : Nat} (ha : a < 64) (d : Dev) :
    Latching Modal d (knellAxis a d) ∧ (knellAxis a d).bit (PWM_FLT a) 4 = true := by
  obtain ⟨q, hq⟩ := recordRestart_shape a d
  have hrec : Steady (fun r => Resting r ∧ r ≠ PWM_FLT a) d (recordRestart a d) := by
    rw [hq]
    exact .of_hidden rfl rfl rfl
  obtain ⟨hbit, hrel⟩ := release_spec ha (recordRestart a d) (n := 4) (by decide)
  have hrest : Steady Fixed (release a 4 (recordRestart a d)) (knellAxis a d) :=
    (((calm_strikeAbort _ a 12).toSteady.mono fun _ h => h.resting).trans (fixed_pealAxisFault _ a)).trans
      ((calm_releasedState ha _).toSteady.mono fun _ h => h.restingBut a)
  have hlatched := (bit_congr (hrest.reg _ (fixed_flt ha)) 4).trans hbit
  have hall : Steady (fun r => Fixed r ∧ r ≠ PWM_FLT a) d (knellAxis a d) :=
    ((hrec.trans hrel.toSteady).mono fun _ h => ⟨h.1.resting, h.2⟩).trans (hrest.mono fun _ => And.left)
  refine ⟨⟨hall.mono fun r h => ⟨h.imp_right .inl, ?_⟩, fun b hb hd => ?_⟩, hlatched⟩
  · simp only [Modal, SYS_MODE, TRU_STAT, PWM_FLT] at *
    omega
  · by_cases hba : b = a
    · rw [hba]
      exact hlatched
    · exact (bit_congr (hall.reg _ ⟨fixed_flt hb, by simp only [PWM_FLT]; omega⟩) 4).trans hd

theorem latching_knellAxes {l : List Nat} (hl : ∀ a ∈ l, a < 64) : ∀ d : Dev,
    Latching Modal d (d.each l knellAxis) ∧ ∀ a ∈ l, (d.each l knellAxis).bit (PWM_FLT a) 4 = true := by
  induction l with
  | nil => exact fun d => ⟨.refl _ d, fun a ha => absurd ha List.not_mem_nil⟩
  | cons x l ih =>
    intro d
    obtain ⟨hx, hbit⟩ := latching_knellAxis (hl x List.mem_cons_self) d
    obtain ⟨hrest, hbits⟩ := ih (fun a ha => hl a (List.mem_cons_of_mem _ ha)) (knellAxis x d)
    refine ⟨hx.trans hrest, fun a ha => ?_⟩
    rcases List.mem_cons.1 ha with rfl | ha
    · exact hrest.latch a (hl a List.mem_cons_self) hbit
    · exact hbits a ha

/-- A further knell of a cycle joins the first, and raises no event of its own (R313). -/
theorem knell_joined {l : List Nat} (hl : l ≠ []) {d : Dev} (hk : d.ssq.kAt = some d.now)
    (hn : (d.each l knellAxis).now = d.now) :
    knell l d = (knellNoted (maskOf l ||| d.mask64 SSQ_KMASK_LO SSQ_KMASK_HI) (d.each l knellAxis)).onSsq fun q =>
      { q with kAt := some d.now } := by
  have hnoted : ∀ m, ((d.each l knellAxis).setMask64 SSQ_KMASK_LO SSQ_KMASK_HI m).put SSQ_KTS_T d.now =
      knellNoted m (d.each l knellAxis) := fun m => by rw [knellNoted, hn]
  rw [knell, if_neg hl]
  dsimp only
  rw [if_pos hk, if_pos hk, hnoted, knellNoted_now, hn]

/-- What a knell writes besides its axes' registers. -/
theorem Fixed.unnoted {r : Nat} (h : Fixed r) : Unnoted r ∧ r ≠ LSS_EVT := by
  refine ⟨⟨h.resting.noEvents, ?_⟩, ?_⟩ <;>
    simp only [Fixed, SYS_MODE, TRU_STAT, SSQ_KMASK_LO, SSQ_KMASK_HI, SSQ_KTS, LSS_EVT] at * <;> omega

/-- A knell latches every axis of its list, whatever peal runs and however many knells the cycle has. -/
theorem latching_knell {l : List Nat} (hl : ∀ a ∈ l, a < 64) (d : Dev) :
    Latching Modal d (knell l d) ∧ ∀ a ∈ l, (knell l d).bit (PWM_FLT a) 4 = true := by
  by_cases hne : l = []
  · rw [show knell l d = d from if_pos hne]
    exact ⟨.refl _ d, fun a ha => absurd (hne ▸ ha) List.not_mem_nil⟩
  obtain ⟨haxes, hbits⟩ := latching_knellAxes hl d
  have hrecord : Steady Fixed (d.each l knellAxis) (knell l d) := by
    by_cases hk : d.ssq.kAt = some d.now
    · rw [knell_joined hne hk haxes.now]
      exact ((steady_knellNoted _ _).mono fun _ h => (Fixed.unnoted h).1).trans (fixed_onSsq _ _)
    · rw [knell_eq hne hk haxes.now]
      exact (steady_knelled _ _).mono fun _ h => h.unnoted
  exact ⟨haxes.trans (.of_fixed hrecord), fun a ha => (Latching.of_fixed hrecord).latch a (hl a ha) (hbits a ha)⟩

/-! ### The automatic change to SAFE (R96, R97) -/

section
variable (d : Dev)

theorem fixed_sessionsOnMode (m : Mode) : Steady Fixed d (sessionsOnMode m d) :=
  .each (fun _ hs t => .ite ((calm_sessAbort t (List.mem_range.1 hs) 13).toSteady.mono fun _ h => h.resting) (.refl _ t)) d

theorem fixed_loseRoles (p : Nat) : Steady Fixed d (loseRoles p d) := by
  unfold loseRoles
  extract_lets d1 d2
  have h1 : Steady Fixed d d1 :=
    .ite ((Steady.put d SWC_STAT_AGENTLOST 1 (by decide) (.inr (by decide))).trans (fixed_onWin _ _)) (.refl _ d)
  have h2 : Steady Fixed d1 d2 :=
    .ite ((Steady.put d1 SP0_STAT_OWNLOST 1 (by decide) (.inr (by decide))).trans (fixed_onSp0 _ _)) (.refl _ d1)
  exact (h1.trans h2).trans (.each (fun c _ t => .ite (fixed_onCan t c _) (.refl _ t)) d2)

theorem fixed_setPairSt (p : Nat) (st : PairState) : Steady Fixed d (setPairSt p st d) := by
  have hput : ∀ (f : Fld) v t, f.addr = LSS_PAIRST ∨ f.addr = LSS_SPLIT → Steady Fixed t (t.put f v) := fun f v t hf =>
    .put t f v (by rcases hf with hf | hf <;> rw [hf] <;> decide) (.inr (by rcases hf with hf | hf <;> rw [hf] <;> decide))
  unfold setPairSt
  extract_lets d1 d2
  have h1 : Steady Fixed d d1 := hput (LSS_PAIRST_ST p) _ d (.inl rfl)
  have h2 : Steady Fixed d1 d2 := .ite (fixed_loseRoles d1 p) (.refl _ d1)
  exact (h1.trans h2).trans (.ite (hput ⟨LSS_SPLIT, p, 1⟩ 1 d2 (.inr rfl)) (hput ⟨LSS_SPLIT, p, 1⟩ 0 d2 (.inr rfl)))

theorem fixed_beginPairReset (p : Nat) : Steady Fixed d (beginPairReset p d) := by
  unfold beginPairReset
  extract_lets d1
  have h1 : Steady Fixed d d1 :=
    .ite (fixed_raiseIn d (by decide) (by decide) (.inr (by decide))) (.refl _ d)
  exact ((h1.trans (fixed_setPairSt d1 p .reset)).trans (fixed_onPair _ p _)).trans (fixed_onSsq _ _)

theorem fixed_joinSplit : Steady Fixed d (joinSplit d) :=
  .each (fun p _ t => .ite (fixed_beginPairReset t p) (.refl _ t)) d

theorem fixed_auxOnMode (m : Mode) : Steady Fixed d (auxOnMode m d) := by
  have hfollow : ∀ t, Steady Fixed t (auxFollow t) := fun t => by
    have hshape := (auxShape_auxFollow t).eq
    have hregs := sameRegs_auxFollow t
    generalize auxFollow t = u at *
    have hkeep : ∀ r, r ≠ AUX_GSTAT → u.reg r = t.reg r := fun r hr => hregs r (by simpa using hr)
    refine ⟨fun r hr => hkeep r fun h => ?_, fun n hn hp => (pend_congr (hkeep _ ?_)).trans hp, by rw [hshape],
      by rw [hshape]⟩
    · exact absurd (h ▸ hr) (by decide)
    · simp only [EVC_PEND, AUX_GSTAT]
      omega
  unfold auxOnMode
  extract_lets d1
  have h1 : Steady Fixed d d1 := .ite (fixed_onAux d _) (.refl _ d)
  exact h1.trans (hfollow d1)

theorem fixed_autoTimer (m : Mode) : Steady Fixed d (autoTimer m d) := by
  unfold autoTimer
  exact fixed_onSys d _

/-- SYS_MODE as an automatic change leaves it: as a requested one does, with a cancelled request's reason. -/
def modeForced (m : Mode) (d : Dev) : Dev :=
  if d.on SYS_MODE_PEND && true then (modeTaken m d).put SYS_MODE_REFUSE 4 else modeTaken m d

theorem modeForced_spec {m : Mode} (hm : Mode.ofCode m.code = some m) :
    (modeForced m d).mode = m ∧ Latching (· = TRU_STAT) d (modeForced m d) := by
  have hput : ∀ (f : Fld) v t, f.addr = SYS_MODE → Latching (· = TRU_STAT) t (t.put f v) := fun f v t hf =>
    ⟨.put t f v (by rw [hf]; decide) (.inl (by rw [hf]; decide)), fun a ha h =>
      (bit_congr (reg_put_ne t f v (by rw [hf]; simp only [PWM_FLT, SYS_MODE]; omega)) 4).trans h⟩
  have htaken : Latching (· = TRU_STAT) d (modeTaken m d) :=
    ((hput SYS_MODE_PREV _ d rfl).trans (hput SYS_MODE_MODE _ _ rfl)).trans (hput SYS_MODE_PEND _ _ rfl)
  obtain ⟨hmode, -, -⟩ := modeTaken_fields d hm
  unfold modeForced
  split
  · exact ⟨(mode_put_modeRefuse _ 4).trans hmode, htaken.trans (hput SYS_MODE_REFUSE 4 _ rfl)⟩
  · exact ⟨hmode, htaken⟩

/-- Behind the mode itself, an automatic change only latches. -/
theorem latching_enterMode (m : Mode) (cause : Nat) : Latching Modal (modeForced m d) (enterMode m true cause d) := by
  unfold enterMode
  extract_lets old pended d1 d2 d3 d4 d5 d6 d7
  have h3 : Steady Fixed d2 d3 := fixed_onSys d2 _
  have h4 : Steady Fixed d3 d4 := .ite (fixed_pealEnd d3 _ _ _) (.refl _ d3)
  have h5 : Steady Fixed d4 d5 := (fixed_onSsq d4 _).trans (fixed_sessionsOnMode _ m)
  have hbound : ∀ a ∈ d5.outOfBounds m, a < 64 := fun a ha => allAxes_lt a (List.mem_filter.1 ha).1
  have h6 : Latching Modal d5 d6 := by
    simp only [d6]
    split
    · exact (latching_knell hbound d5).1
    · exact .refl _ d5
  have h7 : Steady Fixed d6 d7 :=
    (Steady.ite (fixed_joinSplit d6) (.refl _ d6)).trans (fixed_auxOnMode _ old)
  have h8 : Steady Fixed d7 (autoTimer m (journal 4 0 [old.code, m.code, cause] (raiseSys 0 d7))) :=
    ((fixed_raiseSys d7 (by decide)).trans (fixed_journal _ _ _ _)).trans (fixed_autoTimer _ m)
  exact ((Latching.of_fixed ((h3.trans h4).trans h5)).trans h6).trans (.of_fixed (h7.trans h8))

/-- From every mode but DORMANT, SELFTEST and LOCKOUT the device is in SAFE afterwards. -/
theorem autoSafe_spec (cause : Nat) (h0 : d.mode ≠ .dormant) (h1 : d.mode ≠ .selftest) (h2 : d.mode ≠ .lockout) :
    (autoSafe cause d).mode = .safe ∧ Latching (· = TRU_STAT) d (autoSafe cause d) := by
  by_cases h3 : d.mode = .safe
  · have hsame : autoSafe cause d = d := if_pos (by simp [h3])
    rw [hsame]
    exact ⟨h3, .refl _ d⟩
  · have henter : autoSafe cause d = enterMode .safe true cause d := if_neg (by simp [h0, h1, h2, h3])
    obtain ⟨hmode, hforced⟩ := modeForced_spec d (m := .safe) rfl
    have hlatch := latching_enterMode d .safe cause
    rw [henter]
    exact ⟨(hlatch.mode (.inl rfl)).trans hmode, hforced.trans (hlatch.mono fun _ => .inr)⟩

end

end Sys2Proof.Proofs
end

section
namespace Sys2Proof.Proofs
open Sys2Proof Sys2Proof.Machine Sys2Proof.Laws Reg

/-! SUPPORT. The clocks, device time and its reads, the references as their events come, and their statement (O7). -/

/-! ### The loss of a PLL (R83) -/

/-- TRU_STAT after the loss of PLL A, and of PLL B where `b` holds. -/
def unlocked (b : Bool) (d : Dev) : Dev :=
  if b then (d.put TRU_STAT_PLLALK 0).put TRU_STAT_PLLBLK 0 else d.put TRU_STAT_PLLALK 0

theorem unlocked_spec (b : Bool) (d : Dev) :
    (unlocked b d).get TRU_STAT_PLLALK = 0 ∧ (unlocked b d).mode = d.mode ∧ (unlocked b d).now = d.now := by
  have hlock : (d.put TRU_STAT_PLLALK 0).get TRU_STAT_PLLALK = 0 := get_put_const d TRU_STAT_PLLALK 0 rfl
  have hmode : ∀ (f : Fld) (t : Dev), f.addr = TRU_STAT → (t.put f 0).mode = t.mode := fun f t hf => by
    rw [Dev.mode, get_put_ne t f SYS_MODE_MODE 0 (by rw [hf]; decide), Dev.mode]
  cases b
  · exact ⟨hlock, hmode TRU_STAT_PLLALK d rfl, rfl⟩
  · exact ⟨(get_put_apart _ TRU_STAT_PLLBLK TRU_STAT_PLLALK 0 rfl rfl).trans hlock,
      (hmode TRU_STAT_PLLBLK _ rfl).trans (hmode TRU_STAT_PLLALK d rfl), rfl⟩

/-- The block without its device time (R83): TIME_FAULT, a knell to every axis, SAFE. -/
def timeLost (d : Dev) : Dev := autoSafe 1 (knell allAxes (raiseTru 3 d))

theorem timeLost_spec (d : Dev) (h0 : d.mode ≠ .dormant) (h1 : d.mode ≠ .selftest) (h2 : d.mode ≠ .lockout) :
    (timeLost d).get TRU_STAT_PLLALK = d.get TRU_STAT_PLLALK ∧ (timeLost d).now = d.now ∧
      (timeLost d).pend 1007 = true ∧ (∀ a < 64, (timeLost d).bit (PWM_FLT a) 4 = true) ∧ (timeLost d).mode = .safe := by
  have hraise : Latching Modal d (raiseTru 3 d) :=
    .of_fixed (fixed_raiseIn d (by decide) (by decide) (.inr (by decide)))
  obtain ⟨hknell, hbits⟩ := latching_knell allAxes_lt (raiseTru 3 d)
  have hmode := (hraise.trans hknell).mode (.inl rfl)
  obtain ⟨hsafe, hlatch⟩ := autoSafe_spec (knell allAxes (raiseTru 3 d)) 1 (hmode ▸ h0) (hmode ▸ h1) (hmode ▸ h2)
  refine ⟨?_, ?_, ?_, fun a ha => ?_, hsafe⟩
  · exact (hlatch.get (f := TRU_STAT_PLLALK) rfl).trans ((hraise.trans hknell).get (f := TRU_STAT_PLLALK) (.inr rfl))
  · exact hlatch.now.trans (hraise.trans hknell).now
  · exact hlatch.pend 1007 (by decide) (hknell.pend 1007 (by decide) (pend_raiseTru (n := 3) (by decide) d))
  · exact hlatch.latch a ha (hbits a (List.mem_range.2 ha))

/-! ### A change of the settings (R86) -/

/-- A field of a word under a mask of ones. -/
theorem wordGet_and_ones (w m : Word) {lo width : Nat} (h : wordGet m lo width = 2 ^ width - 1) :
    wordGet (w &&& m) lo width = wordGet w lo width := by
  unfold wordGet at *
  rw [BitVec.toNat_and, Nat.and_div_two_pow, Nat.and_mod_two_pow, h, Nat.and_two_pow_sub_one_eq_mod, Nat.mod_mod]

/-- SYNC IN after its mode has changed: without its qualification, its counts and its last edge. -/
def siDropped (d : Dev) : Dev :=
  (qualify 2 false d).onTru fun t => { t with siGood := 0, siBad := 0, siEdge := none }

/-- The link of modules, and after a change of its role without its qualification and its counts. -/
def plFollowed (changed : Bool) (d : Dev) : Dev :=
  if changed then (qualify 1 false d).onTru fun t => { t with plGood := 0, plAt := none } else d

/-- The registers that a change of the settings writes. -/
def cfgRegs : List Nat := TRU_CFG :: TRU_STAT :: TRU_FREF :: TRU_PHERR :: TRU_EVT :: (evRegs 1004 ++ evRegs 1005)

section
variable {d e : Dev}

theorem truChange_qualify (r : Nat) (h : TruChange cfgRegs d e) : TruChange cfgRegs d (qualify r false e) :=
  h.qualify (by decide) fun _ => by decide

theorem siDropped_spec (h : d.get TRU_STAT_SIQ = 1) : (siDropped d).get TRU_STAT_SIQ = 0 ∧
    (siDropped d).pend 1004 = true ∧ siMarks (siDropped d) = (0, 0, none) ∧
    (∀ f, f.addr = TRU_CFG → (siDropped d).get f = d.get f) ∧ TruChange cfgRegs d (siDropped d) := by
  obtain ⟨hpend, -⟩ := qualify_selects (d := d) (r := 2) (on := false) (by
    rw [show qualFlag 2 = TRU_STAT_SIQ from rfl, Dev.on, h]
    decide)
  exact ⟨get_qualify_flag 2 false d, hpend, rfl, fun f hf => get_qualify_other (by simp [unselected, hf])
    (fun hs => absurd (hf.symm.trans hs) (by decide)) false d, (truChange_qualify 2 (.refl _ d)).onTru _⟩

theorem plFollowed_spec (c : Bool) (d : Dev) : (plFollowed c d).get TRU_STAT_SIQ = d.get TRU_STAT_SIQ ∧
    siMarks (plFollowed c d) = siMarks d ∧ (∀ f, f.addr = TRU_CFG → (plFollowed c d).get f = d.get f) ∧
    TruChange cfgRegs d (plFollowed c d) := by
  unfold plFollowed
  split
  · exact ⟨get_qualify_other (r := 1) (f := TRU_STAT_SIQ) rfl (fun _ => rfl) false d, siMarks_qualify_link false d,
      fun f hf => get_qualify_other (by simp [unselected, hf]) (fun hs => absurd (hf.symm.trans hs) (by decide)) false d,
      (truChange_qualify 1 (.refl _ d)).onTru _⟩
  · exact ⟨rfl, rfl, fun _ _ => rfl, .refl _ d⟩

theorem writeTruCfg_eq {w : Word} (hm : (d.setReg TRU_CFG (w &&& 0xB3)).siMode ≠ d.siMode) : ∃ c,
    writeTruCfg w d = reselect (plFollowed c (siDropped (d.setReg TRU_CFG (w &&& 0xB3)))) := by
  unfold writeTruCfg
  dsimp only
  rw [if_pos hm]
  exact ⟨decide ((siDropped (d.setReg TRU_CFG (w &&& 0xB3))).plRole ≠ d.plRole),
    congrArg reselect (by unfold plFollowed; simp only [decide_eq_true_eq]; rfl)⟩

/-- The settings written: the fields of the word. -/
theorem get_cfgWritten (w : Word) (d : Dev) : (d.setReg TRU_CFG (w &&& 0xB3)).get TRU_CFG_SIMODE = wordGet w 0 2 ∧
    (d.setReg TRU_CFG (w &&& 0xB3)).get TRU_CFG_PLROLE = wordGet w 4 2 := by
  have hcfg : ∀ f, f.addr = TRU_CFG → (d.setReg TRU_CFG (w &&& 0xB3)).get f = wordGet (w &&& 0xB3) f.lo f.width :=
    fun f hf => by rw [Dev.get, hf, reg_setReg_same]
  exact ⟨(hcfg TRU_CFG_SIMODE rfl).trans (wordGet_and_ones w 0xB3 (by decide)),
    (hcfg TRU_CFG_PLROLE rfl).trans (wordGet_and_ones w 0xB3 (by decide))⟩

/-- A write that changes SIMODE, while SYNC IN is qualified. -/
theorem writeTruCfg_spec (w : Word) (hq : d.get TRU_STAT_SIQ = 1) (hm : d.siMode ≠ wordGet w 0 2 % 3) :
    (writeTruCfg w d).get TRU_CFG_SIMODE = wordGet w 0 2 ∧ (writeTruCfg w d).get TRU_CFG_PLROLE = wordGet w 4 2 ∧
    (writeTruCfg w d).get TRU_STAT_SIQ = 0 ∧ siMarks (writeTruCfg w d) = (0, 0, none) ∧
    (writeTruCfg w d).pend 1004 = true ∧ (writeTruCfg w d).get TRU_STAT_SEL ≠ 2 ∧
    TruChange cfgRegs d (writeTruCfg w d) := by
  obtain ⟨hsimode, hplrole⟩ := get_cfgWritten w d
  have hset : TruChange cfgRegs d (d.setReg TRU_CFG (w &&& 0xB3)) := (TruChange.refl _ d).setReg _ (by decide)
  have hsiq : (d.setReg TRU_CFG (w &&& 0xB3)).get TRU_STAT_SIQ = 1 := by
    rw [Dev.get, reg_setReg_ne d _ (by decide), ← Dev.get, hq]
  obtain ⟨c, heq⟩ := writeTruCfg_eq (d := d) (w := w) (by rw [Dev.siMode, hsimode]; exact hm.symm)
  rw [heq]
  generalize d.setReg TRU_CFG (w &&& 0xB3) = t at hsimode hplrole hset hsiq
  obtain ⟨hsiq0, hpend, hmarks, hkeep, hdrop⟩ := siDropped_spec hsiq
  obtain ⟨hsiq1, hmarks1, hkeep1, hfollow⟩ := plFollowed_spec c (siDropped t)
  have hsel := hfollow.reselect (by decide) fun _ => by decide
  refine ⟨?_, ?_, ?_, ?_, ?_, ?_, (hset.trans hdrop).trans hsel⟩
  · rw [get_reselect rfl, hkeep1 _ rfl, hkeep _ rfl, hsimode]
  · rw [get_reselect rfl, hkeep1 _ rfl, hkeep _ rfl, hplrole]
  · rw [get_reselect rfl, hsiq1, hsiq0]
  · rw [siMarks_reselect, hmarks1, hmarks]
  · exact hsel.pend _ (by decide) hpend
  · rw [sel_reselect]
    exact bestRef_unqualified (hsiq1.trans hsiq0)

end

/-! ### The events of the clocks and references -/

/-- Device time as it starts or resumes (R80, R81). -/
def timeStarted (n : Nat) (d : Dev) : Dev :=
  { d with timeOn := true, now := if d.sys.aon then d.now + n else 0 }.onSys fun h => { h with aon := true }

/-- The failure of the crystal noted (R83). -/
def crystalFailed (d : Dev) : Dev := raiseTru 3 (d.put TRU_STAT_XTALFAIL 1)

theorem crystalFailed_spec (d : Dev) : (crystalFailed d).get TRU_STAT_XTALFAIL = 1 ∧
    (∀ f, f.addr = TRU_STAT → apart TRU_STAT_XTALFAIL f = true → (crystalFailed d).get f = d.get f) ∧
    (crystalFailed d).pend 1007 = true ∧ TruChange (TRU_STAT :: TRU_EVT :: evRegs 1007) d (crystalFailed d) := by
  have hget : ∀ f, f.addr = TRU_STAT → (crystalFailed d).get f = (d.put TRU_STAT_XTALFAIL 1).get f := fun f hf =>
    get_raiseTru (by decide) (by rw [hf]; decide) (by rw [hf]; decide) _
  refine ⟨?_, fun f ha hf => ?_, pend_raiseTru (n := 3) (by decide) _, ?_⟩
  · exact (hget TRU_STAT_XTALFAIL rfl).trans (get_put_const d TRU_STAT_XTALFAIL 1 rfl)
  · rw [hget f ha, get_put_apart d TRU_STAT_XTALFAIL f 1 ha hf]
  · exact ((TruChange.refl _ d).put TRU_STAT_XTALFAIL 1 (by decide)).raiseTru (by decide) (by decide)

/-- SYNC IN's edge as it is timestamped (R44). -/
def stamped (d : Dev) : Dev := (d.onTru fun t => { t with sits := d.now }).setReg TRU_SITS_LO (w32 d.now)

theorem get_stamped {f : Fld} (hf : f.addr ≠ TRU_SITS_LO) (d : Dev) : (stamped d).get f = d.get f :=
  congrArg (fun w => wordGet w f.lo f.width) (reg_setReg_ne (d.onTru fun t => { t with sits := d.now }) _ hf)

theorem siMode_stamped (d : Dev) : (stamped d).siMode = d.siMode := by
  rw [Dev.siMode, get_stamped (f := TRU_CFG_SIMODE) (by decide), Dev.siMode]

/-- The phase error of an edge of SYNC IN that comes now (R88). -/
def siError (d : Dev) : Int := fold ((d.now : Int) - (stamped d).get TRU_SIOFS_OFS) (stamped d).siPeriod

theorem siError_eq (d : Dev) : siError d = fold ((d.now : Int) - d.get TRU_SIOFS_OFS) d.siPeriod := by
  rw [siError, get_stamped (by decide), Dev.siPeriod, siMode_stamped, Dev.siPeriod]

/-- An edge of SYNC IN as a mark, `n` ns after the one before: its phase error, and the intervals counted (R85). -/
def siMarked (n : Nat) (d : Dev) : Dev :=
  (stamped d).onTru fun t => { t with
    siEdge := some d.now, siE9 := siError d * 1000000000, siEAt := d.now
    siGood := if d.tru.siEdge.isNone then 0 else if d.siInside n then t.siGood + 1 else 0
    siBad := if d.tru.siEdge.isNone || d.siInside n then 0 else t.siBad + 1 }

section
variable (s : State) (hl : s.dev.sys.logicOn = true)
include hl

theorem pllLock_locks :
    Does (.pllLock) s fun t => t.get TRU_STAT_PLLALK = 1 ∧ t.get TRU_STAT_PLLBLK = 1 ∧ t =
          { s.dev with regs := t.regs } ∧ sameRegs s.dev t ([TRU_STAT]) := by
  refine does_onDev execPllLock rfl rfl hl ⟨?_, get_put_const _ TRU_STAT_PLLBLK 1 rfl, put_put_eq _ _ _ _ _, ?_⟩
  · rw [get_put_apart _ TRU_STAT_PLLBLK TRU_STAT_PLLALK 1 rfl rfl]
    exact get_put_const _ TRU_STAT_PLLALK 1 rfl
  · exact sameRegs_put (sameRegs_put (sameRegs_refl _ _) TRU_STAT_PLLALK 1 (by decide)) TRU_STAT_PLLBLK 1 (by decide)

theorem deviceTimeStart_starts (n : Nat) (ht : s.dev.timeOn = false) (ha : s.dev.get TRU_STAT_PLLALK = 1)
    (hb : s.dev.get TRU_STAT_PLLBLK = 1) :
    Does (.deviceTimeStart n) s fun t => t.timeOn = true ∧ (t.now = (if s.dev.sys.aon then s.dev.now + n else 0)) ∧
          t.sys.aon = true ∧ (s.dev.tru.outage = true → t.get TRU_STAT_TIMEJUMP = 1) ∧ t =
          { s.dev with regs := t.regs, now := t.now, timeOn := t.timeOn, sys := t.sys, tru := t.tru } ∧ sameRegs s.dev
          t ([TRU_STAT]) := by
  have hgo : ¬ (s.dev.timeOn || !s.dev.on TRU_STAT_PLLALK || !s.dev.on TRU_STAT_PLLBLK) = true := by
    simp [Dev.on, ht, ha, hb]
  refine does_onDev_of_eq (execDeviceTimeStart n) rfl rfl hl (if_neg hgo : _ = if s.dev.tru.outage then
    ((timeStarted n s.dev).put TRU_STAT_TIMEJUMP 1).onTru fun t => { t with outage := false } else timeStarted n s.dev) ?_
  split
  · refine ⟨rfl, rfl, rfl, fun _ => ?_, rfl, fun r hr => ?_⟩
    · rw [onTru_get]
      exact get_put_const _ TRU_STAT_TIMEJUMP 1 rfl
    · exact reg_put_ne (timeStarted n s.dev) TRU_STAT_TIMEJUMP 1 fun h => hr (h ▸ List.mem_cons_self)
  · rename_i ho
    exact ⟨rfl, rfl, rfl, fun h => absurd h ho, rfl, fun _ _ => rfl⟩

theorem deviceTimeStart_running (n : Nat) (ht : s.dev.timeOn = true) :
    Does (.deviceTimeStart n) s fun t => t = s.dev :=
  does_onDev_of_eq (execDeviceTimeStart n) rfl rfl hl (if_pos (by simp [ht]) : _ = s.dev) rfl

theorem pllLoss_stops (b : Bool) (h0 : s.dev.mode ≠ .dormant) (h1 : s.dev.mode ≠ .selftest)
    (h2 : s.dev.mode ≠ .lockout) :
    Does (.pllLoss true b) s fun t => t.get TRU_STAT_PLLALK = 0 ∧ t.timeOn = false ∧ t.now = s.dev.now ∧
          t.tru.outage = true ∧ t.pend 1007 = true ∧ (∀ a : Fin 64, t.bit (PWM_FLT a) 4 = true) ∧ t.mode = .safe := by
  refine does_onDev_of_eq (execPllLoss true b) rfl rfl hl
    (t := { (timeLost (unlocked b s.dev)).onTru fun t => { t with outage := true } with timeOn := false })
    (by cases b <;> rfl) ?_
  obtain ⟨hlock, hmode, hnow⟩ := unlocked_spec b s.dev
  obtain ⟨hlock', hnow', hpend, hbits, hsafe⟩ :=
    timeLost_spec (unlocked b s.dev) (hmode ▸ h0) (hmode ▸ h1) (hmode ▸ h2)
  generalize timeLost (unlocked b s.dev) = t at *
  exact ⟨hlock'.trans hlock, rfl, hnow'.trans hnow, rfl, hpend, fun a => hbits a a.isLt, hsafe⟩

/-! The reads of device time (R82). -/

theorem truNowLoRead_now (m : Master) :
    Does (.truNowLoRead m false) s fun t => t.rdata = w32 s.dev.now ∧ tget 0 t.tru.nowHi (readerOf m) = w32
          (s.dev.now / 2 ^ 32) ∧ (∀ k : Fin 15, k.val ≠ readerOf m → tget 0 t.tru.nowHi k = tget 0 s.dev.tru.nowHi k)
          ∧ t = { s.dev with tru := t.tru, rdata := t.rdata } :=
  does_onDev (execTruNowLoRead m false) rfl rfl hl
    ⟨rfl, tget_tset_same 0 s.dev.tru.nowHi _ _, fun _ hk => tget_tset_ne 0 0 s.dev.tru.nowHi _ hk, rfl⟩

theorem truNowLoRead_sits (m : Master) :
    Does (.truNowLoRead m true) s fun t => t.rdata = w32 s.dev.tru.sits ∧ tget 0 t.tru.sitsHi (readerOf m) = w32
          (s.dev.tru.sits / 2 ^ 32) ∧ t.tru.nowHi = s.dev.tru.nowHi ∧ t =
          { s.dev with tru := t.tru, rdata := t.rdata } :=
  does_onDev (execTruNowLoRead m true) rfl rfl hl ⟨rfl, tget_tset_same 0 s.dev.tru.sitsHi _ _, rfl, rfl⟩

/-! The references (R83, R85, R86). -/

/-- The crystal was the reference and no other is a candidate: none is left. -/
theorem crystalFail_drops (hf : s.dev.get TRU_STAT_XTALFAIL = 0) (hx : s.dev.get TRU_STAT_XQ = 1)
    (hsel : s.dev.get TRU_STAT_SEL = 0) (hsi : s.dev.get TRU_STAT_SIQ = 0) (hpl : s.dev.get TRU_STAT_PLQ = 0) :
    Does (.crystalFail) s fun t => t.get TRU_STAT_XTALFAIL = 1 ∧ t.get TRU_STAT_XQ = 0 ∧ t.get TRU_STAT_SEL = 3 ∧
          t.pend 1007 = true ∧ t.pend 1004 = true ∧ t.pend 1005 = true ∧ t.reg TRU_FCORR = s.dev.reg TRU_FCORR := by
  have hgo : ¬ s.dev.on TRU_STAT_XTALFAIL = true := by simp [Dev.on, hf]
  refine does_onDev_of_eq execCrystalFail rfl rfl hl
    (if_neg hgo : _ = qualify 0 false (crystalFailed s.dev)) ?_
  obtain ⟨hfail, hkeep, hpend, hraised⟩ := crystalFailed_spec s.dev
  generalize crystalFailed s.dev = e at *
  have hon : e.on (qualFlag 0) ≠ false := by
    rw [show qualFlag 0 = TRU_STAT_XQ from rfl, Dev.on, hkeep TRU_STAT_XQ rfl rfl, hx]
    decide
  have hx0 : (qualify 0 false e).get TRU_STAT_XQ = 0 := get_qualify_flag 0 false e
  have hother : ∀ f, unselected f = true → (f.addr = TRU_STAT → apart TRU_STAT_XQ f = true) →
      (qualify 0 false e).get f = e.get f := fun f hu ha => get_qualify_other (r := 0) hu ha false e
  have hbest : (qualify 0 false e).bestRef = 3 := bestRef_none
    ((hother TRU_STAT_SIQ rfl fun _ => rfl).trans ((hkeep TRU_STAT_SIQ rfl rfl).trans hsi))
    ((hother TRU_STAT_PLQ rfl fun _ => rfl).trans ((hkeep TRU_STAT_PLQ rfl rfl).trans hpl)) hx0
  obtain ⟨hqual, hsel3⟩ := qualify_selects hon
  obtain ⟨-, hswitch⟩ := qualify_switched hon (by rw [hbest, hkeep TRU_STAT_SEL rfl rfl, hsel]; decide)
  have hdropped := truChange_qualify 0 (.refl _ e)
  exact ⟨(hother TRU_STAT_XTALFAIL rfl fun _ => rfl).trans hfail, hx0, hsel3.trans hbest, hdropped.pend _ (by decide) hpend,
    hqual, hswitch, (hdropped.regs TRU_FCORR (by decide)).trans (hraised.regs TRU_FCORR (by decide))⟩

theorem truCfgWrite_changes (p : Fin 5) (w : Word) (hq : s.dev.get TRU_STAT_SIQ = 1)
    (hm : s.dev.siMode ≠ wordGet w 0 2 % 3) :
    Does (.truCfgWrite (.pair p) w) s fun t => t.get TRU_CFG_SIMODE = wordGet w 0 2 ∧ t.get TRU_CFG_PLROLE = wordGet
          w 4 2 ∧ t.get TRU_STAT_SIQ = 0 ∧ t.tru.siGood = 0 ∧ t.tru.siEdge = none ∧ t.pend 1004 = true ∧ t.get
          TRU_STAT_SEL ≠ 2 ∧ t = { s.dev with regs := t.regs, tru := t.tru, evs := t.evs } ∧ sameRegs s.dev t
          ((TRU_CFG :: TRU_STAT :: TRU_FREF :: TRU_PHERR :: TRU_EVT :: (evRegs 1004 ++ evRegs 1005))) := by
  obtain ⟨hsimode, hplrole, hsiq, hmarks, hpend, hsel, hchange⟩ := writeTruCfg_spec w hq hm
  obtain ⟨hgood, hmarks⟩ := Prod.mk.inj hmarks
  exact does_onDev_of_eq (execTruCfgWrite (.pair p) w) rfl rfl hl (rfl : _ = writeTruCfg w s.dev)
    ⟨hsimode, hplrole, hsiq, hgood, (Prod.mk.inj hmarks).2, hpend, hsel, hchange.shape, hchange.regs⟩

theorem syncInEdge_disabled (n : Nat) (hm : s.dev.siMode = 0) :
    Does (.syncInEdge n) s fun t => t.tru.sits = s.dev.now ∧ t.reg TRU_SITS_LO = w32 s.dev.now ∧ t =
          { s.dev with regs := t.regs, tru := t.tru } ∧ sameRegs s.dev t ([TRU_SITS_LO]) :=
  does_onDev_of_eq (execSyncInEdge n) rfl rfl hl (if_pos ((siMode_stamped s.dev).trans hm) : _ = stamped s.dev)
    ⟨rfl, reg_setReg_same _ _ _, rfl, fun _ hr => reg_setReg_ne _ _ fun h => hr (h ▸ List.mem_cons_self)⟩

theorem syncInEdge_counts (n : Nat) (hm : s.dev.siMode = 2) (he : s.dev.tru.siEdge ≠ none) :
    Does (.syncInEdge n) s fun t => t.tru.sits = s.dev.now ∧ t.tru.siEdge = some s.dev.now ∧ (t.tru.siGood = (if
          99970 ≤ n ∧ n ≤ 100030 then s.dev.tru.siGood + 1 else 0)) ∧ (t.tru.siBad = (if 99970 ≤ n ∧ n ≤ 100030 then 0
          else s.dev.tru.siBad + 1)) ∧ t.tru.siE9 = fold ((s.dev.now : Int) - s.dev.get TRU_SIOFS_OFS) 20000 *
          1000000000 ∧ t = { s.dev with regs := t.regs, tru := t.tru } ∧ sameRegs s.dev t ([TRU_SITS_LO, TRU_PHERR]) := by
  have hgo : ¬ (stamped s.dev).siMode = 0 := by
    rw [siMode_stamped, hm]
    decide
  refine does_onDev_of_eq (execSyncInEdge n) rfl rfl hl (if_neg hgo :
    _ = if (siMarked n s.dev).get TRU_STAT_SEL = 2 then (siMarked n s.dev).setReg TRU_PHERR (w32i (siError s.dev))
      else siMarked n s.dev) ?_
  have hin : s.dev.siInside n = decide (99970 ≤ n ∧ n ≤ 100030) := by simp [Dev.siInside, hm]
  have hfirst : s.dev.tru.siEdge.isNone = false := by
    rwa [Option.isNone_eq_false_iff, Option.isSome_iff_ne_none]
  have herr : siError s.dev = fold ((s.dev.now : Int) - s.dev.get TRU_SIOFS_OFS) 20000 := by
    rw [siError_eq, Dev.siPeriod, if_pos hm]
  have hregs : sameRegs s.dev (siMarked n s.dev) [TRU_SITS_LO, TRU_PHERR] := fun r hr =>
    reg_setReg_ne (s.dev.onTru fun t => { t with sits := s.dev.now }) _ fun h => hr (h ▸ List.mem_cons_self)
  have hgood : (siMarked n s.dev).tru.siGood = if 99970 ≤ n ∧ n ≤ 100030 then s.dev.tru.siGood + 1 else 0 := by
    simp only [siMarked, Dev.onTru, hfirst, hin, Bool.false_eq_true, if_false, decide_eq_true_eq]
    rfl
  have hbad : (siMarked n s.dev).tru.siBad = if 99970 ≤ n ∧ n ≤ 100030 then 0 else s.dev.tru.siBad + 1 := by
    simp only [siMarked, Dev.onTru, hfirst, hin, Bool.false_or, decide_eq_true_eq]
    rfl
  have hsix : (siMarked n s.dev).tru.siE9 = siError s.dev * 1000000000 := rfl
  split
  · exact ⟨rfl, rfl, hgood, hbad, hsix.trans (by rw [herr]), rfl, fun r hr =>
      (reg_setReg_ne (siMarked n s.dev) (a := TRU_PHERR) _ fun h => hr (by rw [h]; decide)).trans (hregs r hr)⟩
  · exact ⟨rfl, rfl, hgood, hbad, hsix.trans (by rw [herr]), rfl, hregs⟩

theorem refQual_selects (hq : s.dev.get TRU_STAT_SIQ = 0) (hm : s.dev.siMode ≠ 0)
    (hn : s.dev.siNeed ≤ s.dev.tru.siGood) (hsel : s.dev.get TRU_STAT_SEL ≠ 2) :
    Does (.refQual 2) s fun t => t.get TRU_STAT_SIQ = 1 ∧ t.get TRU_STAT_SEL = 2 ∧ t.get TRU_STAT_STATE = 1 ∧ t.pend
          1004 = true ∧ t.pend 1005 = true ∧ t = { s.dev with regs := t.regs, tru := t.tru, evs := t.evs } ∧ sameRegs
          s.dev t ((TRU_STAT :: TRU_EVT :: (evRegs 1004 ++ evRegs 1005))) := by
  have hoff : s.dev.on TRU_STAT_SIQ = false := by simp [Dev.on, hq]
  refine does_onDev_of_eq (execRefQual 2) rfl rfl hl (t := qualify 2 true s.dev) ?_ ?_
  · simp [hoff, hm, hn]
  have hchange : s.dev.on (qualFlag 2) ≠ true := by
    rw [show qualFlag 2 = TRU_STAT_SIQ from rfl, hoff]
    decide
  have hsiq : (qualify 2 true s.dev).get TRU_STAT_SIQ = 1 := get_qualify_flag 2 true s.dev
  have hmode : (qualify 2 true s.dev).siMode = s.dev.siMode := by
    rw [Dev.siMode, get_qualify_other (f := TRU_CFG_SIMODE) rfl (fun h => absurd h (by decide)), Dev.siMode]
  have hbest := bestRef_qualified hsiq (hmode ▸ hm)
  obtain ⟨hqual, hsel2⟩ := qualify_selects hchange
  obtain ⟨hstate, hswitch⟩ := qualify_switched hchange (by rw [hbest]; exact hsel.symm)
  have hgained := (TruChange.refl (TRU_STAT :: TRU_EVT :: (evRegs 1004 ++ evRegs 1005)) s.dev).qualify (r := 2)
    (on := true) (by decide) fun h => by omega
  exact ⟨hsiq, hsel2.trans hbest, hstate, hqual, hswitch, hgained.shape, hgained.regs⟩

theorem refQual_qualified (hq : s.dev.get TRU_STAT_SIQ = 1) (hb : s.dev.tru.siBad < 2) :
    Does (.refQual 2) s fun t => t = s.dev := by
  have hon : s.dev.on TRU_STAT_SIQ = true := by simp [Dev.on, hq]
  refine does_onDev_of_eq (execRefQual 2) rfl rfl hl (t := s.dev) ?_ rfl
  simp [hon, hb]

theorem refLossTimeout_syncIn {k : Nat} (he : s.dev.tru.siEdge = some k) (hm : s.dev.siMode = 2)
    (hk : k + 30000 ≤ s.dev.now) (hq : s.dev.get TRU_STAT_SIQ = 1) (hsel : s.dev.get TRU_STAT_SEL = 2) :
    Does (.refLossTimeout true) s fun t => t.get TRU_STAT_SIQ = 0 ∧ t.get TRU_STAT_SEL ≠ 2 ∧ t.get TRU_STAT_STATE =
          1 ∧ t.tru.siEdge = none ∧ t.pend 1004 = true ∧ t.pend 1005 = true := by
  refine does_onDev_of_eq (execRefLossTimeout true) rfl rfl hl (t := siDropped s.dev) ?_ ?_
  · simp only [if_true, he, hm, hk]
    rfl
  have hchange : s.dev.on (qualFlag 2) ≠ false := by
    rw [show qualFlag 2 = TRU_STAT_SIQ from rfl, Dev.on, hq]
    decide
  have hsiq : (qualify 2 false s.dev).get TRU_STAT_SIQ = 0 := get_qualify_flag 2 false s.dev
  have hbest := bestRef_unqualified hsiq
  obtain ⟨hqual, hsel'⟩ := qualify_selects hchange
  obtain ⟨hstate, hswitch⟩ := qualify_switched hchange (by rwa [hsel])
  exact ⟨hsiq, hsel'.trans_ne hbest, hstate, rfl, hqual, hswitch⟩

theorem refLossTimeout_link {k : Nat} (ha : s.dev.tru.plAt = some k) (hk : k + 10000000 ≤ s.dev.now) :
    Does (.refLossTimeout false) s fun t => t.get TRU_STAT_PLQ = 0 ∧ t.tru.plGood = 0 ∧ t.tru.plAt = none := by
  refine does_onDev_of_eq (execRefLossTimeout false) rfl rfl hl (t := plFollowed true s.dev) ?_ ?_
  · simp only [Bool.false_eq_true, if_false, ha, hk, if_true]
    rfl
  · exact ⟨get_qualify_flag 1 false s.dev, rfl, rfl⟩

end

/-- Settles O7, event by event. -/
theorem clocksAndReferences : Obligations.ClocksAndReferences :=
  ⟨pllLock_locks, fun s n hl => deviceTimeStart_starts s hl n, fun s n hl => deviceTimeStart_running s hl n,
    fun s b hl => pllLoss_stops s hl b, fun s m hl => truNowLoRead_now s hl m, fun s m hl => truNowLoRead_sits s hl m,
    fun s hl hf hx hsel hsi hpl => crystalFail_drops s hl hf hx hsel hsi hpl,
    fun s p w hl => truCfgWrite_changes s hl p w, fun s n hl => syncInEdge_disabled s hl n,
    fun s n hl => syncInEdge_counts s hl n, refQual_selects, refQual_qualified,
    fun s _ hl => refLossTimeout_syncIn s hl, fun s _ hl => refLossTimeout_link s hl⟩

end Sys2Proof.Proofs
end
